-- ==== Sys2Proof/Syntax.lean ====
section
/-!
DEFINITION. The syntax of the GS940: the common header of a syllable (R43), one structure per operand
family of R64, and ONE inductive with a constructor for every row of the opcode table.  The first 240
rows are syllables (header and operand family); the other rows are the events of
95_what_each_step_holds.md, whose arguments say which unit acts and what the environment chose.
-/

namespace Sys2Proof

/-- The common header of a syllable (R43), less CLASS and OPC, which the constructor gives. -/
structure Hdr where
  /-- E: last syllable of its bundle. -/
  e : Bool
  /-- WAIT, 0 to 15 cycles (R48). -/
  wait : BitVec 4
  /-- GN: the guard is negated (R54). -/
  gn : Bool
  /-- GP: guard predicate (R54). -/
  gp : BitVec 4
  /-- EDGE (R55); 3 is reserved. -/
  edge : BitVec 2
  /-- ELVL, 0 to 5 (R55); 6 and 7 are reserved. -/
  elvl : BitVec 3
  deriving DecidableEq, Repr

/-- The four access forms of a control register (R175). -/
inductive CsrOp where
  | read | write | set | clear
  deriving DecidableEq, Repr

/-- What a memory unit's check bits report when it is read (R388, R390). -/
inductive EccOutcome where
  | clean | corrected | uncorrectable
  deriving DecidableEq, Repr

/-- The conditions of R512 that gate issue. -/
inductive GateCause where
  | temperature | power | railLow | railCurrent
  deriving DecidableEq, Repr

/-- What another package asks of this one (R466). -/
inductive RemoteKind where
  | load | store | counterAdd | counterMax | counterRead | notice
  deriving DecidableEq, Repr

/-- A request of another package (R466): who asks, for what, with which data. -/
structure RemoteReq where
  spkg : Nat
  sctx : Nat
  kind : RemoteKind
  /-- physical address of a load or store -/
  pa : Nat
  /-- bytes of a load or store, at most eight (R467: a granule) -/
  len : Nat
  /-- counter identifier, or target identifier of a notice -/
  ident : BitVec 64
  /-- value stored, added or compared; for a notice the time -/
  val : BitVec 64
  /-- row word of a notice (R472) -/
  rowWord : BitVec 64
  deriving DecidableEq, Repr

/-- What a rank of another package brings to a collective (R475, R476): its descriptor's fields, and its
contribution: bytes at SRC, and for a reduction the elements there, each with its page's descriptor, its container and
its scale (R91, R92). -/
structure RankDesc where
  rank : Nat
  nrank : Nat
  nel : Nat
  word3 : BitVec 32
  group : List (BitVec 16)
  bytes : List (BitVec 8)
  elems : List (BitVec 64 × Nat × BitVec 8)
  deriving DecidableEq, Repr

/-- Operand family SRR of R64. -/
structure SRR where
  d : BitVec 6
  a : BitVec 6
  b : BitVec 6
  deriving DecidableEq, Repr

/-- Operand family SR1 of R64. -/
structure SR1 where
  d : BitVec 6
  a : BitVec 6
  deriving DecidableEq, Repr

/-- Operand family SRI of R64. -/
structure SRI where
  d : BitVec 6
  a : BitVec 6
  imm : BitVec 26
  deriving DecidableEq, Repr

/-- Operand family SBF of R64. -/
structure SBF where
  d : BitVec 6
  a : BitVec 6
  pos : BitVec 6
  len : BitVec 6
  deriving DecidableEq, Repr

/-- Operand family SPR of R64. -/
structure SPR where
  pd : BitVec 4
  a : BitVec 6
  b : BitVec 6
  deriving DecidableEq, Repr

/-- Operand family SPI of R64. -/
structure SPI where
  pd : BitVec 4
  a : BitVec 6
  imm : BitVec 26
  deriving DecidableEq, Repr

/-- Operand family SPP of R64. -/
structure SPP where
  pd : BitVec 4
  pa : BitVec 4
  pb : BitVec 4
  deriving DecidableEq, Repr

/-- Operand family SSL of R64. -/
structure SSL where
  d : BitVec 6
  a : BitVec 6
  b : BitVec 6
  ps : BitVec 4
  deriving DecidableEq, Repr

/-- Operand family SXR of R64. -/
structure SXR where
  d : BitVec 6
  sel : BitVec 8
  deriving DecidableEq, Repr

/-- Operand family SXB of R64. -/
structure SXB where
  d : BitVec 6
  bt : BitVec 3
  deriving DecidableEq, Repr

/-- Operand family SLI of R64. -/
structure SLI where
  d : BitVec 6
  imm : BitVec 32
  deriving DecidableEq, Repr

/-- Operand family CI of R64. -/
structure CI where
  imm : BitVec 16
  deriving DecidableEq, Repr

/-- Operand family CT of R64. -/
structure CT where
  bt : BitVec 3
  disp : BitVec 32
  deriving DecidableEq, Repr

/-- Operand family CB of R64. -/
structure CB where
  bt : BitVec 3
  deriving DecidableEq, Repr

/-- Operand family CC of R64. -/
structure CC where
  bt : BitVec 3
  bl : BitVec 3
  deriving DecidableEq, Repr

/-- Operand family CJ of R64. -/
structure CJ where
  a : BitVec 6
  imm : BitVec 16
  deriving DecidableEq, Repr

/-- Operand family CL of R64. -/
structure CL where
  lv : BitVec 3
  src : BitVec 2
  mq : BitVec 2
  len : BitVec 11
  cnt : BitVec 20
  deriving DecidableEq, Repr

/-- Operand family CM of R64. -/
structure CM where
  lv : BitVec 3
  src : BitVec 2
  mq : BitVec 2
  len : BitVec 11
  sc : BitVec 4
  ii : BitVec 6
  a : BitVec 6
  dp : BitVec 3
  deriving DecidableEq, Repr

/-- Operand family CS of R64. -/
structure CS where
  lv : BitVec 3
  w : BitVec 2
  stride : BitVec 32
  deriving DecidableEq, Repr

/-- Operand family CW of R64. -/
structure CW where
  lv : BitVec 3
  w : BitVec 2
  a : BitVec 6
  deriving DecidableEq, Repr

/-- Operand family CV of R64. -/
structure CV where
  lv : BitVec 3
  deriving DecidableEq, Repr

/-- Operand family VR of R64. -/
structure VR where
  d : BitVec 6
  a : BitVec 6
  b : BitVec 6
  nq : BitVec 6
  mdf : BitVec 12
  bs : BitVec 1
  deriving DecidableEq, Repr

/-- Operand family VF of R64. -/
structure VF where
  d : BitVec 6
  a : BitVec 6
  b : BitVec 6
  nq : BitVec 6
  rm : BitVec 2
  sat : BitVec 1
  bs : BitVec 1
  ty : BitVec 2
  deriving DecidableEq, Repr

/-- Operand family VI of R64. -/
structure VI where
  d : BitVec 6
  a : BitVec 6
  nq : BitVec 6
  imm : BitVec 20
  deriving DecidableEq, Repr

/-- Operand family VC of R64. -/
structure VC where
  d : BitVec 6
  a : BitVec 6
  fmt : BitVec 4
  nq : BitVec 6
  rm : BitVec 2
  sat : BitVec 1
  deriving DecidableEq, Repr

/-- Operand family VP of R64. -/
structure VP where
  md : BitVec 3
  a : BitVec 6
  b : BitVec 6
  nq : BitVec 6
  cnd : BitVec 4
  bs : BitVec 1
  ty : BitVec 3
  deriving DecidableEq, Repr

/-- Operand family VS of R64. -/
structure VS where
  d : BitVec 6
  a : BitVec 6
  b : BitVec 6
  nq : BitVec 6
  seg : BitVec 4
  rm : BitVec 2
  ty : BitVec 3
  deriving DecidableEq, Repr

/-- Operand family VM of R64. -/
structure VM where
  d : BitVec 6
  a : BitVec 6
  b : BitVec 6
  nq : BitVec 6
  ms : BitVec 3
  bs : BitVec 1
  deriving DecidableEq, Repr

/-- Operand family VMM of R64. -/
structure VMM where
  md : BitVec 3
  ma : BitVec 3
  mb : BitVec 3
  deriving DecidableEq, Repr

/-- Operand family VX of R64. -/
structure VX where
  a : BitVec 6
  deriving DecidableEq, Repr

/-- Operand family LM of R64. -/
structure LM where
  d : BitVec 6
  a : BitVec 6
  nq : BitVec 6
  disp : BitVec 20
  deriving DecidableEq, Repr

/-- Operand family LS of R64. -/
structure LS where
  d : BitVec 6
  a : BitVec 6
  b : BitVec 6
  nq : BitVec 6
  deriving DecidableEq, Repr

/-- Operand family LX of R64. -/
structure LX where
  d : BitVec 6
  a : BitVec 6
  b : BitVec 6
  nq : BitVec 6
  isz : BitVec 2
  deriving DecidableEq, Repr

/-- Operand family LP of R64. -/
structure LP where
  h : BitVec 6
  a : BitVec 6
  bt : BitVec 3
  deriving DecidableEq, Repr

/-- Operand family LH of R64. -/
structure LH where
  h : BitVec 6
  a : BitVec 6
  deriving DecidableEq, Repr

/-- Operand family LK of R64. -/
structure LK where
  d : BitVec 6
  off : BitVec 14
  deriving DecidableEq, Repr

/-- Operand family MB of R64. -/
structure MB where
  aop : BitVec 2
  aw : BitVec 1
  aslot : BitVec 5
  arb : BitVec 7
  wop : BitVec 2
  ww : BitVec 1
  dop : BitVec 2
  ds : BitVec 5
  drb : BitVec 7
  dv : BitVec 4
  m : BitVec 2
  deriving DecidableEq, Repr

/-- Operand family MA of R64. -/
structure MA where
  acc : BitVec 5
  deriving DecidableEq, Repr

/-- Operand family MG of R64. -/
structure MG where
  acc : BitVec 5
  grp : BitVec 2
  lo : BitVec 7
  hi : BitVec 7
  deriving DecidableEq, Repr

/-- Operand family MV of R64. -/
structure MV where
  acc : BitVec 5
  row : BitVec 7
  a : BitVec 6
  cnt : BitVec 7
  fmt : BitVec 4
  rm : BitVec 2
  sat : BitVec 1
  deriving DecidableEq, Repr

/-- Operand family MC of R64. -/
structure MC where
  nq : BitVec 6
  wf : BitVec 4
  af : BitVec 4
  ak : BitVec 2
  deriving DecidableEq, Repr

/-- Operand family WR of R64. -/
structure WR where
  d : BitVec 6
  a : BitVec 6
  b : BitVec 6
  mq : BitVec 2
  blk : BitVec 10
  deriving DecidableEq, Repr

/-- Operand family WI of R64. -/
structure WI where
  d : BitVec 6
  a : BitVec 6
  imm : BitVec 26
  deriving DecidableEq, Repr

/-- Operand family YK of R64. -/
structure YK where
  ord : BitVec 2
  scp : BitVec 3
  k : BitVec 4
  a : BitVec 6
  imm : BitVec 23
  deriving DecidableEq, Repr

/-- Operand family YW of R64. -/
structure YW where
  ord : BitVec 2
  scp : BitVec 3
  d : BitVec 6
  mask : BitVec 8
  a : BitVec 6
  g : BitVec 1
  deriving DecidableEq, Repr

/-- Operand family YP of R64. -/
structure YP where
  ord : BitVec 2
  scp : BitVec 3
  a : BitVec 6
  b : BitVec 6
  sgn : BitVec 1
  cnt : BitVec 16
  deriving DecidableEq, Repr

/-- Operand family YG of R64. -/
structure YG where
  ord : BitVec 2
  scp : BitVec 3
  x : BitVec 6
  y : BitVec 6
  z : BitVec 6
  imm : BitVec 15
  deriving DecidableEq, Repr

/-- Operand family YN of R64. -/
structure YN where
  ord : BitVec 2
  scp : BitVec 3
  deriving DecidableEq, Repr

/-- Operand family ZC of R64. -/
structure ZC where
  d : BitVec 6
  a : BitVec 6
  csr : BitVec 16
  deriving DecidableEq, Repr

/-- Operand family ZI of R64. -/
structure ZI where
  a : BitVec 6
  imm : BitVec 16
  deriving DecidableEq, Repr

/-- Operand family ZG of R64. -/
structure ZG where
  x : BitVec 6
  y : BitVec 6
  z : BitVec 6
  imm : BitVec 20
  deriving DecidableEq, Repr

/-- One constructor per row of the opcode table. -/
inductive Instr where
  /-- ADD (R140). -/
  | add (h : Hdr) (o : SRR)
  /-- SUB (R140). -/
  | sub (h : Hdr) (o : SRR)
  /-- AND (R140). -/
  | and (h : Hdr) (o : SRR)
  /-- OR (R140). -/
  | or (h : Hdr) (o : SRR)
  /-- XOR (R140). -/
  | xor (h : Hdr) (o : SRR)
  /-- ANDN (R140). -/
  | andn (h : Hdr) (o : SRR)
  /-- SHL (R140). -/
  | shl (h : Hdr) (o : SRR)
  /-- SHR (R140). -/
  | shr (h : Hdr) (o : SRR)
  /-- SRA (R140). -/
  | sra (h : Hdr) (o : SRR)
  /-- ROL (R140). -/
  | rol (h : Hdr) (o : SRR)
  /-- MUL (R140). -/
  | mul (h : Hdr) (o : SRR)
  /-- MULH (R140). -/
  | mulh (h : Hdr) (o : SRR)
  /-- MULHN (R140). -/
  | mulhn (h : Hdr) (o : SRR)
  /-- MIN (R140). -/
  | min (h : Hdr) (o : SRR)
  /-- MAX (R140). -/
  | max (h : Hdr) (o : SRR)
  /-- MINN (R140). -/
  | minn (h : Hdr) (o : SRR)
  /-- MAXN (R140). -/
  | maxn (h : Hdr) (o : SRR)
  /-- CLZ (R141). -/
  | clz (h : Hdr) (o : SR1)
  /-- CTZ (R141). -/
  | ctz (h : Hdr) (o : SR1)
  /-- POPC (R141). -/
  | popc (h : Hdr) (o : SR1)
  /-- BREV (R141). -/
  | brev (h : Hdr) (o : SR1)
  /-- BSWAP (R141). -/
  | bswap (h : Hdr) (o : SR1)
  /-- BEXT (R142). -/
  | bext (h : Hdr) (o : SBF)
  /-- BINS (R142). -/
  | bins (h : Hdr) (o : SBF)
  /-- ADDI (R143). -/
  | addi (h : Hdr) (o : SRI)
  /-- ANDI (R143). -/
  | andi (h : Hdr) (o : SRI)
  /-- ORI (R143). -/
  | ori (h : Hdr) (o : SRI)
  /-- XORI (R143). -/
  | xori (h : Hdr) (o : SRI)
  /-- SHLI (R143). -/
  | shli (h : Hdr) (o : SRI)
  /-- SHRI (R143). -/
  | shri (h : Hdr) (o : SRI)
  /-- SRAI (R143). -/
  | srai (h : Hdr) (o : SRI)
  /-- MULI (R143). -/
  | muli (h : Hdr) (o : SRI)
  /-- CEQ (R144). -/
  | ceq (h : Hdr) (o : SPR)
  /-- CNE (R144). -/
  | cne (h : Hdr) (o : SPR)
  /-- CLT (R144). -/
  | clt (h : Hdr) (o : SPR)
  /-- CLE (R144). -/
  | cle (h : Hdr) (o : SPR)
  /-- CLTN (R144). -/
  | cltn (h : Hdr) (o : SPR)
  /-- CLEN (R144). -/
  | clen (h : Hdr) (o : SPR)
  /-- CEQI (R144). -/
  | ceqi (h : Hdr) (o : SPI)
  /-- CNEI (R144). -/
  | cnei (h : Hdr) (o : SPI)
  /-- CLTI (R144). -/
  | clti (h : Hdr) (o : SPI)
  /-- CLEI (R144). -/
  | clei (h : Hdr) (o : SPI)
  /-- CLTNI (R144). -/
  | cltni (h : Hdr) (o : SPI)
  /-- CLENI (R144). -/
  | cleni (h : Hdr) (o : SPI)
  /-- PAND (R145). -/
  | pand (h : Hdr) (o : SPP)
  /-- POR (R145). -/
  | por (h : Hdr) (o : SPP)
  /-- PXOR (R145). -/
  | pxor (h : Hdr) (o : SPP)
  /-- PANDN (R145). -/
  | pandn (h : Hdr) (o : SPP)
  /-- SEL (R146). -/
  | sel (h : Hdr) (o : SSL)
  /-- MFX (R147). -/
  | mfx (h : Hdr) (o : SXR)
  /-- MTX (R147). -/
  | mtx (h : Hdr) (o : SXR)
  /-- MFB (R148). -/
  | mfb (h : Hdr) (o : SXB)
  /-- MTB (R148). -/
  | mtb (h : Hdr) (o : SXB)
  /-- LIMMH (R149). -/
  | limmh (h : Hdr) (o : SLI)
  /-- LIMML (R149). -/
  | limml (h : Hdr) (o : SLI)
  /-- NOP (R159). -/
  | nop (h : Hdr)
  /-- HALT (R158). -/
  | halt (h : Hdr)
  /-- EXIT (R157). -/
  | exit (h : Hdr)
  /-- TRAP (R159). -/
  | trap (h : Hdr) (o : CI)
  /-- DETACH (R208). -/
  | detach (h : Hdr)
  /-- JOIN (R206). -/
  | join (h : Hdr) (o : CJ)
  /-- FUSE (R209). -/
  | fuse (h : Hdr)
  /-- UNFUSE (R211). -/
  | unfuse (h : Hdr)
  /-- PBT (R150). -/
  | pbt (h : Hdr) (o : CT)
  /-- BRT (R151). -/
  | brt (h : Hdr) (o : CB)
  /-- CALL (R152). -/
  | call (h : Hdr) (o : CC)
  /-- RET (R153). -/
  | ret (h : Hdr) (o : CB)
  /-- LOOP (R160). -/
  | loop (h : Hdr) (o : CL)
  /-- MLOOP (R168). -/
  | mloop (h : Hdr) (o : CM)
  /-- LSTRI (R165). -/
  | lstri (h : Hdr) (o : CS)
  /-- LSTRR (R165). -/
  | lstrr (h : Hdr) (o : CW)
  /-- LBRK (R166). -/
  | lbrk (h : Hdr) (o : CV)
  /-- LNEXT (R166). -/
  | lnext (h : Hdr) (o : CV)
  /-- VADD (R291). -/
  | vadd (h : Hdr) (ew : BitVec 2) (o : VR)
  /-- VSUB (R291). -/
  | vsub (h : Hdr) (ew : BitVec 2) (o : VR)
  /-- VMUL (R291). -/
  | vmul (h : Hdr) (ew : BitVec 2) (o : VR)
  /-- VMULH (R291). -/
  | vmulh (h : Hdr) (ew : BitVec 2) (o : VR)
  /-- VMIN (R291). -/
  | vmin (h : Hdr) (ew : BitVec 2) (o : VR)
  /-- VMAX (R291). -/
  | vmax (h : Hdr) (ew : BitVec 2) (o : VR)
  /-- VMINN (R291). -/
  | vminn (h : Hdr) (ew : BitVec 2) (o : VR)
  /-- VMAXN (R291). -/
  | vmaxn (h : Hdr) (ew : BitVec 2) (o : VR)
  /-- VSHL (R291). -/
  | vshl (h : Hdr) (ew : BitVec 2) (o : VR)
  /-- VSHR (R291). -/
  | vshr (h : Hdr) (ew : BitVec 2) (o : VR)
  /-- VSRA (R291). -/
  | vsra (h : Hdr) (ew : BitVec 2) (o : VR)
  /-- VADDS (R291). -/
  | vadds (h : Hdr) (ew : BitVec 2) (o : VR)
  /-- VSUBS (R291). -/
  | vsubs (h : Hdr) (ew : BitVec 2) (o : VR)
  /-- VPOPC (R291). -/
  | vpopc (h : Hdr) (ew : BitVec 2) (o : VR)
  /-- VCLZ (R291). -/
  | vclz (h : Hdr) (ew : BitVec 2) (o : VR)
  /-- VABS (R291). -/
  | vabs (h : Hdr) (ew : BitVec 2) (o : VR)
  /-- VAND (R293). -/
  | vand (h : Hdr) (o : VR)
  /-- VOR (R293). -/
  | vor (h : Hdr) (o : VR)
  /-- VXOR (R293). -/
  | vxor (h : Hdr) (o : VR)
  /-- VANDN (R293). -/
  | vandn (h : Hdr) (o : VR)
  /-- VMOV (R293). -/
  | vmov (h : Hdr) (o : VR)
  /-- VPERM (R293). -/
  | vperm (h : Hdr) (o : VR)
  /-- VCLMULL (R294). -/
  | vclmull (h : Hdr) (o : VR)
  /-- VCLMULH (R294). -/
  | vclmulh (h : Hdr) (o : VR)
  /-- VSEL (R295). -/
  | vsel (h : Hdr) (o : VM)
  /-- MAND (R296). -/
  | mand (h : Hdr) (o : VMM)
  /-- MOR (R296). -/
  | mor (h : Hdr) (o : VMM)
  /-- MXOR (R296). -/
  | mxor (h : Hdr) (o : VMM)
  /-- MNOT (R296). -/
  | mnot (h : Hdr) (o : VMM)
  /-- VSEED (R309). -/
  | vseed (h : Hdr) (o : VX)
  /-- VADDI (R292). -/
  | vaddi (h : Hdr) (ew : BitVec 2) (o : VI)
  /-- VSHLI (R292). -/
  | vshli (h : Hdr) (ew : BitVec 2) (o : VI)
  /-- VSHRI (R292). -/
  | vshri (h : Hdr) (ew : BitVec 2) (o : VI)
  /-- VMOVI (R292). -/
  | vmovi (h : Hdr) (ew : BitVec 2) (o : VI)
  /-- VFADD (R299). -/
  | vfadd (h : Hdr) (o : VF)
  /-- VFSUB (R299). -/
  | vfsub (h : Hdr) (o : VF)
  /-- VFMUL (R299). -/
  | vfmul (h : Hdr) (o : VF)
  /-- VFMA (R299). -/
  | vfma (h : Hdr) (o : VF)
  /-- VFMS (R299). -/
  | vfms (h : Hdr) (o : VF)
  /-- VFNMA (R299). -/
  | vfnma (h : Hdr) (o : VF)
  /-- VFMIN (R299). -/
  | vfmin (h : Hdr) (o : VF)
  /-- VFMAX (R299). -/
  | vfmax (h : Hdr) (o : VF)
  /-- VFABS (R299). -/
  | vfabs (h : Hdr) (o : VF)
  /-- VFNEG (R299). -/
  | vfneg (h : Hdr) (o : VF)
  /-- VEXP2 (R300). -/
  | vexp2 (h : Hdr) (o : VF)
  /-- VLOG2 (R300). -/
  | vlog2 (h : Hdr) (o : VF)
  /-- VRCP (R300). -/
  | vrcp (h : Hdr) (o : VF)
  /-- VRSQ (R300). -/
  | vrsq (h : Hdr) (o : VF)
  /-- VTANH (R300). -/
  | vtanh (h : Hdr) (o : VF)
  /-- VCVTF (R302). -/
  | vcvtf (h : Hdr) (o : VC)
  /-- VCVTN (R302). -/
  | vcvtn (h : Hdr) (o : VC)
  /-- VCVTI (R302). -/
  | vcvti (h : Hdr) (o : VC)
  /-- VCVTIF (R302). -/
  | vcvtif (h : Hdr) (o : VC)
  /-- VCMP (R297). -/
  | vcmp (h : Hdr) (o : VP)
  /-- VRSUM (R305). -/
  | vrsum (h : Hdr) (o : VS)
  /-- VRMAX (R305). -/
  | vrmax (h : Hdr) (o : VS)
  /-- VRMIN (R305). -/
  | vrmin (h : Hdr) (o : VS)
  /-- VPSUM (R305). -/
  | vpsum (h : Hdr) (o : VS)
  /-- VARGMAX (R305). -/
  | vargmax (h : Hdr) (o : VS)
  /-- VTOPK (R307). -/
  | vtopk (h : Hdr) (o : VS)
  /-- VEXTS (R308). -/
  | vexts (h : Hdr) (o : VS)
  /-- VINSS (R308). -/
  | vinss (h : Hdr) (o : VS)
  /-- LDS8 (R227). -/
  | lds8 (h : Hdr) (o : LM)
  /-- LDS16 (R227). -/
  | lds16 (h : Hdr) (o : LM)
  /-- LDS32 (R227). -/
  | lds32 (h : Hdr) (o : LM)
  /-- LDS64 (R227). -/
  | lds64 (h : Hdr) (o : LM)
  /-- LDN8 (R227). -/
  | ldn8 (h : Hdr) (o : LM)
  /-- LDN16 (R227). -/
  | ldn16 (h : Hdr) (o : LM)
  /-- LDN32 (R227). -/
  | ldn32 (h : Hdr) (o : LM)
  /-- STS8 (R227). -/
  | sts8 (h : Hdr) (o : LM)
  /-- STS16 (R227). -/
  | sts16 (h : Hdr) (o : LM)
  /-- STS32 (R227). -/
  | sts32 (h : Hdr) (o : LM)
  /-- STS64 (R227). -/
  | sts64 (h : Hdr) (o : LM)
  /-- LDV (R228). -/
  | ldv (h : Hdr) (o : LM)
  /-- STV (R228). -/
  | stv (h : Hdr) (o : LM)
  /-- LDVS (R228). -/
  | ldvs (h : Hdr) (o : LS)
  /-- STVS (R228). -/
  | stvs (h : Hdr) (o : LS)
  /-- LDVX (R228). -/
  | ldvx (h : Hdr) (o : LX)
  /-- STVX (R228). -/
  | stvx (h : Hdr) (o : LX)
  /-- STZ (R246). -/
  | stz (h : Hdr) (o : LS)
  /-- LDZ (R247). -/
  | ldz (h : Hdr) (o : LS)
  /-- PROBE (R236). -/
  | probe (h : Hdr) (o : LP)
  /-- HCLAIM (R242). -/
  | hclaim (h : Hdr) (o : LH)
  /-- HREL (R243). -/
  | hrel (h : Hdr) (o : LH)
  /-- PREF (R231). -/
  | pref (h : Hdr) (o : LM)
  /-- SPLDS (R230). -/
  | splds (h : Hdr) (o : LK)
  /-- SPSTS (R230). -/
  | spsts (h : Hdr) (o : LK)
  /-- SPLDV (R230). -/
  | spldv (h : Hdr) (o : LK)
  /-- SPSTV (R230). -/
  | spstv (h : Hdr) (o : LK)
  /-- BEAT (R349). -/
  | beat (h : Hdr) (o : MB)
  /-- ACREL (R357). -/
  | acrel (h : Hdr) (o : MA)
  /-- ACRELA (R357). -/
  | acrela (h : Hdr)
  /-- ACGRP (R359). -/
  | acgrp (h : Hdr) (o : MG)
  /-- ACMOV (R360). -/
  | acmov (h : Hdr) (o : MV)
  /-- ACLD (R360). -/
  | acld (h : Hdr) (o : MV)
  /-- MCFG (R346). -/
  | mcfg (h : Hdr) (o : MC)
  /-- WSWAP (R361). -/
  | wswap (h : Hdr)
  /-- WCLR (R361). -/
  | wclr (h : Hdr)
  /-- MWAIT (R361). -/
  | mwait (h : Hdr)
  /-- ROWLD (R321). -/
  | rowld (h : Hdr) (o : WR)
  /-- ROWST (R321). -/
  | rowst (h : Hdr) (o : WR)
  /-- ROWUPD (R324). -/
  | rowupd (h : Hdr) (o : WR)
  /-- ROWPACK (R326). -/
  | rowpack (h : Hdr) (o : WR)
  /-- ROWRESTORE (R327). -/
  | rowrestore (h : Hdr) (o : WR)
  /-- ROWCNT (R326). -/
  | rowcnt (h : Hdr) (o : WR)
  /-- ROWSET (R322). -/
  | rowset (h : Hdr) (o : WI)
  /-- ROWREC (R325). -/
  | rowrec (h : Hdr) (o : WI)
  /-- ROWRDEC (R330). -/
  | rowrdec (h : Hdr) (o : WR)
  /-- ROWTRLD (R331). -/
  | rowtrld (h : Hdr) (o : WR)
  /-- ROWTRST (R331). -/
  | rowtrst (h : Hdr) (o : WR)
  /-- ROWMASK (R332). -/
  | rowmask (h : Hdr) (o : WR)
  /-- ROWSEQ (R332). -/
  | rowseq (h : Hdr) (o : WR)
  /-- ROWCLR (R333). -/
  | rowclr (h : Hdr) (o : WR)
  /-- CADD (R260). -/
  | cadd (h : Hdr) (o : YK)
  /-- CWAIT (R260). -/
  | cwait (h : Hdr) (o : YK)
  /-- CREAD (R260). -/
  | cread (h : Hdr) (o : YK)
  /-- CMAX (R260). -/
  | cmax (h : Hdr) (o : YK)
  /-- CWANY (R263). -/
  | cwany (h : Hdr) (o : YW)
  /-- CBIND (R261). -/
  | cbind (h : Hdr) (o : YK)
  /-- STAKE_CREATE (R272). -/
  | stakeCreate (h : Hdr) (o : YP)
  /-- STAKE_RETIRE (R272). -/
  | stakeRetire (h : Hdr) (o : YP)
  /-- STAKE_ADVANCE (R272). -/
  | stakeAdvance (h : Hdr) (o : YP)
  /-- PHASE (R265). -/
  | phase (h : Hdr) (o : YN)
  /-- CPYQ (R401). -/
  | cpyq (h : Hdr) (o : YG)
  /-- CPYMC (R403). -/
  | cpymc (h : Hdr) (o : YG)
  /-- HBDRAIN (R404). -/
  | hbdrain (h : Hdr) (o : YG)
  /-- GSUB (R379). -/
  | gsub (h : Hdr) (o : YG)
  /-- GUNSUB (R381). -/
  | gunsub (h : Hdr) (o : YG)
  /-- GRED (R385). -/
  | gred (h : Hdr) (o : YG)
  /-- TLAUNCH (R423). -/
  | tlaunch (h : Hdr) (o : YG)
  /-- TQADD (R425). -/
  | tqadd (h : Hdr) (o : YG)
  /-- TDQADD (R425). -/
  | tdqadd (h : Hdr) (o : YG)
  /-- TDQTAKE (R426). -/
  | tdqtake (h : Hdr) (o : YG)
  /-- TCANCEL (R427). -/
  | tcancel (h : Hdr) (o : YG)
  /-- FILREQ (R437). -/
  | filreq (h : Hdr) (o : YG)
  /-- KVPROBE (R437). -/
  | kvprobe (h : Hdr) (o : YG)
  /-- KVMARK_VALID (R439). -/
  | kvmarkValid (h : Hdr) (o : YG)
  /-- KVMARK_EXIT (R439). -/
  | kvmarkExit (h : Hdr) (o : YG)
  /-- KVMARK_CLEAR (R439). -/
  | kvmarkClear (h : Hdr) (o : YG)
  /-- CALVE (R472). -/
  | calve (h : Hdr) (o : YG)
  /-- CALVE_ARM (R473). -/
  | calveArm (h : Hdr) (o : YG)
  /-- COLRED (R476). -/
  | colred (h : Hdr) (o : YG)
  /-- COLBC (R476). -/
  | colbc (h : Hdr) (o : YG)
  /-- COLAG (R476). -/
  | colag (h : Hdr) (o : YG)
  /-- TRET (R185). -/
  | tret (h : Hdr)
  /-- CSRR (R175). -/
  | csrr (h : Hdr) (o : ZC)
  /-- CSRW (R175). -/
  | csrw (h : Hdr) (o : ZC)
  /-- CSRS (R175). -/
  | csrs (h : Hdr) (o : ZC)
  /-- CSRC (R175). -/
  | csrc (h : Hdr) (o : ZC)
  /-- TMARK (R499). -/
  | tmark (h : Hdr) (o : ZI)
  /-- SMPCTL (R500). -/
  | smpctl (h : Hdr) (o : ZI)
  /-- BKPT (R499). -/
  | bkpt (h : Hdr) (o : ZI)
  /-- WPSET (R498). -/
  | wpset (h : Hdr) (o : ZG)
  /-- WPCLR (R499). -/
  | wpclr (h : Hdr) (o : ZI)
  /-- TAGINV (R234). -/
  | taginv (h : Hdr) (o : ZG)
  /-- TAGFLUSH (R234). -/
  | tagflush (h : Hdr)
  /-- PARTOP_FORM (R509). -/
  | partopForm (h : Hdr) (o : ZG)
  /-- PARTOP_DISSOLVE (R509). -/
  | partopDissolve (h : Hdr) (o : ZG)
  /-- PARTOP_PREEMPT (R35). -/
  | partopPreempt (h : Hdr) (o : ZG)
  /-- PARTOP_QRESET (R510). -/
  | partopQreset (h : Hdr) (o : ZG)
  /-- CTXOP_CREATE (R509). -/
  | ctxopCreate (h : Hdr) (o : ZG)
  /-- CTXOP_DESTROY (R509). -/
  | ctxopDestroy (h : Hdr) (o : ZG)
  /-- CTXOP_INVAL (R119). -/
  | ctxopInval (h : Hdr) (o : ZG)
  /-- CTXOP_ATTEST (R508). -/
  | ctxopAttest (h : Hdr) (o : ZG)
  /-- SWAPOP_SAVE (R36). -/
  | swapopSave (h : Hdr) (o : ZG)
  /-- SWAPOP_RESTORE (R36). -/
  | swapopRestore (h : Hdr) (o : ZG)
  /-- SWAPOP_EXCH (R36). -/
  | swapopExch (h : Hdr) (o : ZG)
  /-- ILLEGAL_OPCODE (R75): A syllable with a vacant opcode raises ILLEGAL_OPCODE. -/
  | illegalOpcode (h : Hdr) (cls : BitVec 3) (opc : BitVec 8) (w : BitVec 38)
  /-- RESULT_LANDING (R50): An issued result lands in its register after its latency or when its interlocked answer arrives. -/
  | resultLanding (core idx : Nat)
  /-- PUSH_LANDING (R350): A beat's push lands in its accumulator row 136 cycles after issue. -/
  | pushLanding (core : Nat)
  /-- INTERRUPT (R184): An interrupt is taken between bundles as a stop. -/
  | interrupt (core : Nat)
  /-- HALT_WAKE (R158): A sleeping privileged general core resumes when an interrupt is pending. -/
  | haltWake (core : Nat)
  /-- SEQ_RESUME_REPLAY (R181): Firmware replays a held faulted bundle. -/
  | seqResumeReplay (core : Nat)
  /-- SEQ_RESUME_CONTINUE (R181): Firmware continues a core held on a stop. -/
  | seqResumeContinue (core : Nat)
  /-- SEQ_RESUME_UNRESOLVED (R181): Firmware declares a hold unresolved and the task ends faulted. -/
  | seqResumeUnresolved (core : Nat)
  /-- REGISTER_WRITE (R175): A control-register write or set/clear action performed at its engine. -/
  | registerWrite (core : Nat) (op : CsrOp) (csr : BitVec 16) (val : BitVec 64)
  /-- LAUNCH_DISPATCH (R26): A ready launch group is dispatched to its cluster. -/
  | launchDispatch (ctx stream : Nat)
  /-- TASK_START (R418): An idle core takes a task and begins its prologue. -/
  | taskStart (core : Nat)
  /-- STEAL_PROBE (R422): An idle core's steal probe ends, taking entries or failing. -/
  | stealProbe (core : Nat)
  /-- SPILL_REFILL (R417): A spill-ring entry is refilled into the cluster queue. -/
  | spillRefill (cluster : Nat)
  /-- PASS_BOUNDARY (R192): Results land at a kernel-iteration boundary and the next pass or epilogue begins. -/
  | passBoundary (core : Nat)
  /-- PREEMPT_HALT (R35): A core with a pending pre-emption halts at its boundary. -/
  | preemptHalt (core : Nat)
  /-- ITERATION_OVERRUN (R35): The iteration count passes the bound under pending pre-emption. -/
  | iterationOverrun (core : Nat)
  /-- SWAP_COMPLETE (R36): A save, restore or exchange completes on a die. -/
  | swapComplete (die : Nat)
  /-- STREAM_DELIVERY (R196): The front end multicasts one bundle to attached cores. -/
  | streamDelivery (cluster : Nat)
  /-- PRIVATE_FETCH (R203): A privately fetched bundle arrives at a detached core. -/
  | privateFetch (core : Nat)
  /-- ICACHE_FILL (R215): An instruction-cache line arrives, refetched once on error. -/
  | icacheFill (cluster pa errs : Nat) (corrected : Bool)
  /-- PAGE_WALK (R115): A page walk completes or fails. -/
  | pageWalk (cluster ctx : Nat) (va : BitVec 64) (memErr : Bool)
  /-- ENGINE_COMMAND_RESUME (R121): A suspended engine command resumes or ends when firmware resolves its fault. -/
  | engineCommandResume (idx : Nat) (resolved : Bool)
  /-- PHASE_END_COMPLETE (R129): A phase-end wait for HBM stores and invalidations ends. -/
  | phaseEndComplete (core : Nat)
  /-- STORE_VISIBLE (R126): A store becomes visible to an agent. -/
  | storeVisible (idx : Nat) (agent : Option Nat)
  /-- TAG_INVALIDATION (R134): A Graver invalidation reaches a cluster's tag table. -/
  | tagInvalidation (cluster block : Nat)
  /-- PROBE_LOOKUP (R236): A PROBE lookup completes, hitting or starting a fill. -/
  | probeLookup (core : Nat)
  /-- WINDOW_FILL (R237): A window fill lands and the entry becomes full. -/
  | windowFill (cluster set way : Nat) (err : Bool)
  /-- HCLAIM_GRANT (R242): A ring claim is granted at the sync engine. -/
  | hclaimGrant (core : Nat)
  /-- HREL_PERFORM (R243): A ring release is performed once its use is next. -/
  | hrelPerform (core : Nat)
  /-- COUNTER_OPERATION (R255): The sync engine performs one counter operation. -/
  | counterOperation (ctx : Nat) (ident : BitVec 64) (isMax : Bool) (val : BitVec 64)
  /-- SYNC_ANSWER (R260): The sync engine's answer reaches the waiting core. -/
  | syncAnswer (core : Nat)
  /-- MORAINE_BATCH_TIMEOUT (R274): An open batch closes 128 cycles after its first delta. -/
  | moraineBatchTimeout (die ctx : Nat)
  /-- BATCH_APPLY (R275): The progress root applies a batch in sequence order. -/
  | batchApply (ctx die : Nat)
  /-- GRAVER_ACCEPT (R375): A pseudo-channel queue accepts a 64-byte entry. -/
  | graverAccept (stack unit ctx : Nat) (data : Option (BitVec 512 × BitVec 64)) (tag : BitVec 32)
  /-- GRAVER_COMMAND (R377): A row or column command is issued on a bus in a command slot. -/
  | graverCommand (stack channel : Nat) (column ready0 ready1 : Bool) (outcome : EccOutcome)
  /-- GENERATION_UPDATE (R383): A slot's new generation takes effect at a Graver. -/
  | generationUpdate (stack ctx slot : Nat)
  /-- SCRUB_PASS_START (R390): A scrub period begins a pass or marks the running one late. -/
  | scrubPassStart (stack : Nat)
  /-- SCRUB_READ (R390): The scrubber reads and rewrites one unit. -/
  | scrubRead (stack : Nat) (outcome : EccOutcome)
  /-- SCRUB_LEVEL_CHECK (R391): At each 1/256 of the period the escalation level is adjusted. -/
  | scrubLevelCheck (stack elapsed : Nat)
  /-- SUBSCRIPTION_TILE (R380): A subscription tile is claimed, moved and released. -/
  | subscriptionTile (die entry : Nat)
  /-- SUBSCRIPTION_COMPLETE (R380): A subscription makes its completion add. -/
  | subscriptionComplete (die entry : Nat)
  /-- GRAVER_REDUCTION (R385): A Graver performs its destination blocks of a reduction. -/
  | graverReduction (die entry : Nat)
  /-- COPY_PACKET_TAKE (R396): A copy engine takes a packet with a matching stamp. -/
  | copyPacketTake (q : Nat)
  /-- STAMP_REREAD (R396): The engine rereads a slot whose stamp did not match. -/
  | stampReread (q : Nat)
  /-- COPY_PACKET_COMPLETE (R400): A packet's last write lands and DONE is added. -/
  | copyPacketComplete (q idx : Nat) (remote : List (BitVec 8)) (refusal : Nat)
  /-- CPYQ_ENQUEUE (R401): The copy engine places a CPYQ packet in its queue. -/
  | cpyqEnqueue (engine : Nat)
  /-- PARK_CLAIM (R402): A waiting park claims a free holding slot. -/
  | parkClaim (cluster slot : Nat)
  /-- PARK_COMPLETE (R402): A holding slot becomes parked and DONE is added. -/
  | parkComplete (cluster slot : Nat)
  /-- QUEUE_OPEN (R395): Setting EN opens a copy queue if its settings are valid. -/
  | queueOpen (q : Nat)
  /-- QUEUE_STOP (R409): Clearing EN stops a copy queue taking packets. -/
  | queueStop (q : Nat)
  /-- FIRN_OPERATION (R434): The home Firn performs a probe or mark operation in its turn. -/
  | firnOperation (die : Nat)
  /-- PROBE_RETRY (R437): A set-aside Firn probe is performed afresh. -/
  | probeRetry (die : Nat)
  /-- FILL_END (R438): A REPEAT fill ends, setting V and adding to FDONE. -/
  | fillEnd (die entry : Nat)
  /-- CALVING_NOTICE (R470): A calving notice arrives and is held, dropped or applied. -/
  | calvingNotice (ctx target row token : Nat) (cw : BitVec 32) (time : BitVec 64)
  /-- REMOTE_REQUEST (R466): A remote request is checked against the export table. -/
  | remoteRequest (r : RemoteReq)
  /-- REMOTE_ANSWER (R467): A remote answer or refusal reaches the requester. -/
  | remoteAnswer (idx reason : Nat) (data : BitVec 64)
  /-- REMOTE_TIMEOUT (R467): A remote request gets no answer within the timeout. -/
  | remoteTimeout (idx : Nat)
  /-- COLLECTIVE_ASSEMBLE (R475): All ranks of a collective gather and are checked. -/
  | collectiveAssemble (idx : Nat) (others : List RankDesc)
  /-- COLLECTIVE_COMPLETE (R477): A rank's collective result lands and DONE is added. -/
  | collectiveComplete (idx : Nat)
  /-- COLLECTIVE_TIMEOUT (R475): A collective fails to gather within its timeout. -/
  | collectiveTimeout (idx : Nat)
  /-- LINK_DOWN (R465): A lane fails and the whole port goes down. -/
  | linkDown (port : Nat) (lanes : BitVec 4)
  /-- PTP_EVENT_MESSAGE (R468): An IEEE 1588 event message is stamped at a port. -/
  | ptpEventMessage (port : Nat) (transmit : Bool)
  /-- GEN_START (R445): Setting RUN starts the generation sequencer. -/
  | genStart (part : Nat)
  /-- GEN_STOP_REQUEST (R445): Writing RUN 0 requests the sequencer to stop. -/
  | genStopRequest (part : Nat)
  /-- GEN_HALT (R445): The sequencer retires its hold and stops after its appends. -/
  | genHalt (part : Nat)
  /-- GEN_ITERATION_BEGIN (R446): An iteration begins and a bucket is selected. -/
  | genIterationBegin (part : Nat)
  /-- GEN_APPEND (R448): The sequencer appends one bucket descriptor to stream 15. -/
  | genAppend (part : Nat)
  /-- GEN_HOLD_ADVANCE (R449): After the last dispatch the sequencer's hold advances. -/
  | genHoldAdvance (part : Nat)
  /-- GEN_RESUME (R447): A W1C write of STOP resumes the sequencer. -/
  | genResume (part : Nat)
  /-- GEN_SPEC0_CLEAR (R456): A W1C write of SPEC0 clears it when NEED is 0. -/
  | genSpec0Clear (part : Nat)
  /-- GEN_RECLAIM (R456): Writing NEED starts reclaim and sets SPEC0. -/
  | genReclaim (part : Nat) (need : BitVec 32)
  /-- GEN_POOL_TAKE (R456): The sequencer takes one page-pool entry. -/
  | genPoolTake (part : Nat)
  /-- GEN_SLOT_RETIRE (R453): A slot is retired and its generation advanced. -/
  | genSlotRetire (part slot : Nat)
  /-- GEN_SLOT_ALLOCATE (R453): A free slot is allocated. -/
  | genSlotAllocate (part slot : Nat)
  /-- TRACE_RECORD_WRITE (R485): The trace unit writes a buffered record into its ring. -/
  | traceRecordWrite (unit : Nat)
  /-- TRACE_WI_ADD (R485): Within 1 µs the unit adds written records to WI. -/
  | traceWiAdd (unit ctx : Nat)
  /-- SAMPLE (R490): The sampling down-counter reaches zero and a sample is taken. -/
  | sample (core : Nat)
  /-- COUNTER_ROTATE (R492): Every ROT µs the event counter group is written back and rotated. -/
  | counterRotate (core : Nat)
  /-- BOUNDARY_STOP_REQUEST (R496): Firmware requests a stop at the core's next boundary. -/
  | boundaryStopRequest (core : Nat)
  /-- PACKAGE_RESET (R510): PERST# or SYS.RST restores every reset value. -/
  | packageReset
  /-- BOOT_ROM (R506): Each I/O die's boot ROM loads and verifies firmware. -/
  | bootRom (iod : Nat) (image selfTest : Bool)
  /-- CORE_RESET (R510): A write to SYS.CRST restarts one core. -/
  | coreReset (core : Nat)
  /-- FEATURE_ACCEPT (R513): The first accepted-feature write locks negotiation. -/
  | featureAccept (word : Bool) (bits : BitVec 64)
  /-- HOST_COUNTER_ADD (R505): A doorbell write adds to a counter after earlier posted writes. -/
  | hostCounterAdd (ctx : Nat) (ident val : BitVec 64)
  /-- HOST_HBM_WRITE (R136): A host write lands in HBM through Graver. -/
  | hostHbmWrite (pa : Nat) (bytes : List (BitVec 8))
  /-- HOST_HBM_READ (R504): A host read of HBM through BAR 4. -/
  | hostHbmRead (pa len : Nat)
  /-- HOST_CONTROL_ACCESS (R504): A host access to the device control window through BAR 0. -/
  | hostControlAccess (core : Nat) (op : CsrOp) (csr : BitVec 16) (val : BitVec 64)
  /-- ISSUE_GATING (R512): A temperature, power, voltage or current limit gates issue. -/
  | issueGating (die : Nat) (cause : GateCause)
  /-- GATING_END (R512): Gating ends after the condition has been clear for its period. -/
  | gatingEnd (die : Nat)
  /-- THERMAL_STOP (R512): A die at 115 °C stops every engine. -/
  | thermalStop (die : Nat)
  /-- REFRESH (R377): Graver takes command slots for the refreshes that the HBM4 standard requires. -/
  | refresh (stack channel : Nat)
  /-- LINK_RETURN (R465): A port whose link went down returns to service through firmware. -/
  | linkReturn (port : Nat)
  /-- BULK_SHARE_WINDOW (R22): A new 1 µs window begins and the port again admits a partition's bulk flits up to its share. -/
  | bulkShareWindow (port : Nat)
  /-- SAMPLING_CHANGE_APPLIED (R500): Another core of the partition applies a new TRC.SMP setting within 1 µs and reloads its down-counter. -/
  | samplingChangeApplied (core : Nat)
  /-- WATCHPOINT_CHANGE_APPLIED (R498): A WPSET or WPCLR change reaches another core of the context within 1 µs, even without a phase end on that core. -/
  | watchpointChangeApplied (core : Nat)
  deriving DecidableEq, Repr

end Sys2Proof
end

