-- ==== Sys2Proof/Decode.lean ====
section
/-!
DEFINITION. Decoding of a syllable (R43, R64, R67-R76) and, after it, the encoder.  A syllable is read as the
number of its 64 bits.  A vacant opcode decodes to `Instr.illegalOpcode` (R75); a non-zero reserved field, a
reserved header value or an operand outside its limits is rejected as ILLEGAL_SYLLABLE (R46, R47).
-/

namespace Sys2Proof

/-- Why a syllable has no decoding: ILLEGAL_SYLLABLE (R46). -/
inductive DecodeFault where
  | illegalSyllable
  deriving DecidableEq, Repr

/-- Bits [lo+n-1 : lo] of the number w (R4). -/
def fld (w lo n : Nat) : Nat := w / 2 ^ lo % 2 ^ n

/-- Field of a syllable as a bit vector. -/
abbrev fbv (w lo n : Nat) : BitVec n := BitVec.ofNat n (fld w lo n)

/-- Header of a syllable (R43). -/
def decHdr (w : Nat) : Hdr where
  e := fld w 60 1 == 1
  wait := fbv w 56 4
  gn := fld w 55 1 == 1
  gp := fbv w 51 4
  edge := fbv w 49 2
  elvl := fbv w 46 3

/-! ## Operand families (R64): none when a reserved field is not zero -/

/-- Family SRR of R64. -/
def decSRR (w : Nat) : Option SRR :=
  if fld w 0 20 = 0 then
    some { d := fbv w 32 6, a := fbv w 26 6, b := fbv w 20 6 }
  else none

/-- Family SR1 of R64. -/
def decSR1 (w : Nat) : Option SR1 :=
  if fld w 0 26 = 0 then
    some { d := fbv w 32 6, a := fbv w 26 6 }
  else none

/-- Family SRI of R64. -/
def decSRI (w : Nat) : Option SRI :=
  some { d := fbv w 32 6, a := fbv w 26 6, imm := fbv w 0 26 }

/-- Family SBF of R64. -/
def decSBF (w : Nat) : Option SBF :=
  if fld w 0 14 = 0 then
    some { d := fbv w 32 6, a := fbv w 26 6, pos := fbv w 20 6, len := fbv w 14 6 }
  else none

/-- Family SPR of R64. -/
def decSPR (w : Nat) : Option SPR :=
  if fld w 0 20 = 0 ∧ fld w 32 2 = 0 then
    some { pd := fbv w 34 4, a := fbv w 26 6, b := fbv w 20 6 }
  else none

/-- Family SPI of R64. -/
def decSPI (w : Nat) : Option SPI :=
  if fld w 32 2 = 0 then
    some { pd := fbv w 34 4, a := fbv w 26 6, imm := fbv w 0 26 }
  else none

/-- Family SPP of R64. -/
def decSPP (w : Nat) : Option SPP :=
  if fld w 0 22 = 0 ∧ fld w 30 4 = 0 then
    some { pd := fbv w 34 4, pa := fbv w 26 4, pb := fbv w 22 4 }
  else none

/-- Family SSL of R64. -/
def decSSL (w : Nat) : Option SSL :=
  if fld w 0 16 = 0 then
    some { d := fbv w 32 6, a := fbv w 26 6, b := fbv w 20 6, ps := fbv w 16 4 }
  else none

/-- Family SXR of R64. -/
def decSXR (w : Nat) : Option SXR :=
  if fld w 0 24 = 0 then
    some { d := fbv w 32 6, sel := fbv w 24 8 }
  else none

/-- Family SXB of R64. -/
def decSXB (w : Nat) : Option SXB :=
  if fld w 0 29 = 0 then
    some { d := fbv w 32 6, bt := fbv w 29 3 }
  else none

/-- Family SLI of R64. -/
def decSLI (w : Nat) : Option SLI :=
  some { d := fbv w 32 6, imm := fbv w 0 32 }

/-- Family CI of R64. -/
def decCI (w : Nat) : Option CI :=
  if fld w 16 22 = 0 then
    some { imm := fbv w 0 16 }
  else none

/-- Family CT of R64. -/
def decCT (w : Nat) : Option CT :=
  if fld w 32 3 = 0 then
    some { bt := fbv w 35 3, disp := fbv w 0 32 }
  else none

/-- Family CB of R64. -/
def decCB (w : Nat) : Option CB :=
  if fld w 0 35 = 0 then
    some { bt := fbv w 35 3 }
  else none

/-- Family CC of R64. -/
def decCC (w : Nat) : Option CC :=
  if fld w 0 32 = 0 then
    some { bt := fbv w 35 3, bl := fbv w 32 3 }
  else none

/-- Family CJ of R64. -/
def decCJ (w : Nat) : Option CJ :=
  if fld w 16 16 = 0 then
    some { a := fbv w 32 6, imm := fbv w 0 16 }
  else none

/-- Family CL of R64. -/
def decCL (w : Nat) : Option CL :=
  some { lv := fbv w 35 3, src := fbv w 33 2, mq := fbv w 31 2, len := fbv w 20 11, cnt := fbv w 0 20 }

/-- Family CM of R64. -/
def decCM (w : Nat) : Option CM :=
  if fld w 0 1 = 0 then
    some { lv := fbv w 35 3, src := fbv w 33 2, mq := fbv w 31 2, len := fbv w 20 11, sc := fbv w 16 4, ii := fbv w 10 6, a := fbv w 4 6, dp := fbv w 1 3 }
  else none

/-- Family CS of R64. -/
def decCS (w : Nat) : Option CS :=
  if fld w 32 1 = 0 then
    some { lv := fbv w 35 3, w := fbv w 33 2, stride := fbv w 0 32 }
  else none

/-- Family CW of R64. -/
def decCW (w : Nat) : Option CW :=
  if fld w 0 26 = 0 ∧ fld w 32 1 = 0 then
    some { lv := fbv w 35 3, w := fbv w 33 2, a := fbv w 26 6 }
  else none

/-- Family CV of R64. -/
def decCV (w : Nat) : Option CV :=
  if fld w 0 35 = 0 then
    some { lv := fbv w 35 3 }
  else none

/-- Family VR of R64. -/
def decVR (w : Nat) : Option VR :=
  if fld w 0 1 = 0 then
    some { d := fbv w 32 6, a := fbv w 26 6, b := fbv w 20 6, nq := fbv w 14 6, mdf := fbv w 2 12, bs := fbv w 1 1 }
  else none

/-- Family VF of R64. -/
def decVF (w : Nat) : Option VF :=
  if fld w 0 8 = 0 then
    some { d := fbv w 32 6, a := fbv w 26 6, b := fbv w 20 6, nq := fbv w 14 6, rm := fbv w 12 2, sat := fbv w 11 1, bs := fbv w 10 1, ty := fbv w 8 2 }
  else none

/-- Family VI of R64. -/
def decVI (w : Nat) : Option VI :=
  some { d := fbv w 32 6, a := fbv w 26 6, nq := fbv w 20 6, imm := fbv w 0 20 }

/-- Family VC of R64. -/
def decVC (w : Nat) : Option VC :=
  if fld w 0 11 = 0 ∧ fld w 20 2 = 0 then
    some { d := fbv w 32 6, a := fbv w 26 6, fmt := fbv w 22 4, nq := fbv w 14 6, rm := fbv w 12 2, sat := fbv w 11 1 }
  else none

/-- Family VP of R64. -/
def decVP (w : Nat) : Option VP :=
  if fld w 0 6 = 0 ∧ fld w 32 3 = 0 then
    some { md := fbv w 35 3, a := fbv w 26 6, b := fbv w 20 6, nq := fbv w 14 6, cnd := fbv w 10 4, bs := fbv w 9 1, ty := fbv w 6 3 }
  else none

/-- Family VS of R64. -/
def decVS (w : Nat) : Option VS :=
  if fld w 0 5 = 0 then
    some { d := fbv w 32 6, a := fbv w 26 6, b := fbv w 20 6, nq := fbv w 14 6, seg := fbv w 10 4, rm := fbv w 8 2, ty := fbv w 5 3 }
  else none

/-- Family VM of R64. -/
def decVM (w : Nat) : Option VM :=
  if fld w 0 10 = 0 then
    some { d := fbv w 32 6, a := fbv w 26 6, b := fbv w 20 6, nq := fbv w 14 6, ms := fbv w 11 3, bs := fbv w 10 1 }
  else none

/-- Family VMM of R64. -/
def decVMM (w : Nat) : Option VMM :=
  if fld w 0 29 = 0 then
    some { md := fbv w 35 3, ma := fbv w 32 3, mb := fbv w 29 3 }
  else none

/-- Family VX of R64. -/
def decVX (w : Nat) : Option VX :=
  if fld w 0 26 = 0 ∧ fld w 32 6 = 0 then
    some { a := fbv w 26 6 }
  else none

/-- Family LM of R64. -/
def decLM (w : Nat) : Option LM :=
  some { d := fbv w 32 6, a := fbv w 26 6, nq := fbv w 20 6, disp := fbv w 0 20 }

/-- Family LS of R64. -/
def decLS (w : Nat) : Option LS :=
  if fld w 0 14 = 0 then
    some { d := fbv w 32 6, a := fbv w 26 6, b := fbv w 20 6, nq := fbv w 14 6 }
  else none

/-- Family LX of R64. -/
def decLX (w : Nat) : Option LX :=
  if fld w 0 12 = 0 then
    some { d := fbv w 32 6, a := fbv w 26 6, b := fbv w 20 6, nq := fbv w 14 6, isz := fbv w 12 2 }
  else none

/-- Family LP of R64. -/
def decLP (w : Nat) : Option LP :=
  if fld w 0 23 = 0 then
    some { h := fbv w 32 6, a := fbv w 26 6, bt := fbv w 23 3 }
  else none

/-- Family LH of R64. -/
def decLH (w : Nat) : Option LH :=
  if fld w 0 26 = 0 then
    some { h := fbv w 32 6, a := fbv w 26 6 }
  else none

/-- Family LK of R64. -/
def decLK (w : Nat) : Option LK :=
  if fld w 14 18 = 0 then
    some { d := fbv w 32 6, off := fbv w 0 14 }
  else none

/-- Family MB of R64. -/
def decMB (w : Nat) : Option MB :=
  some { aop := fbv w 36 2, aw := fbv w 35 1, aslot := fbv w 30 5, arb := fbv w 23 7, wop := fbv w 21 2, ww := fbv w 20 1, dop := fbv w 18 2, ds := fbv w 13 5, drb := fbv w 6 7, dv := fbv w 2 4, m := fbv w 0 2 }

/-- Family MA of R64. -/
def decMA (w : Nat) : Option MA :=
  if fld w 0 33 = 0 then
    some { acc := fbv w 33 5 }
  else none

/-- Family MG of R64. -/
def decMG (w : Nat) : Option MG :=
  if fld w 0 17 = 0 then
    some { acc := fbv w 33 5, grp := fbv w 31 2, lo := fbv w 24 7, hi := fbv w 17 7 }
  else none

/-- Family MV of R64. -/
def decMV (w : Nat) : Option MV :=
  if fld w 0 6 = 0 then
    some { acc := fbv w 33 5, row := fbv w 26 7, a := fbv w 20 6, cnt := fbv w 13 7, fmt := fbv w 9 4, rm := fbv w 7 2, sat := fbv w 6 1 }
  else none

/-- Family MC of R64. -/
def decMC (w : Nat) : Option MC :=
  if fld w 0 22 = 0 then
    some { nq := fbv w 32 6, wf := fbv w 28 4, af := fbv w 24 4, ak := fbv w 22 2 }
  else none

/-- Family WR of R64. -/
def decWR (w : Nat) : Option WR :=
  if fld w 0 8 = 0 then
    some { d := fbv w 32 6, a := fbv w 26 6, b := fbv w 20 6, mq := fbv w 18 2, blk := fbv w 8 10 }
  else none

/-- Family WI of R64. -/
def decWI (w : Nat) : Option WI :=
  some { d := fbv w 32 6, a := fbv w 26 6, imm := fbv w 0 26 }

/-- Family YK of R64. -/
def decYK (w : Nat) : Option YK :=
  some { ord := fbv w 36 2, scp := fbv w 33 3, k := fbv w 29 4, a := fbv w 23 6, imm := fbv w 0 23 }

/-- Family YW of R64. -/
def decYW (w : Nat) : Option YW :=
  if fld w 0 12 = 0 then
    some { ord := fbv w 36 2, scp := fbv w 33 3, d := fbv w 27 6, mask := fbv w 19 8, a := fbv w 13 6, g := fbv w 12 1 }
  else none

/-- Family YP of R64. -/
def decYP (w : Nat) : Option YP :=
  if fld w 0 4 = 0 then
    some { ord := fbv w 36 2, scp := fbv w 33 3, a := fbv w 27 6, b := fbv w 21 6, sgn := fbv w 20 1, cnt := fbv w 4 16 }
  else none

/-- Family YG of R64. -/
def decYG (w : Nat) : Option YG :=
  some { ord := fbv w 36 2, scp := fbv w 33 3, x := fbv w 27 6, y := fbv w 21 6, z := fbv w 15 6, imm := fbv w 0 15 }

/-- Family YN of R64. -/
def decYN (w : Nat) : Option YN :=
  if fld w 0 33 = 0 then
    some { ord := fbv w 36 2, scp := fbv w 33 3 }
  else none

/-- Family ZC of R64. -/
def decZC (w : Nat) : Option ZC :=
  if fld w 0 10 = 0 then
    some { d := fbv w 32 6, a := fbv w 26 6, csr := fbv w 10 16 }
  else none

/-- Family ZI of R64. -/
def decZI (w : Nat) : Option ZI :=
  if fld w 16 16 = 0 then
    some { a := fbv w 32 6, imm := fbv w 0 16 }
  else none

/-- Family ZG of R64. -/
def decZG (w : Nat) : Option ZG :=
  some { x := fbv w 32 6, y := fbv w 26 6, z := fbv w 20 6, imm := fbv w 0 20 }

/-- Families CN, MN and ZN of R64: no operand field. -/
def decNone (w : Nat) : Option Unit := if fld w 0 38 = 0 then some () else none

/-! ## The opcode map (R67-R75) -/

/-- STAKE (R272): SGN and CNT tell create, retire and advance apart. -/
def decStake (h : Hdr) (w : Nat) : Option Instr :=
  (decYP w).map fun o =>
    if o.sgn = 0 then .stakeCreate h o else if o.cnt = 0 then .stakeAdvance h o else .stakeRetire h o

/-- KVMARK (R435): imm15[1:0] gives the operation; 0b11 is illegal. -/
def decKvmark (h : Hdr) (w : Nat) : Option Instr :=
  (decYG w).bind fun o =>
    match fld w 0 2 with
    | 0 => some (.kvmarkValid h o)
    | 1 => some (.kvmarkExit h o)
    | 2 => some (.kvmarkClear h o)
    | _ => none

/-- CALVE (R478): imm15[0] tells the send from the arm form. -/
def decCalve (h : Hdr) (w : Nat) : Option Instr :=
  (decYG w).map fun o => if fld w 0 1 = 0 then .calve h o else .calveArm h o

/-- PARTOP (R509): imm20[3:0] gives the operation. -/
def decPartop (h : Hdr) (w : Nat) : Option Instr :=
  (decZG w).bind fun o =>
    match fld w 0 4 with
    | 1 => some (.partopForm h o)
    | 2 => some (.partopDissolve h o)
    | 3 => some (.partopPreempt h o)
    | 4 => some (.partopQreset h o)
    | _ => none

/-- CTXOP (R509): imm20[3:0] gives the operation. -/
def decCtxop (h : Hdr) (w : Nat) : Option Instr :=
  (decZG w).bind fun o =>
    match fld w 0 4 with
    | 1 => some (.ctxopCreate h o)
    | 2 => some (.ctxopDestroy h o)
    | 3 => some (.ctxopInval h o)
    | 4 => some (.ctxopAttest h o)
    | _ => none

/-- SWAPOP (R509): imm20[3:0] gives the operation. -/
def decSwapop (h : Hdr) (w : Nat) : Option Instr :=
  (decZG w).bind fun o =>
    match fld w 0 4 with
    | 1 => some (.swapopSave h o)
    | 2 => some (.swapopRestore h o)
    | 3 => some (.swapopExch h o)
    | _ => none

/-- A vacant opcode (R75): the syllable that raises ILLEGAL_OPCODE. -/
def decVacant (h : Hdr) (cls opc w : Nat) : Option Instr :=
  some (.illegalOpcode h (BitVec.ofNat 3 cls) (BitVec.ofNat 8 opc) (fbv w 0 38))

/-- S class (R67). -/
def decS (h : Hdr) (opc w : Nat) : Option Instr :=
  match opc with
  | 0x0 => (decSRR w).map (Instr.add h)
  | 0x1 => (decSRR w).map (Instr.sub h)
  | 0x2 => (decSRR w).map (Instr.and h)
  | 0x3 => (decSRR w).map (Instr.or h)
  | 0x4 => (decSRR w).map (Instr.xor h)
  | 0x5 => (decSRR w).map (Instr.andn h)
  | 0x6 => (decSRR w).map (Instr.shl h)
  | 0x7 => (decSRR w).map (Instr.shr h)
  | 0x8 => (decSRR w).map (Instr.sra h)
  | 0x9 => (decSRR w).map (Instr.rol h)
  | 0xa => (decSRR w).map (Instr.mul h)
  | 0xb => (decSRR w).map (Instr.mulh h)
  | 0xc => (decSRR w).map (Instr.mulhn h)
  | 0xd => (decSRR w).map (Instr.min h)
  | 0xe => (decSRR w).map (Instr.max h)
  | 0xf => (decSRR w).map (Instr.minn h)
  | 0x10 => (decSRR w).map (Instr.maxn h)
  | 0x11 => (decSR1 w).map (Instr.clz h)
  | 0x12 => (decSR1 w).map (Instr.ctz h)
  | 0x13 => (decSR1 w).map (Instr.popc h)
  | 0x14 => (decSR1 w).map (Instr.brev h)
  | 0x15 => (decSR1 w).map (Instr.bswap h)
  | 0x16 => (decSBF w).map (Instr.bext h)
  | 0x17 => (decSBF w).map (Instr.bins h)
  | 0x18 => (decSRI w).map (Instr.addi h)
  | 0x19 => (decSRI w).map (Instr.andi h)
  | 0x1a => (decSRI w).map (Instr.ori h)
  | 0x1b => (decSRI w).map (Instr.xori h)
  | 0x1c => (decSRI w).map (Instr.shli h)
  | 0x1d => (decSRI w).map (Instr.shri h)
  | 0x1e => (decSRI w).map (Instr.srai h)
  | 0x1f => (decSRI w).map (Instr.muli h)
  | 0x20 => (decSPR w).map (Instr.ceq h)
  | 0x21 => (decSPR w).map (Instr.cne h)
  | 0x22 => (decSPR w).map (Instr.clt h)
  | 0x23 => (decSPR w).map (Instr.cle h)
  | 0x24 => (decSPR w).map (Instr.cltn h)
  | 0x25 => (decSPR w).map (Instr.clen h)
  | 0x26 => (decSPP w).map (Instr.pand h)
  | 0x27 => (decSPP w).map (Instr.por h)
  | 0x28 => (decSPI w).map (Instr.ceqi h)
  | 0x29 => (decSPI w).map (Instr.cnei h)
  | 0x2a => (decSPI w).map (Instr.clti h)
  | 0x2b => (decSPI w).map (Instr.clei h)
  | 0x2c => (decSPI w).map (Instr.cltni h)
  | 0x2d => (decSPI w).map (Instr.cleni h)
  | 0x2e => (decSPP w).map (Instr.pxor h)
  | 0x2f => (decSPP w).map (Instr.pandn h)
  | 0x30 => (decSSL w).map (Instr.sel h)
  | 0x31 => (decSXR w).map (Instr.mfx h)
  | 0x32 => (decSXR w).map (Instr.mtx h)
  | 0x33 => (decSXB w).map (Instr.mfb h)
  | 0x34 => (decSXB w).map (Instr.mtb h)
  | 0x3e => (decSLI w).map (Instr.limmh h)
  | 0x3f => (decSLI w).map (Instr.limml h)
  | _ => decVacant h 0 opc w

/-- C class (R68). -/
def decC (h : Hdr) (opc w : Nat) : Option Instr :=
  match opc with
  | 0x0 => (decNone w).map fun _ => Instr.nop h
  | 0x1 => (decNone w).map fun _ => Instr.halt h
  | 0x2 => (decNone w).map fun _ => Instr.exit h
  | 0x3 => (decCI w).map (Instr.trap h)
  | 0x4 => (decNone w).map fun _ => Instr.detach h
  | 0x5 => (decCJ w).map (Instr.join h)
  | 0x6 => (decNone w).map fun _ => Instr.fuse h
  | 0x7 => (decNone w).map fun _ => Instr.unfuse h
  | 0x8 => (decCT w).map (Instr.pbt h)
  | 0x9 => (decCB w).map (Instr.brt h)
  | 0xa => (decCC w).map (Instr.call h)
  | 0xb => (decCB w).map (Instr.ret h)
  | 0x10 => (decCL w).map (Instr.loop h)
  | 0x11 => (decCM w).map (Instr.mloop h)
  | 0x12 => (decCS w).map (Instr.lstri h)
  | 0x13 => (decCW w).map (Instr.lstrr h)
  | 0x14 => (decCV w).map (Instr.lbrk h)
  | 0x15 => (decCV w).map (Instr.lnext h)
  | _ => decVacant h 1 opc w

/-- V class, width-coded rows (R69): OPC[1:0] is the element type. -/
def decVw (h : Hdr) (opc w : Nat) : Option Instr :=
  match opc / 4 with
  | 0x0 => (decVR w).map (Instr.vadd h (BitVec.ofNat 2 (opc % 4)))
  | 0x1 => (decVR w).map (Instr.vsub h (BitVec.ofNat 2 (opc % 4)))
  | 0x2 => (decVR w).map (Instr.vmul h (BitVec.ofNat 2 (opc % 4)))
  | 0x3 => (decVR w).map (Instr.vmulh h (BitVec.ofNat 2 (opc % 4)))
  | 0x4 => (decVR w).map (Instr.vmin h (BitVec.ofNat 2 (opc % 4)))
  | 0x5 => (decVR w).map (Instr.vmax h (BitVec.ofNat 2 (opc % 4)))
  | 0x6 => (decVR w).map (Instr.vminn h (BitVec.ofNat 2 (opc % 4)))
  | 0x7 => (decVR w).map (Instr.vmaxn h (BitVec.ofNat 2 (opc % 4)))
  | 0x8 => (decVR w).map (Instr.vshl h (BitVec.ofNat 2 (opc % 4)))
  | 0x9 => (decVR w).map (Instr.vshr h (BitVec.ofNat 2 (opc % 4)))
  | 0xa => (decVR w).map (Instr.vsra h (BitVec.ofNat 2 (opc % 4)))
  | 0xb => (decVR w).map (Instr.vadds h (BitVec.ofNat 2 (opc % 4)))
  | 0xc => (decVR w).map (Instr.vsubs h (BitVec.ofNat 2 (opc % 4)))
  | 0xd => (decVR w).map (Instr.vpopc h (BitVec.ofNat 2 (opc % 4)))
  | 0xe => (decVR w).map (Instr.vclz h (BitVec.ofNat 2 (opc % 4)))
  | 0xf => (decVR w).map (Instr.vabs h (BitVec.ofNat 2 (opc % 4)))
  | 0x14 => (decVI w).map (Instr.vaddi h (BitVec.ofNat 2 (opc % 4)))
  | 0x15 => (decVI w).map (Instr.vshli h (BitVec.ofNat 2 (opc % 4)))
  | 0x16 => (decVI w).map (Instr.vshri h (BitVec.ofNat 2 (opc % 4)))
  | 0x17 => (decVI w).map (Instr.vmovi h (BitVec.ofNat 2 (opc % 4)))
  | _ => decVacant h 2 opc w

/-- V class (R69). -/
def decV (h : Hdr) (opc w : Nat) : Option Instr :=
  match opc with
  | 0x40 => (decVR w).map (Instr.vand h)
  | 0x41 => (decVR w).map (Instr.vor h)
  | 0x42 => (decVR w).map (Instr.vxor h)
  | 0x43 => (decVR w).map (Instr.vandn h)
  | 0x44 => (decVR w).map (Instr.vmov h)
  | 0x45 => (decVR w).map (Instr.vperm h)
  | 0x46 => (decVR w).map (Instr.vclmull h)
  | 0x47 => (decVR w).map (Instr.vclmulh h)
  | 0x48 => (decVM w).map (Instr.vsel h)
  | 0x49 => (decVMM w).map (Instr.mand h)
  | 0x4a => (decVMM w).map (Instr.mor h)
  | 0x4b => (decVMM w).map (Instr.mxor h)
  | 0x4c => (decVMM w).map (Instr.mnot h)
  | 0x4d => (decVX w).map (Instr.vseed h)
  | 0x60 => (decVF w).map (Instr.vfadd h)
  | 0x61 => (decVF w).map (Instr.vfsub h)
  | 0x62 => (decVF w).map (Instr.vfmul h)
  | 0x63 => (decVF w).map (Instr.vfma h)
  | 0x64 => (decVF w).map (Instr.vfms h)
  | 0x65 => (decVF w).map (Instr.vfnma h)
  | 0x66 => (decVF w).map (Instr.vfmin h)
  | 0x67 => (decVF w).map (Instr.vfmax h)
  | 0x68 => (decVF w).map (Instr.vfabs h)
  | 0x69 => (decVF w).map (Instr.vfneg h)
  | 0x6a => (decVF w).map (Instr.vexp2 h)
  | 0x6b => (decVF w).map (Instr.vlog2 h)
  | 0x6c => (decVF w).map (Instr.vrcp h)
  | 0x6d => (decVF w).map (Instr.vrsq h)
  | 0x6e => (decVF w).map (Instr.vtanh h)
  | 0x70 => (decVC w).map (Instr.vcvtf h)
  | 0x71 => (decVC w).map (Instr.vcvtn h)
  | 0x72 => (decVC w).map (Instr.vcvti h)
  | 0x73 => (decVC w).map (Instr.vcvtif h)
  | 0x74 => (decVP w).map (Instr.vcmp h)
  | 0x78 => (decVS w).map (Instr.vrsum h)
  | 0x79 => (decVS w).map (Instr.vrmax h)
  | 0x7a => (decVS w).map (Instr.vrmin h)
  | 0x7b => (decVS w).map (Instr.vpsum h)
  | 0x7c => (decVS w).map (Instr.vargmax h)
  | 0x7d => (decVS w).map (Instr.vtopk h)
  | 0x7e => (decVS w).map (Instr.vexts h)
  | 0x7f => (decVS w).map (Instr.vinss h)
  | _ => decVw h opc w

/-- L class (R70). -/
def decL (h : Hdr) (opc w : Nat) : Option Instr :=
  match opc with
  | 0x0 => (decLM w).map (Instr.lds8 h)
  | 0x1 => (decLM w).map (Instr.lds16 h)
  | 0x2 => (decLM w).map (Instr.lds32 h)
  | 0x3 => (decLM w).map (Instr.lds64 h)
  | 0x4 => (decLM w).map (Instr.ldn8 h)
  | 0x5 => (decLM w).map (Instr.ldn16 h)
  | 0x6 => (decLM w).map (Instr.ldn32 h)
  | 0x8 => (decLM w).map (Instr.sts8 h)
  | 0x9 => (decLM w).map (Instr.sts16 h)
  | 0xa => (decLM w).map (Instr.sts32 h)
  | 0xb => (decLM w).map (Instr.sts64 h)
  | 0xc => (decLM w).map (Instr.ldv h)
  | 0xd => (decLM w).map (Instr.stv h)
  | 0xe => (decLS w).map (Instr.ldvs h)
  | 0xf => (decLS w).map (Instr.stvs h)
  | 0x10 => (decLX w).map (Instr.ldvx h)
  | 0x11 => (decLX w).map (Instr.stvx h)
  | 0x12 => (decLS w).map (Instr.stz h)
  | 0x13 => (decLS w).map (Instr.ldz h)
  | 0x14 => (decLP w).map (Instr.probe h)
  | 0x15 => (decLH w).map (Instr.hclaim h)
  | 0x16 => (decLH w).map (Instr.hrel h)
  | 0x17 => (decLM w).map (Instr.pref h)
  | 0x18 => (decLK w).map (Instr.splds h)
  | 0x19 => (decLK w).map (Instr.spsts h)
  | 0x1a => (decLK w).map (Instr.spldv h)
  | 0x1b => (decLK w).map (Instr.spstv h)
  | _ => decVacant h 3 opc w

/-- M class (R71). -/
def decM (h : Hdr) (opc w : Nat) : Option Instr :=
  match opc with
  | 0x0 => (decMB w).map (Instr.beat h)
  | 0x1 => (decMA w).map (Instr.acrel h)
  | 0x2 => (decNone w).map fun _ => Instr.acrela h
  | 0x3 => (decMG w).map (Instr.acgrp h)
  | 0x4 => (decMV w).map (Instr.acmov h)
  | 0x5 => (decMV w).map (Instr.acld h)
  | 0x6 => (decMC w).map (Instr.mcfg h)
  | 0x7 => (decNone w).map fun _ => Instr.wswap h
  | 0x8 => (decNone w).map fun _ => Instr.wclr h
  | 0x9 => (decNone w).map fun _ => Instr.mwait h
  | _ => decVacant h 4 opc w

/-- W class (R72). -/
def decW (h : Hdr) (opc w : Nat) : Option Instr :=
  match opc with
  | 0x0 => (decWR w).map (Instr.rowld h)
  | 0x1 => (decWR w).map (Instr.rowst h)
  | 0x2 => (decWR w).map (Instr.rowupd h)
  | 0x3 => (decWR w).map (Instr.rowpack h)
  | 0x4 => (decWR w).map (Instr.rowrestore h)
  | 0x5 => (decWR w).map (Instr.rowcnt h)
  | 0x6 => (decWI w).map (Instr.rowset h)
  | 0x7 => (decWI w).map (Instr.rowrec h)
  | 0x8 => (decWR w).map (Instr.rowrdec h)
  | 0x9 => (decWR w).map (Instr.rowtrld h)
  | 0xa => (decWR w).map (Instr.rowtrst h)
  | 0xb => (decWR w).map (Instr.rowmask h)
  | 0xc => (decWR w).map (Instr.rowseq h)
  | 0xd => (decWR w).map (Instr.rowclr h)
  | _ => decVacant h 5 opc w

/-- Y class (R73). -/
def decY (h : Hdr) (opc w : Nat) : Option Instr :=
  match opc with
  | 0x0 => (decYK w).map (Instr.cadd h)
  | 0x1 => (decYK w).map (Instr.cwait h)
  | 0x2 => (decYK w).map (Instr.cread h)
  | 0x3 => (decYK w).map (Instr.cmax h)
  | 0x4 => (decYW w).map (Instr.cwany h)
  | 0x5 => (decYK w).map (Instr.cbind h)
  | 0x6 => decStake h w
  | 0x7 => (decYN w).map (Instr.phase h)
  | 0x8 => (decYG w).map (Instr.cpyq h)
  | 0x9 => (decYG w).map (Instr.cpymc h)
  | 0xa => (decYG w).map (Instr.hbdrain h)
  | 0xb => (decYG w).map (Instr.gsub h)
  | 0xc => (decYG w).map (Instr.gunsub h)
  | 0xd => (decYG w).map (Instr.gred h)
  | 0x10 => (decYG w).map (Instr.tlaunch h)
  | 0x11 => (decYG w).map (Instr.tqadd h)
  | 0x12 => (decYG w).map (Instr.tdqadd h)
  | 0x13 => (decYG w).map (Instr.tdqtake h)
  | 0x14 => (decYG w).map (Instr.tcancel h)
  | 0x18 => (decYG w).map (Instr.filreq h)
  | 0x19 => (decYG w).map (Instr.kvprobe h)
  | 0x1a => decKvmark h w
  | 0x1b => decCalve h w
  | 0x1c => (decYG w).map (Instr.colred h)
  | 0x1d => (decYG w).map (Instr.colbc h)
  | 0x1e => (decYG w).map (Instr.colag h)
  | _ => decVacant h 6 opc w

/-- Z class (R74). -/
def decZ (h : Hdr) (opc w : Nat) : Option Instr :=
  match opc with
  | 0x0 => (decNone w).map fun _ => Instr.tret h
  | 0x1 => (decZC w).map (Instr.csrr h)
  | 0x2 => (decZC w).map (Instr.csrw h)
  | 0x3 => (decZC w).map (Instr.csrs h)
  | 0x4 => (decZC w).map (Instr.csrc h)
  | 0x5 => (decZI w).map (Instr.tmark h)
  | 0x6 => (decZI w).map (Instr.smpctl h)
  | 0x7 => (decZI w).map (Instr.bkpt h)
  | 0x8 => (decZG w).map (Instr.wpset h)
  | 0x9 => (decZI w).map (Instr.wpclr h)
  | 0xa => (decZG w).map (Instr.taginv h)
  | 0xb => (decNone w).map fun _ => Instr.tagflush h
  | 0x10 => decPartop h w
  | 0x11 => decCtxop h w
  | 0x12 => decSwapop h w
  | _ => decVacant h 7 opc w

/-- A syllable by its class (R43), before the operand limits. -/
def decodeRaw (w : Nat) : Option Instr :=
  let h := decHdr w
  let opc := fld w 38 8
  match fld w 61 3 with
  | 0 => decS h opc w
  | 1 => decC h opc w
  | 2 => decV h opc w
  | 3 => decL h opc w
  | 4 => decM h opc w
  | 5 => decW h opc w
  | 6 => decY h opc w
  | _ => decZ h opc w

/-! ## Operand limits (R46 item 3, R47, R57-R59, R66 and the engines' own tables) -/

/-- Header limits of R47. -/
def hdrOk (h : Hdr) : Bool :=
  h.edge ≠ 3 && h.elvl.toNat ≤ 5 && (h.edge ≠ 0 || h.elvl = 0)

/-- R47: syllables that must stand without guard and edge. -/
def hdrPlain (h : Hdr) : Bool :=
  !h.gn && h.gp = 0 && h.edge = 0

/-- Registers of a group of n elements of w bits (R56). -/
def groupSize (n w : Nat) : Nat := (n * w + 2047) / 2048

/-- R57 for a group of n elements of w bits from register base. -/
def groupOk (base n w : Nat) : Bool :=
  let g := groupSize n w
  g ≤ 16 && base + g ≤ 64 && (base + g ≤ 32 || 32 ≤ base)

/-- R56, R57 for a group named with NQ. -/
def nqOk (base nq w : Nat) : Bool := nq ≠ 0 && groupOk base (16 * nq) w

/-- Element width of a width code (R69, R226). -/
def widthOf (ew : BitVec 2) : Nat := 8 * 2 ^ ew.toNat

/-- The source modifier of R59. -/
def modOk (mdf : BitVec 12) (bs : BitVec 1) : Bool :=
  let cls := fld mdf.toNat 10 2
  let s := fld mdf.toNat 6 4
  let d := fld mdf.toNat 0 6
  (cls ≠ 0 || fld mdf.toNat 0 10 = 0) && s ≤ 6 && d < 2 ^ s &&
    (cls ≠ 2 || d = 1 || d = 2 || d = 4 || d = 8 || d = 16 || d = 32) && (bs = 0 || mdf = 0)

/-- A binary VR form of element width w (R57, R59, R287). -/
def vrOk (w : Nat) (o : VR) : Bool :=
  modOk o.mdf o.bs && nqOk o.d.toNat o.nq.toNat w && nqOk o.a.toNat o.nq.toNat w &&
    (o.bs = 1 || nqOk o.b.toNat o.nq.toNat w)

/-- A unary VR form (R288): fields it does not use are zero. -/
def vrUnOk (w : Nat) (o : VR) : Bool :=
  o.b = 0 && o.mdf = 0 && o.bs = 0 && nqOk o.d.toNat o.nq.toNat w && nqOk o.a.toNat o.nq.toNat w

/-- VMOV (R293): the a field is zero. -/
def vmovOk (o : VR) : Bool :=
  o.a = 0 && modOk o.mdf o.bs && nqOk o.d.toNat o.nq.toNat 32 && (o.bs = 1 || nqOk o.b.toNat o.nq.toNat 32)

/-- A VI form of element width w (R292). -/
def viOk (w : Nat) (o : VI) : Bool :=
  nqOk o.d.toNat o.nq.toNat w && nqOk o.a.toNat o.nq.toNat w

/-- Element width of a VF type (R65, R287). -/
def vfWidth (ty : BitVec 2) : Nat := if ty = 0 then 32 else 16

/-- A binary VF form (R65, R299). -/
def vfOk (o : VF) : Bool :=
  let w := vfWidth o.ty
  o.ty ≠ 3 && nqOk o.d.toNat o.nq.toNat w && nqOk o.a.toNat o.nq.toNat w &&
    (o.bs = 1 || nqOk o.b.toNat o.nq.toNat w)

/-- A unary VF form (R288, R300). -/
def vfUnOk (o : VF) : Bool :=
  let w := vfWidth o.ty
  o.ty ≠ 3 && o.b = 0 && o.bs = 0 && nqOk o.d.toNat o.nq.toNat w && nqOk o.a.toNat o.nq.toNat w

/-- R299: forms that never round have RM and SAT zero. -/
def vfNoRound (o : VF) : Bool := o.rm = 0 && o.sat = 0

/-- A VC form (R287, R302). -/
def vcOk (o : VC) : Bool := nqOk o.d.toNat o.nq.toNat 32 && nqOk o.a.toNat o.nq.toNat 32

/-- Element width of a three-bit type (R65). -/
def tyWidth (ty : BitVec 3) : Nat :=
  match ty.toNat with
  | 0 => 8 | 1 => 16 | 2 => 32 | 3 => 64 | 4 => 32 | _ => 16

/-- A three-bit type is a floating-point one (R65). -/
def tyFloat (ty : BitVec 3) : Bool := 4 ≤ ty.toNat

/-- VCMP (R297, R298). -/
def vpOk (o : VP) : Bool :=
  let w := tyWidth o.ty
  o.ty ≠ 7 && o.cnd.toNat ≤ 9 && (tyFloat o.ty || o.cnd.toNat ≤ 7) &&
    (!tyFloat o.ty || (o.cnd.toNat ≠ 6 && o.cnd.toNat ≠ 7)) &&
    16 * o.nq.toNat * w ≤ 2048 && nqOk o.a.toNat o.nq.toNat w && (o.bs = 1 || nqOk o.b.toNat o.nq.toNat w)

/-- Segment and rounding of a VS form (R304). -/
def vsSegOk (o : VS) : Bool :=
  o.ty ≠ 7 && o.nq ≠ 0 && o.seg.toNat ≤ 10 && 16 * o.nq.toNat % 2 ^ o.seg.toNat = 0

/-- A VS reduction or scan with dn destination elements of dw bits (R287, R305). -/
def vsOk (o : VS) (dn dw : Nat) : Bool :=
  vsSegOk o && nqOk o.a.toNat o.nq.toNat (tyWidth o.ty) && groupOk o.d.toNat dn dw

/-- Segments of a VS form (R305). -/
def vsSegs (o : VS) : Nat := 16 * o.nq.toNat / 2 ^ o.seg.toNat

/-- R304: RM is zero except for a sum of floating-point elements. -/
def vsRmOk (o : VS) : Bool := o.rm = 0 || tyFloat o.ty

/-- VEXTS and VINSS (R308). -/
def vsElemOk (o : VS) : Bool := o.ty ≠ 7 && o.nq ≠ 0 && o.seg = 0 && o.rm = 0

/-- VSEL (R295). -/
def vmOk (o : VM) : Bool :=
  nqOk o.d.toNat o.nq.toNat 32 && nqOk o.a.toNat o.nq.toNat 32 && (o.bs = 1 || nqOk o.b.toNat o.nq.toNat 32)

/-- Rows per tile of an MQ code (R58). -/
def rowsOf (mq : BitVec 2) : Nat := 32 * 2 ^ mq.toNat

/-- ORD and SCP (R65, R66). -/
def ordScpOk (ord : BitVec 2) (scp : BitVec 3) : Bool :=
  scp.toNat ≤ 4 && (ord ≠ 0 || scp = 0)

/-- LOOP operands (R65, R66). -/
def clOk (o : CL) : Bool :=
  o.lv.toNat ≤ 5 && (o.src = 2 || o.mq = 0) && o.mq ≠ 3 &&
    (o.src ≠ 1 || fld o.cnt.toNat 0 14 = 0) && (o.src = 0 || o.src = 1 || o.cnt = 0)

/-- MLOOP operands (R66, R168). -/
def cmOk (o : CM) : Bool :=
  o.lv.toNat ≤ 5 && o.src ≠ 0 && (o.src = 2 || o.mq = 0) && o.mq ≠ 3 && o.ii ≠ 0

/-- Selector of MFX (R62). -/
def selReadable (sel : BitVec 8) : Bool :=
  let n := sel.toNat
  n ≤ 7 || (0x10 ≤ n && n ≤ 0x15) || (0x18 ≤ n && n ≤ 0x1D)

/-- Selector of MTX (R62). -/
def selWritable (sel : BitVec 8) : Bool := sel = 0 || sel = 6

/-- YG form: the fields named by the flags are used, every other is zero. -/
def ygOk (useY useZ : Bool) (o : YG) : Bool :=
  ordScpOk o.ord o.scp && (useY || o.y = 0) && (useZ || o.z = 0)

/-- A YG form without ordering (ORD and SCP zero). -/
def ygPlain (o : YG) : Bool := o.ord = 0 && o.scp = 0

/-- A YG form that is unordered or a release. -/
def ygRel (o : YG) : Bool := o.ord = 0 || o.ord = 2

/-- A YG form that is always a release at package scope (R424). -/
def ygRelPkg (o : YG) : Bool := o.ord = 2 && o.scp = 3

/-- The operand limits of R46 item 3 for every instruction (an event has no operand limits). -/
def operandsOk : Instr → Bool
  | .add h _ => hdrOk h
  | .sub h _ => hdrOk h
  | .and h _ => hdrOk h
  | .or h _ => hdrOk h
  | .xor h _ => hdrOk h
  | .andn h _ => hdrOk h
  | .shl h _ => hdrOk h
  | .shr h _ => hdrOk h
  | .sra h _ => hdrOk h
  | .rol h _ => hdrOk h
  | .mul h _ => hdrOk h
  | .mulh h _ => hdrOk h
  | .mulhn h _ => hdrOk h
  | .min h _ => hdrOk h
  | .max h _ => hdrOk h
  | .minn h _ => hdrOk h
  | .maxn h _ => hdrOk h
  | .clz h _ => hdrOk h
  | .ctz h _ => hdrOk h
  | .popc h _ => hdrOk h
  | .brev h _ => hdrOk h
  | .bswap h _ => hdrOk h
  | .bext h o => hdrOk h && o.pos.toNat + (if o.len = 0 then 64 else o.len.toNat) ≤ 64
  | .bins h o => hdrOk h && o.pos.toNat + (if o.len = 0 then 64 else o.len.toNat) ≤ 64
  | .addi h _ => hdrOk h
  | .andi h _ => hdrOk h
  | .ori h _ => hdrOk h
  | .xori h _ => hdrOk h
  | .shli h o => hdrOk h && fld o.imm.toNat 6 20 = 0
  | .shri h o => hdrOk h && fld o.imm.toNat 6 20 = 0
  | .srai h o => hdrOk h && fld o.imm.toNat 6 20 = 0
  | .muli h _ => hdrOk h
  | .ceq h _ => hdrOk h
  | .cne h _ => hdrOk h
  | .clt h _ => hdrOk h
  | .cle h _ => hdrOk h
  | .cltn h _ => hdrOk h
  | .clen h _ => hdrOk h
  | .pand h _ => hdrOk h
  | .por h _ => hdrOk h
  | .ceqi h _ => hdrOk h
  | .cnei h _ => hdrOk h
  | .clti h _ => hdrOk h
  | .clei h _ => hdrOk h
  | .cltni h _ => hdrOk h
  | .cleni h _ => hdrOk h
  | .pxor h _ => hdrOk h
  | .pandn h _ => hdrOk h
  | .sel h _ => hdrOk h
  | .mfx h o => hdrOk h && selReadable o.sel
  | .mtx h o => hdrOk h && selWritable o.sel
  | .mfb h _ => hdrOk h
  | .mtb h _ => hdrOk h
  | .limmh h _ => hdrOk h
  | .limml h _ => hdrOk h
  | .nop h => hdrOk h
  | .halt h => hdrOk h
  | .exit h => hdrOk h
  | .trap h _ => hdrOk h
  | .detach h => hdrOk h && hdrPlain h
  | .join h _ => hdrOk h && hdrPlain h
  | .fuse h => hdrOk h && hdrPlain h
  | .unfuse h => hdrOk h && hdrPlain h
  | .pbt h _ => hdrOk h
  | .brt h _ => hdrOk h
  | .call h _ => hdrOk h
  | .ret h _ => hdrOk h
  | .loop h o => hdrOk h && hdrPlain h && clOk o
  | .mloop h o => hdrOk h && hdrPlain h && cmOk o
  | .lstri h o => hdrOk h && hdrPlain h && o.lv.toNat ≤ 5
  | .lstrr h o => hdrOk h && hdrPlain h && o.lv.toNat ≤ 5
  | .lbrk h o => hdrOk h && o.lv.toNat ≤ 5
  | .lnext h o => hdrOk h && o.lv.toNat ≤ 5
  | .vadd h ew o => hdrOk h && vrOk (widthOf ew) o
  | .vsub h ew o => hdrOk h && vrOk (widthOf ew) o
  | .vmul h ew o => hdrOk h && vrOk (widthOf ew) o
  | .vmulh h ew o => hdrOk h && vrOk (widthOf ew) o
  | .vmin h ew o => hdrOk h && vrOk (widthOf ew) o
  | .vmax h ew o => hdrOk h && vrOk (widthOf ew) o
  | .vminn h ew o => hdrOk h && vrOk (widthOf ew) o
  | .vmaxn h ew o => hdrOk h && vrOk (widthOf ew) o
  | .vshl h ew o => hdrOk h && vrOk (widthOf ew) o
  | .vshr h ew o => hdrOk h && vrOk (widthOf ew) o
  | .vsra h ew o => hdrOk h && vrOk (widthOf ew) o
  | .vadds h ew o => hdrOk h && vrOk (widthOf ew) o
  | .vsubs h ew o => hdrOk h && vrOk (widthOf ew) o
  | .vpopc h ew o => hdrOk h && vrUnOk (widthOf ew) o
  | .vclz h ew o => hdrOk h && vrUnOk (widthOf ew) o
  | .vabs h ew o => hdrOk h && vrUnOk (widthOf ew) o
  | .vand h o => hdrOk h && vrOk 32 o
  | .vor h o => hdrOk h && vrOk 32 o
  | .vxor h o => hdrOk h && vrOk 32 o
  | .vandn h o => hdrOk h && vrOk 32 o
  | .vmov h o => hdrOk h && vmovOk o
  | .vperm h o => hdrOk h && vrOk 32 o
  | .vclmull h o => hdrOk h && vrOk 64 o
  | .vclmulh h o => hdrOk h && vrOk 64 o
  | .vsel h o => hdrOk h && vmOk o
  | .mand h _ => hdrOk h
  | .mor h _ => hdrOk h
  | .mxor h _ => hdrOk h
  | .mnot h o => hdrOk h && o.mb = 0
  | .vseed h _ => hdrOk h
  | .vaddi h ew o => hdrOk h && viOk (widthOf ew) o
  | .vshli h ew o => hdrOk h && viOk (widthOf ew) o && o.imm.toNat < widthOf ew
  | .vshri h ew o => hdrOk h && viOk (widthOf ew) o && o.imm.toNat < widthOf ew
  | .vmovi h ew o => hdrOk h && o.a = 0 && nqOk o.d.toNat o.nq.toNat (widthOf ew)
  | .vfadd h o => hdrOk h && vfOk o
  | .vfsub h o => hdrOk h && vfOk o
  | .vfmul h o => hdrOk h && vfOk o
  | .vfma h o => hdrOk h && vfOk o
  | .vfms h o => hdrOk h && vfOk o
  | .vfnma h o => hdrOk h && vfOk o
  | .vfmin h o => hdrOk h && vfOk o && vfNoRound o
  | .vfmax h o => hdrOk h && vfOk o && vfNoRound o
  | .vfabs h o => hdrOk h && vfUnOk o && vfNoRound o
  | .vfneg h o => hdrOk h && vfUnOk o && vfNoRound o
  | .vexp2 h o => hdrOk h && vfUnOk o
  | .vlog2 h o => hdrOk h && vfUnOk o
  | .vrcp h o => hdrOk h && vfUnOk o
  | .vrsq h o => hdrOk h && vfUnOk o
  | .vtanh h o => hdrOk h && vfUnOk o
  | .vcvtf h o => hdrOk h && vcOk o && o.rm = 0 && o.sat = 0
  | .vcvtn h o => hdrOk h && vcOk o
  | .vcvti h o => hdrOk h && vcOk o
  | .vcvtif h o => hdrOk h && vcOk o && o.rm = 0 && o.sat = 0
  | .vcmp h o => hdrOk h && vpOk o
  | .vrsum h o => hdrOk h && o.b = 0 && vsRmOk o && vsOk o (vsSegs o) (tyWidth o.ty)
  | .vrmax h o => hdrOk h && o.b = 0 && o.rm = 0 && vsOk o (vsSegs o) (tyWidth o.ty)
  | .vrmin h o => hdrOk h && o.b = 0 && o.rm = 0 && vsOk o (vsSegs o) (tyWidth o.ty)
  | .vpsum h o => hdrOk h && o.b = 0 && vsRmOk o && vsOk o (16 * o.nq.toNat) (tyWidth o.ty)
  | .vargmax h o => hdrOk h && o.b = 0 && o.rm = 0 && vsOk o (vsSegs o) 32
  | .vtopk h o => hdrOk h && o.rm = 0 && vsOk o (16 * o.nq.toNat) 32
  | .vexts h o => hdrOk h && vsElemOk o
  | .vinss h o => hdrOk h && vsElemOk o
  | .lds8 h o => hdrOk h && o.nq = 0
  | .lds16 h o => hdrOk h && o.nq = 0
  | .lds32 h o => hdrOk h && o.nq = 0
  | .lds64 h o => hdrOk h && o.nq = 0
  | .ldn8 h o => hdrOk h && o.nq = 0
  | .ldn16 h o => hdrOk h && o.nq = 0
  | .ldn32 h o => hdrOk h && o.nq = 0
  | .sts8 h o => hdrOk h && o.nq = 0
  | .sts16 h o => hdrOk h && o.nq = 0
  | .sts32 h o => hdrOk h && o.nq = 0
  | .sts64 h o => hdrOk h && o.nq = 0
  | .ldv h o => hdrOk h && nqOk o.d.toNat o.nq.toNat 32
  | .stv h o => hdrOk h && nqOk o.d.toNat o.nq.toNat 32
  | .ldvs h o => hdrOk h && nqOk o.d.toNat o.nq.toNat 32
  | .stvs h o => hdrOk h && nqOk o.d.toNat o.nq.toNat 32
  | .ldvx h o => hdrOk h && nqOk o.d.toNat o.nq.toNat (widthOf o.isz) && nqOk o.b.toNat o.nq.toNat 32
  | .stvx h o => hdrOk h && nqOk o.d.toNat o.nq.toNat (widthOf o.isz) && nqOk o.b.toNat o.nq.toNat 32
  | .stz h o => hdrOk h && nqOk o.d.toNat o.nq.toNat 32
  | .ldz h o => hdrOk h && nqOk o.d.toNat o.nq.toNat 32
  | .probe h _ => hdrOk h
  | .hclaim h _ => hdrOk h
  | .hrel h o => hdrOk h && o.a = 0
  | .pref h o => hdrOk h && o.d = 0 && o.nq = 0
  | .splds h o => hdrOk h && o.off.toNat % 8 = 0
  | .spsts h o => hdrOk h && o.off.toNat % 8 = 0
  | .spldv h o => hdrOk h && o.off.toNat % 256 = 0
  | .spstv h o => hdrOk h && o.off.toNat % 256 = 0
  | .beat h o => hdrOk h && o.aop ≠ 3 && o.wop ≠ 3 && o.dop ≠ 3 && o.m ≠ 3
  | .acrel h _ => hdrOk h
  | .acrela h => hdrOk h
  | .acgrp h o => hdrOk h && o.lo.toNat ≤ o.hi.toNat
  | .acmov h o => hdrOk h && o.row.toNat + o.cnt.toNat + 1 ≤ 128
  | .acld h o => hdrOk h && o.row.toNat + o.cnt.toNat + 1 ≤ 128
  | .mcfg h o => hdrOk h && 1 ≤ o.nq.toNat && o.nq.toNat ≤ 8 && o.ak ≠ 3
  | .wswap h => hdrOk h
  | .wclr h => hdrOk h
  | .mwait h => hdrOk h
  | .rowld h o => hdrOk h && o.d = 0 && o.mq = 0 && o.blk = 0
  | .rowst h o => hdrOk h && o.d = 0 && o.b = 0 && o.mq = 0 && o.blk = 0
  | .rowupd h o => hdrOk h && o.mq ≠ 3 && groupOk o.a.toNat (rowsOf o.mq) 32
  | .rowpack h o => hdrOk h && o.d.toNat ≤ 1 && o.mq ≠ 3 && (decide (o.a = 0) == decide (o.b = 0))
  | .rowrestore h o => hdrOk h && o.d = 0 && o.mq = 0 && o.blk = 0
  | .rowcnt h o => hdrOk h && o.d.toNat ≤ 1 && o.a = 0 && o.b = 0 && o.mq = 0
  | .rowset h o => hdrOk h && 1 ≤ o.imm.toNat && o.imm.toNat ≤ 4096
  | .rowrec h o => hdrOk h && 1 ≤ o.imm.toNat && o.imm.toNat ≤ 1024 && groupOk o.d.toNat o.imm.toNat 32
  | .rowrdec h o => hdrOk h && o.a = 0 && o.b = 0 && o.mq = 0 && o.blk = 0
  | .rowtrld h o => hdrOk h && o.d = 0 && o.mq = 0 && o.blk = 0
  | .rowtrst h o => hdrOk h && o.b = 0 && o.mq = 0 && o.blk = 0
  | .rowmask h o => hdrOk h && o.d.toNat ≤ 7 && o.b = 0 && o.mq = 0 && o.blk = 0
  | .rowseq h o => hdrOk h && o.b = 0 && o.blk = 0 && o.mq ≠ 3 && groupOk o.d.toNat (rowsOf o.mq) 32
  | .rowclr h o => hdrOk h && o.d = 0 && o.a = 0 && o.b = 0 && o.mq = 0 && o.blk = 0
  | .cadd h o => hdrOk h && ordScpOk o.ord o.scp
  | .cwait h o => hdrOk h && ordScpOk o.ord o.scp
  | .cread h o => hdrOk h && ordScpOk o.ord o.scp && o.imm = 0
  | .cmax h o => hdrOk h && ordScpOk o.ord o.scp
  | .cwany h o => hdrOk h && ordScpOk o.ord o.scp && o.mask ≠ 0 && o.a.toNat + 7 ≤ 63
  | .cbind h o => hdrOk h && o.ord = 0 && o.scp = 0
  | .stakeCreate h o => hdrOk h && ordScpOk o.ord o.scp && o.sgn = 0
  | .stakeRetire h o => hdrOk h && ordScpOk o.ord o.scp && o.sgn = 1 && o.cnt ≠ 0
  | .stakeAdvance h o => hdrOk h && ordScpOk o.ord o.scp && o.sgn = 1 && o.cnt = 0
  | .phase h o => hdrOk h && ordScpOk o.ord o.scp
  | .cpyq h o => hdrOk h && ygOk true true o && o.imm = 0
  | .cpymc h o => hdrOk h && ygOk false false o && ygPlain o && o.imm = 0
  | .hbdrain h o => hdrOk h && ygOk true false o && ygPlain o && o.imm = 0
  | .gsub h o => hdrOk h && ygOk true false o && o.imm = 0
  | .gunsub h o => hdrOk h && ygOk false false o && o.imm = 0
  | .gred h o => hdrOk h && ygOk false false o && o.imm = 0
  | .tlaunch h o => hdrOk h && ygOk true false o && ygRelPkg o && fld o.imm.toNat 4 11 = 0
  | .tqadd h o => hdrOk h && ygOk true false o && ygRelPkg o && fld o.imm.toNat 6 9 = 0 && (fld o.imm.toNat 5 1 = 1 || o.imm = 0)
  | .tdqadd h o => hdrOk h && ygOk true false o && ygRelPkg o && o.imm = 0
  | .tdqtake h o => hdrOk h && ygOk true false o && ygPlain o && o.imm = 0
  | .tcancel h o => hdrOk h && ygOk true false o && ygRel o && o.imm = 0
  | .filreq h o => hdrOk h && ygOk true true o && ygPlain o && o.imm = 0
  | .kvprobe h o => hdrOk h && ygOk true true o && ygPlain o && fld o.imm.toNat 6 9 = 0
  | .kvmarkValid h o => hdrOk h && ygOk false true o && ygRel o && o.imm.toNat = 0
  | .kvmarkExit h o => hdrOk h && ygOk false true o && ygRel o && o.imm.toNat = 1
  | .kvmarkClear h o => hdrOk h && ygOk false true o && ygRel o && o.imm.toNat = 2
  | .calve h o => hdrOk h && ygOk true true o && ygRel o && o.imm = 0
  | .calveArm h o => hdrOk h && ygOk true true o && ygPlain o && o.imm = 1
  | .colred h o => hdrOk h && ygOk false false o && o.imm = 0
  | .colbc h o => hdrOk h && ygOk false false o && o.imm = 0
  | .colag h o => hdrOk h && ygOk false false o && o.imm = 0
  | .tret h => hdrOk h
  | .csrr h o => hdrOk h && o.a = 0
  | .csrw h _ => hdrOk h
  | .csrs h _ => hdrOk h
  | .csrc h _ => hdrOk h
  | .tmark h o => hdrOk h && fld o.imm.toNat 8 8 = 0
  | .smpctl h o => hdrOk h && fld o.imm.toNat 2 14 = 0
  | .bkpt h o => hdrOk h && o.a = 0
  | .wpset h o => hdrOk h && o.z = 0 && fld o.imm.toNat 4 16 = 0 && fld o.imm.toNat 2 2 ≠ 0
  | .wpclr h o => hdrOk h && o.a = 0 && fld o.imm.toNat 3 13 = 0
  | .taginv h o => hdrOk h && o.y = 0 && o.z = 0 && o.imm = 0
  | .tagflush h => hdrOk h
  | .partopForm h o => hdrOk h && o.imm.toNat = 1
  | .partopDissolve h o => hdrOk h && o.imm.toNat = 2
  | .partopPreempt h o => hdrOk h && o.imm.toNat = 3
  | .partopQreset h o => hdrOk h && o.imm.toNat = 4
  | .ctxopCreate h o => hdrOk h && o.imm.toNat = 1
  | .ctxopDestroy h o => hdrOk h && o.imm.toNat = 2
  | .ctxopInval h o => hdrOk h && fld o.imm.toNat 0 4 = 3
  | .ctxopAttest h o => hdrOk h && o.imm.toNat = 4
  | .swapopSave h o => hdrOk h && o.imm.toNat = 1
  | .swapopRestore h o => hdrOk h && o.imm.toNat = 2
  | .swapopExch h o => hdrOk h && o.imm.toNat = 3
  | .illegalOpcode _ _ _ _ => true
  | .resultLanding _ _ => true
  | .pushLanding _ => true
  | .interrupt _ => true
  | .haltWake _ => true
  | .seqResumeReplay _ => true
  | .seqResumeContinue _ => true
  | .seqResumeUnresolved _ => true
  | .registerWrite _ _ _ _ => true
  | .launchDispatch _ _ => true
  | .taskStart _ => true
  | .stealProbe _ => true
  | .spillRefill _ => true
  | .passBoundary _ => true
  | .preemptHalt _ => true
  | .iterationOverrun _ => true
  | .swapComplete _ => true
  | .streamDelivery _ => true
  | .privateFetch _ => true
  | .icacheFill _ _ _ _ => true
  | .pageWalk _ _ _ _ => true
  | .engineCommandResume _ _ => true
  | .phaseEndComplete _ => true
  | .storeVisible _ _ => true
  | .tagInvalidation _ _ => true
  | .probeLookup _ => true
  | .windowFill _ _ _ _ => true
  | .hclaimGrant _ => true
  | .hrelPerform _ => true
  | .counterOperation _ _ _ _ => true
  | .syncAnswer _ => true
  | .moraineBatchTimeout _ _ => true
  | .batchApply _ _ => true
  | .graverAccept _ _ _ _ _ => true
  | .graverCommand _ _ _ _ _ _ => true
  | .generationUpdate _ _ _ => true
  | .scrubPassStart _ => true
  | .scrubRead _ _ => true
  | .scrubLevelCheck _ _ => true
  | .subscriptionTile _ _ => true
  | .subscriptionComplete _ _ => true
  | .graverReduction _ _ => true
  | .copyPacketTake _ => true
  | .stampReread _ => true
  | .copyPacketComplete _ _ _ _ => true
  | .cpyqEnqueue _ => true
  | .parkClaim _ _ => true
  | .parkComplete _ _ => true
  | .queueOpen _ => true
  | .queueStop _ => true
  | .firnOperation _ => true
  | .probeRetry _ => true
  | .fillEnd _ _ => true
  | .calvingNotice _ _ _ _ _ _ => true
  | .remoteRequest _ => true
  | .remoteAnswer _ _ _ => true
  | .remoteTimeout _ => true
  | .collectiveAssemble _ _ => true
  | .collectiveComplete _ => true
  | .collectiveTimeout _ => true
  | .linkDown _ _ => true
  | .ptpEventMessage _ _ => true
  | .genStart _ => true
  | .genStopRequest _ => true
  | .genHalt _ => true
  | .genIterationBegin _ => true
  | .genAppend _ => true
  | .genHoldAdvance _ => true
  | .genResume _ => true
  | .genSpec0Clear _ => true
  | .genReclaim _ _ => true
  | .genPoolTake _ => true
  | .genSlotRetire _ _ => true
  | .genSlotAllocate _ _ => true
  | .traceRecordWrite _ => true
  | .traceWiAdd _ _ => true
  | .sample _ => true
  | .counterRotate _ => true
  | .boundaryStopRequest _ => true
  | .packageReset => true
  | .bootRom _ _ _ => true
  | .coreReset _ => true
  | .featureAccept _ _ => true
  | .hostCounterAdd _ _ _ => true
  | .hostHbmWrite _ _ => true
  | .hostHbmRead _ _ => true
  | .hostControlAccess _ _ _ _ => true
  | .issueGating _ _ => true
  | .gatingEnd _ => true
  | .thermalStop _ => true
  | .refresh _ _ => true
  | .linkReturn _ => true
  | .bulkShareWindow _ => true
  | .samplingChangeApplied _ => true
  | .watchpointChangeApplied _ => true

/-- Header of a syllable; none for an event. -/
def hdrOf : Instr → Option Hdr
  | .add h _ => some h
  | .sub h _ => some h
  | .and h _ => some h
  | .or h _ => some h
  | .xor h _ => some h
  | .andn h _ => some h
  | .shl h _ => some h
  | .shr h _ => some h
  | .sra h _ => some h
  | .rol h _ => some h
  | .mul h _ => some h
  | .mulh h _ => some h
  | .mulhn h _ => some h
  | .min h _ => some h
  | .max h _ => some h
  | .minn h _ => some h
  | .maxn h _ => some h
  | .clz h _ => some h
  | .ctz h _ => some h
  | .popc h _ => some h
  | .brev h _ => some h
  | .bswap h _ => some h
  | .bext h _ => some h
  | .bins h _ => some h
  | .addi h _ => some h
  | .andi h _ => some h
  | .ori h _ => some h
  | .xori h _ => some h
  | .shli h _ => some h
  | .shri h _ => some h
  | .srai h _ => some h
  | .muli h _ => some h
  | .ceq h _ => some h
  | .cne h _ => some h
  | .clt h _ => some h
  | .cle h _ => some h
  | .cltn h _ => some h
  | .clen h _ => some h
  | .pand h _ => some h
  | .por h _ => some h
  | .ceqi h _ => some h
  | .cnei h _ => some h
  | .clti h _ => some h
  | .clei h _ => some h
  | .cltni h _ => some h
  | .cleni h _ => some h
  | .pxor h _ => some h
  | .pandn h _ => some h
  | .sel h _ => some h
  | .mfx h _ => some h
  | .mtx h _ => some h
  | .mfb h _ => some h
  | .mtb h _ => some h
  | .limmh h _ => some h
  | .limml h _ => some h
  | .nop h => some h
  | .halt h => some h
  | .exit h => some h
  | .trap h _ => some h
  | .detach h => some h
  | .join h _ => some h
  | .fuse h => some h
  | .unfuse h => some h
  | .pbt h _ => some h
  | .brt h _ => some h
  | .call h _ => some h
  | .ret h _ => some h
  | .loop h _ => some h
  | .mloop h _ => some h
  | .lstri h _ => some h
  | .lstrr h _ => some h
  | .lbrk h _ => some h
  | .lnext h _ => some h
  | .vadd h _ _ => some h
  | .vsub h _ _ => some h
  | .vmul h _ _ => some h
  | .vmulh h _ _ => some h
  | .vmin h _ _ => some h
  | .vmax h _ _ => some h
  | .vminn h _ _ => some h
  | .vmaxn h _ _ => some h
  | .vshl h _ _ => some h
  | .vshr h _ _ => some h
  | .vsra h _ _ => some h
  | .vadds h _ _ => some h
  | .vsubs h _ _ => some h
  | .vpopc h _ _ => some h
  | .vclz h _ _ => some h
  | .vabs h _ _ => some h
  | .vand h _ => some h
  | .vor h _ => some h
  | .vxor h _ => some h
  | .vandn h _ => some h
  | .vmov h _ => some h
  | .vperm h _ => some h
  | .vclmull h _ => some h
  | .vclmulh h _ => some h
  | .vsel h _ => some h
  | .mand h _ => some h
  | .mor h _ => some h
  | .mxor h _ => some h
  | .mnot h _ => some h
  | .vseed h _ => some h
  | .vaddi h _ _ => some h
  | .vshli h _ _ => some h
  | .vshri h _ _ => some h
  | .vmovi h _ _ => some h
  | .vfadd h _ => some h
  | .vfsub h _ => some h
  | .vfmul h _ => some h
  | .vfma h _ => some h
  | .vfms h _ => some h
  | .vfnma h _ => some h
  | .vfmin h _ => some h
  | .vfmax h _ => some h
  | .vfabs h _ => some h
  | .vfneg h _ => some h
  | .vexp2 h _ => some h
  | .vlog2 h _ => some h
  | .vrcp h _ => some h
  | .vrsq h _ => some h
  | .vtanh h _ => some h
  | .vcvtf h _ => some h
  | .vcvtn h _ => some h
  | .vcvti h _ => some h
  | .vcvtif h _ => some h
  | .vcmp h _ => some h
  | .vrsum h _ => some h
  | .vrmax h _ => some h
  | .vrmin h _ => some h
  | .vpsum h _ => some h
  | .vargmax h _ => some h
  | .vtopk h _ => some h
  | .vexts h _ => some h
  | .vinss h _ => some h
  | .lds8 h _ => some h
  | .lds16 h _ => some h
  | .lds32 h _ => some h
  | .lds64 h _ => some h
  | .ldn8 h _ => some h
  | .ldn16 h _ => some h
  | .ldn32 h _ => some h
  | .sts8 h _ => some h
  | .sts16 h _ => some h
  | .sts32 h _ => some h
  | .sts64 h _ => some h
  | .ldv h _ => some h
  | .stv h _ => some h
  | .ldvs h _ => some h
  | .stvs h _ => some h
  | .ldvx h _ => some h
  | .stvx h _ => some h
  | .stz h _ => some h
  | .ldz h _ => some h
  | .probe h _ => some h
  | .hclaim h _ => some h
  | .hrel h _ => some h
  | .pref h _ => some h
  | .splds h _ => some h
  | .spsts h _ => some h
  | .spldv h _ => some h
  | .spstv h _ => some h
  | .beat h _ => some h
  | .acrel h _ => some h
  | .acrela h => some h
  | .acgrp h _ => some h
  | .acmov h _ => some h
  | .acld h _ => some h
  | .mcfg h _ => some h
  | .wswap h => some h
  | .wclr h => some h
  | .mwait h => some h
  | .rowld h _ => some h
  | .rowst h _ => some h
  | .rowupd h _ => some h
  | .rowpack h _ => some h
  | .rowrestore h _ => some h
  | .rowcnt h _ => some h
  | .rowset h _ => some h
  | .rowrec h _ => some h
  | .rowrdec h _ => some h
  | .rowtrld h _ => some h
  | .rowtrst h _ => some h
  | .rowmask h _ => some h
  | .rowseq h _ => some h
  | .rowclr h _ => some h
  | .cadd h _ => some h
  | .cwait h _ => some h
  | .cread h _ => some h
  | .cmax h _ => some h
  | .cwany h _ => some h
  | .cbind h _ => some h
  | .stakeCreate h _ => some h
  | .stakeRetire h _ => some h
  | .stakeAdvance h _ => some h
  | .phase h _ => some h
  | .cpyq h _ => some h
  | .cpymc h _ => some h
  | .hbdrain h _ => some h
  | .gsub h _ => some h
  | .gunsub h _ => some h
  | .gred h _ => some h
  | .tlaunch h _ => some h
  | .tqadd h _ => some h
  | .tdqadd h _ => some h
  | .tdqtake h _ => some h
  | .tcancel h _ => some h
  | .filreq h _ => some h
  | .kvprobe h _ => some h
  | .kvmarkValid h _ => some h
  | .kvmarkExit h _ => some h
  | .kvmarkClear h _ => some h
  | .calve h _ => some h
  | .calveArm h _ => some h
  | .colred h _ => some h
  | .colbc h _ => some h
  | .colag h _ => some h
  | .tret h => some h
  | .csrr h _ => some h
  | .csrw h _ => some h
  | .csrs h _ => some h
  | .csrc h _ => some h
  | .tmark h _ => some h
  | .smpctl h _ => some h
  | .bkpt h _ => some h
  | .wpset h _ => some h
  | .wpclr h _ => some h
  | .taginv h _ => some h
  | .tagflush h => some h
  | .partopForm h _ => some h
  | .partopDissolve h _ => some h
  | .partopPreempt h _ => some h
  | .partopQreset h _ => some h
  | .ctxopCreate h _ => some h
  | .ctxopDestroy h _ => some h
  | .ctxopInval h _ => some h
  | .ctxopAttest h _ => some h
  | .swapopSave h _ => some h
  | .swapopRestore h _ => some h
  | .swapopExch h _ => some h
  | .illegalOpcode h _ _ _ => some h
  | .resultLanding _ _ => none
  | .pushLanding _ => none
  | .interrupt _ => none
  | .haltWake _ => none
  | .seqResumeReplay _ => none
  | .seqResumeContinue _ => none
  | .seqResumeUnresolved _ => none
  | .registerWrite _ _ _ _ => none
  | .launchDispatch _ _ => none
  | .taskStart _ => none
  | .stealProbe _ => none
  | .spillRefill _ => none
  | .passBoundary _ => none
  | .preemptHalt _ => none
  | .iterationOverrun _ => none
  | .swapComplete _ => none
  | .streamDelivery _ => none
  | .privateFetch _ => none
  | .icacheFill _ _ _ _ => none
  | .pageWalk _ _ _ _ => none
  | .engineCommandResume _ _ => none
  | .phaseEndComplete _ => none
  | .storeVisible _ _ => none
  | .tagInvalidation _ _ => none
  | .probeLookup _ => none
  | .windowFill _ _ _ _ => none
  | .hclaimGrant _ => none
  | .hrelPerform _ => none
  | .counterOperation _ _ _ _ => none
  | .syncAnswer _ => none
  | .moraineBatchTimeout _ _ => none
  | .batchApply _ _ => none
  | .graverAccept _ _ _ _ _ => none
  | .graverCommand _ _ _ _ _ _ => none
  | .generationUpdate _ _ _ => none
  | .scrubPassStart _ => none
  | .scrubRead _ _ => none
  | .scrubLevelCheck _ _ => none
  | .subscriptionTile _ _ => none
  | .subscriptionComplete _ _ => none
  | .graverReduction _ _ => none
  | .copyPacketTake _ => none
  | .stampReread _ => none
  | .copyPacketComplete _ _ _ _ => none
  | .cpyqEnqueue _ => none
  | .parkClaim _ _ => none
  | .parkComplete _ _ => none
  | .queueOpen _ => none
  | .queueStop _ => none
  | .firnOperation _ => none
  | .probeRetry _ => none
  | .fillEnd _ _ => none
  | .calvingNotice _ _ _ _ _ _ => none
  | .remoteRequest _ => none
  | .remoteAnswer _ _ _ => none
  | .remoteTimeout _ => none
  | .collectiveAssemble _ _ => none
  | .collectiveComplete _ => none
  | .collectiveTimeout _ => none
  | .linkDown _ _ => none
  | .ptpEventMessage _ _ => none
  | .genStart _ => none
  | .genStopRequest _ => none
  | .genHalt _ => none
  | .genIterationBegin _ => none
  | .genAppend _ => none
  | .genHoldAdvance _ => none
  | .genResume _ => none
  | .genSpec0Clear _ => none
  | .genReclaim _ _ => none
  | .genPoolTake _ => none
  | .genSlotRetire _ _ => none
  | .genSlotAllocate _ _ => none
  | .traceRecordWrite _ => none
  | .traceWiAdd _ _ => none
  | .sample _ => none
  | .counterRotate _ => none
  | .boundaryStopRequest _ => none
  | .packageReset => none
  | .bootRom _ _ _ => none
  | .coreReset _ => none
  | .featureAccept _ _ => none
  | .hostCounterAdd _ _ _ => none
  | .hostHbmWrite _ _ => none
  | .hostHbmRead _ _ => none
  | .hostControlAccess _ _ _ _ => none
  | .issueGating _ _ => none
  | .gatingEnd _ => none
  | .thermalStop _ => none
  | .refresh _ _ => none
  | .linkReturn _ => none
  | .bulkShareWindow _ => none
  | .samplingChangeApplied _ => none
  | .watchpointChangeApplied _ => none

/-! ## The encoder, from the same tables -/

/-- Family SRR of R64 as a number of 38 bits. -/
def encSRR (o : SRR) : Nat :=
  o.d.toNat * 2 ^ 32 + o.a.toNat * 2 ^ 26 + o.b.toNat * 2 ^ 20

/-- Family SR1 of R64 as a number of 38 bits. -/
def encSR1 (o : SR1) : Nat :=
  o.d.toNat * 2 ^ 32 + o.a.toNat * 2 ^ 26

/-- Family SRI of R64 as a number of 38 bits. -/
def encSRI (o : SRI) : Nat :=
  o.d.toNat * 2 ^ 32 + o.a.toNat * 2 ^ 26 + o.imm.toNat

/-- Family SBF of R64 as a number of 38 bits. -/
def encSBF (o : SBF) : Nat :=
  o.d.toNat * 2 ^ 32 + o.a.toNat * 2 ^ 26 + o.pos.toNat * 2 ^ 20 + o.len.toNat * 2 ^ 14

/-- Family SPR of R64 as a number of 38 bits. -/
def encSPR (o : SPR) : Nat :=
  o.pd.toNat * 2 ^ 34 + o.a.toNat * 2 ^ 26 + o.b.toNat * 2 ^ 20

/-- Family SPI of R64 as a number of 38 bits. -/
def encSPI (o : SPI) : Nat :=
  o.pd.toNat * 2 ^ 34 + o.a.toNat * 2 ^ 26 + o.imm.toNat

/-- Family SPP of R64 as a number of 38 bits. -/
def encSPP (o : SPP) : Nat :=
  o.pd.toNat * 2 ^ 34 + o.pa.toNat * 2 ^ 26 + o.pb.toNat * 2 ^ 22

/-- Family SSL of R64 as a number of 38 bits. -/
def encSSL (o : SSL) : Nat :=
  o.d.toNat * 2 ^ 32 + o.a.toNat * 2 ^ 26 + o.b.toNat * 2 ^ 20 + o.ps.toNat * 2 ^ 16

/-- Family SXR of R64 as a number of 38 bits. -/
def encSXR (o : SXR) : Nat :=
  o.d.toNat * 2 ^ 32 + o.sel.toNat * 2 ^ 24

/-- Family SXB of R64 as a number of 38 bits. -/
def encSXB (o : SXB) : Nat :=
  o.d.toNat * 2 ^ 32 + o.bt.toNat * 2 ^ 29

/-- Family SLI of R64 as a number of 38 bits. -/
def encSLI (o : SLI) : Nat :=
  o.d.toNat * 2 ^ 32 + o.imm.toNat

/-- Family CI of R64 as a number of 38 bits. -/
def encCI (o : CI) : Nat :=
  o.imm.toNat

/-- Family CT of R64 as a number of 38 bits. -/
def encCT (o : CT) : Nat :=
  o.bt.toNat * 2 ^ 35 + o.disp.toNat

/-- Family CB of R64 as a number of 38 bits. -/
def encCB (o : CB) : Nat :=
  o.bt.toNat * 2 ^ 35

/-- Family CC of R64 as a number of 38 bits. -/
def encCC (o : CC) : Nat :=
  o.bt.toNat * 2 ^ 35 + o.bl.toNat * 2 ^ 32

/-- Family CJ of R64 as a number of 38 bits. -/
def encCJ (o : CJ) : Nat :=
  o.a.toNat * 2 ^ 32 + o.imm.toNat

/-- Family CL of R64 as a number of 38 bits. -/
def encCL (o : CL) : Nat :=
  o.lv.toNat * 2 ^ 35 + o.src.toNat * 2 ^ 33 + o.mq.toNat * 2 ^ 31 + o.len.toNat * 2 ^ 20 + o.cnt.toNat

/-- Family CM of R64 as a number of 38 bits. -/
def encCM (o : CM) : Nat :=
  o.lv.toNat * 2 ^ 35 + o.src.toNat * 2 ^ 33 + o.mq.toNat * 2 ^ 31 + o.len.toNat * 2 ^ 20 + o.sc.toNat * 2 ^ 16 + o.ii.toNat * 2 ^ 10 + o.a.toNat * 2 ^ 4 + o.dp.toNat * 2 ^ 1

/-- Family CS of R64 as a number of 38 bits. -/
def encCS (o : CS) : Nat :=
  o.lv.toNat * 2 ^ 35 + o.w.toNat * 2 ^ 33 + o.stride.toNat

/-- Family CW of R64 as a number of 38 bits. -/
def encCW (o : CW) : Nat :=
  o.lv.toNat * 2 ^ 35 + o.w.toNat * 2 ^ 33 + o.a.toNat * 2 ^ 26

/-- Family CV of R64 as a number of 38 bits. -/
def encCV (o : CV) : Nat :=
  o.lv.toNat * 2 ^ 35

/-- Family VR of R64 as a number of 38 bits. -/
def encVR (o : VR) : Nat :=
  o.d.toNat * 2 ^ 32 + o.a.toNat * 2 ^ 26 + o.b.toNat * 2 ^ 20 + o.nq.toNat * 2 ^ 14 + o.mdf.toNat * 2 ^ 2 + o.bs.toNat * 2 ^ 1

/-- Family VF of R64 as a number of 38 bits. -/
def encVF (o : VF) : Nat :=
  o.d.toNat * 2 ^ 32 + o.a.toNat * 2 ^ 26 + o.b.toNat * 2 ^ 20 + o.nq.toNat * 2 ^ 14 + o.rm.toNat * 2 ^ 12 + o.sat.toNat * 2 ^ 11 + o.bs.toNat * 2 ^ 10 + o.ty.toNat * 2 ^ 8

/-- Family VI of R64 as a number of 38 bits. -/
def encVI (o : VI) : Nat :=
  o.d.toNat * 2 ^ 32 + o.a.toNat * 2 ^ 26 + o.nq.toNat * 2 ^ 20 + o.imm.toNat

/-- Family VC of R64 as a number of 38 bits. -/
def encVC (o : VC) : Nat :=
  o.d.toNat * 2 ^ 32 + o.a.toNat * 2 ^ 26 + o.fmt.toNat * 2 ^ 22 + o.nq.toNat * 2 ^ 14 + o.rm.toNat * 2 ^ 12 + o.sat.toNat * 2 ^ 11

/-- Family VP of R64 as a number of 38 bits. -/
def encVP (o : VP) : Nat :=
  o.md.toNat * 2 ^ 35 + o.a.toNat * 2 ^ 26 + o.b.toNat * 2 ^ 20 + o.nq.toNat * 2 ^ 14 + o.cnd.toNat * 2 ^ 10 + o.bs.toNat * 2 ^ 9 + o.ty.toNat * 2 ^ 6

/-- Family VS of R64 as a number of 38 bits. -/
def encVS (o : VS) : Nat :=
  o.d.toNat * 2 ^ 32 + o.a.toNat * 2 ^ 26 + o.b.toNat * 2 ^ 20 + o.nq.toNat * 2 ^ 14 + o.seg.toNat * 2 ^ 10 + o.rm.toNat * 2 ^ 8 + o.ty.toNat * 2 ^ 5

/-- Family VM of R64 as a number of 38 bits. -/
def encVM (o : VM) : Nat :=
  o.d.toNat * 2 ^ 32 + o.a.toNat * 2 ^ 26 + o.b.toNat * 2 ^ 20 + o.nq.toNat * 2 ^ 14 + o.ms.toNat * 2 ^ 11 + o.bs.toNat * 2 ^ 10

/-- Family VMM of R64 as a number of 38 bits. -/
def encVMM (o : VMM) : Nat :=
  o.md.toNat * 2 ^ 35 + o.ma.toNat * 2 ^ 32 + o.mb.toNat * 2 ^ 29

/-- Family VX of R64 as a number of 38 bits. -/
def encVX (o : VX) : Nat :=
  o.a.toNat * 2 ^ 26

/-- Family LM of R64 as a number of 38 bits. -/
def encLM (o : LM) : Nat :=
  o.d.toNat * 2 ^ 32 + o.a.toNat * 2 ^ 26 + o.nq.toNat * 2 ^ 20 + o.disp.toNat

/-- Family LS of R64 as a number of 38 bits. -/
def encLS (o : LS) : Nat :=
  o.d.toNat * 2 ^ 32 + o.a.toNat * 2 ^ 26 + o.b.toNat * 2 ^ 20 + o.nq.toNat * 2 ^ 14

/-- Family LX of R64 as a number of 38 bits. -/
def encLX (o : LX) : Nat :=
  o.d.toNat * 2 ^ 32 + o.a.toNat * 2 ^ 26 + o.b.toNat * 2 ^ 20 + o.nq.toNat * 2 ^ 14 + o.isz.toNat * 2 ^ 12

/-- Family LP of R64 as a number of 38 bits. -/
def encLP (o : LP) : Nat :=
  o.h.toNat * 2 ^ 32 + o.a.toNat * 2 ^ 26 + o.bt.toNat * 2 ^ 23

/-- Family LH of R64 as a number of 38 bits. -/
def encLH (o : LH) : Nat :=
  o.h.toNat * 2 ^ 32 + o.a.toNat * 2 ^ 26

/-- Family LK of R64 as a number of 38 bits. -/
def encLK (o : LK) : Nat :=
  o.d.toNat * 2 ^ 32 + o.off.toNat

/-- Family MB of R64 as a number of 38 bits. -/
def encMB (o : MB) : Nat :=
  o.aop.toNat * 2 ^ 36 + o.aw.toNat * 2 ^ 35 + o.aslot.toNat * 2 ^ 30 + o.arb.toNat * 2 ^ 23 + o.wop.toNat * 2 ^ 21 + o.ww.toNat * 2 ^ 20 + o.dop.toNat * 2 ^ 18 + o.ds.toNat * 2 ^ 13 + o.drb.toNat * 2 ^ 6 + o.dv.toNat * 2 ^ 2 + o.m.toNat

/-- Family MA of R64 as a number of 38 bits. -/
def encMA (o : MA) : Nat :=
  o.acc.toNat * 2 ^ 33

/-- Family MG of R64 as a number of 38 bits. -/
def encMG (o : MG) : Nat :=
  o.acc.toNat * 2 ^ 33 + o.grp.toNat * 2 ^ 31 + o.lo.toNat * 2 ^ 24 + o.hi.toNat * 2 ^ 17

/-- Family MV of R64 as a number of 38 bits. -/
def encMV (o : MV) : Nat :=
  o.acc.toNat * 2 ^ 33 + o.row.toNat * 2 ^ 26 + o.a.toNat * 2 ^ 20 + o.cnt.toNat * 2 ^ 13 + o.fmt.toNat * 2 ^ 9 + o.rm.toNat * 2 ^ 7 + o.sat.toNat * 2 ^ 6

/-- Family MC of R64 as a number of 38 bits. -/
def encMC (o : MC) : Nat :=
  o.nq.toNat * 2 ^ 32 + o.wf.toNat * 2 ^ 28 + o.af.toNat * 2 ^ 24 + o.ak.toNat * 2 ^ 22

/-- Family WR of R64 as a number of 38 bits. -/
def encWR (o : WR) : Nat :=
  o.d.toNat * 2 ^ 32 + o.a.toNat * 2 ^ 26 + o.b.toNat * 2 ^ 20 + o.mq.toNat * 2 ^ 18 + o.blk.toNat * 2 ^ 8

/-- Family WI of R64 as a number of 38 bits. -/
def encWI (o : WI) : Nat :=
  o.d.toNat * 2 ^ 32 + o.a.toNat * 2 ^ 26 + o.imm.toNat

/-- Family YK of R64 as a number of 38 bits. -/
def encYK (o : YK) : Nat :=
  o.ord.toNat * 2 ^ 36 + o.scp.toNat * 2 ^ 33 + o.k.toNat * 2 ^ 29 + o.a.toNat * 2 ^ 23 + o.imm.toNat

/-- Family YW of R64 as a number of 38 bits. -/
def encYW (o : YW) : Nat :=
  o.ord.toNat * 2 ^ 36 + o.scp.toNat * 2 ^ 33 + o.d.toNat * 2 ^ 27 + o.mask.toNat * 2 ^ 19 + o.a.toNat * 2 ^ 13 + o.g.toNat * 2 ^ 12

/-- Family YP of R64 as a number of 38 bits. -/
def encYP (o : YP) : Nat :=
  o.ord.toNat * 2 ^ 36 + o.scp.toNat * 2 ^ 33 + o.a.toNat * 2 ^ 27 + o.b.toNat * 2 ^ 21 + o.sgn.toNat * 2 ^ 20 + o.cnt.toNat * 2 ^ 4

/-- Family YG of R64 as a number of 38 bits. -/
def encYG (o : YG) : Nat :=
  o.ord.toNat * 2 ^ 36 + o.scp.toNat * 2 ^ 33 + o.x.toNat * 2 ^ 27 + o.y.toNat * 2 ^ 21 + o.z.toNat * 2 ^ 15 + o.imm.toNat

/-- Family YN of R64 as a number of 38 bits. -/
def encYN (o : YN) : Nat :=
  o.ord.toNat * 2 ^ 36 + o.scp.toNat * 2 ^ 33

/-- Family ZC of R64 as a number of 38 bits. -/
def encZC (o : ZC) : Nat :=
  o.d.toNat * 2 ^ 32 + o.a.toNat * 2 ^ 26 + o.csr.toNat * 2 ^ 10

/-- Family ZI of R64 as a number of 38 bits. -/
def encZI (o : ZI) : Nat :=
  o.a.toNat * 2 ^ 32 + o.imm.toNat

/-- Family ZG of R64 as a number of 38 bits. -/
def encZG (o : ZG) : Nat :=
  o.x.toNat * 2 ^ 32 + o.y.toNat * 2 ^ 26 + o.z.toNat * 2 ^ 20 + o.imm.toNat

/-- Class and opcode of a syllable (R67-R74), and the number of its operand field.  An event has no words. -/
def encParts : Instr → Option (Nat × Nat × Hdr × Nat)
  | .add h o => some (0, 0x0, h, encSRR o)
  | .sub h o => some (0, 0x1, h, encSRR o)
  | .and h o => some (0, 0x2, h, encSRR o)
  | .or h o => some (0, 0x3, h, encSRR o)
  | .xor h o => some (0, 0x4, h, encSRR o)
  | .andn h o => some (0, 0x5, h, encSRR o)
  | .shl h o => some (0, 0x6, h, encSRR o)
  | .shr h o => some (0, 0x7, h, encSRR o)
  | .sra h o => some (0, 0x8, h, encSRR o)
  | .rol h o => some (0, 0x9, h, encSRR o)
  | .mul h o => some (0, 0xa, h, encSRR o)
  | .mulh h o => some (0, 0xb, h, encSRR o)
  | .mulhn h o => some (0, 0xc, h, encSRR o)
  | .min h o => some (0, 0xd, h, encSRR o)
  | .max h o => some (0, 0xe, h, encSRR o)
  | .minn h o => some (0, 0xf, h, encSRR o)
  | .maxn h o => some (0, 0x10, h, encSRR o)
  | .clz h o => some (0, 0x11, h, encSR1 o)
  | .ctz h o => some (0, 0x12, h, encSR1 o)
  | .popc h o => some (0, 0x13, h, encSR1 o)
  | .brev h o => some (0, 0x14, h, encSR1 o)
  | .bswap h o => some (0, 0x15, h, encSR1 o)
  | .bext h o => some (0, 0x16, h, encSBF o)
  | .bins h o => some (0, 0x17, h, encSBF o)
  | .addi h o => some (0, 0x18, h, encSRI o)
  | .andi h o => some (0, 0x19, h, encSRI o)
  | .ori h o => some (0, 0x1a, h, encSRI o)
  | .xori h o => some (0, 0x1b, h, encSRI o)
  | .shli h o => some (0, 0x1c, h, encSRI o)
  | .shri h o => some (0, 0x1d, h, encSRI o)
  | .srai h o => some (0, 0x1e, h, encSRI o)
  | .muli h o => some (0, 0x1f, h, encSRI o)
  | .ceq h o => some (0, 0x20, h, encSPR o)
  | .cne h o => some (0, 0x21, h, encSPR o)
  | .clt h o => some (0, 0x22, h, encSPR o)
  | .cle h o => some (0, 0x23, h, encSPR o)
  | .cltn h o => some (0, 0x24, h, encSPR o)
  | .clen h o => some (0, 0x25, h, encSPR o)
  | .pand h o => some (0, 0x26, h, encSPP o)
  | .por h o => some (0, 0x27, h, encSPP o)
  | .ceqi h o => some (0, 0x28, h, encSPI o)
  | .cnei h o => some (0, 0x29, h, encSPI o)
  | .clti h o => some (0, 0x2a, h, encSPI o)
  | .clei h o => some (0, 0x2b, h, encSPI o)
  | .cltni h o => some (0, 0x2c, h, encSPI o)
  | .cleni h o => some (0, 0x2d, h, encSPI o)
  | .pxor h o => some (0, 0x2e, h, encSPP o)
  | .pandn h o => some (0, 0x2f, h, encSPP o)
  | .sel h o => some (0, 0x30, h, encSSL o)
  | .mfx h o => some (0, 0x31, h, encSXR o)
  | .mtx h o => some (0, 0x32, h, encSXR o)
  | .mfb h o => some (0, 0x33, h, encSXB o)
  | .mtb h o => some (0, 0x34, h, encSXB o)
  | .limmh h o => some (0, 0x3e, h, encSLI o)
  | .limml h o => some (0, 0x3f, h, encSLI o)
  | .nop h => some (1, 0x0, h, 0)
  | .halt h => some (1, 0x1, h, 0)
  | .exit h => some (1, 0x2, h, 0)
  | .trap h o => some (1, 0x3, h, encCI o)
  | .detach h => some (1, 0x4, h, 0)
  | .join h o => some (1, 0x5, h, encCJ o)
  | .fuse h => some (1, 0x6, h, 0)
  | .unfuse h => some (1, 0x7, h, 0)
  | .pbt h o => some (1, 0x8, h, encCT o)
  | .brt h o => some (1, 0x9, h, encCB o)
  | .call h o => some (1, 0xa, h, encCC o)
  | .ret h o => some (1, 0xb, h, encCB o)
  | .loop h o => some (1, 0x10, h, encCL o)
  | .mloop h o => some (1, 0x11, h, encCM o)
  | .lstri h o => some (1, 0x12, h, encCS o)
  | .lstrr h o => some (1, 0x13, h, encCW o)
  | .lbrk h o => some (1, 0x14, h, encCV o)
  | .lnext h o => some (1, 0x15, h, encCV o)
  | .vadd h ew o => some (2, 0x0 + ew.toNat, h, encVR o)
  | .vsub h ew o => some (2, 0x4 + ew.toNat, h, encVR o)
  | .vmul h ew o => some (2, 0x8 + ew.toNat, h, encVR o)
  | .vmulh h ew o => some (2, 0xc + ew.toNat, h, encVR o)
  | .vmin h ew o => some (2, 0x10 + ew.toNat, h, encVR o)
  | .vmax h ew o => some (2, 0x14 + ew.toNat, h, encVR o)
  | .vminn h ew o => some (2, 0x18 + ew.toNat, h, encVR o)
  | .vmaxn h ew o => some (2, 0x1c + ew.toNat, h, encVR o)
  | .vshl h ew o => some (2, 0x20 + ew.toNat, h, encVR o)
  | .vshr h ew o => some (2, 0x24 + ew.toNat, h, encVR o)
  | .vsra h ew o => some (2, 0x28 + ew.toNat, h, encVR o)
  | .vadds h ew o => some (2, 0x2c + ew.toNat, h, encVR o)
  | .vsubs h ew o => some (2, 0x30 + ew.toNat, h, encVR o)
  | .vpopc h ew o => some (2, 0x34 + ew.toNat, h, encVR o)
  | .vclz h ew o => some (2, 0x38 + ew.toNat, h, encVR o)
  | .vabs h ew o => some (2, 0x3c + ew.toNat, h, encVR o)
  | .vand h o => some (2, 0x40, h, encVR o)
  | .vor h o => some (2, 0x41, h, encVR o)
  | .vxor h o => some (2, 0x42, h, encVR o)
  | .vandn h o => some (2, 0x43, h, encVR o)
  | .vmov h o => some (2, 0x44, h, encVR o)
  | .vperm h o => some (2, 0x45, h, encVR o)
  | .vclmull h o => some (2, 0x46, h, encVR o)
  | .vclmulh h o => some (2, 0x47, h, encVR o)
  | .vsel h o => some (2, 0x48, h, encVM o)
  | .mand h o => some (2, 0x49, h, encVMM o)
  | .mor h o => some (2, 0x4a, h, encVMM o)
  | .mxor h o => some (2, 0x4b, h, encVMM o)
  | .mnot h o => some (2, 0x4c, h, encVMM o)
  | .vseed h o => some (2, 0x4d, h, encVX o)
  | .vaddi h ew o => some (2, 0x50 + ew.toNat, h, encVI o)
  | .vshli h ew o => some (2, 0x54 + ew.toNat, h, encVI o)
  | .vshri h ew o => some (2, 0x58 + ew.toNat, h, encVI o)
  | .vmovi h ew o => some (2, 0x5c + ew.toNat, h, encVI o)
  | .vfadd h o => some (2, 0x60, h, encVF o)
  | .vfsub h o => some (2, 0x61, h, encVF o)
  | .vfmul h o => some (2, 0x62, h, encVF o)
  | .vfma h o => some (2, 0x63, h, encVF o)
  | .vfms h o => some (2, 0x64, h, encVF o)
  | .vfnma h o => some (2, 0x65, h, encVF o)
  | .vfmin h o => some (2, 0x66, h, encVF o)
  | .vfmax h o => some (2, 0x67, h, encVF o)
  | .vfabs h o => some (2, 0x68, h, encVF o)
  | .vfneg h o => some (2, 0x69, h, encVF o)
  | .vexp2 h o => some (2, 0x6a, h, encVF o)
  | .vlog2 h o => some (2, 0x6b, h, encVF o)
  | .vrcp h o => some (2, 0x6c, h, encVF o)
  | .vrsq h o => some (2, 0x6d, h, encVF o)
  | .vtanh h o => some (2, 0x6e, h, encVF o)
  | .vcvtf h o => some (2, 0x70, h, encVC o)
  | .vcvtn h o => some (2, 0x71, h, encVC o)
  | .vcvti h o => some (2, 0x72, h, encVC o)
  | .vcvtif h o => some (2, 0x73, h, encVC o)
  | .vcmp h o => some (2, 0x74, h, encVP o)
  | .vrsum h o => some (2, 0x78, h, encVS o)
  | .vrmax h o => some (2, 0x79, h, encVS o)
  | .vrmin h o => some (2, 0x7a, h, encVS o)
  | .vpsum h o => some (2, 0x7b, h, encVS o)
  | .vargmax h o => some (2, 0x7c, h, encVS o)
  | .vtopk h o => some (2, 0x7d, h, encVS o)
  | .vexts h o => some (2, 0x7e, h, encVS o)
  | .vinss h o => some (2, 0x7f, h, encVS o)
  | .lds8 h o => some (3, 0x0, h, encLM o)
  | .lds16 h o => some (3, 0x1, h, encLM o)
  | .lds32 h o => some (3, 0x2, h, encLM o)
  | .lds64 h o => some (3, 0x3, h, encLM o)
  | .ldn8 h o => some (3, 0x4, h, encLM o)
  | .ldn16 h o => some (3, 0x5, h, encLM o)
  | .ldn32 h o => some (3, 0x6, h, encLM o)
  | .sts8 h o => some (3, 0x8, h, encLM o)
  | .sts16 h o => some (3, 0x9, h, encLM o)
  | .sts32 h o => some (3, 0xa, h, encLM o)
  | .sts64 h o => some (3, 0xb, h, encLM o)
  | .ldv h o => some (3, 0xc, h, encLM o)
  | .stv h o => some (3, 0xd, h, encLM o)
  | .ldvs h o => some (3, 0xe, h, encLS o)
  | .stvs h o => some (3, 0xf, h, encLS o)
  | .ldvx h o => some (3, 0x10, h, encLX o)
  | .stvx h o => some (3, 0x11, h, encLX o)
  | .stz h o => some (3, 0x12, h, encLS o)
  | .ldz h o => some (3, 0x13, h, encLS o)
  | .probe h o => some (3, 0x14, h, encLP o)
  | .hclaim h o => some (3, 0x15, h, encLH o)
  | .hrel h o => some (3, 0x16, h, encLH o)
  | .pref h o => some (3, 0x17, h, encLM o)
  | .splds h o => some (3, 0x18, h, encLK o)
  | .spsts h o => some (3, 0x19, h, encLK o)
  | .spldv h o => some (3, 0x1a, h, encLK o)
  | .spstv h o => some (3, 0x1b, h, encLK o)
  | .beat h o => some (4, 0x0, h, encMB o)
  | .acrel h o => some (4, 0x1, h, encMA o)
  | .acrela h => some (4, 0x2, h, 0)
  | .acgrp h o => some (4, 0x3, h, encMG o)
  | .acmov h o => some (4, 0x4, h, encMV o)
  | .acld h o => some (4, 0x5, h, encMV o)
  | .mcfg h o => some (4, 0x6, h, encMC o)
  | .wswap h => some (4, 0x7, h, 0)
  | .wclr h => some (4, 0x8, h, 0)
  | .mwait h => some (4, 0x9, h, 0)
  | .rowld h o => some (5, 0x0, h, encWR o)
  | .rowst h o => some (5, 0x1, h, encWR o)
  | .rowupd h o => some (5, 0x2, h, encWR o)
  | .rowpack h o => some (5, 0x3, h, encWR o)
  | .rowrestore h o => some (5, 0x4, h, encWR o)
  | .rowcnt h o => some (5, 0x5, h, encWR o)
  | .rowset h o => some (5, 0x6, h, encWI o)
  | .rowrec h o => some (5, 0x7, h, encWI o)
  | .rowrdec h o => some (5, 0x8, h, encWR o)
  | .rowtrld h o => some (5, 0x9, h, encWR o)
  | .rowtrst h o => some (5, 0xa, h, encWR o)
  | .rowmask h o => some (5, 0xb, h, encWR o)
  | .rowseq h o => some (5, 0xc, h, encWR o)
  | .rowclr h o => some (5, 0xd, h, encWR o)
  | .cadd h o => some (6, 0x0, h, encYK o)
  | .cwait h o => some (6, 0x1, h, encYK o)
  | .cread h o => some (6, 0x2, h, encYK o)
  | .cmax h o => some (6, 0x3, h, encYK o)
  | .cwany h o => some (6, 0x4, h, encYW o)
  | .cbind h o => some (6, 0x5, h, encYK o)
  | .stakeCreate h o => some (6, 0x6, h, encYP o)
  | .stakeRetire h o => some (6, 0x6, h, encYP o)
  | .stakeAdvance h o => some (6, 0x6, h, encYP o)
  | .phase h o => some (6, 0x7, h, encYN o)
  | .cpyq h o => some (6, 0x8, h, encYG o)
  | .cpymc h o => some (6, 0x9, h, encYG o)
  | .hbdrain h o => some (6, 0xa, h, encYG o)
  | .gsub h o => some (6, 0xb, h, encYG o)
  | .gunsub h o => some (6, 0xc, h, encYG o)
  | .gred h o => some (6, 0xd, h, encYG o)
  | .tlaunch h o => some (6, 0x10, h, encYG o)
  | .tqadd h o => some (6, 0x11, h, encYG o)
  | .tdqadd h o => some (6, 0x12, h, encYG o)
  | .tdqtake h o => some (6, 0x13, h, encYG o)
  | .tcancel h o => some (6, 0x14, h, encYG o)
  | .filreq h o => some (6, 0x18, h, encYG o)
  | .kvprobe h o => some (6, 0x19, h, encYG o)
  | .kvmarkValid h o => some (6, 0x1a, h, encYG o)
  | .kvmarkExit h o => some (6, 0x1a, h, encYG o)
  | .kvmarkClear h o => some (6, 0x1a, h, encYG o)
  | .calve h o => some (6, 0x1b, h, encYG o)
  | .calveArm h o => some (6, 0x1b, h, encYG o)
  | .colred h o => some (6, 0x1c, h, encYG o)
  | .colbc h o => some (6, 0x1d, h, encYG o)
  | .colag h o => some (6, 0x1e, h, encYG o)
  | .tret h => some (7, 0x0, h, 0)
  | .csrr h o => some (7, 0x1, h, encZC o)
  | .csrw h o => some (7, 0x2, h, encZC o)
  | .csrs h o => some (7, 0x3, h, encZC o)
  | .csrc h o => some (7, 0x4, h, encZC o)
  | .tmark h o => some (7, 0x5, h, encZI o)
  | .smpctl h o => some (7, 0x6, h, encZI o)
  | .bkpt h o => some (7, 0x7, h, encZI o)
  | .wpset h o => some (7, 0x8, h, encZG o)
  | .wpclr h o => some (7, 0x9, h, encZI o)
  | .taginv h o => some (7, 0xa, h, encZG o)
  | .tagflush h => some (7, 0xb, h, 0)
  | .partopForm h o => some (7, 0x10, h, encZG o)
  | .partopDissolve h o => some (7, 0x10, h, encZG o)
  | .partopPreempt h o => some (7, 0x10, h, encZG o)
  | .partopQreset h o => some (7, 0x10, h, encZG o)
  | .ctxopCreate h o => some (7, 0x11, h, encZG o)
  | .ctxopDestroy h o => some (7, 0x11, h, encZG o)
  | .ctxopInval h o => some (7, 0x11, h, encZG o)
  | .ctxopAttest h o => some (7, 0x11, h, encZG o)
  | .swapopSave h o => some (7, 0x12, h, encZG o)
  | .swapopRestore h o => some (7, 0x12, h, encZG o)
  | .swapopExch h o => some (7, 0x12, h, encZG o)
  | .illegalOpcode h cls opc w => some (cls.toNat, opc.toNat, h, w.toNat)
  | .resultLanding _ _ => none
  | .pushLanding _ => none
  | .interrupt _ => none
  | .haltWake _ => none
  | .seqResumeReplay _ => none
  | .seqResumeContinue _ => none
  | .seqResumeUnresolved _ => none
  | .registerWrite _ _ _ _ => none
  | .launchDispatch _ _ => none
  | .taskStart _ => none
  | .stealProbe _ => none
  | .spillRefill _ => none
  | .passBoundary _ => none
  | .preemptHalt _ => none
  | .iterationOverrun _ => none
  | .swapComplete _ => none
  | .streamDelivery _ => none
  | .privateFetch _ => none
  | .icacheFill _ _ _ _ => none
  | .pageWalk _ _ _ _ => none
  | .engineCommandResume _ _ => none
  | .phaseEndComplete _ => none
  | .storeVisible _ _ => none
  | .tagInvalidation _ _ => none
  | .probeLookup _ => none
  | .windowFill _ _ _ _ => none
  | .hclaimGrant _ => none
  | .hrelPerform _ => none
  | .counterOperation _ _ _ _ => none
  | .syncAnswer _ => none
  | .moraineBatchTimeout _ _ => none
  | .batchApply _ _ => none
  | .graverAccept _ _ _ _ _ => none
  | .graverCommand _ _ _ _ _ _ => none
  | .generationUpdate _ _ _ => none
  | .scrubPassStart _ => none
  | .scrubRead _ _ => none
  | .scrubLevelCheck _ _ => none
  | .subscriptionTile _ _ => none
  | .subscriptionComplete _ _ => none
  | .graverReduction _ _ => none
  | .copyPacketTake _ => none
  | .stampReread _ => none
  | .copyPacketComplete _ _ _ _ => none
  | .cpyqEnqueue _ => none
  | .parkClaim _ _ => none
  | .parkComplete _ _ => none
  | .queueOpen _ => none
  | .queueStop _ => none
  | .firnOperation _ => none
  | .probeRetry _ => none
  | .fillEnd _ _ => none
  | .calvingNotice _ _ _ _ _ _ => none
  | .remoteRequest _ => none
  | .remoteAnswer _ _ _ => none
  | .remoteTimeout _ => none
  | .collectiveAssemble _ _ => none
  | .collectiveComplete _ => none
  | .collectiveTimeout _ => none
  | .linkDown _ _ => none
  | .ptpEventMessage _ _ => none
  | .genStart _ => none
  | .genStopRequest _ => none
  | .genHalt _ => none
  | .genIterationBegin _ => none
  | .genAppend _ => none
  | .genHoldAdvance _ => none
  | .genResume _ => none
  | .genSpec0Clear _ => none
  | .genReclaim _ _ => none
  | .genPoolTake _ => none
  | .genSlotRetire _ _ => none
  | .genSlotAllocate _ _ => none
  | .traceRecordWrite _ => none
  | .traceWiAdd _ _ => none
  | .sample _ => none
  | .counterRotate _ => none
  | .boundaryStopRequest _ => none
  | .packageReset => none
  | .bootRom _ _ _ => none
  | .coreReset _ => none
  | .featureAccept _ _ => none
  | .hostCounterAdd _ _ _ => none
  | .hostHbmWrite _ _ => none
  | .hostHbmRead _ _ => none
  | .hostControlAccess _ _ _ _ => none
  | .issueGating _ _ => none
  | .gatingEnd _ => none
  | .thermalStop _ => none
  | .refresh _ _ => none
  | .linkReturn _ => none
  | .bulkShareWindow _ => none
  | .samplingChangeApplied _ => none
  | .watchpointChangeApplied _ => none

/-- The number of a syllable from its parts (R43). -/
def encWord (cls opc : Nat) (h : Hdr) (ops : Nat) : Nat :=
  cls * 2 ^ 61 + h.e.toNat * 2 ^ 60 + h.wait.toNat * 2 ^ 56 + h.gn.toNat * 2 ^ 55 + h.gp.toNat * 2 ^ 51 +
    h.edge.toNat * 2 ^ 49 + h.elvl.toNat * 2 ^ 46 + opc * 2 ^ 38 + ops

/-- The word of a well-formed syllable; events have none. -/
def encode (i : Instr) : Option Nat :=
  (encParts i).map fun (cls, opc, h, ops) => encWord cls opc h ops

/-- Decoding of one 64-bit word: total, rejecting by name (R46). -/
def decodeWord (w : Nat) : Except DecodeFault Instr :=
  match decodeRaw w with
  | none => .error .illegalSyllable
  | some i => if operandsOk i then .ok i else .error .illegalSyllable

/-- Decoding of the bytes of one syllable, lowest address first (R4, R43). -/
def decodeBytes (bs : List (BitVec 8)) : Except DecodeFault Instr :=
  decodeWord (bs.foldr (fun b acc => b.toNat + 256 * acc) 0 % 2 ^ 64)

/-- The instruction the decoder reads from a table word: the row's bits, all bits above them zero. -/
def decodeTableWord (nbits w : Nat) : Option Instr :=
  match decodeWord (w % 2 ^ nbits % 2 ^ 64) with
  | .ok i => some i
  | .error _ => none

end Sys2Proof
end

