-- ==== Sys2Proof/Word.lean ====
section
/-!
DEFINITION. The word types of the GS940 (R4, R60): names only, so that BitVec lemmas apply.
-/

namespace Sys2Proof

/-- A scalar register, an address, a control register (R60). -/
abbrev Word := BitVec 64
/-- A vector register, 64 lanes of 32 bits (R60). -/
abbrev VWord := BitVec 2048
/-- A mask register (R60). -/
abbrev MWord := BitVec 256
/-- A byte of memory (R4). -/
abbrev Byte := BitVec 8

end Sys2Proof
end

