-- ==== Sys2Proof/Config.lean ====
section
/-!
DEFINITION. What the implementation fixes and the values the spec leaves open.  A free value is an opaque
function of the model's own counter (State.free): nothing can be proved of the value it takes, so a statement
about it holds for every value (log entry 2).
-/

namespace Sys2Proof.Config

/-- Nanoseconds that pass on the package time base in one step (R488: it never decreases); free, log entry 4. -/
opaque freeNs : Nat → Nat
/-- Cycles of a duration that R515 leaves open; free, log entry 5. -/
opaque freeCycles : Nat → Nat
/-- A 64-bit value that no rule states; free, log entry 2. -/
opaque freeWord : Nat → Word
/-- Value of an accumulator entry after an uncorrectable error (R364); free, log entry 17. -/
opaque freeAcc : Nat → BitVec 32
/-- Byte i of the first or second AES-256 key of a context's key pair, numbered by its generation (R507): the keys never
leave the package, so they are free, log entry 10. -/
opaque keyByte : (pair : Nat) → (second : Bool) → Nat → Byte
/-- Byte i of the RSASSA-PSS signature under the attestation key over the given bytes (R508); each signing has its own
salt, log entry 11. -/
opaque signature : (signing : Nat) → List Byte → Nat → Byte
/-- Package serial number, 16 bytes (R508), log entry 11. -/
opaque serialByte : Nat → Byte
/-- Measurement of the firmware of I/O die d, byte i (R506), log entry 11. -/
opaque measureByte : (d : Bool) → Nat → Byte
/-- Deltas that a context's Moraine overflow area holds: its size is firmware's and no rule states it (R274), log
entry 21 (DESIGN CHOICE, log entry 21). -/
opaque overflowEntries : Nat

/-- Size of an instruction-cache line as a power of two times 8 bytes; the spec names lines without their size (R215):
free, log entry 13. -/
opaque icacheLineLog : Fin 10
/-- Bytes of an instruction-cache line: at least a syllable, at most a 4 KiB block. -/
def icacheLine : Nat := 8 * 2 ^ icacheLineLog.val
/-- Bytes of the cluster instruction cache (07, introduction). -/
def icacheBytes : Nat := 524288
/-- This package's place among the 384 of the load-store domain (R464): free, log entry 18. -/
opaque packagePlace : Fin 384
/-- This package's number in the load-store domain (R464). -/
def packageNumber : Nat := packagePlace.val

end Sys2Proof.Config
end

