-- ==== Sys2Proof/Machine/State.lean ====
section
/-!
DEFINITION. The state of the GS940 as plain data: memory, every unit of the package (Dev), the package time
base, and the model's own bookkeeping (free-value counter, agenda of events, the bundle in issue).
-/

namespace Sys2Proof.Machine

/-- A sparse table by number; what an unlisted key holds is said by the accessor that reads the table. -/
abbrev Tab (α : Type) := List (Nat × α)

/-- Bytes by address in canonical form: addresses strictly rising, no entry equal to 0, which is what an unlisted
address reads as (log entry 1). -/
structure Memory where
  cells : List Host.Cell
  deriving DecidableEq, Repr

/-! ## Events that a core reports (R181, R188) -/

/-- The three kinds of R181. -/
inductive EvKind where
  | fault | replayable | stop
  deriving DecidableEq, Repr

/-- An event with the words of its record that its cause fills (R188, R189). -/
structure Event where
  cause : BitVec 8
  kind : EvKind
  info0 : Word
  info1 : Word
  /-- SIDX of R188 -/
  sidx : Nat
  deriving DecidableEq, Repr

/-! ## A core -/

/-- A ring use or window entry or fills named by a handle (R238, R242, R440). -/
inductive Handle where
  | unbound
  | pending
  | window (set way : Nat)
  | ring (cf f cd dr : Word) (base size nslot j : Nat) (drain : Bool)
  | fills (die : Nat) (entries : List Nat)
  deriving DecidableEq, Repr

/-- What a result writes when it lands (R49, R171: register numbers are physical). -/
inductive Result where
  | s (n : Nat) (val : Word)
  /-- stride addition to a walk register (R162) -/
  | sAdd (n : Nat) (val : Word)
  /-- bits of mask are written, the others keep their value (R57) -/
  | v (n : Nat) (val mask : VWord)
  | m (n : Nat) (val : MWord)
  | p (n : Nat) (val : Bool)
  | b (n : Nat) (val : Word)
  | k (n : Nat) (ident : Option Word)
  | h (n : Nat) (val : Handle)
  | lr (val : BitVec 16)
  deriving DecidableEq, Repr

/-- A result in flight (R49-R53). -/
structure Pend where
  res : Result
  /-- landing cycle; none for an interlocked result (R50) -/
  due : Option Nat
  /-- an interlocked answer has arrived and can land -/
  ready : Bool
  /-- address of the producing bundle (R53) -/
  prod : Word
  /-- command of an engine that answers it; 0 for none -/
  tag : Nat
  /-- an interlocked result lands no earlier than this cycle -/
  after : Nat := 0
  deriving DecidableEq, Repr

/-- One loop level (R60, R160-R166). -/
structure LoopLevel where
  active : Bool
  /-- trip count and index: 32 bits as software reads them; the N of a modulo loop (R169) may need the 33rd, so that
  the loop runs N iterations (DESIGN CHOICE, log entry 105) -/
  count : BitVec 33
  index : BitVec 33
  stride0 : BitVec 32
  stride1 : BitVec 32
  stride2 : BitVec 32
  stride3 : BitVec 32
  /-- address of the first body bundle -/
  body : Word
  /-- body length in bundles -/
  len : Nat
  /-- place of the next bundle in the body, counted in bundles from its first -/
  pos : Int
  /-- address of the declaring bundle (R188 LOOPID) -/
  decl : Word
  /-- the declaring syllable (R189) -/
  syl : Word
  deriving DecidableEq, Repr

/-- The active modulo loop (R168-R173). -/
structure ModLoop where
  level : Nat
  n : Nat
  stages : Nat
  ii : Nat
  /-- the task loop of R173 -/
  task : Bool
  deriving DecidableEq, Repr

/-- A fetched bundle, or the fetch fault that stands in its place (R214). -/
structure Fetched where
  addr : Word
  words : List Word
  fault : Option Event
  deriving DecidableEq, Repr

/-- The loop state that trap entry sets aside (R184, R185). -/
structure LoopCtx where
  levels : Tab LoopLevel
  mloop : Option ModLoop
  rrb : Nat
  kb : Nat
  /-- rotation depth D (R171) -/
  depth : Nat
  /-- loop buffer: copies of body bundles (R199) -/
  buffer : List Fetched
  /-- bundles still to be discarded (R161, R166, R199) -/
  skip : Nat
  deriving DecidableEq, Repr

/-- Region of a task (R178). -/
inductive Region where
  | prologue | pass | epilogue | none
  deriving DecidableEq, Repr

/-- What a core does (R181-R187, R35). -/
inductive RunState where
  | idle
  | running
  /-- held at a bundle, or after it for a stop (R181) -/
  | held (e : Event)
  /-- halted for pre-emption (R35) -/
  | halted
  /-- privileged general core after HALT (R158) -/
  | asleep
  /-- stopped by a double fault (R186) or a thermal stop (R512) -/
  | stopped
  deriving DecidableEq, Repr

/-- The running task (R29, R30, R413). -/
structure Task where
  words : List Word
  id : Word
  ctx : Nat
  /-- a member of the cluster's launch group (R195) -/
  isMember : Bool
  /-- passes of the kernel body, known from boundary 0 -/
  passes : Nat
  /-- a cancel has been delivered (R40) -/
  cancelled : Bool
  /-- no further pass begins (EXIT or an acted cancel) -/
  leaving : Bool
  deriving DecidableEq, Repr

/-- A queued task: record and identifier (R416). -/
structure QEntry where
  words : List Word
  id : Word
  ctx : Nat
  deriving DecidableEq, Repr

/-- A hold of stakes (R271). -/
structure Hold where
  own : Bool
  stage : Nat
  time : Word
  count : Nat
  deriving DecidableEq, Repr

/-- A watchpoint (R498). -/
structure Watch where
  addr : Word
  len : Nat
  kind : BitVec 2
  deriving DecidableEq, Repr

/-- What keeps a core from issuing its next bundle after one that has completed. -/
inductive Wait where
  /-- phase end of R129: the phase that ended -/
  | phase (n : Nat)
  /-- sync-engine answer (R260) -/
  | answer
  /-- ring claim (R242) -/
  | claim (h : Nat) (cf f cd dr : Word) (base size nslot : Nat) (drain : Bool) (bundle : Word) (sidx : Nat)
  /-- ring release (R243) -/
  | release (h : Nat)
  /-- the interrupted-pending wait of R192: a kernel-iteration boundary -/
  | boundary
  /-- a CPYMC park waits for its slot (R403) -/
  | room (slot : Nat)
  /-- the end of a task, with its outcome, whose completion releases the core's remote stores (R32, R131) -/
  | ending (outcome : Nat)
  deriving DecidableEq, Repr

/-- A bundle of the stream in a core's instruction buffer (R196). -/
structure StreamEnt where
  seq : Nat
  f : Fetched
  /-- delivery cycle -/
  cycle : Nat
  deriving DecidableEq, Repr

/-- Row-engine state (R313, R314, R340-R342). -/
structure RowState where
  /-- control words -/
  cwa : Tab (BitVec 32)
  nrow : Nat
  live : Tab Bool
  /-- tracing memory; an unlisted entry is 0xFFFF after task start -/
  tm : Tab (BitVec 16)
  tlen : Nat
  plen : Nat
  tvalid : Bool
  recurse : Bool
  rlen : Nat
  dbase : Word
  thr : Tab Word
  exits : BitVec 32
  busyUntil : Nat
  /-- scratchpad bytes that the busy syllable accesses: physical address and length (R319) -/
  touched : List (Nat × Nat)
  deriving DecidableEq, Repr

/-- A drain group of an accumulator slot (R359). -/
structure Band where
  lo : Nat
  hi : Nat
  deriving DecidableEq, Repr

/-- An accumulator slot (R343, R364): entries by 128*row + column. -/
structure AccSlot where
  cells : Tab (BitVec 32)
  poison : List Nat
  /-- entries with an uncorrectable error not yet found (R364) -/
  bad : List Nat
  sat : Bool
  bands : Tab Band
  deriving DecidableEq, Repr

/-- A weight plane: row by element bytes, scale bytes and their presence (R343, R344). -/
structure PlaneRow where
  bytes : List Byte
  scales : List (Option Byte)
  deriving DecidableEq, Repr

/-- A push in flight (R350). -/
structure Push where
  slot : Nat
  row : Nat
  acc : Bool
  /-- accumulation kind of its issue -/
  ak : BitVec 2
  /-- FP32 encodings, or exact integer sums -/
  vals : List Int
  due : Nat
  deriving DecidableEq, Repr

/-- Matrix-engine state (R343, R370-R373). -/
structure MatState where
  configured : Bool
  nq : Nat
  wf : Nat
  af : Nat
  ak : BitVec 2
  plane0 : Tab PlaneRow
  plane1 : Tab PlaneRow
  active1 : Bool
  wp : Nat
  /-- name to slot binding -/
  names : Tab Nat
  slots : Tab AccSlot
  pushes : List Push
  /-- pushes that have landed since the last bundle issued (R367) -/
  recent : List Push
  unalloc : Bool
  drainSat : Bool
  drainRm : BitVec 2
  drainFmt : Nat
  drainCidx : Nat
  corr : BitVec 32
  /-- an ACMOV or ACLD is performed until this cycle (R360) -/
  busyUntil : Nat
  /-- cycle by which every drain has been delivered (R361) -/
  drainUntil : Nat
  deriving DecidableEq, Repr

/-- The registers of R60, physical numbers; s0 and p0 have no storage. -/
structure Regs where
  s : Tab Word
  v : Tab VWord
  m : Tab MWord
  p : Tab Bool
  b : Tab Word
  k : Tab (Option Word)
  h : Tab Handle
  lr : BitVec 16
  tcx : BitVec 16
  tcy : BitVec 16
  tcz : BitVec 16
  tm : Word
  st : BitVec 12
  /-- stochastic generator g (R97, R312) -/
  gen : Word
  deriving DecidableEq, Repr

/-- Control and trap registers of the sequencer (R176-R180). -/
structure SeqRegs where
  sb : Bool
  priv : Bool
  region : Region
  pass : Nat
  /-- SEQNO of the last record this core wrote (R176); the count itself is Dev.seqnos (R188) -/
  seqno : BitVec 32
  frec : List Word
  tvec : Word
  epc : Word
  cause : BitVec 8
  pie : Bool
  ie : Bool
  ppriv : Bool
  scr : Tab Word
  deriving DecidableEq, Repr

/-- The core's event counters (R492, R493). -/
structure EvCounters where
  group : Nat
  counts : Tab Nat
  /-- events of the current group's entries -/
  sels : Tab (BitVec 8)
  /-- event that each entry last counted -/
  used : Tab (BitVec 8)
  /-- time at which the group became current -/
  since : Nat
  /-- time of each entry's last write-back -/
  lastBack : Tab Nat
  /-- NEV and ROT as last read -/
  nev : Nat
  rot : Nat
  deriving DecidableEq, Repr

/-- A counter operation that a core has sent to another package for a bundle that waits (R468): the answer is a
reason (0 for success) and a value. -/
structure RemOp where
  kind : RemoteKind
  ident : Word
  val : Word
  answer : Option (Nat × Word)
  deriving DecidableEq, Repr

/-- A control-register syllable that has issued: its register's engine acts on it in one cycle, not before the one named
(R175); its result lands under the tag. -/
structure CsrAct where
  op : CsrOp
  csr : Nat
  a : Word
  tag : Nat
  at' : Nat
  /-- VEC.GEN as the instructions before the syllable left it, which a read of that register returns (R312) -/
  val : Word := 0
  deriving DecidableEq, Repr

/-- One tensor or general core. -/
structure Core where
  r : Regs
  lp : LoopCtx
  /-- what trap entry set aside (R184) -/
  lpSaved : LoopCtx
  seq : SeqRegs
  run : RunState
  pc : Word
  /-- earliest cycle of the next issue (R48) -/
  ready : Nat
  /-- bundles issued (R154) -/
  issued : Nat
  /-- value of issued when a b register was last written (R154) -/
  bWrite : Tab Nat
  pend : List Pend
  /-- control-register actions to come, in program order (R175) -/
  csrq : List CsrAct
  waits : List Wait
  task : Option Task
  preempt : Bool
  /-- cycle from which the iteration bound counts, and held cycles since (R35) -/
  spanStart : Option Nat
  heldSum : Nat
  /-- TRC.DBG.REQ (R496) -/
  stopReq : Bool
  /-- attachment (07) -/
  attached : Bool
  savedAtt : Bool
  cons : Nat
  ibuf : List StreamEnt
  fetchBase : Nat
  fetchK : Nat
  fetched : Option Fetched
  /-- at a kernel-iteration boundary: the next part's first bundle has not issued (R30) -/
  atBnd : Bool
  /-- an EXIT of the epilogue waits for a stop to be continued (R187) -/
  exitDue : Bool
  /-- the bundle of that EXIT was consumed from the stream (R201) -/
  exitStream : Bool
  joinWait : Option (Word × Nat)
  fuseWait : Option Word
  spill : Memory
  phase : Nat
  wanyNext : Nat
  holds : Tab Hold
  /-- holds written as registers (R281), each with the cycle and what it held before: a STAKE of that cycle drops the
  write for the fields that it updates (R6) -/
  holdWas : List (Nat × Nat × Hold)
  deque : List QEntry
  lfsr : BitVec 16
  stolen : BitVec 32
  localFails : Nat
  /-- a probe is under way (R422) -/
  probing : Bool
  hit : BitVec 32
  miss : BitVec 32
  cc : Tab Nat
  /-- sampling is on: the cycle of the next sample and the period in use (R490) -/
  sample : Option (Nat × Nat)
  /-- first cycle not yet charged to a class (R489) -/
  charged : Nat
  /-- first cycle after the WAIT of the last bundle (R48) -/
  waitEnd : Nat
  /-- cycles not yet charged, from and to, with a reason of R491 that holds in them -/
  gaps : List (Nat × Nat × Nat)
  /-- reason of R491 for every other cycle without a bundle past that WAIT -/
  gapWhy : Nat
  tseq : BitVec 32
  ev : EvCounters
  watch : Tab Watch
  /-- failed remote accesses not yet reported (R467): tag of the load's result, 0 for a store -/
  remFails : List (Nat × Event)
  /-- remote counter operations of the bundle that waits (R468) -/
  remOps : List RemOp
  /-- counters on which a stalled CWAIT or CWANY waits: die, context and index (R257) -/
  cwaits : List (Nat × Nat × Nat)
  row : RowState
  mat : MatState
  /-- number of the next engine command of this core (a name for its answer) -/
  nextTag : Nat
  /-- a CPYMC or HBDRAIN is performed until this cycle (R403, R404) -/
  busyUntil : Nat
  deriving DecidableEq, Repr

/-! ## A cluster -/

/-- Front end of a cluster (07). -/
structure FrontEnd where
  serving : Bool
  kern : Word
  epi : Word
  /-- a modulo-scheduled kernel (R173): its passes are no redirects -/
  modulo : Bool
  /-- the part of the kernel at the delivery position (R200) -/
  part : Region
  next : Nat
  pos : Option Word
  /-- delivered redirect bundle that the steering core has not issued (R200) -/
  redirect : Option Nat
  /-- continuations by sequence number of their redirect bundle (R201), with the cycle in which the steering core
  issued it -/
  conts : Tab (Word × Nat)
  joins : List (Word × Nat)
  fused : Bool
  /-- wired-AND line read in the previous cycle (R210) -/
  wire : Bool
  hwin : Bool
  /-- sequence numbers of the FUSE and the UNFUSE bundle that last acted (R209, R211) -/
  fuseSeq : Option Nat
  unfuseSeq : Option Nat
  /-- sequence numbers of the FUSE and UNFUSE bundles that acted before those -/
  earlier : List Nat
  /-- cycle of the last delivery, and the earliest cycle of the next -/
  cycle : Nat
  notBefore : Nat
  icorr : BitVec 32
  deriving DecidableEq, Repr

/-- An instruction-cache line (R215). -/
structure ILine where
  /-- physical address of its first byte -/
  line : Nat
  bytes : List Byte
  bad : Bool
  deriving DecidableEq, Repr

/-- State of a tag-table entry (R232, R233). -/
inductive TagState where
  | filling | full | stale
  deriving DecidableEq, Repr

/-- A tag-table entry by 8*set + way (R232); an unlisted entry is invalid. -/
structure TagEnt where
  ctx : Nat
  block : Nat
  st : TagState
  /-- its fill has landed (R237, R238) -/
  filled : Bool
  poisoned : Bool
  recency : Nat
  /-- cores whose phase began before the invalidation arrived (R233) -/
  seenBy : List Nat
  /-- order in which entries became stale -/
  staleAt : Nat
  pins : Nat
  /-- cores that have found it in their running phase (R128) -/
  readers : List Nat := []
  /-- an eviction's contents and poison, which its fill brings back (R128) -/
  again : Option (List Byte × Bool) := none
  deriving DecidableEq, Repr

/-- Spill ring of a cluster queue for one context (R416, R417). -/
structure SpillRing where
  base : Word
  log2 : Nat
  swr : BitVec 32
  srd : BitVec 32
  /-- identifiers of the tasks in the ring, oldest first (R413) -/
  ids : List Word := []
  deriving DecidableEq, Repr

/-- The launch group on a cluster (R26, R27). -/
structure Group where
  ctx : Nat
  stream : Nat
  /-- cores whose member task has not ended -/
  left : List Nat
  /-- memory at the moment of dispatch, from which the group fetches its code (R122) -/
  code : Memory
  deriving DecidableEq, Repr

/-- A translation in a cache (R118): page size in bits, frame and leaf. -/
structure TlbEnt where
  ctx : Nat
  va : Nat
  bits : Nat
  leaf : Word
  deriving DecidableEq, Repr

/-- A holding-buffer slot (R402-R404). -/
structure HoldSlot where
  parked : Bool
  /-- the copy packet that parks: queue and index; none for CPYMC -/
  packet : Option (Nat × Nat)
  ctx : Nat
  bytes : List Byte
  /-- drains still expected -/
  rem : Nat
  /-- counter added to when the slot becomes free -/
  free : Word
  done : Word
  rel : Bool
  rscp : Nat
  /-- the core whose drain was served last, and the cycle of that core at which it ends (R404) -/
  busy : Option (Nat × Nat)
  deriving DecidableEq, Repr

/-- A park that waits for its slot (R402). -/
structure ParkReq where
  slot : Nat
  src : Nat
  hold : HoldSlot
  deriving DecidableEq, Repr

structure Cluster where
  fe : FrontEnd
  icache : List ILine
  /-- blocks whose invalidation came since the last dispatch (R122) -/
  icInval : List Nat
  tags : Tab TagEnt
  tagClock : Nat
  /-- evicted entries that cores have found in their running phases, with the slot's contents (R128, R236) -/
  evicted : List (TagEnt × List Byte)
  spmCorr : BitVec 32
  /-- granules with an uncorrectable error, by offset / 8 (R225) -/
  spmBad : List Nat
  slots : Tab HoldSlot
  parks : List ParkReq
  /-- spilling and refilling wait for a translation fault to be resolved (R417) -/
  spillStop : Bool
  queue : List QEntry
  spill : Tab SpillRing
  serial : Nat
  group : Option Group
  lastStream : Tab Nat
  tlb : List TlbEnt
  deriving DecidableEq, Repr

/-! ## Stores not yet merged into memory (R123-R129) -/

/-- Bytes of one granule written by one agent in one phase. -/
structure StoreEnt where
  /-- source unit number of the writer (R188) -/
  owner : Nat
  phase : Nat
  ended : Bool
  gran : Nat
  cells : List (Nat × Byte)
  /-- visible to every agent -/
  all : Bool
  /-- agents to which it is visible -/
  seen : List Nat
  /-- applied by its Graver, and clusters that its invalidation has reached (R129, R134) -/
  applied : Bool
  inval : List Nat
  deriving DecidableEq, Repr

/-! ## A compute die -/

/-- A counter in the SRAM of a sync engine, most recently used first (R257). -/
structure CounterEnt where
  ctx : Nat
  idx : Nat
  val : Word
  deriving DecidableEq, Repr

/-- A delta of stakes (R270). -/
structure Delta where
  stage : Nat
  time : Word
  n : Int
  deriving DecidableEq, Repr

/-- A batch on its way to the root or held there (R274, R275). -/
structure Batch where
  die : Nat
  seq : Nat
  deltas : List Delta
  deriving DecidableEq, Repr

/-- The Moraine of a die for one context (R274, R285). -/
structure MoraineCtx where
  openDeltas : List Delta
  /-- number of the last batch sent; closed batches not yet sent take the numbers after it -/
  sent : Nat
  unsent : List (List Delta)
  /-- entries that lie in the context's overflow area -/
  spilled : Nat
  /-- deltas that found no room, each with the agent whose act caused them, oldest first -/
  owed : List (Nat × List Delta)
  /-- MORAINE_OVERFLOW has been written and no space has come free since -/
  reported : Bool
  deriving DecidableEq, Repr

/-! ## Contexts and partitions (02, 20) -/

/-- An append whose slot write is suspended (R423). -/
structure Append where
  core : Nat
  tag : Nat
  words : List Word
  deriving DecidableEq, Repr

/-- A stream of launch descriptors (R24, R423). -/
structure Stream where
  base : Word
  log2 : Nat
  widx : BitVec 32
  ridx : BitVec 32
  stopped : Bool
  /-- appends whose slot is not written yet, oldest first -/
  appends : List Append
  /-- the next descriptor's gate in another package: 0 not asked, 1 asked, 2 satisfied (R26, R468) -/
  gate : Nat
  deriving DecidableEq, Repr

/-- A trace ring of a context (R484, R503). -/
structure TraceRing where
  base : Word
  log2 : Nat
  wi : Word
  rd : Word
  /-- records written to the ring -/
  written : Nat
  /-- records written since the last add to WI, and the time of the first of them -/
  owed : Nat
  since : Nat
  deriving DecidableEq, Repr

/-- An address breakpoint (R495). -/
structure Break where
  addr : Word
  pen : Bool
  en : Bool
  pass : BitVec 32
  deriving DecidableEq, Repr

/-- The progress root of a context (R275-R278). -/
structure Root where
  /-- number of the last batch applied, by die -/
  applied : Tab Nat
  net : List (Nat × Word × Int)
  late : BitVec 32
  /-- by stage, the greatest publication sent to a frontier counter in another package (R277, R278) -/
  shown : Tab Word
  skipped : List (Nat × Word)
  /-- batches sent and not yet applied (R274, R275): they are not swapped (R279) -/
  arriving : List Batch
  frozen : Bool
  deriving DecidableEq, Repr

/-- A slot operation that waits for its Gravers and its table word (R453). -/
structure SlotOp where
  core : Nat
  tag : Nat
  slot : Nat
  /-- a retire, else an allocate -/
  retire : Bool
  gen : BitVec 16
  /-- stacks whose Graver has not taken the new generation -/
  todo : List Nat
  deriving DecidableEq, Repr

/-- A write of GEN.SLOTOP that has arrived and is not performed (R453): a CSRW whose bundle stalls, by the bundles its core
has issued and its address, or a write from outside its core, with its value. -/
structure SlotReq where
  core : Nat
  val : Option Word
  issued : Nat
  pc : Word
  deriving DecidableEq, Repr

/-- The generation sequencer's registers and progress for a context (R443-R456, R460). -/
structure Gen where
  hstage : Nat
  trstage : Nat
  ahead : Nat
  run : Bool
  /-- a write of RUN 0 waits for the iteration's appends (R445) -/
  halting : Bool
  stop : Bool
  reason : Nat
  spec0 : Bool
  bkt : Nat
  k : Nat
  tbase : Word
  btab : Word
  occ : BitVec 16
  draft : BitVec 4
  gtab : Word
  nslot : Nat
  /-- SLOTOP as it reads -/
  slot : Nat
  slotGen : BitVec 16
  slotLive : Bool
  mvbase : Word
  spool : Word
  cpool : Word
  swr : BitVec 16
  srd : BitVec 16
  cwr : BitVec 16
  crd : BitVec 16
  need : BitVec 32
  /-- NEED and SPEC0 before the last write of NEED, and the step after it: a pool entry taken there may fall in the cycle
  of the write, which is then lost (R6) -/
  needWas : Option (BitVec 32 × Bool × Nat)
  rdone : Word
  /-- list address and descriptors still to append in this iteration -/
  list : Word
  left : Nat
  listed : Nat
  /-- an iteration has begun and its descriptors are not all dispatched -/
  busy : Bool
  /-- times that dispatch adds to the members of the descriptors appended to stream 15, by index (R448) -/
  offs : Tab Word
  /-- last iteration selected with a draft, plus one -/
  drafted : Nat
  slotOp : Option SlotOp
  /-- writes of SLOTOP that wait, in order of arrival (R453) -/
  slotReqs : List SlotReq := []
  /-- greatest value that the frontier counter of TRSTAGE is known to have reached, where it is read with REM = 1 (R446) -/
  front : Option Word := none
  deriving DecidableEq, Repr

/-- A calving notice (R470). -/
structure Notice where
  target : Nat
  row : Nat
  token : Nat
  cw : BitVec 32
  time : Word
  /-- pending in the context's overflow area (R471) -/
  spilled : Bool
  deriving DecidableEq, Repr

/-- The calving unit's state for a context (R469-R473). -/
structure Calv where
  /-- installed targets: descriptor and TCUR -/
  targets : Tab (List Word × Word)
  pending : List Notice
  mism : BitVec 16
  stale : BitVec 16
  appl : BitVec 16
  covf : Word
  /-- the first notice is suspended on a translation fault or waits for its exit operation; later ones wait behind it -/
  held : List Notice
  /-- the notice at hand, the first of held or of the arm, waits for its exit operation at the home Firn (R470) -/
  exiting : Bool
  /-- an arm whose applications are not all made: core, result tag, number applied and notices left -/
  arm : Option (Nat × Nat × Nat × List Notice)
  deriving DecidableEq, Repr

structure Ctx where
  part : Nat
  fmt : List Word
  ptRoot : Nat
  cntBase : Nat
  ncnt : Nat
  stageBase : Nat
  closBase : Nat
  nclos : Nat
  ovfBase : Nat
  frBase : Nat
  frLog2 : Nat
  frCount : Nat
  qbase : Nat
  qsize : Nat
  wbase : Nat
  wlo : Nat
  wnum : Nat
  dbg : Bool
  conf : Bool
  key : Nat
  /-- the context block as created (R508) -/
  block : List Word
  streams : Tab Stream
  rings : Tab TraceRing
  ten : Bool
  sen : Bool
  per : BitVec 32
  bps : Tab Break
  watch : Tab Watch
  /-- cores that have not applied the last change of TRC.SMP, or of the watchpoints, with its time (R498, R500) -/
  smpTodo : Tab Nat
  watchTodo : Tab Nat
  cpage : Nat
  root : Root
  gen : Gen
  calv : Calv
  deriving DecidableEq, Repr

/-- A partition (R20, R22, R36). -/
structure Part where
  dies : BitVec 8
  hbmBase : Nat
  hbmSize : Nat
  share : Nat
  engines : BitVec 16
  resident : Option Nat
  preempt : Bool
  /-- a swap operation in progress: code of R509 and the context to restore -/
  swap : Option (Nat × Nat)
  /-- package time from which its bound counts (R36, R515), and that of the partition's last halt -/
  swapAt : Nat
  haltAt : Nat
  swapLeft : List Nat
  /-- core and result tag that wait for the swap -/
  swapBy : Nat × Nat
  fqBase : Nat
  fqLog2 : Nat
  fqCount : Nat
  /-- records held in their sources while the queue is full: source unit and words (R511) -/
  fqHeld : List (Nat × List Word) := []
  deriving DecidableEq, Repr

/-- What a die's shadow storage saves of one cluster and of its Moraine (R36). -/
structure Saved where
  ctx : Nat
  cores : Tab Core
  queues : Tab (List QEntry)
  spills : Tab SpillRing
  groups : Tab (Option Group)
  joins : Tab (List (Word × Nat))
  moraine : MoraineCtx
  deriving DecidableEq, Repr

/-- A decoded element: a finite one is (-1)^neg * mag * 2^exp. -/
inductive FVal where
  | nan
  | inf (neg : Bool)
  | fin (neg : Bool) (mag : Nat) (exp : Int)
  deriving DecidableEq, Repr

/-- An element of a reduction's block of which some contributors are read, or which is written, before the others (R385). -/
structure RedAhead where
  reads : Tab FVal
  written : Bool
  deriving DecidableEq, Repr

/-- A subscription or reduction of a home Graver (R379, R385). -/
structure SubEnt where
  ctx : Nat
  /-- cluster of the issuing core, whose scratchpad holds ring and descriptor -/
  cluster : Nat
  isRed : Bool
  /-- descriptor address and words, and the ring descriptor of a subscription -/
  dva : Word
  words : List Word
  ring : List Word
  /-- next tile to claim, or next destination block -/
  next : Nat
  /-- tiles claimed and not released: tile and ring use, oldest first -/
  flight : List (Nat × Nat)
  /-- bytes of the oldest pull tile already written, and the tag read with its slot (R380, R383) -/
  moved : Nat := 0
  tag : Option Nat := none
  /-- elements of a reduction's block at hand that are ahead of the others (R385) -/
  ahead : Tab RedAhead := []
  cancelled : Bool
  susp : Bool
  /-- ended as faulted: only its completion is left -/
  bad : Bool
  deriving DecidableEq, Repr

/-- An operation that has reached a home Firn (R434). -/
structure FirnOp where
  ctx : Nat
  core : Nat
  /-- 0 FILREQ, 1 KVPROBE, 2 KVMARK valid, 3 exit, 4 clear -/
  kind : Nat
  dva : Word
  words : List Word
  t0 : Nat
  n : Nat
  b : Nat
  /-- tag of the results s[y] and h[n] -/
  tag : Nat
  /-- the task that issued it -/
  task : Option Word
  /-- number of the operation at its Firn, in order of arrival -/
  no : Nat
  /-- it waits for a translation fault to be resolved: the Firn's other operations go on (R121) -/
  susp : Bool
  deriving DecidableEq, Repr

/-- A fill in flight (R438), numbered by the order of its start. -/
structure FillEnt where
  ctx : Nat
  /-- the core whose probe started it -/
  core : Nat
  /-- its tag is read, or its task created -/
  begun : Bool
  dva : Word
  words : List Word
  t : Nat
  b : Nat
  /-- exit block when the fill started -/
  e : Nat
  /-- tag of its writes when TAG = 1 -/
  wtag : Word
  /-- PROJECT: the fill task, and whether it has marked (t, b) valid -/
  task : Option Word
  marked : Bool
  /-- cleared by KVMARK: completes as cancelled -/
  cleared : Bool
  /-- PROJECT: the task has completed -/
  ended : Bool
  susp : Bool
  /-- 64-byte units of its rows written so far (R438): those of K, then those of V -/
  units : List Nat := []
  deriving DecidableEq, Repr

/-- A die's Firn fill engine (R434-R442). -/
structure Firn where
  ops : List FirnOp
  waiting : List FirnOp
  nextOp : Nat
  fills : Tab FillEnt
  nextFill : Nat
  started : BitVec 32
  shared : BitVec 32
  fails : BitVec 32
  deriving DecidableEq, Repr

structure Die where
  subs : Tab SubEnt
  firn : Firn
  sram : List CounterEnt
  cmiss : BitVec 32
  moraine : Tab MoraineCtx
  /-- shadow storage: the image of a saved context (R36) -/
  shadow : Option Saved
  tlb : List TlbEnt
  /-- causes of issue gating, each with the time at which it last came (R512) -/
  gate : List (GateCause × Nat)
  deriving DecidableEq, Repr

/-- A trace record waiting in a unit's buffer (R485). -/
structure TraceRec where
  ctx : Nat
  words : List Word
  deriving DecidableEq, Repr

/-- A trace unit (R484, R485). -/
structure TraceUnit where
  buf : List TraceRec
  lost : Nat
  drop : BitVec 32
  tseq : BitVec 32
  /-- contexts reset whose records the unit still writes, with the number discarded since (R497) -/
  trunc : Tab Nat
  deriving DecidableEq, Repr

/-- The package registers of chapter 20. -/
structure Sys where
  boot : BitVec 2
  cw : Bool
  feata0 : Word
  feata1 : Word
  locked : Bool
  sfpBase : Nat
  sfpLog2 : Nat
  sfpCount : Nat
  /-- records held in their sources while the system path is full (R511) -/
  sfpHeld : List (Nat × List Word) := []
  imask : BitVec 32
  plim : BitVec 13
  /-- general cores with a pending interrupt -/
  irq : List Nat
  /-- MSI-X vectors raised -/
  msix : List Nat
  /-- a package reset has been written and acts when the bundle at hand is complete (R175, R510) -/
  rst : Bool
  /-- a thermal stop stands until a package reset (R512) -/
  hot : Bool
  /-- SYS.MON0 to SYS.MON9 as the monitors last set them (R512, R514) -/
  mon : Tab (BitVec 48)
  /-- I/O dies whose boot has stopped: they run nothing further (R18, R506) -/
  dead : List Nat
  /-- what the host was last answered: bytes of HBM, or a register -/
  hostBytes : List Byte
  hostWord : Word
  deriving DecidableEq, Repr

/-- A request sent to another package and not answered (R466-R468). -/
structure RemoteOut where
  src : Nat
  ctx : Nat
  pkg : Nat
  kind : RemoteKind
  /-- counter or target identifier, or the virtual address -/
  ident : Word
  pa : Nat
  data : List Byte
  val : Word
  /-- result register that waits for the answer: its tag, 0 for none -/
  tag : Nat
  /-- a store: the phase whose end waits for it -/
  phase : Nat
  /-- package time at which it was sent (R3, R465) -/
  start : Nat
  /-- lost with its port: it will time out (R465) -/
  lost : Bool := false
  /-- port on which it was sent; none while it waits for a port, or within the package (R464, R465) -/
  port : Option Nat := none
  /-- a CWAIT, CWANY or gate: the other sync engine has acknowledged its registration (R468) -/
  acked : Bool := false
  /-- a completion add: the stakes given up behind it, with the die that enters them (R273) -/
  stakes : List Delta := []
  die : Nat := 0
  deriving DecidableEq, Repr

/-- An entry of a pseudo-channel queue (R375): a read, or a write of the bytes that a mask selects, which is a
read-modify-write where they are not all 64. -/
structure GravEnt where
  unit : Nat
  ctx : Nat
  data : Option (BitVec 512 × BitVec 64)
  deriving DecidableEq, Repr

/-- An error-history record (R392). -/
structure HistRec where
  seq : BitVec 32
  kind : Nat
  ctx : Nat
  unit : Nat
  time : Nat
  deriving DecidableEq, Repr

/-- A Graver (R374-R394). -/
structure Grav where
  queues : Tab (List GravEnt)
  /-- open row of a bank, by 16 * pseudo-channel + bank -/
  rows : Tab Nat
  /-- last user and run length of each channel's row bus and column bus (R377), by 2 * channel + column -/
  runs : Tab (Bool × Nat)
  per : BitVec 32
  en : Bool
  thr : Nat
  level : Nat
  /-- next unit to scrub, and whether a pass is running -/
  pos : Nat
  passing : Bool
  stale : BitVec 32
  eccScrub : BitVec 32
  eccAccess : BitVec 32
  seq : BitVec 32
  hist : List HistRec
  sel : BitVec 32
  /-- generation of a slot, by 65536 * context + slot (R382) -/
  gens : Tab (BitVec 16)
  deriving DecidableEq, Repr

/-- A copy packet taken and not complete (R396-R400). -/
structure Packet where
  idx : Nat
  words : List Word
  susp : Bool
  /-- 64-byte pieces moved so far, in order -/
  moved : Nat
  /-- parts of later pieces handled ahead of the order (R399): their bytes, read, or none where they are written too -/
  ahead : Tab (Option (List Byte))
  /-- bytes of the piece at hand that other packages have answered (R468) -/
  got : List Byte
  /-- a park that has claimed or waits for its slot -/
  parking : Bool
  /-- ended at a faulting access: only its faulted completion is left -/
  bad : Bool
  /-- every piece is moved, and its stores in other packages are awaited (R400) -/
  sent : Bool
  deriving DecidableEq, Repr

/-- A copy queue (R395, R396, R409). -/
structure CpyQ where
  base : Word
  wi : Word
  rd : Word
  ctx : Nat
  log2 : Nat
  ascp : Nat
  en : Bool
  ridx : Nat
  packets : List Packet
  /-- the engine has read a slot whose stamp did not match -/
  reread : Bool
  /-- reading the next slot waits for a translation fault to be resolved -/
  susp : Bool
  /-- what the engine has observed of a WI in another package (R396) -/
  known : Nat := 0
  deriving DecidableEq, Repr

/-- A CPYQ that has reached its copy engine (R401). -/
structure CpyReq where
  ctx : Nat
  core : Nat
  tag : Nat
  q : Word
  words : List Word
  /-- index already taken by an enqueue whose slot write has met a translation fault -/
  idx : Option Nat
  /-- that fault is not resolved yet: later enqueues go on (R121) -/
  susp : Bool
  /-- what another package has answered for WI and RD (R401) -/
  wi : Option Word := none
  rd : Option Word := none
  deriving DecidableEq, Repr

/-- A rank of this package in a collective (R475). -/
structure ColRank where
  core : Nat
  ctx : Nat
  dva : Word
  words : List Word
  deriving DecidableEq, Repr

/-- A collective (R474-R477). -/
structure Col where
  form : Nat
  colid : BitVec 32
  part : Nat
  start : Nat
  ranks : List ColRank
  /-- the result's bytes once every rank has gathered -/
  gathered : Option (List Byte)
  susp : Bool
  /-- ends as faulted with this cause and reason -/
  bad : Option (BitVec 8 × Nat)
  /-- every rank has gathered: the ranks of other packages -/
  others : Option (List RankDesc) := none
  /-- bulk flits moved to and from each other package so far (R22) -/
  moved : Tab Nat := []
  /-- its traffic was lost with a port (R465) -/
  lost : Bool := false
  deriving DecidableEq, Repr

/-- A fabric port (R465, R482). -/
structure Port where
  ldown : BitVec 16
  lanef : BitVec 4
  up : Bool
  /-- start of the current 1 µs window, and the bulk flits admitted to each partition in it (R22) -/
  since : Nat
  window : Tab Nat
  /-- event messages stamped (R468): direction and time -/
  stamps : List (Bool × Nat)
  deriving DecidableEq, Repr

/-- The fabric (R461-R482). -/
structure Fab where
  ports : Tab Port
  tmoCol : BitVec 32
  tmoAcc : BitVec 32
  exports : Tab Word
  route : Tab Word
  cols : Tab Col
  nextCol : Nat
  /-- notices that the calving unit does not accept yet: their pairs' priority traffic queues behind them (R471) -/
  refused : List RemoteReq
  deriving DecidableEq, Repr

/-- A suspended engine command (R121). -/
inductive Cmd where
  | sub (die entry : Nat)
  | copy (q idx : Nat)
  /-- reading the next packet of a queue -/
  | take (q : Nat)
  /-- the slot write of an enqueue: its engine, core and result tag -/
  | enqueue (engine core tag : Nat)
  | dispatch (ctx stream : Nat)
  | append (ctx stream : Nat)
  | spill (cluster : Nat)
  | fill (die entry : Nat)
  /-- an operation at a home Firn, by its number there -/
  | firn (die no : Nat)
  | notice (ctx : Nat)
  | col (idx : Nat)
  /-- a read or write of a partition's sequencer: of the bucket table (0), of a list or a stream slot (1), of a pool (2) or
  of the slot table (3) -/
  | gen (ctx act : Nat)
  deriving DecidableEq, Repr

/-- Every unit of the package. -/
structure Dev where
  cores : Tab Core
  clusters : Tab Cluster
  dies : Tab Die
  parts : Tab Part
  ctxs : Tab Ctx
  units : Tab TraceUnit
  sys : Sys
  stores : List StoreEnt
  /-- 64-byte units of HBM whose check bits are uncorrectable (R388) -/
  poison : List Nat
  remote : List RemoteOut
  /-- records written by each source (R188 SEQNO) -/
  seqnos : Tab (BitVec 32)
  /-- trace records of each engine (R486 TSEQ) -/
  tseqs : Tab (BitVec 32)
  /-- partition and context of a general core (R23), log entry 20 -/
  genPart : Tab (Nat × Nat)
  gravs : Tab Grav
  /-- saved images that firmware keeps in HBM, with their die (R36) -/
  images : List (Nat × Saved)
  cpyqs : Tab CpyQ
  /-- the queue that each copy engine served last (R396) -/
  cpyLast : Tab Nat
  /-- CPYQ packets at each copy engine, in order of arrival -/
  cpyReqs : Tab (List CpyReq)
  fab : Fab
  susp : List Cmd
  deriving DecidableEq, Repr

/-! ## The bundle in issue (R48, R49, R182) -/

/-- What the bundle does to the flow of control when it completes. -/
inductive Ctl where
  | none
  | branch (target : Word) (pen : Nat)
  | loop (lv trips len : Nat) (m : Option ModLoop) (dp : Nat) (syl : Word)
  | lbrk (lv : Nat)
  | lnext (lv : Nat)
  | exit
  | sleep
  /-- TRET, after which a HALT of the same bundle lets the core sleep -/
  | tret (sleep : Bool)
  | detach
  deriving DecidableEq, Repr

structure Bundle where
  core : Nat
  addr : Word
  words : List Word
  /-- address of the bundle that follows in memory -/
  next : Word
  /-- where it was fetched: 0 stream, 1 private, 2 loop buffer -/
  src : Nat
  /-- issue cycle -/
  cycle : Nat
  wmax : Nat
  idx : Nat
  /-- syllables that executed, for the event counters (R494) -/
  ran : Nat
  ctl : Ctl
  /-- the bundle ends the core's phase (R125) -/
  phaseEnd : Bool
  /-- first stop found (R182) -/
  stop : Option Event
  /-- the units as they were before the bundle (R39) -/
  base : Dev
  /-- the least reason of R491 for which a syllable of it waits; 14 where it was not asked -/
  hint : Nat := 14
  deriving DecidableEq, Repr

/-- What happens without a row of the opcode table: acts of firmware that no unit performs for it, the sending of a
batch, and errors of the check bits. -/
inductive World where
  /-- firmware assigns a general core to a partition and a context of it, or takes it back (R23) -/
  | assign (core : Nat) (at' : Option (Nat × Nat))
  /-- firmware copies a die's saved image to HBM (R36) -/
  | imageOut (die : Nat)
  /-- firmware moves the saved image at a place of HBM into its die's shadow storage (R36) -/
  | imageIn (idx : Nat)
  /-- a Moraine sends its oldest closed batch (R274) -/
  | batchSend (die ctx : Nat)
  /-- an error in a scratchpad granule: corrected on read, or uncorrectable (R225) -/
  | spmError (cluster gran : Nat) (hard : Bool)
  /-- an error in an entry of an accumulator slot (R364) -/
  | accError (core slot entry : Nat) (hard : Bool)
  /-- the acknowledgement of a registration comes from another sync engine (R468) -/
  | registered (idx : Nat)
  /-- a monitor has a new reading (R512) -/
  | monitor (i : Nat) (v : BitVec 48)
  /-- the next 64-byte unit of a subscription's oldest pull tile is written, before the tile's other units (R383) -/
  | tileUnit (die entry : Nat)
  /-- a contributor of an element of a reduction's block is read, or the element is written, before the others (R385) -/
  | redRead (die entry elem rank : Nat)
  | redWrite (die entry elem : Nat)
  /-- a 64-byte unit of a REPEAT fill's rows is written, before its others (R438, R383) -/
  | fillUnit (die entry unit : Nat)
  /-- one part of a packet's pieces is read, or written, ahead of the others (R399) -/
  | copyPart (q idx key : Nat) (write : Bool)
  deriving DecidableEq, Repr

/-- An event that a bound of the spec on the time base makes due. -/
inductive Due where
  /-- a remote request, by its place, has no answer (R467, R468) -/
  | remote (idx : Nat)
  /-- a collective has not gathered (R475) -/
  | collective (idx : Nat)
  /-- a trace unit adds to a ring's WI (R485) -/
  | wiAdd (unit ctx : Nat)
  /-- a core applies a change of sampling (R500) or of watchpoints (R498) -/
  | sampling (core : Nat)
  | watch (core : Nat)
  /-- a die's part of a swap (R36) -/
  | swap (die : Nat)
  deriving DecidableEq, Repr

/-- One entry of the agenda: an event of the table or of the world around it, or a core that issues next (log
entry 3). -/
inductive Sched where
  | event (i : Instr)
  | world (w : World)
  | issue (core : Nat)
  deriving DecidableEq, Repr

structure State where
  mem : Memory
  dev : Dev
  /-- package time base in ns (R3, R488) -/
  time : Nat
  /-- MODEL's own: counter that free values are drawn by (log entry 2) -/
  free : Nat
  /-- MODEL's own: events and choices to come (log entry 3) -/
  agenda : List Sched
  /-- MODEL's own: the core that issues when the agenda is empty (log entry 3) -/
  cur : Nat
  /-- MODEL's own: the bundle in issue -/
  bundle : Option Bundle
  deriving DecidableEq, Repr

/-- Stops of the model.  No meaning raises one: an address that R109 leaves empty fails translation (R115, R117), and
every other error of the spec is an event, a record or a refused command. -/
inductive Fault where
  /-- An untranslated access to an address that R109 leaves empty; nothing in this model makes one.  Safe. -/
  | unpopulated (pa : Nat)
  deriving DecidableEq, Repr

/-- Refusals of the model. -/
inductive Refusal where
  /-- The instruction has no meaning yet; raised by exec alone.  Safe. -/
  | notModelled (mnemonic : String)
  deriving DecidableEq, Repr

/-! ## The machine right after package reset (R7, R178, R421, R503; log entries 1-7) -/

/-- An inactive loop level (R178 LACT). -/
def LoopLevel.reset : LoopLevel where
  active := false
  count := 0
  index := 0
  stride0 := 0
  stride1 := 0
  stride2 := 0
  stride3 := 0
  body := 0
  len := 0
  pos := 0
  decl := 0
  syl := 0

/-- A stream before firmware configures it (R432). -/
def Stream.reset : Stream where
  base := 0
  log2 := 0
  widx := 0
  ridx := 0
  stopped := false
  appends := []
  gate := 0

/-- A spill ring before firmware gives one (R432). -/
def SpillRing.reset : SpillRing where
  base := 0
  log2 := 5
  swr := 0
  srd := 0

def LoopCtx.reset : LoopCtx where
  levels := []
  mloop := none
  rrb := 0
  kb := 0
  depth := 1
  buffer := []
  skip := 0

def RowState.reset : RowState where
  cwa := []
  nrow := 0
  live := []
  tm := []
  tlen := 0
  plen := 0
  tvalid := false
  recurse := false
  rlen := 4
  dbase := 0
  thr := []
  exits := 0
  busyUntil := 0
  touched := []

def MatState.reset : MatState where
  configured := false
  nq := 0
  wf := 0
  af := 0
  ak := 0
  plane0 := []
  plane1 := []
  active1 := false
  wp := 0
  names := []
  slots := []
  pushes := []
  recent := []
  unalloc := false
  drainSat := false
  drainRm := 0
  drainFmt := 0
  drainCidx := 0
  corr := 0
  busyUntil := 0
  drainUntil := 0

/-- Registers without a stated reset value are 0 or unbound (log entry 6); g has the value of R312. -/
def Regs.reset : Regs where
  s := []
  v := []
  m := []
  p := []
  b := []
  k := []
  h := []
  lr := 0
  tcx := 0
  tcy := 0
  tcz := 0
  tm := 0
  st := 0
  gen := 0x0123456789ABCDEF

/-- Sequencer registers of core n: general cores (256 and up) start privileged (R178). -/
def SeqRegs.reset (n : Nat) : SeqRegs where
  sb := false
  priv := 256 ≤ n
  region := .none
  pass := 0
  seqno := 0
  frec := [0, 0, 0, 0, 0, 0, 0, 0]
  tvec := 0
  epc := 0
  cause := 0
  pie := false
  ie := false
  ppriv := true
  scr := []

def EvCounters.reset : EvCounters where
  group := 0
  counts := []
  sels := []
  used := []
  since := 0
  lastBack := []
  nev := 0
  rot := 0

/-- Core n after reset: a tensor core is idle, a general core runs from SEQ.TVEC (log entry 7); the package holds 256
tensor and 32 general cores (R12), and a number past them names none. -/
def Core.reset (n : Nat) : Core where
  r := Regs.reset
  lp := LoopCtx.reset
  lpSaved := LoopCtx.reset
  seq := SeqRegs.reset n
  run := if 288 ≤ n then .stopped else if 256 ≤ n then .running else .idle
  pc := 0
  ready := 0
  issued := 0
  bWrite := []
  pend := []
  csrq := []
  waits := []
  task := none
  preempt := false
  spanStart := none
  heldSum := 0
  stopReq := false
  attached := false
  savedAtt := false
  cons := 0
  ibuf := []
  fetchBase := 0
  fetchK := 0
  fetched := none
  atBnd := false
  exitDue := false
  exitStream := false
  joinWait := none
  fuseWait := none
  spill := { cells := [] }
  phase := 0
  wanyNext := 0
  holds := []
  holdWas := []
  deque := []
  lfsr := 0xACE1 ^^^ BitVec.ofNat 16 n
  stolen := 0
  localFails := 0
  probing := false
  hit := 0
  miss := 0
  cc := []
  sample := none
  charged := 0
  waitEnd := 0
  gaps := []
  gapWhy := 3
  tseq := 0
  ev := EvCounters.reset
  watch := []
  remFails := []
  remOps := []
  cwaits := []
  row := RowState.reset
  mat := MatState.reset
  nextTag := 1
  busyUntil := 0

def FrontEnd.reset : FrontEnd where
  serving := false
  kern := 0
  epi := 0
  modulo := false
  part := .prologue
  next := 0
  pos := none
  redirect := none
  conts := []
  joins := []
  fused := false
  wire := false
  hwin := false
  fuseSeq := none
  unfuseSeq := none
  earlier := []
  cycle := 0
  notBefore := 0
  icorr := 0

def Cluster.reset : Cluster where
  fe := FrontEnd.reset
  icache := []
  icInval := []
  tags := []
  tagClock := 0
  evicted := []
  spmCorr := 0
  spmBad := []
  slots := []
  parks := []
  spillStop := false
  queue := []
  spill := []
  serial := 0
  group := none
  lastStream := []
  tlb := []

def MoraineCtx.reset : MoraineCtx where
  openDeltas := []
  sent := 0
  unsent := []
  spilled := 0
  owed := []
  reported := false

def Root.reset : Root where
  applied := []
  net := []
  late := 0
  shown := []
  skipped := []
  arriving := []
  frozen := false

def Gen.reset : Gen where
  hstage := 0
  trstage := 0
  ahead := 0
  run := false
  halting := false
  stop := false
  reason := 0
  spec0 := false
  bkt := 0
  k := 0
  tbase := 0
  btab := 0
  occ := 0
  draft := 0
  gtab := 0
  nslot := 0
  slot := 0
  slotGen := 0
  slotLive := false
  mvbase := 0
  spool := 0
  cpool := 0
  swr := 0
  srd := 0
  cwr := 0
  crd := 0
  need := 0
  needWas := none
  rdone := 0
  list := 0
  left := 0
  listed := 0
  busy := false
  offs := []
  drafted := 0
  slotOp := none

def Calv.reset : Calv where
  targets := []
  pending := []
  mism := 0
  stale := 0
  appl := 0
  covf := 0
  held := []
  exiting := false
  arm := none

def Firn.reset : Firn where
  ops := []
  waiting := []
  nextOp := 0
  fills := []
  nextFill := 0
  started := 0
  shared := 0
  fails := 0

/-- GRV registers after reset (R394). -/
def Grav.reset : Grav where
  queues := []
  rows := []
  runs := []
  per := 86400
  en := true
  thr := 4
  level := 0
  pos := 0
  passing := false
  stale := 0
  eccScrub := 0
  eccAccess := 0
  seq := 0
  hist := []
  sel := 0
  gens := []

/-- CPY registers after reset (R409). -/
def CpyQ.reset : CpyQ where
  base := 0
  wi := 0
  rd := 0
  ctx := 0
  log2 := 1
  ascp := 3
  en := false
  ridx := 0
  packets := []
  reread := false
  susp := false

def Port.reset : Port where
  ldown := 0
  lanef := 0
  up := true
  since := 0
  window := []
  stamps := []

/-- FAB registers after reset (R482). -/
def Fab.reset : Fab where
  ports := []
  tmoCol := 10000
  tmoAcc := 100
  exports := []
  route := []
  cols := []
  nextCol := 0
  refused := []

def Die.reset : Die where
  subs := []
  firn := Firn.reset
  sram := []
  cmiss := 0
  moraine := []
  shadow := none
  tlb := []
  gate := []

def TraceUnit.reset : TraceUnit where
  buf := []
  lost := 0
  drop := 0
  tseq := 0
  trunc := []

def Sys.reset : Sys where
  boot := 0
  cw := false
  feata0 := 0
  feata1 := 0
  locked := false
  sfpBase := 0
  sfpLog2 := 0
  sfpCount := 0
  imask := 0
  plim := 6000
  irq := []
  msix := []
  rst := false
  hot := false
  mon := []
  dead := []
  hostBytes := []
  hostWord := 0

def Dev.reset : Dev where
  cores := []
  clusters := []
  dies := []
  parts := []
  ctxs := []
  units := []
  sys := Sys.reset
  stores := []
  poison := []
  remote := []
  seqnos := []
  tseqs := []
  genPart := []
  gravs := []
  images := []
  cpyqs := []
  cpyLast := []
  cpyReqs := []
  fab := Fab.reset
  susp := []

/-- The machine right after package reset.  Unlisted units are as the .reset of their type says. -/
def State.reset : State where
  mem := { cells := [] }
  dev := Dev.reset
  time := 0
  free := 0
  agenda := []
  cur := 256
  bundle := none

end Sys2Proof.Machine
end

