-- ==== Sys2Proof/Machine/Base.lean ====
section
/-!
DEFINITION. Named operations below every meaning: sparse tables, memory bytes, bit fields and byte order (R4),
the units of Dev, the register files with rotation (R60, R171), the landing of results (R49-R52) and the scope
units of R14 and R130.
-/

namespace Sys2Proof.Machine

/-! ## Tables -/

/-- Entry of a sparse table. -/
def tget {α : Type} : Tab α → Nat → Option α
  | [], _ => none
  | (a, v) :: t, k => if a = k then some v else tget t k

/-- Entry of a sparse table, or what an unlisted key holds. -/
def tgetD {α : Type} (t : Tab α) (k : Nat) (dflt : α) : α := (tget t k).getD dflt

/-- Set an entry, keys kept rising. -/
def tset {α : Type} : Tab α → Nat → α → Tab α
  | [], k, v => [(k, v)]
  | (a, w) :: t, k, v =>
    if k < a then (k, v) :: (a, w) :: t else if k = a then (k, v) :: t else (a, w) :: tset t k v

/-- Remove an entry. -/
def tdel {α : Type} : Tab α → Nat → Tab α
  | [], _ => []
  | (a, w) :: t, k => if a = k then t else (a, w) :: tdel t k

/-- Positions of a list that satisfy a test, lowest first. -/
def findIdxs {α : Type} (p : α → Bool) (l : List α) : List Nat :=
  ((List.range l.length).zip l).filterMap fun (i, x) => if p x then some i else none

/-- List element by position, or a default. -/
def nth {α : Type} (l : List α) (i : Nat) (dflt : α) : α := (l[i]?).getD dflt

/-! ## Memory -/

/-- Byte at a physical address; an unlisted address reads as 0 (log entry 1). -/
def Memory.read (m : Memory) (a : Nat) : Byte := tgetD m.cells a 0

/-- Write one byte, keeping the canonical form. -/
def Memory.write (m : Memory) (a : Nat) (v : Byte) : Memory :=
  if v = 0 then { cells := tdel m.cells a } else { cells := tset m.cells a v }

/-- Write a list of bytes by address. -/
def Memory.writes (m : Memory) (l : List (Nat × Byte)) : Memory :=
  l.foldl (fun m (a, v) => m.write a v) m

/-- Addresses strictly rising from lo and no zero byte listed. -/
def cellsWf : Nat → List Host.Cell → Bool
  | _, [] => true
  | lo, (a, v) :: t => decide (lo ≤ a) && decide (v ≠ 0) && cellsWf (a + 1) t

/-- The canonical form of memory. -/
def Memory.wf (m : Memory) : Bool := cellsWf 0 m.cells

/-! ## Fields, bytes and words (R4) -/

/-- Field of a word as a number. -/
def wfld (w : Word) (lo n : Nat) : Nat := fld w.toNat lo n

/-- A word from a number. -/
def toW (n : Nat) : Word := BitVec.ofNat 64 n

/-- Little-endian number of bytes. -/
def ofBytes : List Byte → Nat
  | [] => 0
  | b :: t => b.toNat + 256 * ofBytes t

/-- n bytes of a number, lowest first. -/
def toBytes : Nat → Nat → List Byte
  | 0, _ => []
  | n + 1, v => BitVec.ofNat 8 v :: toBytes n (v / 256)

/-- Sign extension of the low n bits of a number to 64 bits. -/
def sextN (n v : Nat) : Word := if v % 2 ^ n < 2 ^ (n - 1) then toW (v % 2 ^ n) else toW (v % 2 ^ n + 2 ^ 64 - 2 ^ n)

/-- The 64-bit words of a byte list. -/
def wordsOf : Nat → List Byte → List Word
  | 0, _ => []
  | n + 1, l => toW (ofBytes (l.take 8)) :: wordsOf n (l.drop 8)

/-- The bytes of a list of words. -/
def bytesOfWords (l : List Word) : List Byte := l.flatMap fun w => toBytes 8 w.toNat

/-- Saturating increment of a 32-bit count. -/
def satInc (b : BitVec 32) : BitVec 32 := if b = BitVec.allOnes 32 then b else b + 1

/-- Saturating addition to a 32-bit count. -/
def satAdd (b : BitVec 32) (n : Nat) : BitVec 32 := BitVec.ofNat 32 (min (b.toNat + n) (2 ^ 32 - 1))

/-! ## Units -/

def Dev.core (d : Dev) (n : Nat) : Core := (tget d.cores n).getD (Core.reset n)
def Dev.setCore (d : Dev) (n : Nat) (c : Core) : Dev := { d with cores := tset d.cores n c }
def Dev.cluster (d : Dev) (g : Nat) : Cluster := (tget d.clusters g).getD Cluster.reset
def Dev.setCluster (d : Dev) (g : Nat) (c : Cluster) : Dev := { d with clusters := tset d.clusters g c }
def Dev.die (d : Dev) (i : Nat) : Die := (tget d.dies i).getD Die.reset
def Dev.setDie (d : Dev) (i : Nat) (c : Die) : Dev := { d with dies := tset d.dies i c }
def Dev.setPart (d : Dev) (i : Nat) (c : Part) : Dev := { d with parts := tset d.parts i c }
def Dev.setCtx (d : Dev) (i : Nat) (c : Ctx) : Dev := { d with ctxs := tset d.ctxs i c }
def Dev.unit (d : Dev) (u : Nat) : TraceUnit := (tget d.units u).getD TraceUnit.reset
def Dev.setUnit (d : Dev) (u : Nat) (c : TraceUnit) : Dev := { d with units := tset d.units u c }
def Dev.updCore (d : Dev) (n : Nat) (f : Core → Core) : Dev := d.setCore n (f (d.core n))
def Dev.updCluster (d : Dev) (g : Nat) (f : Cluster → Cluster) : Dev := d.setCluster g (f (d.cluster g))
def Dev.updDie (d : Dev) (g : Nat) (f : Die → Die) : Dev := d.setDie g (f (d.die g))

/-- A tensor core's number is below 256, a general core's is 256 + its own number (R62, R188). -/
def isGeneral (n : Nat) : Bool := 256 ≤ n

/-- Cluster and die of a tensor core (R13). -/
def clusterOf (n : Nat) : Nat := n / 8
def dieOf (n : Nat) : Nat := n / 32

/-- Dies of a partition, ascending. -/
def Part.dieList (p : Part) : List Nat := (List.range 8).filter fun d => p.dies.getLsbD d

/-- Clusters of a partition, ascending (R25). -/
def Part.clusters (p : Part) : List Nat := p.dieList.flatMap fun d => (List.range 4).map fun c => 4 * d + c

/-- Tensor cores of a partition. -/
def Part.cores (p : Part) : List Nat := p.clusters.flatMap fun g => (List.range 8).map fun i => 8 * g + i

/-- The partition that owns a die (R20). -/
def Dev.partOfDie (d : Dev) (die : Nat) : Option Nat :=
  (d.parts.find? fun (_, p) => p.dies.getLsbD die).map (·.1)

/-- Has the driver accepted a feature (R513)?  R513 names how a refused use of confidential contexts, of debug and of
CXL.cache shows; of the other two the model chooses: without the fabric no request goes out on a port or is taken from one,
and without counter pages a write of TRC.CPAGE has no effect (DESIGN CHOICE, log entry 125). -/
def Dev.accepted (d : Dev) (bit : Nat) : Bool := d.sys.feata0.getLsbD bit

/-- Has a save or an exchange of its partition that is under way saved a die already (R36)? -/
def Dev.dieSaved (d : Dev) (die : Nat) : Bool :=
  d.parts.any fun (_, p) => p.dies.getLsbD die && !p.swapLeft.contains die &&
    match p.swap with | some (code, _) => code ≠ 2 | none => false

/-- The context resident on a die (R23). -/
def Dev.residentOn (d : Dev) (die : Nat) : Option Nat :=
  (d.partOfDie die).bind fun p => (tget d.parts p).bind (·.resident)

/-- The context in which a core names things: its task's, else the resident one; for a general core the one
firmware gave it (R23, log entry 20). -/
def Dev.ctxOfCore (d : Dev) (n : Nat) : Option Nat :=
  if isGeneral n then (tget d.genPart n).map (·.2)
  else match (d.core n).task with
    | some t => some t.ctx
    | none => d.residentOn (dieOf n)

/-- Context record by number. -/
def Dev.ctx (d : Dev) (c : Nat) : Option Ctx := tget d.ctxs c

def Dev.updCtx (d : Dev) (n : Nat) (f : Ctx → Ctx) : Dev :=
  match d.ctx n with
  | some c => d.setCtx n (f c)
  | none => d

/-- Partition of a context. -/
def Dev.partOfCtx (d : Dev) (c : Nat) : Option Part := (d.ctx c).bind fun x => tget d.parts x.part

/-- The lowest die of a context's partition: its progress root (R274). -/
def Dev.rootDie (d : Dev) (c : Nat) : Nat := ((d.partOfCtx c).map fun p => p.dieList.headD 0).getD 0

/-- Trace unit of a core (R484). -/
def traceUnitOf (n : Nat) : Nat := if n < 256 then dieOf n else if n < 272 then 8 else 9

/-! ## Scope units (R14, R130); agents are named by source unit numbers (R188), host agents by 406 -/

/-- The unit to which an agent belongs at scope 0 .core, 1 .clu, 2 .die, 3 .pkg, 4 .dom (R14, R130, R443, R469); a
trace unit belongs to its die (R484) (DEDUCED, log entry 83). -/
def unitOf (a scope : Nat) : Nat :=
  let self := a
  let dieU (d : Nat) := 2000 + d
  let io (b : Bool) := if b then 2008 else 2009
  let cd : Nat × Nat :=
    if a < 256 then (1000 + a / 8, dieU (a / 32))
    else if a < 288 then (io (a < 272), io (a < 272))
    else if a < 320 then (1000 + (a - 288), dieU ((a - 288) / 4))
    else if a < 336 then (io (a < 328), io (a < 328))
    else if a < 352 then (self, self)
    else if a < 368 then (dieU ((a - 352) % 8), dieU ((a - 352) % 8))
    else if a < 386 then (io (a < 377), io (a < 377))
    else if a < 394 then (io true, io true)
    else if a < 402 then (dieU (a - 394), dieU (a - 394))
    else if a < 404 then (io (a < 403), io (a < 403))
    else if a = 405 then (io true, io true)
    else (self, self)
  match scope with
  | 0 => self
  | 1 => cd.1
  | 2 => cd.2
  | _ => 3000

/-- Two agents of this package lie in one unit at a scope. -/
def sameUnit (a b scope : Nat) : Bool := unitOf a scope == unitOf b scope

/-! ## Registers (R60, R171) -/

/-- Physical number of a scalar or vector register. -/
def physSV (lp : LoopCtx) (n : Nat) : Nat := if n < 32 then n else 32 + (n - 32 + lp.rrb) % 32

/-- Physical number of a counter handle. -/
def physK (lp : LoopCtx) (n : Nat) : Nat :=
  if n < 8 then n else if n - 8 < lp.depth then 8 + (n - 8 + lp.kb) % lp.depth else n

/-- Scalar register by physical number; s0 reads 0. -/
def Regs.sAt (r : Regs) (n : Nat) : Word := if n = 0 then 0 else tgetD r.s n 0
def Regs.vAt (r : Regs) (n : Nat) : VWord := tgetD r.v n 0
def Regs.mAt (r : Regs) (n : Nat) : MWord := tgetD r.m n 0
/-- Predicate; p0 reads 1. -/
def Regs.pAt (r : Regs) (n : Nat) : Bool := if n = 0 then true else tgetD r.p n false
def Regs.bAt (r : Regs) (n : Nat) : Word := tgetD r.b n 0
def Regs.kAt (r : Regs) (n : Nat) : Option Word := tgetD r.k n none
def Regs.hAt (r : Regs) (n : Nat) : Handle := tgetD r.h n .unbound

def Core.s (c : Core) (n : Nat) : Word := c.r.sAt (physSV c.lp n)
def Core.v (c : Core) (n : Nat) : VWord := c.r.vAt (physSV c.lp n)
def Core.m (c : Core) (n : Nat) : MWord := c.r.mAt n
def Core.p (c : Core) (n : Nat) : Bool := c.r.pAt n
def Core.b (c : Core) (n : Nat) : Word := c.r.bAt n
def Core.k (c : Core) (n : Nat) : Option Word := c.r.kAt (physK c.lp n)
def Core.h (c : Core) (n : Nat) : Handle := c.r.hAt n

/-- A bundle address: bits [63:57] and [2:0] are zero (R60). -/
def bundleAddr (w : Word) : Word := w &&& 0x01FFFFFFFFFFFFF8

/-- Write of a result into its register (R49, R60, R145): s0 and p0 ignore writes, and while a modulo loop is
active p8-p15 do (DEDUCED, log entry 25). -/
def Regs.land (r : Regs) (modulo : Bool) : Result → Regs
  | .s n val => if n = 0 then r else { r with s := tset r.s n val }
  | .sAdd n val => if n = 0 then r else { r with s := tset r.s n (r.sAt n + val) }
  | .v n val mask => { r with v := tset r.v n ((r.vAt n &&& ~~~mask) ||| (val &&& mask)) }
  | .m n val => { r with m := tset r.m n val }
  | .p n val => if n = 0 || (modulo && 8 ≤ n) then r else { r with p := tset r.p n val }
  | .b n val => { r with b := tset r.b n (bundleAddr val) }
  | .k n ident => { r with k := tset r.k n ident }
  | .h n val => { r with h := tset r.h n val }
  | .lr val => { r with lr := val }

/-- Insert a result by landing cycle, after those of the same cycle (R52). -/
def insDue (e : Pend) : List Pend → List Pend
  | [] => [e]
  | x :: t => if (x.due.getD 0) ≤ (e.due.getD 0) then x :: insDue e t else e :: x :: t

/-- Is a fixed-latency result due by a cycle (R49)? -/
def Pend.dueBy (e : Pend) (cycle : Nat) : Bool := match e.due with | some x => x ≤ cycle | none => false

/-- Land every fixed-latency result due by a cycle, in landing order; of one cycle, the later-issued last (R52). -/
def Core.landBy (c : Core) (cycle : Nat) : Core :=
  let now := (c.pend.filter (·.dueBy cycle)).foldl (fun l e => insDue e l) []
  let md := c.lp.mloop.isSome
  { c with
    r := now.foldl (fun r e => r.land md e.res) c.r
    pend := c.pend.filter fun e => !e.dueBy cycle }

/-- Land one interlocked result by its place in the list. -/
def Core.landAt (c : Core) (i : Nat) : Core :=
  match c.pend[i]? with
  | none => c
  | some e => { c with r := c.r.land c.lp.mloop.isSome e.res, pend := c.pend.eraseIdx i }

/-- Add a result in flight. -/
def Core.push (c : Core) (e : Pend) : Core := { c with pend := c.pend ++ [e] }

/-- Loop level of a core. -/
def LoopCtx.level (lp : LoopCtx) (l : Nat) : LoopLevel := (tget lp.levels l).getD LoopLevel.reset

/-- Innermost active level (R188, R348). -/
def LoopCtx.innermost (lp : LoopCtx) : Option Nat :=
  ([5, 4, 3, 2, 1, 0] : List Nat).find? fun l => (lp.level l).active

/-- LACT of R178: bit l is 1 while level l is active. -/
def LoopCtx.lact (lp : LoopCtx) : Nat :=
  (List.range 6).foldl (fun a l => if (lp.level l).active then a + 2 ^ l else a) 0

/-- Code of a region (R178). -/
def Region.code : Region → Nat
  | .prologue => 0
  | .pass => 1
  | .epilogue => 2
  | .none => 3

end Sys2Proof.Machine
end

