-- ==== Sys2Proof/Machine/Float.lean ====
section
/-!
DEFINITION. Number formats and arithmetic (R84-R98): values of encodings, exact sums and products, the one rounding
to a destination format, the stochastic generator, and the five approximated functions (R300, R301).
-/

namespace Sys2Proof.Machine

/-! ## Values -/

/-- A format (R84-R88): narrow and fixed floating formats and, where e = 0, two's-complement and unsigned ones. -/
structure Fmt where
  sgn : Nat
  e : Nat
  m : Nat
  bias : Int
  /-- special values: 0 all finite, 1 NaN-only, 2 IEEE -/
  spec : Nat
  /-- container width (R86) -/
  c : Nat
  deriving DecidableEq, Repr

/-- Width of an element within its container (R86). -/
def Fmt.n (f : Fmt) : Nat := f.sgn + f.e + f.m

def fmtFp32 : Fmt := { sgn := 1, e := 8, m := 23, bias := 127, spec := 2, c := 32 }
def fmtBf16 : Fmt := { sgn := 1, e := 8, m := 7, bias := 127, spec := 2, c := 16 }
def fmtFp16 : Fmt := { sgn := 1, e := 5, m := 10, bias := 15, spec := 2, c := 16 }
/-- A two's-complement integer format (R88). -/
def fmtInt (w : Nat) : Fmt := { sgn := 1, e := 0, m := w - 1, bias := 0, spec := 0, c := w }

/-- KIND of a descriptor (R84). -/
def descKind (w : Word) : Nat := wfld w 32 3

/-- A signed byte. -/
def signed8 (n : Nat) : Int := if n < 128 then n else (n : Int) - 256

/-- The format of a descriptor (R84-R89); none for unset. -/
def descFmt (w : Word) : Option Fmt :=
  match descKind w with
  | 0 =>
    let sgn := wfld w 15 1
    let e := wfld w 16 4
    let m := wfld w 20 4
    some { sgn := sgn, e := e, m := m, bias := signed8 (wfld w 40 8), spec := wfld w 27 2
           c := if sgn + e + m ≤ 4 then 4 else 8 }
  | 1 => some fmtFp32
  | 2 => some fmtBf16
  | 3 => some fmtFp16
  | 4 => some (fmtInt 8)
  | 5 => some (fmtInt 16)
  | 6 => some (fmtInt 32)
  | _ => none

/-- Format of a VF type (R65). -/
def vfFmt (ty : BitVec 2) : Fmt := match ty.toNat with | 0 => fmtFp32 | 1 => fmtBf16 | _ => fmtFp16

/-- Format of a VP or VS type (R65). -/
def tyFmt (ty : BitVec 3) : Fmt :=
  match ty.toNat with
  | 0 => fmtInt 8
  | 1 => fmtInt 16
  | 2 => fmtInt 32
  | 3 => fmtInt 64
  | 4 => fmtFp32
  | 5 => fmtBf16
  | _ => fmtFp16

/-- A signed number of n bits. -/
def signedOf (n v : Nat) : Int := if v % 2 ^ n < 2 ^ (n - 1) then (v % 2 ^ n : Nat) else (v % 2 ^ n : Nat) - 2 ^ n

/-- A finite value from a signed magnitude. -/
def FVal.ofInt (z exp : Int) : FVal := .fin (z < 0) z.natAbs exp

/-- Value of an element's encoding (R87, R88); bits above the element are ignored (R86). -/
def Fmt.decode (f : Fmt) (v : Nat) : FVal :=
  if f.e = 0 then
    if f.sgn = 1 then .ofInt (signedOf f.n v) (-f.bias) else .fin false (v % 2 ^ f.n) (-f.bias)
  else
    let neg := f.sgn = 1 && v.testBit (f.n - 1)
    let ex := fld v f.m f.e
    let man := fld v 0 f.m
    let emax := 2 ^ f.e - 1
    if f.spec = 2 && ex = emax then (if man = 0 then .inf neg else .nan)
    else if f.spec = 1 && ex = emax && man = 2 ^ f.m - 1 then .nan
    else if ex = 0 then .fin neg man (1 - f.bias - f.m)
    else .fin neg (2 ^ f.m + man) (ex - f.bias - f.m)

/-! ## Exact arithmetic (R93, R95) -/

def FVal.isNan : FVal → Bool | .nan => true | _ => false
def FVal.isInf : FVal → Bool | .inf _ => true | _ => false
def FVal.isZero : FVal → Bool | .fin _ m _ => m = 0 | _ => false
def FVal.negative : FVal → Bool | .nan => false | .inf n => n | .fin n _ _ => n

def FVal.neg : FVal → FVal
  | .nan => .nan
  | .inf n => .inf (!n)
  | .fin n m e => .fin (!n) m e

def FVal.abs : FVal → FVal
  | .nan => .nan
  | .inf _ => .inf false
  | .fin _ m e => .fin false m e

/-- Exact product (R95, R101). -/
def FVal.mul (x y : FVal) : FVal :=
  let s := x.negative != y.negative
  match x, y with
  | .nan, _ | _, .nan => .nan
  | .inf _, .inf _ => .inf s
  | .inf _, .fin _ m _ | .fin _ m _, .inf _ => if m = 0 then .nan else .inf s
  | .fin _ m e, .fin _ m' e' => .fin s (m * m') (e + e')

/-- A finite value as a multiple of 2^lo, lo not above its exponent. -/
def FVal.scaled (lo : Int) : FVal → Int
  | .fin s m e => let k : Nat := m * 2 ^ (e - lo).toNat; if s then -(k : Int) else (k : Int)
  | _ => 0

def FVal.exp : FVal → Int
  | .fin _ m e => if m = 0 then 0 else e
  | _ => 0

/-- Lowest exponent of a list of terms. -/
def lowest (l : List FVal) : Int := (l.filter fun x => !x.isZero).foldl (fun a x => min a x.exp) 0

/-- Exact sum of several terms: NaN if any is or if both infinities occur; a zero sum is +0 unless every term is
-0 (R95, R101, R305). -/
def FVal.sum (l : List FVal) : FVal :=
  if l.any FVal.isNan then .nan
  else
    let pos := l.any fun x => x.isInf && !x.negative
    let neg := l.any fun x => x.isInf && x.negative
    if pos && neg then .nan
    else if pos then .inf false
    else if neg then .inf true
    else
      let lo := lowest l
      let z := (l.map fun x => if x.isZero then 0 else x.scaled lo).sum
      if z = 0 then .fin (l.all fun x => x.negative) 0 0 else .ofInt z lo

def FVal.add (x y : FVal) : FVal := .sum [x, y]

/-- Numbers compared by value, zeros equal (R297). -/
def FVal.lt (x y : FVal) : Bool :=
  match x, y with
  | .nan, _ | _, .nan => false
  | .inf n, .inf n' => n && !n'
  | .inf n, .fin _ _ _ => n
  | .fin _ _ _, .inf n => !n
  | .fin _ _ _, .fin _ _ _ =>
    let lo := lowest [x, y]
    let f (v : FVal) : Int := if v.isZero then 0 else v.scaled lo
    f x < f y

def FVal.eqv (x y : FVal) : Bool := !x.isNan && !y.isNan && !x.lt y && !y.lt x

/-- The order in which -0 lies below +0 (R299, R306). -/
def FVal.below (x y : FVal) : Bool := x.lt y || (x.eqv y && x.negative && !y.negative)

/-! ## Rounding (R93-R97) -/

/-- A rounding mode with the random word of the result (R97). -/
structure Rounding where
  rm : BitVec 2
  sat : Bool
  u : Nat
  deriving DecidableEq, Repr

/-- RNE to infinity, for matrix and reduction sums (R100, R305). -/
def rne : Rounding := { rm := 0, sat := false, u := 0 }

/-- A magnitude over 2^sh rounded to an integer (R93); round to odd sets the least bit of the magnitude. In a format
with MAN = 0, which has no mantissa bit, the parity is that of the multiple of the quantum, the hidden bit included
(DESIGN CHOICE, log entry 98). -/
def roundMag (r : Rounding) (num sh : Nat) : Nat :=
  let lo := num / 2 ^ sh
  let rest := num % 2 ^ sh
  if rest = 0 then lo
  else match r.rm.toNat with
    | 0 => if 2 ^ sh < 2 * rest || (2 * rest = 2 ^ sh && lo % 2 = 1) then lo + 1 else lo
    | 1 => lo
    | 2 => if lo % 2 = 1 then lo else lo + 1
    | _ => if r.u < rest * 2 ^ 32 / 2 ^ sh then lo + 1 else lo

/-- mag * 2^exp as a rounded multiple of 2^q. -/
def roundTo (r : Rounding) (mag : Nat) (exp q : Int) : Nat :=
  if q ≤ exp then mag * 2 ^ (exp - q).toNat else roundMag r mag (q - exp).toNat

/-- A format with a NaN encoding (R95). -/
def Fmt.hasNan (f : Fmt) : Bool := f.e ≠ 0 && (f.spec = 1 || (f.spec = 2 && f.m ≠ 0))

/-- The canonical NaN, or +0 where there is none (R95). -/
def Fmt.nan (f : Fmt) : Nat :=
  if !f.hasNan then 0 else if f.spec = 1 then 2 ^ (f.e + f.m) - 1 else (2 ^ f.e - 1) * 2 ^ f.m + 2 ^ (f.m - 1)

/-- Code of the largest finite magnitude. -/
def Fmt.maxCode (f : Fmt) : Nat :=
  match f.spec with
  | 0 => 2 ^ (f.e + f.m) - 1
  | 1 => 2 ^ (f.e + f.m) - 2
  | _ => (2 ^ f.e - 1) * 2 ^ f.m - 1

/-- A magnitude code with its sign. -/
def Fmt.signedCode (f : Fmt) (neg : Bool) (code : Nat) : Nat :=
  if neg && f.sgn = 1 then code + 2 ^ (f.e + f.m) else code

/-- Overflow of a floating-point destination (R94): infinite inputs and RNE or stochastic results. -/
def Fmt.overflow (f : Fmt) (sat neg : Bool) : Nat :=
  if sat then f.signedCode neg f.maxCode
  else match f.spec with
    | 0 => f.signedCode neg f.maxCode
    | 1 => f.nan
    | _ => f.signedCode neg ((2 ^ f.e - 1) * 2 ^ f.m)

/-- A negative non-zero value into an unsigned format (R94). -/
def Fmt.negIntoUnsigned (f : Fmt) (sat : Bool) : Nat := if sat then 0 else f.nan

/-- Rounded integer into an integer or fixed-point format (R94). -/
def Fmt.intCode (f : Fmt) (sat : Bool) (z : Int) : Nat :=
  let lo : Int := if f.sgn = 1 then -(2 ^ (f.n - 1)) else 0
  let hi : Int := if f.sgn = 1 then 2 ^ (f.n - 1) - 1 else 2 ^ f.n - 1
  ((if sat then min hi (max lo z) else z) % 2 ^ f.n).toNat

/-- Round a value once to a format (R93, R94, R95). -/
def Fmt.encode (f : Fmt) (r : Rounding) (x : FVal) : Nat :=
  match x with
  | .nan => f.nan
  | .inf neg =>
    if neg && f.sgn = 0 then f.negIntoUnsigned r.sat
    else if f.e = 0 then
      (if !r.sat then 0 else f.intCode true (if neg then -(2 ^ f.n) else 2 ^ f.n))
    else f.overflow r.sat neg
  | .fin neg mag exp =>
    if mag = 0 then (if f.e = 0 then 0 else f.signedCode neg 0)
    else if neg && f.sgn = 0 then f.negIntoUnsigned r.sat
    else if f.e = 0 then
      let q := roundTo r mag exp (-f.bias)
      f.intCode r.sat (if neg then -(q : Int) else q)
    else
      let top : Int := Nat.log2 mag + exp
      let qx : Int := max top (1 - f.bias) - f.m
      let q := roundTo r mag exp qx
      let code := ((qx + f.m + f.bias - 1) * 2 ^ f.m).toNat + q
      if code ≤ f.maxCode then f.signedCode neg code
      else match r.rm.toNat with
        | 1 | 2 => f.signedCode neg f.maxCode
        | _ => f.overflow r.sat neg

/-! ## The stochastic generator (R97, R98) -/

/-- One draw's next state, which is also X. -/
def drawNext (g : Word) : Word :=
  let g := g ^^^ (g <<< 13)
  let g := g ^^^ (g >>> 7)
  g ^^^ (g <<< 17)

/-- The random word u of result i. -/
def drawWord (x : Word) (i : Nat) : Nat :=
  let y := x ^^^ (toW (i + 1) * 0x9E3779B97F4A7C15)
  let y := (y ^^^ (y >>> 30)) * 0xBF58476D1CE4E5B9
  let y := y ^^^ (y >>> 31)
  wfld y 32 32

/-- The generator after a seed (R97). -/
def seedOf (w : Word) : Word := if w = 0 then 0x0123456789ABCDEF else w

/-! ## Approximated functions (R300, R301; log entry 9) -/

/-- A value rounded RNE to a significand of 16 bits. -/
def round16 : FVal → FVal
  | .fin neg mag exp =>
    if mag < 2 ^ 16 then .fin neg mag exp
    else
      let sh := Nat.log2 mag - 15
      .fin neg (roundMag rne mag sh) (exp + sh)
  | x => x

/-- Fraction bits of the fixed-point steps. -/
def fixBits : Nat := 512

/-- ln 2 with 512 fraction bits. -/
def ln2Fix : Nat := 
  0xb17217f7d1cf79abc9e3b39803f2f6af40f343267298b62d8a0d175b8baafa2be7b876206debac98559552fb4afa1b10ed2eae35c138214427573b291169b825

/-- e^t for a fixed-point t below 1, by its power series. -/
def expFix (t : Nat) : Nat :=
  ((List.range 110).foldl (fun (acc : Nat × Nat) k => (acc.1 + acc.2, acc.2 * t / 2 ^ fixBits / (k + 1))) (0, 2 ^ fixBits)).1

/-- 2^A for a finite A; beyond 2^12 every format has overflowed or is below its least value (DEDUCED, log entry 9). -/
def exp2Val (x : FVal) : FVal :=
  match x with
  | .fin neg mag exp =>
    if mag = 0 then .fin false 1 0
    else if 12 ≤ (Nat.log2 mag + exp : Int) then .fin false 1 (if neg then -4096 else 4096)
    else if (Nat.log2 mag + exp : Int) < -200 then
      .fin false (if neg then 2 ^ 200 - 1 else 2 ^ 200 + 1) (-200)
    else
      let z := x.scaled (min exp 0)
      let den : Nat := 2 ^ (-(min exp 0)).toNat
      let k := z / den
      let f := (z % den).toNat
      if f = 0 then .fin false 1 k
      else .fin false (2 * expFix (f * ln2Fix / den) + 1) (k - fixBits - 1)
  | .inf neg => if neg then .fin false 0 0 else .inf false
  | .nan => .nan

/-- Fraction bits of log2 of a number in [1, 2) with 512 fraction bits, by repeated squaring. -/
def log2Bits : Nat → Nat → Nat → Nat
  | 0, _, acc => acc
  | k + 1, y, acc =>
    let q := y * y / 2 ^ fixBits
    if 2 ^ (fixBits + 1) ≤ q then log2Bits k (q / 2) (2 * acc + 1) else log2Bits k q (2 * acc)

/-- log2 A. -/
def log2Val (x : FVal) : FVal :=
  match x with
  | .nan => .nan
  | .inf neg => if neg then .nan else .inf false
  | .fin neg mag exp =>
    if mag = 0 then .inf true
    else if neg then .nan
    else
      let l := Nat.log2 mag
      let whole : Int := l + exp
      if mag = 2 ^ l then .ofInt whole 0
      else
        let fr := log2Bits 120 (mag * 2 ^ fixBits / 2 ^ l) 0
        .ofInt (2 * (whole * 2 ^ 120 + fr) + 1) (-121)

/-- 1/A. -/
def rcpVal (x : FVal) : FVal :=
  match x with
  | .nan => .nan
  | .inf neg => .fin neg 0 0
  | .fin neg mag exp =>
    if mag = 0 then .inf neg
    else
      let k := 40 + Nat.log2 mag
      .fin neg (2 * (2 ^ k / mag) + (if 2 ^ k % mag = 0 then 0 else 1)) (-exp - k - 1)

/-- Integer square root, bit by bit from bit k. -/
def isqrt : Nat → Nat → Nat → Nat
  | 0, n, r => if (r + 1) * (r + 1) ≤ n then r + 1 else r
  | k + 1, n, r => let t := r + 2 ^ (k + 1); isqrt k n (if t * t ≤ n then t else r)

/-- 1/sqrt A. -/
def rsqVal (x : FVal) : FVal :=
  match x with
  | .nan => .nan
  | .inf neg => if neg then .nan else .fin false 0 0
  | .fin neg mag exp =>
    if mag = 0 then .inf neg
    else if neg then .nan
    else
      let odd := exp % 2 ≠ 0
      let mg := if odd then 2 * mag else mag
      let ex := if odd then exp - 1 else exp
      let k := 40 + Nat.log2 mg
      let n := 2 ^ (2 * k) / mg
      let r := isqrt (k + 1) n 0
      .fin false (2 * r + (if r * r * mg = 2 ^ (2 * k) then 0 else 1)) (-(ex / 2) - k - 1)

/-- tanh A: below 2^-40 it lies just under A in magnitude, from 32 up it rounds to 1. -/
def tanhVal (x : FVal) : FVal :=
  match x with
  | .nan => .nan
  | .inf neg => .fin neg 1 0
  | .fin neg mag exp =>
    if mag = 0 then x
    else
      let top : Int := Nat.log2 mag + exp
      if top < -40 then .fin neg (mag * 2 ^ 80 - 1) (exp - 80)
      else if 5 ≤ top then .fin neg 1 0
      else
        let t : Int := fixBits + 1 - 7 + exp
        let y := if 0 ≤ t then mag * 2 ^ t.toNat else mag / 2 ^ (-t).toNat
        let e := (List.range 7).foldl (fun v _ => v * v / 2 ^ fixBits) (expFix y)
        let one := 2 ^ fixBits
        .fin neg (2 * ((e - one) * 2 ^ 200 / (e + one)) + 1) (-201)

end Sys2Proof.Machine
end

