-- ==== Sys2Proof/Machine/Mem.lean ====
section
/-!
DEFINITION. Physical memory as agents see it: the physical map (R109-R110), stores and their visibility (R123-R129,
R134), tag-table invalidation (R233, R234), and translation (R112-R119).
-/

namespace Sys2Proof.Machine

/-! ## The physical map (R109) -/

def hbmTop : Nat := 2 ^ 40
def spmBase (g : Nat) : Nat := 0x10000000000 + g * 0x4000000
def spmSize : Nat := 0x3000000

/-- What a physical address holds. -/
inductive Place where
  | hbm
  | spm (g off : Nat)
  | control
  | host
  | nothing
  deriving DecidableEq, Repr

def placeOf (pa : Nat) : Place :=
  if pa < hbmTop then .hbm
  else if 0x10000000000 ≤ pa ∧ pa < 0x10000000000 + 32 * 0x4000000 then
    let o := pa - 0x10000000000
    if o % 0x4000000 < spmSize then .spm (o / 0x4000000) (o % 0x4000000) else .nothing
  else if 0x20000000000 ≤ pa ∧ pa < 0x30000000000 then .control
  else if 0x8000000000000 ≤ pa ∧ pa < 0x10000000000000 then .host
  else .nothing

/-- Stack of an HBM address and its offset there (R110). -/
def stackOf (pa : Nat) : Nat := fld pa 12 4 ^^^ fld pa 16 4
def stackOffset (pa : Nat) : Nat := pa / 2 ^ 16 * 2 ^ 12 + pa % 2 ^ 12

/-! ## Reading -/

/-- A store entry is seen by an agent (R126, R127). -/
def StoreEnt.seenBy (e : StoreEnt) (agent : Nat) : Bool := e.all || e.owner == agent || e.seen.contains agent

/-- A store of an agent's running phase: it stands after every other write of its granule until the phase ends
(R127). -/
def StoreEnt.running (e : StoreEnt) (agent : Nat) : Bool := e.owner == agent && !e.ended

/-- A byte at pa under the store entries given, in order. -/
def overlay (l : List StoreEnt) (pa : Nat) (b : Byte) : Byte :=
  l.foldl (fun b e => if e.gran = pa / 8 then tgetD e.cells (pa % 8) b else b) b

/-- The writes of a granule that an agent observes: those of its total order up to the last that the agent sees (R124).
A store takes its place in that order when its phase ends or a release shows it. -/
def observed (l : List StoreEnt) (agent gran : Nat) : List StoreEnt :=
  ((l.filter fun e => e.ended && e.gran == gran).reverse.dropWhile fun e => !e.seenBy agent).reverse

/-- The writes that show where those chosen do: of each granule's total order, every write up to the last chosen
(R124). -/
def shownBy (p : StoreEnt → Bool) : List StoreEnt → List StoreEnt
  | [] => []
  | e :: t => if p e || t.any fun x => x.gran == e.gran && p x then e :: shownBy p t else shownBy p t

/-- The byte an agent reads: memory, overlaid by the writes it observes (R124) and last by its own stores of the running
phase (R127). -/
def readByte (m : Memory) (d : Dev) (agent pa : Nat) : Byte :=
  overlay (d.stores.filter fun e => e.running agent) pa (overlay (observed d.stores agent (pa / 8)) pa (m.read pa))

/-- n bytes from an address. -/
def readBytes (m : Memory) (d : Dev) (agent pa n : Nat) : List Byte :=
  (List.range n).map fun i => readByte m d agent (pa + i)

/-- A 64-bit word. -/
def readWord (m : Memory) (d : Dev) (agent pa : Nat) : Word := toW (ofBytes (readBytes m d agent pa 8))

/-- The agent that sees what every agent sees: walkers and firmware tables. -/
def everyone : Nat := 500

/-! ## Invalidations (R134, R233, R234) -/

/-- Tensor cores of a cluster. -/
def coresOfCluster (g : Nat) : List Nat := (List.range 8).map fun i => 8 * g + i

/-- One entry made stale; the cores of its context, whose phase is running, still find it (R233). -/
def TagEnt.makeStale (cores : Nat → List Nat) (clock : Nat) (e : TagEnt) : TagEnt :=
  match e.st with
  | .stale => e
  | _ => { e with st := .stale, seenBy := cores e.ctx, staleAt := clock }

/-- Is an evicted entry still found by a core that found it in the same phase (R128)? -/
def TagEnt.recalled (e : TagEnt) (n : Nat) : Bool := e.readers.contains n && (e.st ≠ .stale || e.seenBy.contains n)

/-- Entries that are stale, seen by no core and pinned by no handle become invalid; so do poisoned ones without a
handle (R233, R237). -/
def Cluster.sweep (c : Cluster) : Cluster :=
  { c with
    tags := c.tags.filter fun (_, e) =>
      !(e.pins = 0 && ((e.st = .stale && e.seenBy.isEmpty && e.filled) || (e.poisoned && e.filled)))
    evicted := c.evicted.filter fun (e, _) => e.readers.any e.recalled }

/-- The entries chosen become stale; those that no core still finds and no handle binds become invalid at once (R233). -/
def Cluster.makeStale (c : Cluster) (cores : Nat → List Nat) (p : TagEnt → Bool) : Cluster :=
  { c with
    tags := c.tags.map fun (k, e) => if p e then (k, e.makeStale cores c.tagClock) else (k, e)
    evicted := c.evicted.map fun (e, bs) => if p e then (e.makeStale cores c.tagClock, bs) else (e, bs)
    tagClock := c.tagClock + 1 }.sweep

/-- A cluster receives the invalidation of a 4 KiB block. -/
def Cluster.invalidate (c : Cluster) (cores : Nat → List Nat) (block : Nat) : Cluster :=
  let c := c.makeStale cores fun e => e.block = block
  { c with icInval := if c.icInval.contains block then c.icInval else block :: c.icInval }

/-- Is a core with a task among what a die has saved of a context (R36)? -/
def Dev.savedTask (d : Dev) (n ctx : Nat) : Bool :=
  ((d.die (dieOf n)).shadow.toList ++ (d.images.filter fun x => x.1 = dieOf n).map (·.2)).any fun v =>
    v.ctx = ctx && (match tget v.cores n with | some c => c.task.isSome | none => false)

/-- Cores of a cluster in a phase of a context: those that run a task of it, are halted in one, or are saved so (R125,
R233). -/
def Dev.inPhase (d : Dev) (g ctx : Nat) : List Nat :=
  (coresOfCluster g).filter fun n =>
    (match (d.core n).task with | some t => decide (t.ctx = ctx) | none => false) || d.savedTask n ctx

/-! ## Stores -/

/-- The bytes of a write grouped by granule. -/
def granules (pa : Nat) (bs : List Byte) : List (Nat × List (Nat × Byte)) :=
  let cells := ((List.range bs.length).zip bs).map fun (i, b) => (pa + i, b)
  let gs := (List.range ((pa % 8 + bs.length + 7) / 8)).map fun i => pa / 8 + i
  gs.map fun g => (g, (cells.filter fun (a, _) => a / 8 = g).map fun (a, b) => (a % 8, b))

/-- Add one granule write; of two stores of one core to one granule in one phase only the later becomes visible (R124),
unless a release has shown the earlier one (R131). -/
def addGranule (l : List StoreEnt) (owner phase : Nat) (ended : Bool) (g : Nat) (cs : List (Nat × Byte)) :
    List StoreEnt :=
  let same (e : StoreEnt) : Bool := !ended && e.running owner && e.gran == g
  let old := (l.filter same).flatMap (·.cells)
  let merged := cs.foldl (fun t (o, b) => tset t o b) (old.foldl (fun t (o, b) => tset t o b) [])
  l.filter (fun e => !same e) ++
    [{ owner := owner, phase := phase, ended := ended, gran := g, cells := merged, all := false, seen := [],
       applied := false, inval := [] }]

/-- A write by an agent; a core's store belongs to its running phase (R126), an engine's write to none
(DEDUCED, log entry 8). -/
def Dev.store (d : Dev) (owner phase : Nat) (ended : Bool) (pa : Nat) (bs : List Byte) : Dev :=
  { d with stores := (granules pa bs).foldl (fun l (g, cs) => addGranule l owner phase ended g cs) d.stores }

/-- A core's store. -/
def Dev.coreStore (d : Dev) (n pa : Nat) (bs : List Byte) : Dev := d.store n (d.core n).phase false pa bs

/-- The Gravers apply the entries chosen, and their invalidations reach the clusters given that have not had them
(R129, R134). -/
def Dev.applyWrites (d : Dev) (p : StoreEnt → Bool) (gs : List Nat) : Dev :=
  let due (g : Nat) : List Nat :=
    if gs.contains g then
      ((d.stores.filter fun e => p e && e.gran * 8 < hbmTop && !e.inval.contains g).map fun e => e.gran / 512).dedup
    else []
  { d with
    clusters := d.clusters.map fun (g, c) => (g, (due g).foldl (fun c k => c.invalidate (d.inPhase g) k) c)
    stores := d.stores.map fun (e : StoreEnt) =>
      (if p e = true then { e with applied := true, inval := (e.inval ++ gs).dedup } else e) }

/-- Every cluster of the package. -/
def allClusters : List Nat := List.range 32

/-- Make the entries chosen visible to every agent; an HBM write delivers its invalidations first (R134). -/
def Dev.showAll (d : Dev) (p : StoreEnt → Bool) : Dev :=
  let d := d.applyWrites p allClusters
  { d with stores := d.stores.map fun (e : StoreEnt) => if p e then { e with all := true } else e }

/-- Make the entries chosen visible to some agents. -/
def Dev.showTo (d : Dev) (p : StoreEnt → Bool) (agents : List Nat) : Dev :=
  let d := d.applyWrites p allClusters
  { d with stores := d.stores.map fun (e : StoreEnt) =>
      (if p e = true then { e with seen := (e.seen ++ agents).dedup } else e) }

/-- A write that every agent sees at once (a host write, a firmware record). -/
def Dev.writeAll (d : Dev) (owner pa : Nat) (bs : List Byte) : Dev :=
  (d.store owner 0 true pa bs).showAll fun e => e.owner == owner && e.ended

/-- An engine's write, visible to others in its own time (R126, R135). -/
def Dev.engineWrite (d : Dev) (src pa : Nat) (bs : List Byte) : Dev := d.store src 0 true pa bs

/-- Agents of a scope unit (R131). -/
def agentsOf (a scope : Nat) : List Nat := (List.range 407).filter fun b => sameUnit a b scope

/-- The running stores of a core take their places at the end of the total order of their granules (R124). -/
def Dev.endStores (d : Dev) (n : Nat) : Dev :=
  { d with stores := (d.stores.filter fun e => !e.running n) ++
      (d.stores.filter fun e => e.running n).map fun e => { e with ended := true } }

/-- A release by an agent at a scope: every store it made and every write it had seen becomes visible to the
agents of its unit (R131); at package scope and above, to all. -/
def Dev.release (d : Dev) (a scope : Nat) : Dev :=
  let d := d.endStores a
  let p (e : StoreEnt) : Bool := e.ended && e.seenBy a
  if 3 ≤ scope then d.showAll p else d.showTo p (agentsOf a scope)

/-- Merge into memory every entry that all agents see and that no earlier unseen entry of its granule precedes. -/
def settleStores : List StoreEnt → List Nat → List (Nat × Byte) × List StoreEnt
  | [], _ => ([], [])
  | e :: t, held =>
    if e.all && !held.contains e.gran then
      let (w, k) := settleStores t held
      ((e.cells.map fun (o, b) => (e.gran * 8 + o, b)) ++ w, k)
    else
      let (w, k) := settleStores t (e.gran :: held)
      (w, e :: k)

/-- The state after every settled store has been merged (R124, R126). -/
def State.settle (s : State) : State :=
  let (w, k) := settleStores s.dev.stores []
  { s with mem := s.mem.writes w, dev := { s.dev with stores := k } }

/-! ## Phases (R125, R129) -/

/-- End a core's phase: its stores of the phase may become visible, and the next phase waits under R129. -/
def Dev.endPhase (d : Dev) (n : Nat) : Dev :=
  let c := d.core n
  let ph := c.phase
  (d.endStores n).setCore n { c with phase := ph + 1, waits := c.waits ++ [Wait.phase ph] }

/-- A core has applied its context's last change of watchpoints (R498), or of sampling (R500). -/
def Dev.clearTodo (d : Dev) (n : Nat) (smp : Bool) : Dev :=
  { d with ctxs := d.ctxs.map fun (k, (c : Ctx)) =>
      (k, if smp then { c with smpTodo := tdel c.smpTodo n } else { c with watchTodo := tdel c.watchTodo n }) }

/-- The wait of R129 ends: the stores to HBM are applied, their invalidations have reached the core's cluster, the
core sees the invalidations that came before (R128, R233), and it applies watchpoint changes (R498). -/
def Dev.beginPhase (d : Dev) (n : Nat) : Dev :=
  let c := d.core n
  let g := clusterOf n
  let mine (e : StoreEnt) : Bool := e.owner == n && e.ended && e.gran * 8 < hbmTop && !e.applied
  let d := d.applyWrites mine (if isGeneral n then [] else [g])
  let left (e : TagEnt) : TagEnt :=
    if (d.core n).task.all fun t => t.ctx = e.ctx then { e with seenBy := e.seenBy.erase n, readers := e.readers.erase n } else e
  let d := if isGeneral n then d else d.updCluster g fun cl =>
    ({ cl with tags := cl.tags.map fun (k, e) => (k, left e), evicted := cl.evicted.map fun (e, bs) => (left e, bs) }).sweep
  let w := match d.ctxOfCore n with
    | some x => ((d.ctx x).map (·.watch)).getD c.watch
    | none => c.watch
  (d.clearTodo n false).updCore n fun c => { c with watch := w, waits := c.waits.filter (fun x => match x with | Wait.phase _ => false | _ => true) }

/-! ## Translation (R112-R119) -/

/-- Why an access is made (R117, R189). -/
inductive Access where
  | read | write | fetch | probe
  deriving DecidableEq, Repr

def Access.code : Access → Nat
  | .read => 0
  | .write => 1
  | .fetch => 2
  | .probe => 3

/-- A failed translation: cause and walk level (R117). -/
structure TFault where
  cause : BitVec 8
  level : Nat
  deriving DecidableEq, Repr

/-- A translated address. -/
structure TOk where
  pa : Nat
  leaf : Word
  /-- the page holds 2^bits bytes -/
  bits : Nat
  deriving DecidableEq, Repr

/-- Package of a remote page, none for a page of this package (R114). -/
def TOk.remote (t : TOk) : Option Nat := if t.leaf.getLsbD 5 then some (wfld t.leaf 55 9) else none

/-- Does a page of 2^bits bytes at frame address f lie wholly in one range that the context may map (R115)?
(DEDUCED, log entry 48) -/
def frameOk (d : Dev) (c : Ctx) (f bits : Nat) : Bool :=
  let top := f + 2 ^ bits - 1
  match placeOf f with
  | .hbm => match tget d.parts c.part with
    | some p => top < hbmTop && p.hbmBase * 2 ^ 29 ≤ f && top < (p.hbmBase + p.hbmSize) * 2 ^ 29
    | none => false
  | .spm g off => match tget d.parts c.part with
    | some p => p.clusters.contains g && c.qbase * 65536 ≤ off &&
        off + 2 ^ bits ≤ (c.qbase + c.qsize) * 65536
    | none => false
  | .host => placeOf top = .host
  | _ => false

/-- Is a table address aligned to its size and in HBM (R112, R115)? -/
def tableOk (level next : Nat) : Bool :=
  let size := match level with | 0 => 131072 | 1 => 4096 | 2 => 256 | 3 => 2048 | _ => 256
  next % size = 0 && next + size ≤ hbmTop

/-- Levels of a walk: number, low bit and width of the index (R112). -/
def walkLevels : List (Nat × Nat × Nat) := [(0, 43, 14), (1, 34, 9), (2, 29, 5), (3, 21, 8), (4, 16, 5)]

/-- One leaf's checks (R115, R507). -/
def leafBad (d : Dev) (c : Ctx) (level lo : Nat) (e : Word) : Bool :=
  let frame := wfld e 16 36 * 65536
  let rem := e.getLsbD 5
  let pkg := wfld e 55 9
  level = 0 || wfld e 52 3 ≠ 0 || wfld e 8 2 ≠ 0 || frame % 2 ^ lo ≠ 0 || 2 ≤ wfld e 10 2 ||
    (rem && (383 < pkg || e.getLsbD 7)) || (!rem && pkg ≠ 0) || (!rem && !frameOk d c frame lo) ||
    (e.getLsbD 7 && !c.conf)

/-- The walk (R115): the leaf and the low bit of its page, or the failed check. -/
def walkFrom (rd : Nat → Word) (bad : Nat → Bool) (d : Dev) (c : Ctx) (va : Nat) :
    Nat → List (Nat × Nat × Nat) → Except TFault (Word × Nat)
  | _, [] => .error { cause := 0x33, level := 4 }
  | base, (l, lo, n) :: t =>
    let a := base + 8 * fld va lo n
    let e := rd a
    if !e.getLsbD 0 then .error { cause := 0x31, level := l }
    else if e.getLsbD 1 then
      if leafBad d c l lo e then .error { cause := 0x33, level := l }
      else if bad a then .error { cause := 0x34, level := l }
      else .ok (e, lo)
    else
      let next := wfld e 8 44 * 256
      if l = 4 || wfld e 52 12 ≠ 0 || wfld e 2 6 ≠ 0 || !tableOk (l + 1) next then .error { cause := 0x33, level := l }
      else if bad a then .error { cause := 0x34, level := l }
      else walkFrom rd bad d c va next t

/-- A cached translation of a context for an address (R118). -/
def tlbFind (l : List TlbEnt) (ctx va : Nat) : Option TlbEnt :=
  l.find? fun e => e.ctx = ctx && e.va / 2 ^ e.bits = va / 2 ^ e.bits

/-- A replayed access walks again (R119): what the caches of its cluster and die hold of its page leaves them. -/
def Dev.forgetPage (d : Dev) (ctx g : Nat) (va : Word) : Dev :=
  let other (e : TlbEnt) : Bool := !(e.ctx = ctx && e.va / 2 ^ e.bits = va.toNat / 2 ^ e.bits)
  (d.updCluster g fun x => { x with tlb := x.tlb.filter other }).updDie (g / 4)
    fun x => { x with tlb := x.tlb.filter other }

/-- Permission of R116. -/
def permOk (leaf : Word) : Access → Bool
  | .read | .probe => leaf.getLsbD 2
  | .write => leaf.getLsbD 3
  | .fetch => leaf.getLsbD 4

/-- The context number of a general core that firmware has given none: its addresses are physical (log entry 20). -/
def noContext : Nat := 64

/-- An untranslated access of firmware: populated ranges of R109 only. -/
def physicalLeaf (va : Nat) : Except TFault TOk :=
  let pa := va % 2 ^ 52
  match placeOf pa with
  | .hbm | .spm _ _ | .host => .ok { pa := pa, leaf := 0x1F, bits := 16 }
  | _ => .error { cause := 0x33, level := 4 }

/-- What caches translations for an access (R118): a cluster by its number with its die behind it, or a die alone as 32
and its number, an I/O die as 8 or 9. -/
def dieCache (k : Nat) : Nat := if k < 32 then k / 4 else k - 32

/-- The caches of an agent: a tensor core's cluster, and the die of any other agent that lies in one. -/
def cacheOf (a : Nat) : Option Nat :=
  if a < 256 then some (clusterOf a)
  else let u := unitOf a 2
       if 2000 ≤ u && u < 2010 then some (32 + (u - 2000)) else none

/-- A translation that the caches hold (R118). -/
def Dev.cached (d : Dev) (k ctx va : Nat) : Option TlbEnt :=
  (if k < 32 then tlbFind (d.cluster k).tlb ctx va else none).orElse fun _ => tlbFind (d.die (dieCache k)).tlb ctx va

/-- A translation enters a cache of n entries, or is used there: it becomes the most recent, and the least recently used
leaves a full cache (R118; one set, log entry 22). -/
def addTlb (l : List TlbEnt) (e : TlbEnt) (n : Nat) : List TlbEnt :=
  (e :: l.filter fun x => !(x.ctx = e.ctx && x.va / 2 ^ x.bits = e.va / 2 ^ x.bits)).take n

/-- A translation enters the caches named. -/
def Dev.enterTlb (d : Dev) (k : Nat) (e : TlbEnt) : Dev :=
  let d := if k < 32 then d.updCluster k fun x => { x with tlb := addTlb x.tlb e 2048 } else d
  d.updDie (dieCache k) fun x => { x with tlb := addTlb x.tlb e 32768 }

/-- Translate an address of a context (R107, R115, R116).  cl names the caches that serve the access, if any do; bad says whether reading an entry meets an uncorrectable error (DEDUCED, log entry 22). -/
def translate (m : Memory) (d : Dev) (bad : Nat → Bool) (ctx : Nat) (cl : Option Nat) (va : Word) (acc : Access) :
    Except TFault TOk :=
  if wfld va 57 7 ≠ 0 then .error { cause := 0x30, level := 0 }
  else if ctx = noContext then physicalLeaf va.toNat
  else match d.ctx ctx with
    | none => .error { cause := 0x31, level := 0 }
    | some c =>
      let v := va.toNat
      let found : Except TFault (Word × Nat) := match cl.bind fun k => d.cached k ctx v with
        | some e => .ok (e.leaf, e.bits)
        | none => walkFrom (readWord m d everyone) bad d c v c.ptRoot walkLevels
      match found with
      | .error f => .error f
      | .ok (leaf, lo) =>
        if permOk leaf acc then .ok { pa := wfld leaf 16 36 * 65536 + v % 2 ^ lo, leaf := leaf, bits := lo }
        else .error { cause := 0x32, level := 7 }

/-- An access of an agent uses its caches (R118): a translation they hold is refreshed where it is found, and one that is
walked without fault enters them. -/
def Dev.useTlb (m : Memory) (d : Dev) (bad : Nat → Bool) (ctx : Nat) (cl : Option Nat) (va : Word) : Dev :=
  match cl, d.ctx ctx with
  | some k, some c =>
    if wfld va 57 7 ≠ 0 then d
    else
      let near := if k < 32 then tlbFind (d.cluster k).tlb ctx va.toNat else none
      match near with
      | some e => d.updCluster k fun x => { x with tlb := addTlb x.tlb e 2048 }
      | none => match tlbFind (d.die (dieCache k)).tlb ctx va.toNat with
        | some e => d.enterTlb k e
        | none => match walkFrom (readWord m d everyone) bad d c va.toNat c.ptRoot walkLevels with
          | .ok (leaf, bits) => d.enterTlb k { ctx := ctx, va := va.toNat, bits := bits, leaf := leaf }
          | .error _ => d
  | _, _ => d

end Sys2Proof.Machine
end

