-- ==== Sys2Proof/Machine/Records.lean ====
section
/-!
DEFINITION. Fault records (R188, R189), the fault queues and rings they go to (R121, R183, R511), and the count of
events (R494).
-/

namespace Sys2Proof.Machine

/-! ## Fault records -/

def EvKind.code : EvKind → Nat
  | .fault => 0
  | .replayable => 1
  | .stop => 2

/-- The SEQNO of the next record of a source (R188). -/
def Dev.seqnoOf (d : Dev) (src : Nat) : BitVec 32 := tgetD d.seqnos src 0

/-- A source has written one more record (R188). -/
def Dev.countRecord (d : Dev) (src : Nat) : Dev := { d with seqnos := tset d.seqnos src (d.seqnoOf src + 1) }

/-- The pass index, 0 outside a pass (R176); at a boundary it is the boundary's (R193). -/
def Core.passShown (c : Core) : Nat := if c.seq.region = .pass || c.atBnd then c.seq.pass else 0

/-- The core as its bundle at hand sees it: past the boundary before it (R30). -/
def Core.inBundle (c : Core) : Core := { c with atBnd := false }

/-- The eight words of a core's record (R188); c is the core at the bundle that BADDR names. -/
def coreRecord (seqno : BitVec 32) (c : Core) (ctx n : Nat) (baddr : Word) (e : Event) (time : Nat) : List Word :=
  let inner := c.lp.innermost
  let lv := (inner.map c.lp.level).getD LoopLevel.reset
  let spred := (List.range 8).foldl (fun a i => if c.p (8 + i) then a + 2 ^ i else a) 0
  [ toW (seqno.toNat * 2 ^ 32 + ctx % 64 * 2 ^ 26 + n * 2 ^ 16 + c.seq.region.code * 2 ^ 14 +
      (if c.seq.priv then 2 ^ 13 else 0) + e.kind.code * 2 ^ 11 + e.sidx * 2 ^ 8 + e.cause.toNat),
    bundleAddr baddr,
    e.info0,
    e.info1,
    if inner.isSome then lv.decl else 0,
    toW (c.passShown * 2 ^ 32 + (if inner.isSome then lv.index.toNat % 2 ^ 32 else 0)),
    toW (c.lp.lact * 2 ^ 32 + c.lp.kb * 2 ^ 29 + c.lp.rrb * 2 ^ 24 + spred * 2 ^ 16 + c.r.st.toNat),
    toW time ]

/-- The eight words of an engine's record (R188): no syllable, region 3, no loop. -/
def engineRecord (seqno : BitVec 32) (ctx src : Nat) (cause : BitVec 8) (kind : EvKind) (baddr info0 info1 : Word)
    (time : Nat) : List Word :=
  [ toW (seqno.toNat * 2 ^ 32 + ctx % 64 * 2 ^ 26 + src * 2 ^ 16 + 3 * 2 ^ 14 + kind.code * 2 ^ 11 + cause.toNat),
    baddr, info0, info1, 0, 0, 0, toW time ]

/-- Signal a record: interrupt the general cores that SYS.IMASK selects and raise an MSI-X vector (R511). -/
def Dev.signal (d : Dev) (vector : Nat) : Dev :=
  let on := (List.range 32).filter fun i => d.sys.imask.getLsbD i
  { d with sys := { d.sys with irq := (d.sys.irq ++ on).dedup, msix := d.sys.msix ++ [vector] } }

/-- Append a record to a partition's fault queue (R183, R511); a full one leaves it in its source (log entry 14). -/
def Dev.toPartQueue (d : Dev) (src p : Nat) (words : List Word) : Dev :=
  match tget d.parts p with
  | none => d
  | some x =>
    if 2 ^ x.fqLog2 ≤ x.fqCount then d.setPart p { x with fqHeld := x.fqHeld ++ [(src, words)] }
    else ((d.setPart p { x with fqCount := x.fqCount + 1 }).writeAll src (x.fqBase + 64 * x.fqCount)
      (bytesOfWords words)).signal (1 + p)

/-- Append a record to the system fault path (R511); a full one leaves it in its source (log entry 14). -/
def Dev.toSystemPath (d : Dev) (src : Nat) (words : List Word) : Dev :=
  let y := d.sys
  if 2 ^ y.sfpLog2 ≤ y.sfpCount then { d with sys := { y with sfpHeld := y.sfpHeld ++ [(src, words)] } }
  else ({ d with sys := { y with sfpCount := y.sfpCount + 1 } }.writeAll src (y.sfpBase + 64 * y.sfpCount)
    (bytesOfWords words)).signal 0

/-- Firmware sets a partition's fault queue: it is empty, and takes the records held for it (R511; log entry 14). -/
def Dev.setQueue (d : Dev) (p base log2 : Nat) : Dev :=
  match tget d.parts p with
  | none => d
  | some x => x.fqHeld.foldl (fun d (src, w) => d.toPartQueue src p w)
      (d.setPart p { x with fqBase := base, fqLog2 := log2, fqCount := 0, fqHeld := [] })

/-- Firmware sets the system fault path likewise. -/
def Dev.setSystemPath (d : Dev) (base log2 : Nat) : Dev :=
  d.sys.sfpHeld.foldl (fun d (src, w) => d.toSystemPath src w)
    { d with sys := { d.sys with sfpBase := base, sfpLog2 := log2, sfpCount := 0, sfpHeld := [] } }

/-- Does a unit wait with a record that a full queue holds in it (R511)? -/
def Dev.recordWaits (d : Dev) (src : Nat) : Bool := d.parts.any fun (_, p) => p.fqHeld.any fun (u, _) => u = src

/-- Append a record to a context's fault ring (R121; log entry 14). -/
def Dev.toRing (d : Dev) (src ctx : Nat) (words : List Word) : Dev :=
  match d.ctx ctx with
  | none => d
  | some c =>
    (d.setCtx ctx { c with frCount := c.frCount + 1 }).writeAll src (c.frBase + 64 * (c.frCount % 2 ^ c.frLog2))
      (bytesOfWords words)

/-- An engine writes a record to the context's fault ring and counts it (R188). -/
def Dev.engineReport (d : Dev) (src ctx : Nat) (cause : BitVec 8) (kind : EvKind) (baddr info0 info1 : Word)
    (time : Nat) : Dev :=
  (d.countRecord src).toRing src ctx (engineRecord (d.seqnoOf src) ctx src cause kind baddr info0 info1 time)

/-- An engine writes a record to the system fault path. -/
def Dev.systemReport (d : Dev) (src : Nat) (cause : BitVec 8) (info0 info1 : Word) (time : Nat) : Dev :=
  (d.countRecord src).toSystemPath src (engineRecord (d.seqnoOf src) 0 src cause .fault 0 info0 info1 time)

/-! ## Event counters (R492, R494) -/

/-- Count k occurrences of event code e on a core: an entry counts while its group is current. -/
def Core.count (c : Core) (e k : Nat) : Core :=
  let hit := (c.ev.sels.filter fun (_, s) => s.toNat = e).map (·.1)
  { c with ev := { c.ev with counts := hit.foldl (fun t i => tset t i (tgetD t i 0 + k)) c.ev.counts } }

end Sys2Proof.Machine
end

