-- ==== Sys2Proof/Machine/Sync.lean ====
section
/-!
DEFINITION. Counters and the Moraine as shared operations (R255-R257, R266-R278): every counter add, raise and
read of the package goes through counterOp, every delta of stakes through enterDeltas.
-/

namespace Sys2Proof.Machine

/-! ## Counter identifiers (R256) -/

/-- A counter that an identifier names. -/
inductive CounterRef where
  | here (k idx : Nat)
  | remote (pkg : Nat)
  deriving DecidableEq, Repr

/-- The identifier in a context: the counter, or the reason of R280 for which it is out of range. -/
def resolveCounter (d : Dev) (ctx : Nat) (id : Word) : Except Nat CounterRef :=
  let rem := id.getLsbD 63
  let pkg := wfld id 54 9
  if wfld id 27 27 ≠ 0 || (!rem && pkg ≠ 0) then .error 1
  else if rem then (if 383 < pkg then .error 4 else .ok (.remote pkg))
  else
    let k := wfld id 24 3
    let idx := wfld id 0 24
    match d.ctx ctx, d.partOfCtx ctx with
    | some c, some p =>
      if p.dieList.length ≤ k then .error 2 else if c.ncnt ≤ idx then .error 3 else .ok (.here k idx)
    | _, _ => .error 2

/-- Physical die of the k-th die of a context's partition (R256). -/
def Dev.dieOfCtx (d : Dev) (ctx k : Nat) : Nat := ((d.partOfCtx ctx).map fun p => nth p.dieList k 0).getD 0

/-- Backing word of a counter: one array of NCNT words for each die, one after the other (log entry 15). -/
def counterWord (d : Dev) (ctx k idx : Nat) : Nat :=
  match d.ctx ctx with
  | some c => c.cntBase + 8 * (c.ncnt * k + idx)
  | none => 0

/-- A counter's value: its SRAM entry, otherwise its backing word (R257). -/
def counterGet (m : Memory) (d : Dev) (ctx k idx : Nat) : Word :=
  match (d.die (d.dieOfCtx ctx k)).sram.find? fun e => e.ctx = ctx && e.idx = idx with
  | some e => e.val
  | none => readWord m d everyone (counterWord d ctx k idx)

/-- Entries of a sync engine's counter SRAM (R257). -/
def sramSize : Nat := 262144

/-- Does a CWAIT or CWANY of some core wait on a counter (R257)? -/
def Dev.awaited (d : Dev) (die : Nat) (e : CounterEnt) : Bool :=
  d.cores.any fun (_, c) => c.cwaits.contains (die, e.ctx, e.idx)

/-- The entry that a full counter SRAM gives up: the least recently used without a pending wait (R257). -/
def Dev.counterVictim (d : Dev) (die : Nat) (l : List CounterEnt) : Option CounterEnt :=
  if l.length < sramSize then none else l.reverse.find? fun e => !d.awaited die e

/-- Give a counter a value, in its SRAM entry: a counter without one is loaded first, and the victim of a full SRAM is
written back (R257). -/
def counterSet (d : Dev) (ctx k idx : Nat) (val : Word) : Dev :=
  let dn := d.dieOfCtx ctx k
  let die := d.die dn
  let here (e : CounterEnt) : Bool := e.ctx = ctx && e.idx = idx
  let present := die.sram.any here
  let rest := die.sram.filter fun e => !here e
  let out := d.counterVictim dn rest
  let kept := match out with | some e => rest.erase e | none => rest
  let d := d.setDie dn { die with
    sram := { ctx := ctx, idx := idx, val := val } :: kept
    cmiss := if present then die.cmiss else satInc die.cmiss }
  match out with
  | none => d
  | some e =>
    let kk := ((d.partOfCtx e.ctx).map fun p => p.dieList.idxOf dn).getD 0
    d.writeAll (352 + dn) (counterWord d e.ctx kk e.idx) (toBytes 8 e.val.toNat)

/-- The operations on a counter (R255, R260). -/
inductive CounterOp where
  | add (v : Word)
  | raise (v : Word)
  | read
  deriving DecidableEq, Repr

/-- One operation, indivisible: the value before it, or none where an add would pass 2^64 - 1 and leaves the counter
unchanged (R260, R262). -/
def counterOp (m : Memory) (d : Dev) (ctx k idx : Nat) (op : CounterOp) : Dev × Word × Bool :=
  let c := counterGet m d ctx k idx
  match op with
  | .add v => if c.toNat + v.toNat < 2 ^ 64 then (counterSet d ctx k idx (c + v), c, true)
              else (counterSet d ctx k idx c, c, false)
  | .raise v => (counterSet d ctx k idx (if c.toNat < v.toNat then v else c), c, true)
  | .read => (counterSet d ctx k idx c, c, true)

/-- A sync engine reads a counter of this package: an operation on its SRAM entry like every other (R257). -/
def Dev.readCounter (m : Memory) (d : Dev) (ctx : Nat) (id : Word) : Dev :=
  match resolveCounter d ctx id with
  | .ok (.here k i) => (counterOp m d ctx k i .read).1
  | _ => d

/-! ## Stages, summaries and closure (R266-R268) -/

/-- Stage-table entry: words 0 to 3 (R266). -/
def stageWord (m : Memory) (d : Dev) (ctx s i : Nat) : Word :=
  match d.ctx ctx with
  | some c => readWord m d everyone (c.stageBase + 32 * s + 8 * i)
  | none => 0

/-- Is a stage in range (R266)? -/
def stageOk (m : Memory) (d : Dev) (ctx s : Nat) : Bool :=
  s < 4096 && (d.ctx ctx).isSome && (stageWord m d ctx s 2).getLsbD 0

/-- Publication scope of a stage (R266). -/
def stageScope (m : Memory) (d : Dev) (ctx s : Nat) : Nat := wfld (stageWord m d ctx s 2) 3 3

/-- One coordinate under a summary operation (R267). -/
def sumCoord (op t : Nat) : Nat := if op = 0 then t else if op = 15 then 0 else t + op

/-- An edge summary applied to a time (R267). -/
def applySummary (sum : Nat) (t : Word) : Word :=
  let u (k : Nat) : Nat := sumCoord (fld sum (4 * k) 4) (wfld t (16 * k) 16)
  if 0xFFFF < u 3 || 0xFFFF < u 2 || 0xFFFF < u 1 || 0xFFFF < u 0 then BitVec.allOnes 64
  else toW (u 3 * 2 ^ 48 + u 2 * 2 ^ 32 + u 1 * 2 ^ 16 + u 0)

/-- The summary of an ordered pair of stages: identity for (s, s), the listed one, or unreachable (R268). -/
def closure (m : Memory) (d : Dev) (ctx s t : Nat) : Option Nat :=
  if s = t then some 0
  else match d.ctx ctx with
    | none => none
    | some c =>
      ((List.range c.nclos).map fun i => readWord m d everyone (c.closBase + 8 * i)).findSome? fun e =>
        if wfld e 48 12 = s && wfld e 36 12 = t then some (wfld e 0 16) else none

/-! ## The Moraine (R274) -/

def Die.moraineOf (x : Die) (ctx : Nat) : MoraineCtx := (tget x.moraine ctx).getD MoraineCtx.reset
def Die.setMoraine (x : Die) (ctx : Nat) (q : MoraineCtx) : Die := { x with moraine := tset x.moraine ctx q }

/-- Sum a delta into a list with one entry for each stake. -/
def addDelta (l : List Delta) (e : Delta) : List Delta :=
  if l.any fun x => x.stage = e.stage && x.time = e.time then
    l.map fun x => if x.stage = e.stage && x.time = e.time then { x with n := x.n + e.n } else x
  else l ++ [e]

/-- Close the open batch (R274): it takes the sequence number after those closed before. -/
def MoraineCtx.close (q : MoraineCtx) : MoraineCtx :=
  if q.openDeltas.isEmpty then q else { q with openDeltas := [], unsent := q.unsent ++ [q.openDeltas] }

/-- Entries in use: the open batch and the closed unsent ones (R274, R285). -/
def MoraineCtx.entries (q : MoraineCtx) : Nat := q.openDeltas.length + (q.unsent.map (·.length)).sum

/-- The deltas of one act enter the open batch, in one batch: it closes before them where they would not fit, and after
them where it holds 32 stakes (R272-R274). -/
def MoraineCtx.enter (q : MoraineCtx) (ds : List Delta) : MoraineCtx :=
  let q := if 32 < (ds.foldl addDelta q.openDeltas).length then q.close else q
  let q := { q with openDeltas := ds.foldl addDelta q.openDeltas }
  if 32 ≤ q.openDeltas.length then q.close else q

/-- Entries that the deltas of one act would take. -/
def MoraineCtx.growth (q : MoraineCtx) (ds : List Delta) : Nat := (q.enter ds).entries - q.entries

/-- Shared entries of a die's Moraine in use (R274). -/
def Die.moraineUsed (x : Die) : Nat := (x.moraine.map fun (_, q) => q.entries - q.spilled).sum

/-- Shared entries of a Moraine (R274). -/
def moraineSize : Nat := 16384

/-- Entries in a context's overflow area, which its dies share (R274). -/
def Dev.overflowUsed (d : Dev) (ctx : Nat) : Nat := (d.dies.map fun (_, x) => (x.moraineOf ctx).spilled).sum

/-- Room for the deltas of one act: deltas that need no entry have it; others find it in the shared entries, then in the
context's overflow area, behind the deltas that wait (R274). -/
def moraineRoom (d : Dev) (die ctx : Nat) (ds : List Delta) : Bool :=
  let x := d.die die
  let q := x.moraineOf ctx
  q.growth ds = 0 || (q.owed.isEmpty &&
    q.growth ds ≤ (moraineSize - x.moraineUsed) + (Config.overflowEntries - d.overflowUsed ctx))

/-- Store the deltas of one act: what exceeds the shared entries lies in the overflow area. -/
def storeDeltas (d : Dev) (die ctx : Nat) (ds : List Delta) : Dev :=
  let x := d.die die
  let q := x.moraineOf ctx
  let past := q.growth ds - (moraineSize - x.moraineUsed)
  d.setDie die (x.setMoraine ctx { q.enter ds with spilled := q.spilled + past })

/-- Report once that a Moraine is full (R274). -/
def Dev.reportFull (d : Dev) (die ctx time : Nat) : Dev :=
  let q := (d.die die).moraineOf ctx
  if q.reported then d
  else
    let base := ((d.ctx ctx).map (·.ovfBase)).getD 0
    (d.updDie die fun x => x.setMoraine ctx { q with reported := true }).engineReport (352 + die) ctx 0x45 .fault 0
      (toW base) 0 time

/-- Enter the deltas of one act of an agent (R272-R274).  Without room they wait in the order of their acts, the record of
R274 is written, and the agent takes up nothing more (`Dev.owes`). -/
def enterDeltas (d : Dev) (agent die ctx : Nat) (ds : List Delta) (time : Nat) : Dev :=
  if ds.isEmpty then d
  else if moraineRoom d die ctx ds then storeDeltas d die ctx ds
  else (d.updDie die fun x =>
    let q := x.moraineOf ctx
    x.setMoraine ctx { q with owed := q.owed ++ [(agent, ds)] }).reportFull die ctx time

/-- Deltas of an agent's act wait for room on a die (R274): the agent is stalled. -/
def Dev.owes (d : Dev) (agent die ctx : Nat) : Bool := ((d.die die).moraineOf ctx).owed.any fun x => x.1 = agent

/-- Waiting deltas of a context on a die that now find room are stored, oldest first; k bounds their number. -/
def Dev.pumpOwed (d : Dev) (die ctx : Nat) : Nat → Dev
  | 0 => d
  | k + 1 =>
    let x := d.die die
    let q := x.moraineOf ctx
    match q.owed with
    | [] => d
    | (_, ds) :: t =>
      if !moraineRoom (d.setDie die (x.setMoraine ctx { q with owed := [] })) die ctx ds then d
      else ((storeDeltas d die ctx ds).updDie die fun x =>
        let q := x.moraineOf ctx
        x.setMoraine ctx { q with owed := t }).pumpOwed die ctx k

/-- Every waiting delta that finds room is stored, lowest die and context first. -/
def Dev.pumpAll (d : Dev) : Dev :=
  d.dies.foldl (fun d (die, x) => x.moraine.foldl (fun d (ctx, q) => d.pumpOwed die ctx q.owed.length) d) d

/-- A Moraine sends its oldest closed batch of a context to the root (R274, R275), which R279 lets it do while the
context is resident; its entries come free, those of the overflow area first (DESIGN CHOICE, log entry 94). -/
def Dev.sendBatch (d : Dev) (die ctx : Nat) : Option Dev :=
  let q := (d.die die).moraineOf ctx
  match q.unsent, d.ctx ctx with
  | ds :: t, some c =>
    if d.residentOn die ≠ some ctx || d.dieSaved die then none else
    let root := { c.root with arriving := c.root.arriving ++ [{ die := die, seq := q.sent + 1, deltas := ds }] }
    let d := d.setCtx ctx { c with root := root }
    let d := d.updDie die fun x =>
      let x := x.setMoraine ctx { q with sent := q.sent + 1, unsent := t, spilled := q.spilled - ds.length }
      { x with moraine := x.moraine.map fun (k, (q : MoraineCtx)) => (k, { q with reported := false }) }
    some d.pumpAll
  | _, _ => none

/-- The die in whose Moraine a core's deltas are entered (R270, R272). -/
def moraineDie (d : Dev) (n ctx : Nat) : Nat := if isGeneral n then d.rootDie ctx else dieOf n

/-- Holds of a core: entry i, free when its count is 0 (R271). -/
def Core.hold (c : Core) (i : Nat) : Hold := (tget c.holds i).getD { own := false, stage := 0, time := 0, count := 0 }

/-- The holds as they are before the register writes of a cycle (R6). -/
def Core.holdsBefore (c : Core) (cycle : Nat) : Core :=
  (c.holdWas.filter fun (x, _, _) => x = cycle).foldl (fun c (_, i, h) => { c with holds := tset c.holds i h }) c

/-- A hold is written as a register in a cycle. -/
def Core.writeHold (c : Core) (cycle i : Nat) (h : Hold) : Core :=
  { c with
    holdWas := (cycle, i, c.hold i) :: c.holdWas.filter fun (x, _, _) => x = cycle
    holds := tset c.holds i h }

/-- The core's hold whose stage is s (R272). -/
def Core.holdOf (c : Core) (s : Nat) : Option Nat :=
  ([0, 1, 2, 3] : List Nat).find? fun i => (c.hold i).count ≠ 0 && (c.hold i).stage = s

/-- Lowest free hold. -/
def Core.freeHold (c : Core) : Option Nat := ([0, 1, 2, 3] : List Nat).find? fun i => (c.hold i).count = 0

def Core.setHold (c : Core) (i : Nat) (h : Hold) : Core := { c with holds := tset c.holds i h }

end Sys2Proof.Machine
end

