-- ==== Sys2Proof/Machine/Fetch.lean ====
section
/-!
DEFINITION. Reading code (R44, R107, R115, R122, R214, R215): a bundle from its address, for the stream, for private
fetch and for general cores.
-/

namespace Sys2Proof.Machine

/-- Base of the scratchpad aperture (R107). -/
def apertureBase : Nat := 0x01FFFFFF00000000

/-- Is a canonical address in the aperture (R107)? -/
def inAperture (va : Nat) : Bool := apertureBase ≤ va

/-- A physical address whose 64-byte unit has an uncorrectable error (R388): a walk that reads it fails (R115). -/
def walkBad (d : Dev) (pa : Nat) : Bool := pa < hbmTop && d.poison.contains (pa / 64)

/-- What a fetch meets. -/
inductive FetchRes where
  | ok (ws : List Word)
  | fault (e : Event)
  /-- the instruction-cache line at this address is not there (R203) -/
  | miss (pa : Nat)
  deriving DecidableEq, Repr

/-- How a fetching unit reaches code: context, cluster (none for a general core), the agent whose caches translate, and the
physical memory it reads. -/
structure FetchPort where
  ctx : Nat
  cluster : Option Nat
  agent : Nat
  /-- a launch group's code as of its dispatch (R122) -/
  group : Option Memory
  deriving Repr

/-- Physical address of code, and its fault record's words (R117, R189). -/
def FetchPort.address (p : FetchPort) (m : Memory) (d : Dev) (va : Word) : Except Event Nat :=
  if inAperture va.toNat && wfld va 57 7 = 0 then
    match p.cluster with
    | some g =>
      let off := va.toNat - apertureBase
      let ok := match d.ctx p.ctx with
        | some c => c.qbase * 65536 ≤ off && off + 8 ≤ (c.qbase + c.qsize) * 65536 && off < spmSize
        | none => false
      if ok then .ok (spmBase g + off)
      else .error { cause := 0x35, kind := .fault, info0 := va, info1 := if spmSize < off + 8 then 2 else 1, sidx := 0 }
    | none => .error { cause := 0x35, kind := .fault, info0 := va, info1 := 3, sidx := 0 }
  else match translate m d (walkBad d) p.ctx (cacheOf p.agent) va .fetch with
    | .ok t => .ok t.pa
    | .error f =>
      let replay := f.cause = 0x31 || f.cause = 0x32 || f.cause = 0x33
      .error { cause := f.cause, kind := if replay then .replayable else .fault, info0 := va
               info1 := toW (Access.fetch.code * 16 + f.level), sidx := 0 }

/-- The cached line at a physical address. -/
def Cluster.line (c : Cluster) (pa : Nat) : Option ILine :=
  c.icache.find? fun l => l.line ≤ pa && pa < l.line + l.bytes.length

/-- A code word: through the cluster's instruction cache, or straight from memory on a general core (R516). -/
def FetchPort.word (p : FetchPort) (m : Memory) (d : Dev) (bundle : Word) (pa : Nat) : FetchRes :=
  match p.cluster with
  | none => .ok [readWord m d everyone pa]
  | some g =>
    match (d.cluster g).line pa with
    | none => .miss pa
    | some l =>
      if l.bad then
        .fault { cause := 0x22, kind := .fault, info0 := bundle, info1 := toW l.line, sidx := 0 }
      else match p.group with
        | some code => .ok [toW (ofBytes ((List.range 8).map fun i => code.read (pa + i)))]
        | none =>
          let o := pa - l.line
          .ok [toW (ofBytes ((List.range 8).map fun i => nth l.bytes (o + i) 0))]

/-- Up to n words from an address, through the first whose E bit is 1 (R44). -/
def FetchPort.words (p : FetchPort) (m : Memory) (d : Dev) (bundle : Word) : Nat → Word → FetchRes
  | 0, _ => .ok []
  | n + 1, va =>
    match p.address m d va with
    | .error e => .fault e
    | .ok pa =>
      match p.word m d bundle pa with
      | .ok (w :: _) =>
        if w.getLsbD 60 then .ok [w]
        else match p.words m d bundle n (va + 8) with
          | .ok ws => .ok (w :: ws)
          | r => r
      | r => r

/-- The bundle at an address (R44). -/
def FetchPort.bundle (p : FetchPort) (m : Memory) (d : Dev) (va : Word) : FetchRes := p.words m d va 8 va

/-- A fetch from an address uses the caches of its port (R118). -/
def FetchPort.use (p : FetchPort) (m : Memory) (d : Dev) (va : Word) : Dev :=
  if inAperture va.toNat then d else d.useTlb m (walkBad d) p.ctx (cacheOf p.agent) va

/-- The port of a core's own fetches (R195, R203, R516). -/
def corePort (d : Dev) (n : Nat) : FetchPort :=
  let ctx := (d.ctxOfCore n).getD noContext
  if isGeneral n then { ctx := ctx, cluster := none, agent := n, group := none }
  else
    let g := clusterOf n
    let mine := match (d.core n).task with | some t => t.isMember | none => false
    { ctx := ctx, cluster := some g, agent := n, group := if mine then (d.cluster g).group.map (·.code) else none }

/-- The port of a front end's stream. -/
def streamPort (d : Dev) (g : Nat) : FetchPort :=
  let q := (d.cluster g).group
  { ctx := (q.map (·.ctx)).getD 0, cluster := some g, agent := 8 * g, group := q.map (·.code) }

/-- A code word as the port would fetch it, without filling a line: the group's code, the cached line, or memory. -/
def FetchPort.peek (p : FetchPort) (m : Memory) (d : Dev) (pa : Nat) : Word :=
  match p.group with
  | some code => toW (ofBytes ((List.range 8).map fun i => code.read (pa + i)))
  | none => match p.cluster.bind fun g => (d.cluster g).line pa with
    | some l => toW (ofBytes ((List.range 8).map fun i => nth l.bytes (pa - l.line + i) 0))
    | none => readWord m d everyone pa

/-- The address after the bundle that begins at most n words on (R44); none where it cannot be read. -/
def FetchPort.after (p : FetchPort) (m : Memory) (d : Dev) : Nat → Word → Option Word
  | 0, _ => none
  | n + 1, va =>
    match p.address m d va with
    | .error _ => none
    | .ok pa => if (p.peek m d pa).getLsbD 60 then some (va + 8) else p.after m d n (va + 8)

/-- Address after n bundles from an address; none where a bundle cannot be read. -/
def walkCode (m : Memory) (d : Dev) (p : FetchPort) : Nat → Word → Option Word
  | 0, a => some a
  | n + 1, a => (p.after m d 8 a).bind (walkCode m d p n)

/-- The fetch fault that the bundle at an address meets within n words. -/
def FetchPort.faultFrom (p : FetchPort) (m : Memory) (d : Dev) : Nat → Word → Option Event
  | 0, _ => none
  | n + 1, va =>
    match p.address m d va with
    | .error e => some e
    | .ok pa => if (p.peek m d pa).getLsbD 60 then none else p.faultFrom m d n (va + 8)

/-- The fetch fault that the first of n bundles from an address meets that cannot be read. -/
def walkFault (m : Memory) (d : Dev) (p : FetchPort) : Nat → Word → Option Event
  | 0, _ => none
  | n + 1, a => match p.after m d 8 a with
    | some x => walkFault m d p n x
    | none => p.faultFrom m d 8 a

/-- The code that a launch group dispatched now by a front end fetches: memory with every store that its Graver has
applied or that the front end sees, and what their granules' orders put before them (R122, R124, R129, R131). -/
def visibleMemory (m : Memory) (d : Dev) (frontEnd : Nat) : Memory :=
  (shownBy (fun e => e.all || e.applied || (e.ended && e.seenBy frontEnd)) (d.stores.filter (·.ended))).foldl
    (fun m e => m.writes (e.cells.map fun (o, b) => (e.gran * 8 + o, b))) m

end Sys2Proof.Machine
end

