-- ==== Sys2Proof/Machine/Push.lean ====
section
/-!
DEFINITION. How a push of the matrix engine lands in its accumulator slot (R102, R103, R350, R364).
-/

namespace Sys2Proof.Machine

/-- An accumulator entry. -/
def AccSlot.entry (t : AccSlot) (r j : Nat) : BitVec 32 := tgetD t.cells (128 * r + j) 0

/-- Value that a landing push gives an entry, and whether it was clamped (R102, R103, R350). -/
def landedValue (ak : BitVec 2) (acc : Bool) (old : BitVec 32) (v : Int) : BitVec 32 × Bool :=
  match ak.toNat with
  | 0 =>
    if acc then
      (BitVec.ofNat 32 (fmtFp32.encode rne ((fmtFp32.decode old.toNat).add (fmtFp32.decode v.toNat))), false)
    else (BitVec.ofInt 32 v, false)
  | 1 => (BitVec.ofInt 32 (if acc then old.toInt + v else v), false)
  | _ =>
    let z := if acc then old.toInt + v else v
    let q := min (2 ^ 31 - 1) (max (-(2 ^ 31)) z)
    (BitVec.ofInt 32 q, q ≠ z)

/-- A push lands in its slot (R350): an overwrite clears poison; an accumulation that meets an uncorrectable error
poisons the entry, whose value is then the free one given (R364). -/
def AccSlot.land (t : AccSlot) (p : Push) (open' : Nat → BitVec 32) : AccSlot :=
  ((List.range p.vals.length).zip p.vals).foldl (fun (t : AccSlot) (jv : Nat × Int) =>
    let k := 128 * p.row + jv.1
    if p.acc && t.bad.contains k then
      { t with cells := tset t.cells k (open' jv.1), poison := (k :: t.poison).dedup, bad := t.bad.erase k }
    else
      let (v, clamped) := landedValue p.ak p.acc (t.entry p.row jv.1) jv.2
      { t with
        cells := tset t.cells k v
        sat := t.sat || clamped
        poison := if p.acc then t.poison else t.poison.erase k
        bad := if p.acc then t.bad else t.bad.erase k }) t

/-- The oldest push in flight lands; the values of poisoned entries are those given (R350, R364). -/
def MatState.landPush (x : MatState) (open' : Nat → BitVec 32) : MatState :=
  match x.pushes with
  | [] => x
  | p :: t =>
    let slots := match tget x.slots p.slot with
      | some q => tset x.slots p.slot (q.land p open')
      | none => x.slots
    { x with pushes := t, recent := x.recent ++ [p], slots := slots }

/-- Land pushes until none is in flight (R344); k bounds their number. -/
def MatState.landPushes (x : MatState) : Nat → MatState
  | 0 => x
  | k + 1 => match x.pushes with
    | [] => x
    | p :: _ => (x.landPush fun j => Config.freeAcc (128 * p.due + j)).landPushes k

/-- Rows of a tile by the code MQ (R58). -/
def tileRows (mq : BitVec 2) : Nat := 32 * 2 ^ mq.toNat

/-- x of R348. -/
def Core.beatRow (c : Core) (m : BitVec 2) : Nat :=
  match c.lp.innermost with
  | some l => (c.lp.level l).index.toNat % tileRows m
  | none => 0

/-- The cycle by which the pushes to a name, or to one row of it, have landed (R355): of those in flight, and of those
landed since the last bundle. -/
def MatState.landing (t : MatState) (a : Nat) (row : Option Nat) : Nat :=
  (((t.recent ++ t.pushes).filter fun p => tget t.names a = some p.slot &&
    (match row with | some r => p.row = r | none => true)).map (·.due)).foldl max 0

/-- The cycle by which every push has landed, from a cycle on. -/
def MatState.landedBy (x : MatState) (cycle : Nat) : Nat := ((x.recent ++ x.pushes).map (·.due)).foldl max cycle

end Sys2Proof.Machine
end

