-- ==== Sys2Proof/Machine/Ops.lean ====
section
/-!
DEFINITION. The shared operations of a bundle: ending a task (R32, R273), taking an event (R181-R186) and returning
from one (R185), completing a bundle (R48, R156-R166, R200) and the wrapper of every syllable (R39, R54, R55).
-/

namespace Sys2Proof.Machine

/-- What a meaning answers. -/
inductive Out where
  /-- the units after the syllable's effect -/
  | ok (d : Dev)
  /-- the syllable raises an event; the bundle has no effect (R39) -/
  | raise (e : Event)
  /-- the same, keeping what a release made visible (R260) -/
  | raiseIn (d : Dev) (e : Event)
  /-- the bundle cannot issue yet; the reason is that of R491 -/
  | stall (reason : Nat)
  /-- the same, where the core is recorded as waiting; the units are those before the bundle, so marked -/
  | stallIn (d : Dev) (reason : Nat)
  deriving Repr

/-- A non-replayable fault (R181). -/
def mkFault (cause : BitVec 8) (info0 info1 : Word) : Event :=
  { cause := cause, kind := .fault, info0 := info0, info1 := info1, sidx := 0 }
def mkReplay (cause : BitVec 8) (info0 info1 : Word) : Event :=
  { cause := cause, kind := .replayable, info0 := info0, info1 := info1, sidx := 0 }
def mkStop (cause : BitVec 8) (info0 info1 : Word) : Event :=
  { cause := cause, kind := .stop, info0 := info0, info1 := info1, sidx := 0 }

/-! ## Trace records (R484-R487) -/

/-- The eight words of a trace record of a core (R486): program fields are zero unless the context is debuggable,
and words 1 to 5 are zero for an idle or halted core. -/
def traceWords (c : Core) (ctx n : Nat) (dbg : Bool) (baddr : Word) (type sub cls : Nat) (payload : Word)
    (time : Nat) : List Word :=
  let inner := c.lp.innermost
  let lv := (inner.map c.lp.level).getD LoopLevel.reset
  let on := match c.run with | .idle | .halted => false | _ => true
  let prog (w : Word) : Word := if dbg && on then w else 0
  [ toW (c.tseq.toNat * 2 ^ 32 + ctx % 64 * 2 ^ 26 + n * 2 ^ 16 + type * 2 ^ 8 + sub),
    prog baddr,
    prog (if inner.isSome then lv.decl else 0),
    prog (toW (c.passShown * 2 ^ 32 + (if inner.isSome then lv.index.toNat % 2 ^ 32 else 0))),
    if on then toW (c.r.st.toNat * 2 ^ 32 + cls * 2 ^ 29) else 0,
    if on then c.r.tm else 0,
    if (type = 2 || type = 4) && !dbg then 0 else payload,
    toW time ]

/-- A trace record without words 1 to 5, of an engine's task or of a trace unit itself (R486). -/
def plainRecord (tseq : BitVec 32) (ctx src type sub : Nat) (payload : Word) (time : Nat) : List Word :=
  [ toW (tseq.toNat * 2 ^ 32 + ctx % 64 * 2 ^ 26 + src * 2 ^ 16 + type * 2 ^ 8 + sub), 0, 0, 0, 0, 0, payload, toW time ]

/-- The ring of a context at a trace unit, if firmware gave one (R484). -/
def Ctx.ring (c : Ctx) (u : Nat) : Option TraceRing :=
  (tget c.rings u).bind fun r => if r.log2 = 0 then none else some r

/-- Records that a ring still takes (R485). -/
def ringFree (m : Memory) (d : Dev) (ctx : Nat) (r : TraceRing) : Nat :=
  match resolveCounter d ctx r.rd with
  | .ok (.here k i) => (counterGet m d ctx k i).toNat + 2 ^ r.log2 - r.written
  | _ => 0

/-- Records in a unit's buffer whose ring has no space for them (R485). -/
def TraceUnit.heldBack (x : TraceUnit) (m : Memory) (d : Dev) (u : Nat) : Nat :=
  ((x.buf.map (·.ctx)).dedup.map fun ctx =>
    let free := ((d.ctx ctx).bind (·.ring u)).elim (x.buf.length) (ringFree m d ctx)
    (x.buf.countP fun r => r.ctx = ctx) - free).sum

/-- Count a discarded record for the context's last reset (R497). -/
def countTrunc (ctx : Nat) : Tab Nat → Tab Nat
  | [] => []
  | (c, k) :: t =>
    if c = ctx && !(t.any fun e => e.1 = ctx) then (c, k + 1) :: t else (c, k) :: countTrunc ctx t

/-- A unit takes a record: without a ring it discards it; while it still finishes a reset of the context it discards it
and counts it for that (R497); one for which the ring has no space it holds, and drops and counts it where its buffer
holds 256 such records (R484, R485). -/
def Dev.traceAppend (m : Memory) (d : Dev) (u ctx : Nat) (words : List Word) : Dev :=
  match (d.ctx ctx).bind (·.ring u) with
  | none => d
  | some r =>
    let x := d.unit u
    if x.trunc.any fun e => e.1 = ctx then d.setUnit u { x with trunc := countTrunc ctx x.trunc }
    else if x.buf.length < 256 || (x.buf.countP fun r => r.ctx = ctx) < ringFree m d ctx r || x.heldBack m d u < 256 then
      d.setUnit u { x with buf := x.buf ++ [{ ctx := ctx, words := words }] }
    else d.setUnit u { x with lost := x.lost + 1, drop := satInc x.drop }

/-- A core's trace record: it takes the core's next TSEQ (R486). -/
def Dev.traceCore (m : Memory) (d : Dev) (n : Nat) (c : Core) (baddr : Word) (type sub cls : Nat) (payload : Word)
    (time : Nat) : Dev :=
  match d.ctxOfCore n with
  | none => d
  | some ctx =>
    let dbg := ((d.ctx ctx).map (·.dbg)).getD false
    let w := traceWords { c with tseq := (d.core n).tseq } ctx n dbg baddr type sub cls payload time
    (d.updCore n fun c => { c with tseq := c.tseq + 1 }).traceAppend m (traceUnitOf n) ctx w

/-- Trace unit of an engine's die; of an engine of no die, that of IOD-A (R484). -/
def traceUnitOfEngine (src : Nat) : Nat :=
  match ([0, 1, 2, 3, 4, 5, 6, 7] : List Nat).find? fun i => unitOf src 2 = 2000 + i with
  | some i => i
  | none => if unitOf src 2 = 2009 then 9 else 8

/-- The TASK record of a task that ends without having run (R487), written by the engine that makes its completion add. -/
def Dev.traceEngineTask (m : Memory) (d : Dev) (src ctx outcome : Nat) (id : Word) (time : Nat) : Dev :=
  if !((d.ctx ctx).map (·.ten)).getD false then d else
  let q := tgetD d.tseqs src 0
  ({ d with tseqs := tset d.tseqs src (q + 1) }).traceAppend m (traceUnitOfEngine src) ctx
    (plainRecord q ctx src 3 outcome id time)

/-! ## Front-end bookkeeping shared by branches, task ends and halts -/

/-- Clusters that a front end serves: its own, or both of a fused pair (R209). -/
def feClusters (d : Dev) (g : Nat) : List Nat :=
  if (d.cluster g).fe.fused then [g - g % 2, g - g % 2 + 1] else [g]

/-- The front end that delivers to a cluster: the even one of a fused pair (R209) (DEDUCED, log entry 42). -/
def feOf (d : Dev) (g : Nat) : Nat := if (d.cluster g).fe.fused then g - g % 2 else g

/-- Is a core a member of a launch group (R195)? -/
def Core.isMember (c : Core) : Bool := match c.task with | some t => t.isMember | none => false

/-- Attached members of a front end, ascending. -/
def attachedOf (d : Dev) (g : Nat) : List Nat :=
  (feClusters d g).flatMap fun k => (coresOfCluster k).filter fun n => (d.core n).attached

/-- The steering core (R200). -/
def steering (d : Dev) (g : Nat) : Option Nat := (attachedOf d g).head?

/-- A fused pair unfuses (R211): each front end goes on at the same position with a copy of the join table. -/
def Dev.unfuse (d : Dev) (g : Nat) : Dev :=
  if !(d.cluster g).fe.fused then d else
  let e := g - g % 2
  let f := (d.cluster e).fe
  let o := (d.cluster (e + 1)).fe
  let o' : FrontEnd := { f with serving := o.serving, kern := o.kern, epi := o.epi, conts := o.conts,
                                icorr := o.icorr, fused := false }
  (d.updCluster e fun c => { c with fe := { f with fused := false } }).updCluster (e + 1)
    fun c => { c with fe := o' }

/-- A core leaves the attached set; what it fetches next it fetches privately from the given cycle (R203). -/
def Core.detach (c : Core) (cycle : Nat) : Core :=
  { c with attached := false, ibuf := [], fetched := none, fetchBase := cycle, fetchK := 0 }

/-- The part of the kernel that an address begins (R156): by a redirect, the epilogue address always does. -/
def FrontEnd.nextPart (f : FrontEnd) (a : Word) (redirect : Bool) : Region :=
  match f.part with
  | .prologue =>
    if a = f.kern then (if f.kern = f.epi then .epilogue else .pass)
    else if redirect && a = f.epi then .epilogue else .prologue
  | .pass => if a = f.epi then .epilogue else .pass
  | r => r

/-- The core's successor of the stream bundle it has just consumed (R200, R201): where that is a redirect bundle, the
steering core's is the stream's continuation, and another core detaches where its own differs. -/
def Dev.redirected (d : Dev) (n : Nat) (succ : Word) (cycle : Nat) : Dev :=
  let c := d.core n
  if !c.attached || c.cons = 0 then d else
  let g := feOf d (clusterOf n)
  let fe := (d.cluster g).fe
  let seq := c.cons - 1
  if fe.redirect = some seq && steering d g = some n then
    let d := (feClusters d g).foldl (fun d k => d.updCluster k fun x =>
      { x with fe := { x.fe with conts := tset x.fe.conts seq (succ, cycle) } }) d
    d.updCluster g fun x => { x with fe := { x.fe with
      redirect := none
      pos := some succ
      part := x.fe.nextPart succ true
      notBefore := cycle } }
  else match tget (d.cluster (clusterOf n)).fe.conts seq with
    | some (a, _) => if a = succ then d else d.updCore n fun c => (c.detach cycle).count 0x0D 1
    | none => d

/-- Charge k cycles of a class, for a reason, to a core: the class where it runs a task (R489, R494). -/
def Core.charge (c : Core) (cls why k : Nat) : Core :=
  if k = 0 then c else
  let c := if c.task.isNone then c
    else ({ c with cc := tset c.cc cls ((tgetD c.cc cls 0 + k) % 2 ^ 64) }.count 0x01 k).count (0x04 + cls) k
  if why = 3 then c.count 0x13 k else if why = 6 then c.count 0x14 k else c

/-! ## Requests to other packages (R464) -/

/-- The port that traffic to a package uses: the lowest of its set whose link is up (R464). -/
def Fab.portTo (f : Fab) (pkg : Nat) : Option Nat :=
  (List.range 18).find? fun p =>
    (tgetD f.route pkg 0).getLsbD p && (match tget f.ports p with | some x => x.up | none => true)

/-- The port on which a request to another package goes out behind those given: none where no link is up, or where
earlier ones of the pair are still on their way by another port (R464). -/
def Dev.portFor (d : Dev) (before : List RemoteOut) (pkg : Nat) : Option Nat :=
  if pkg = Config.packageNumber || !d.accepted 2 then none
  else match d.fab.portTo pkg with
    | none => none
    | some p => if before.all fun q => q.pkg ≠ pkg || q.port = some p then some p else none

/-- Can traffic of this package reach a package: it is its own, or the fabric is accepted (R513) and a link leads there? -/
def Dev.reaches (d : Dev) (pkg : Nat) : Bool :=
  pkg = Config.packageNumber || (d.accepted 2 && (d.fab.portTo pkg).isSome)

/-- Send a request, behind those sent before. -/
def Dev.send (d : Dev) (q : RemoteOut) : Dev :=
  { d with remote := d.remote ++ [{ q with port := d.portFor d.remote q.pkg }] }

/-! ## The end of a task (R32, R157, R244, R273) -/

/-- Value added to the parent counter (R32): 1 normal, 2 cancelled, 3 faulted. -/
def outcomeValue : Nat → Word
  | 1 => 1
  | 2 => 0x100000001
  | _ => 0x1000000000001

/-- The parent counter's identifier of a record: word 6 with [53:27] cleared (R410). -/
def parentOf (words : List Word) : Word := nth words 6 0 &&& 0xFFC0000007FFFFFF

/-- Completion scope of a record (R410). -/
def cscpOf (words : List Word) : Nat := wfld (nth words 7 0) 4 3

/-- An add made by an engine or a task's end: an overflow leaves the counter and is reported (R262). -/
def engineAdd (m : Memory) (d : Dev) (src ctx : Nat) (id v : Word) (time : Nat) : Dev :=
  match resolveCounter d ctx id with
  | .error _ => d
  | .ok (.here k idx) =>
    let (d', _, fine) := counterOp m d ctx k idx (.add v)
    if fine then d' else d'.engineReport src ctx 0x40 .fault 0 id v time
  | .ok (.remote pkg) =>
    let q : RemoteOut :=
      { src := src, ctx := ctx, pkg := pkg, kind := .counterAdd, ident := id, pa := 0, data := [], val := v, tag := 0
        phase := 0, start := time }
    d.send q

/-- The completion add of a task (R32), with release at its completion scope by the agent src, and after it the stakes
that the task gives up, entered on a die (R273): behind an add in another package when that is performed. -/
def completionAdd (m : Memory) (d : Dev) (src ctx : Nat) (words : List Word) (outcome die : Nat) (ds : List Delta)
    (time : Nat) : Dev :=
  let id := parentOf words
  let d := engineAdd m (d.release src (cscpOf words)) src ctx id (outcomeValue outcome) time
  match resolveCounter d ctx id with
  | .ok (.remote _) =>
    { d with remote := d.remote.dropLast ++ (d.remote.getLast?.map fun q => { q with stakes := ds, die := die }).toList }
  | _ => enterDeltas d src die ctx ds time

/-- Release every window handle of a core and unbind every other (R244). -/
def Dev.dropHandles (d : Dev) (n : Nat) : Dev :=
  let c := d.core n
  let held := c.r.h.map (·.2) ++ c.pend.filterMap fun e => match e.res with | .h _ x => some x | _ => none
  let wins := held.filterMap fun x => match x with | .window s w => some (8 * s + w) | _ => none
  let g := clusterOf n
  let d := if wins.isEmpty then d else d.updCluster g fun x =>
    ({ x with tags := x.tags.map fun (k, (e : TagEnt)) => (k, { e with pins := e.pins - wins.count k }) }).sweep
  d.updCore n fun c => { c with
    r := { c.r with h := [] }
    pend := c.pend.filter fun e => match e.res with | .h _ _ => false | _ => true }

/-- The record of stakes a task end gives up: every hold, in one batch (R273). -/
def Core.holdDeltas (c : Core) : List Delta :=
  ([0, 1, 2, 3] : List Nat).filterMap fun i =>
    let h := c.hold i
    if h.count = 0 then none else some { stage := h.stage, time := h.time, n := -(h.count : Int) }

/-- A member leaves its launch group; the cluster is free when the last one has (R195, R27, R211). -/
def Dev.leaveGroup (d : Dev) (n : Nat) : Dev :=
  let g := clusterOf n
  match (d.cluster g).group with
  | none => d
  | some q =>
    let left := q.left.erase n
    if left.isEmpty then
      (d.unfuse g).updCluster g fun x =>
        let f : FrontEnd := { x.fe with serving := false, pos := none, redirect := none }
        { x with group := none, fe := f }
    else d.updCluster g fun x => { x with group := some { q with left := left } }

/-- A fill whose task has completed can end (R438). -/
def Dev.noteEnded (d : Dev) (ctx : Nat) (id : Word) : Dev :=
  let h := d.rootDie ctx
  if (d.die h).firn.fills.isEmpty then d
  else d.updDie h fun y =>
    let fills := y.firn.fills.map fun (k, (e : FillEnt)) =>
      if e.ctx = ctx && e.task = some id then (k, { e with ended := true }) else (k, e)
    { y with firn := { y.firn with fills := fills } }

/-- A remote store of the core has no answer yet. -/
def storesAway (d : Dev) (n : Nat) : Bool := d.remote.any fun r => r.src = n && r.kind = .store

/-- Keep a record's number and words in SEQ.SEQNO and SEQ.FREC (R176). -/
def Core.keepRecord (c : Core) (no : BitVec 32) (words : List Word) : Core :=
  { c with seq := { c.seq with seqno := no, frec := words } }

/-- Remote accesses that failed and that no bundle will report any more: their records are written as the task ends
(R467) (DEDUCED, log entry 67). -/
def Dev.reportLeft (d : Dev) (n ctx time : Nat) : Dev :=
  let c := d.core n
  (c.remFails.map (·.2)).foldl (fun d e =>
    let no := d.seqnoOf n
    let words := coreRecord no c ctx n c.pc e time
    let d := (d.countRecord n).updCore n fun c => c.keepRecord no words
    match d.partOfDie (dieOf n) with | some p => d.toPartQueue n p words | none => d)
    (d.updCore n fun c => { c with remFails := [] })

/-- A core of a partition halts (R36). -/
def Dev.noteHalt (d : Dev) (n time : Nat) : Dev :=
  match d.partOfDie (dieOf n) with
  | some k => match tget d.parts k with
    | some p => d.setPart k { p with haltAt := time }
    | none => d
  | none => d

/-- A running task ends (R32, R273): its pushes land (R344); then phase end, completion add, stakes, trace,
membership; the core takes its next task, or halts where a pre-emption is pending (R35, R183).  Where remote stores of
the task are unanswered, the release of its completion waits for them, and the end with it (R131) (DEDUCED, log
entry 106). -/
def Dev.taskEnd (m : Memory) (d : Dev) (n outcome time : Nat) : Dev :=
  match (d.core n).task with
  | none => d
  | some t =>
    if storesAway d n then
      d.updCore n fun c => { c with
        run := .running, cwaits := [], remOps := []
        waits := (c.waits.filter (fun x => match x with | Wait.phase _ => true | _ => false)) ++ [Wait.ending outcome] }
    else
    let d := d.updCore n fun c =>
      let last := max (c.mat.landedBy c.ready) c.charged
      { (c.charge 4 14 (last - c.charged)) with
        ready := last, charged := last, gaps := []
        mat := { (c.mat.landPushes c.mat.pushes.length) with recent := [] } }
    let d := d.reportLeft n t.ctx time
    let d := d.endPhase n
    let d := d.dropHandles n
    let d := (completionAdd m d n t.ctx t.words outcome (dieOf n) (d.core n).holdDeltas time).noteEnded t.ctx t.id
    let c := d.core n
    let ten := ((d.ctx t.ctx).map (·.ten)).getD false
    let d := if ten then d.traceCore m n c c.pc 3 outcome 0 t.id time else d
    let d := if t.isMember then d.leaveGroup n else d
    let d := if (d.core n).preempt then d.noteHalt n time else d
    d.updCore n fun c => { c with
      task := none, holds := [], cwaits := [], attached := false, ibuf := [], fetched := none, joinWait := none, fuseWait := none,
      atBnd := false, exitDue := false, exitStream := false, spanStart := none, heldSum := 0,
      seq := { c.seq with region := .none, pass := 0 },
      lp := { c.lp with levels := [], mloop := none, buffer := [], skip := 0 },
      waits := c.waits.filter (fun x => match x with | Wait.phase _ => true | _ => false),
      run := if c.preempt then .halted else .idle }

/-! ## Taking an event (R181-R186) and returning from one (R185) -/

/-- Trap entry of a general core (R184): return address, mode and cause saved, loop state set aside. -/
def Core.trapEntry (c : Core) (e : Event) (baddr next : Word) (no : BitVec 32) (words : List Word) : Core :=
  let c := c.keepRecord no words
  { c with
    seq := { c.seq with
      epc := bundleAddr (match e.kind with | .stop => next | _ => baddr)
      ppriv := c.seq.priv
      pie := c.seq.ie
      ie := false
      cause := e.cause
      priv := true }
    lpSaved := c.lp
    lp := LoopCtx.reset
    pc := c.seq.tvec
    cwaits := []
    fetched := none
    ready := c.ready + 1 }

/-- The bundle that follows the one at an address: the loop buffer's copy tells its length, else the code itself. -/
def LoopCtx.follow (lp : LoopCtx) (code : Word → Option Word) (a : Word) : Option Word :=
  match lp.buffer.find? fun f => f.addr = a with
  | some f => some (a + BitVec.ofNat 64 (8 * f.words.length))
  | none => code a

/-- Place of an address among the k bundles from a body's first one, which has place p. -/
def LoopCtx.placeOf (lp : LoopCtx) (code : Word → Option Word) (target : Word) : Nat → Word → Int → Option Int
  | 0, _, _ => none
  | k + 1, a, p =>
    if a = target then some p
    else match lp.follow code a with
      | some b => lp.placeOf code target k b (p + 1)
      | none => none

/-- The place in a level's body of an address: that of a body bundle; before the body, minus the bundles up to its first
one; elsewhere a place from which no iteration ends. -/
def LoopCtx.placeAt (lp : LoopCtx) (code : Word → Option Word) (v : LoopLevel) (a : Word) : Int :=
  match lp.placeOf code a v.len v.body 0 with
  | some p => p
  | none => match lp.placeOf code v.body ((v.body.toNat - a.toNat) / 8 + 1) a 0 with
    | some k => -k
    | none => v.len

/-- TRET (R185): the next bundle is SEQ.EPC, mode and IE as saved, loop state restored.  Where EPC names a body bundle
of an active level, execution resumes at that place of the loop, and where it names none, outside its body (DEDUCED,
log entry 107); code gives the bundle that follows another.  p8 to p15 stay as the handler left them: the drive that
R170 gives them is restored with the loop state, and sets them at the next iteration (DEDUCED, log entry 107). -/
def Core.returnFromEvent (c : Core) (code : Word → Option Word) : Core :=
  let lp := c.lpSaved
  let move (v : LoopLevel) : LoopLevel := { v with pos := lp.placeAt code v c.seq.epc }
  { c with
    pc := c.seq.epc
    fetched := none
    seq := { c.seq with priv := c.seq.ppriv, ie := c.seq.pie }
    lp := { lp with levels := lp.levels.map fun (k, v) => if v.active then (k, move v) else (k, v) } }

/-- A replayable fault's bundle has issued, though it does not complete: where it is the first of its part, the core is
past the boundary and the iteration's cycles count from it (R30, R35) (DEDUCED, log entry 36). -/
def Core.begun (c : Core) : Core :=
  { c with
    atBnd := false
    spanStart := if c.atBnd || c.spanStart.isNone then some c.ready else c.spanStart
    heldSum := if c.atBnd then 0 else c.heldSum }

/-- Take an event on core n (R182-R186).  b is the core at the bundle that baddr names, next the bundle that would
follow a stop; d holds the units as the event's kind leaves them (DEDUCED, log entry 30).  The mode in which it is
taken is the core's now: a stop beside a TRET is taken in the mode that TRET restores (DEDUCED, log entry 84).  CTX of
a core without a context is 0 (DESIGN CHOICE, log entry 108). -/
def Dev.takeEvent (m : Memory) (d : Dev) (n : Nat) (b : Core) (baddr next : Word) (e : Event) (time : Nat) : Dev :=
  let c := d.core n
  let ctx := (d.ctxOfCore n).getD 0
  let no := d.seqnoOf n
  let at' : Core := { b with seq := { b.seq with priv := c.seq.priv } }
  let words := coreRecord no at' ctx n baddr e time
  let d := d.countRecord n
  if isGeneral n then
    if c.seq.priv then
      let de : Event := { cause := 0xE1, kind := .fault, info0 := toW e.cause.toNat, info1 := 0, sidx := 0 }
      let w := coreRecord no at' ctx n baddr de time
      (d.updCore n fun c => { c.keepRecord no w with run := .stopped }).toSystemPath n w
    else d.updCore n fun c => c.trapEntry e baddr next no words
  else
    let d := d.updCore n fun c => c.keepRecord no words
    let d := match d.partOfDie (dieOf n) with | some p => d.toPartQueue n p words | none => d
    match e.kind with
    | .fault => d.taskEnd m n 3 time
    | _ =>
      let dbg := ((d.ctx ctx).map (·.dbg)).getD false
      let d := d.updCore n fun c => { (if e.kind = EvKind.stop then c else c.begun) with run := .held e }
      if dbg then d.traceCore m n b baddr 4 e.cause.toNat 0 e.info0 time else d

/-! ## Loops at the end of a bundle (R162, R163, R166, R169, R170) -/

/-- Stage predicates at the start of modulo iteration j (R170). -/
def Core.setStages (c : Core) (q : ModLoop) (j : Nat) : Core :=
  { c with r := { c.r with p := (List.range 8).foldl (fun t s =>
      tset t (8 + s) (decide (s < q.stages) && decide (s ≤ j) && decide (j - s < q.n))) c.r.p } }

/-- p8-p15 become 0 (R157, R170). -/
def Core.clearStages (c : Core) : Core :=
  { c with r := { c.r with p := (List.range 8).foldl (fun t s => tset t (8 + s) false) c.r.p } }

def Core.setLevel (c : Core) (l : Nat) (v : LoopLevel) : Core :=
  { c with lp := { c.lp with levels := tset c.lp.levels l v } }

/-- A level becomes inactive; a modulo loop that ends clears its predicates (R166, R170). -/
def Core.endLevel (c : Core) (l : Nat) : Core :=
  let c := c.setLevel l { c.lp.level l with active := false, count := 0, index := 0 }
  match c.lp.mloop with
  | some q => if q.level = l then { c.clearStages with lp := { c.lp with mloop := none } } else c
  | none => c

/-- Strides of a level as additions that land one cycle after issue (R162). -/
def LoopLevel.strides (v : LoopLevel) (cycle : Nat) (prod : Word) : List Pend :=
  let one (n : Nat) (x : BitVec 32) : Pend :=
    { res := .sAdd n (x.signExtend 64), due := some (cycle + 1), ready := true, prod := prod, tag := 0 }
  [one 4 v.stride0, one 5 v.stride1, one 6 v.stride2, one 7 v.stride3].filter fun e =>
    match e.res with | .sAdd _ x => x ≠ 0 | _ => false

/-- R162 for one level: strides, index, and whether the level goes on.  The additions to s4-s7 are no writes of a
bundle for R51 and R53: they neither wait for a pending register nor raise WAIT_UNDERSIZED (DEDUCED, log entry 85). -/
def Core.iterEnd (c : Core) (l cycle : Nat) (prod : Word) : Core × Bool :=
  let v := c.lp.level l
  let c := { c with pend := c.pend ++ v.strides cycle prod }
  let more := v.index.toNat + 1 < v.count.toNat
  let md := match c.lp.mloop with | some q => if q.level = l then some q else none | none => none
  let c := match md with
    | none => c
    | some q =>
      let c := { c with lp := { c.lp with rrb := (c.lp.rrb + 31) % 32, kb := (c.lp.kb + c.lp.depth - 1) % c.lp.depth } }
      if q.task then { c with
        seq := { c.seq with pass := c.seq.pass + 1, region := if more then .pass else .epilogue }
        waits := c.waits ++ [Wait.boundary] } else c
  if more then
    let c := c.setLevel l { v with index := v.index + 1 }
    match md with
    | some q => ({ c.setStages q (v.index.toNat + 1) with ready := c.ready + (q.ii - v.len) }, true)
    | none => (c, true)
  else (c.endLevel l, false)

/-- Move every active level's place by k bundles. -/
def LoopCtx.shift (lp : LoopCtx) (k : Int) : LoopCtx :=
  { lp with levels := lp.levels.map fun (i, v) => if v.active then (i, { v with pos := v.pos + k }) else (i, v) }

/-- Go to the first bundle of level l's body from the bundle at place p of it. -/
def Core.toBody (c : Core) (l : Nat) (p : Int) : Core :=
  { c with pc := (c.lp.level l).body, lp := c.lp.shift (-p) }

/-- Go on sequentially. -/
def Core.toNext (c : Core) (next : Word) : Core := { c with pc := next, lp := c.lp.shift 1 }

/-- The levels whose body ends with the bundle at hand, innermost first (R163) (DEDUCED, log entry 41). -/
def LoopCtx.ending (lp : LoopCtx) : List Nat :=
  ([5, 4, 3, 2, 1, 0] : List Nat).filter fun l => (lp.level l).active && (lp.level l).pos + 1 = (lp.level l).len

/-- Flow after a bundle without a control syllable of its own (R162, R163). -/
def Core.flowOn (c : Core) (next : Word) (cycle : Nat) (prod : Word) : Core :=
  let ends := c.lp.ending
  let (c', dest) := ends.foldl (fun (acc : Core × Option (Nat × Int)) l =>
      let p := (acc.1.lp.level l).pos
      let (c1, more) := acc.1.iterEnd l cycle prod
      (c1, if more then some (l, p) else acc.2)) (c, none)
  match dest with
  | some (l, p) => c'.toBody l p
  | none => c'.toNext next

/-- Every level above l becomes inactive (R166). -/
def Core.endAbove (c : Core) (l : Nat) : Core :=
  (([5, 4, 3, 2, 1, 0] : List Nat).filter fun k => l < k && (c.lp.level k).active).foldl (fun c k => c.endLevel k) c

/-- Addresses of the running task's parts. -/
def Task.ker (t : Task) : Word := bundleAddr (nth t.words 1 0)
def Task.epi (t : Task) : Word := bundleAddr (nth t.words 2 0)

/-- A bundle is discarded, not issued: inside a loop it is copied into the loop buffer (DEDUCED, log entry 28). -/
def Core.passBy (c : Core) (f : Fetched) : Core :=
  let keep := c.lp.innermost.isSome && !(c.lp.buffer.any fun x => x.addr = f.addr)
  let c := { c with lp := { c.lp with buffer := if keep then c.lp.buffer ++ [f] else c.lp.buffer } }
  if c.lp.skip = 0 then c
  else { c with pc := f.addr + BitVec.ofNat 64 (8 * f.words.length)
                lp := { (c.lp.shift 1) with skip := c.lp.skip - 1 } }

/-- Of the bundles to be discarded, those that the loop buffer holds were consumed already, and the core passes over
them at once (R199). -/
def Core.passBuffered (c : Core) : Nat → Core
  | 0 => c
  | k + 1 =>
    if c.lp.skip = 0 then c
    else match c.lp.buffer.find? fun f => f.addr = c.pc with
      | some f => (c.passBy f).passBuffered k
      | none => c

/-- The next n bundles are discarded (R161, R166, R199). -/
def Core.skipping (c : Core) (n : Nat) : Core := { c with lp := { c.lp with skip := n } }.passBuffered n

/-- EXIT in a prologue or a pass (R157): every level inactive, p8-p15 zero, the epilogue follows. -/
def Core.takeExit (c : Core) : Core :=
  let c := c.clearStages
  { c with
    pc := (c.task.map Task.epi).getD c.pc
    lp := { c.lp with levels := c.lp.levels.map fun (k, v) => (k, { v with active := false, count := 0, index := 0 }),
                      mloop := none, skip := 0 }
    task := c.task.map fun t => { t with leaving := true }
    seq := { c.seq with region := .epilogue }
    waits := c.waits ++ [Wait.boundary] }

/-- The flow of control at a bundle's completion; code gives the bundle that follows another in memory. -/
def Core.flow (c : Core) (b : Bundle) (code : Word → Option Word) : Core :=
  match b.ctl with
  | .none => c.flowOn b.next b.cycle b.addr
  | .branch t pen => { c with pc := t, ready := max c.ready (b.cycle + 1 + pen) }
  | .loop lv trips len mo dp syl =>
    let c := c.toNext b.next
    let taskLoop := match mo with | some q => q.task | none => false
    if trips = 0 then
      if taskLoop then
        { c with
          pc := (c.task.map Task.epi).getD c.pc
          task := c.task.map fun t => { t with passes := 0 }
          seq := { c.seq with region := .epilogue, pass := 0 }
          waits := c.waits ++ [Wait.boundary] }
      else c.skipping len
    else
      let old := c.lp.level lv
      let count := match mo with | some q => q.n + q.stages - 1 | none => trips
      let c := c.setLevel lv { old with active := true, count := BitVec.ofNat 33 count, index := 0, body := b.next,
                                        len := len, pos := 0, decl := b.addr, syl := syl }
      match mo with
      | none => c
      | some q =>
        let c := { c with lp := { c.lp with mloop := some q, rrb := 0, kb := 0, depth := dp } }
        let c := c.setStages q 0
        if q.task then { c with
          task := c.task.map fun t => { t with passes := count }
          seq := { c.seq with region := .pass, pass := 0 }
          waits := c.waits ++ [Wait.boundary] } else c
  | .lbrk lv =>
    let v := c.lp.level lv
    (((c.endAbove lv).endLevel lv).toNext b.next).skipping (v.len - 1 - v.pos).toNat
  | .lnext lv =>
    let c := c.endAbove lv
    let v := c.lp.level lv
    let (c, more) := c.iterEnd lv b.cycle b.addr
    if more then c.toBody lv v.pos
    else (c.toNext b.next).skipping (v.len - 1 - v.pos).toNat
  | .exit =>
    match c.seq.region with
    | .epilogue | .none => c.toNext b.next
    | _ => c.takeExit
  | .sleep => { c.flowOn b.next b.cycle b.addr with run := .asleep }
  | .tret sl => let c := c.returnFromEvent code
                if sl then { c with run := .asleep } else c
  | .detach => c.flowOn b.next b.cycle b.addr

/-- Is the task loop active (R173)? -/
def LoopCtx.inTaskLoop (lp : LoopCtx) : Bool := match lp.mloop with | some q => q.task | none => false

/-- What follows an address in the stream: at the end of a pass outside a task loop the kernel or the epilogue (R156,
R200). -/
def Core.streamNext (c : Core) (a : Word) : Word :=
  match c.task with
  | some t =>
    if c.seq.region = .pass && !c.lp.inTaskLoop && a = t.epi && c.seq.pass + 1 < t.passes && !t.cancelled &&
      !t.leaving then t.ker else a
  | none => a

/-- Does the bundle's completion end a pass outside a task loop (R156)? -/
def Core.endsPass (c : Core) : Bool :=
  match c.task with
  | some t => c.seq.region = .pass && !c.lp.inTaskLoop && c.pc = t.epi && c.lp.skip = 0
  | none => false

/-- The successor of a stream bundle that an attached core consumes by issuing it: a taken branch's or EXIT's target,
else the next sequential bundle, whatever loop the bundle ends (R199-R201). -/
def Core.streamSuccessor (c : Core) (b : Bundle) : Word :=
  match b.ctl with
  | .branch t _ => c.streamNext t
  | .exit => c.pc
  | _ => c.streamNext b.next

/-- Guard and edge of a syllable (R54, R55), read at issue. -/
def selected (c : Core) (h : Hdr) : Bool :=
  let v := c.lp.level h.elvl.toNat
  (c.p h.gp.toNat != h.gn) &&
    (match h.edge.toNat with
     | 1 => !v.active || v.index = 0
     | 2 => !v.active || v.index.toNat + 1 = v.count.toNat
     | _ => true)

/-! ## Cycle classes and samples (R367, R368, R489-R491) -/

/-- The class of a cycle in which a bundle issues (R367): by its executing beat, else without command. -/
def issueClass (c : Core) (ws : List Word) : Nat :=
  (ws.findSome? fun w => match decodeRaw w.toNat with
    | some (.beat h o) =>
      if !selected c h then none
      else if o.aop ≠ 0 then some 0 else if o.wop ≠ 0 then some 1 else if o.dop ≠ 0 then some 3 else none
    | _ => none).getD 4

/-- Does a bundle hold an executing M syllable (R367)? -/
def mExecutes (c : Core) (ws : List Word) : Bool :=
  ws.any fun w => wfld w 61 3 = 4 &&
    (match (decodeRaw w.toNat).bind hdrOf with | some h => selected c h | none => false)

/-- The cycle until which an M syllable waits under R355, for the row engine (R354), or for an ACMOV or ACLD (R360). -/
def Core.mBlocked (c : Core) (i : Instr) : Nat :=
  max c.mat.busyUntil
    (match i with
     | .beat _ o =>
       let row := (o.drb.toNat + c.beatRow o.m) % 128
       if o.dop = 0 then 0
       else max (c.mat.landing o.ds.toNat (some row)) (if o.dop = 2 then c.row.busyUntil else 0)
     | .acmov _ o | .acld _ o => c.mat.landing o.acc.toNat none
     | .acrel _ o => c.mat.landing o.acc.toNat none
     | .acrela _ => c.mat.landedBy 0
     | .mwait _ => c.mat.landedBy 0
     | _ => 0)

/-- The cycle until which an executing M syllable of a bundle waits so (R367). -/
def Core.blockedUntil (c : Core) (ws : List Word) : Nat :=
  (ws.map fun w =>
    match decodeRaw w.toNat with
    | some i => if wfld w 61 3 = 4 && (match hdrOf i with | some h => selected c h | none => false) then c.mBlocked i else 0
    | none => 0).foldl max 0

/-- The class of a cycle in which no bundle issues before the bundle of words ws (R367). -/
def Core.gapClass (c : Core) (ws : List Word) (cycle : Nat) : Nat :=
  if !mExecutes c ws then 4 else if cycle < c.blockedUntil ws then 3 else 2

/-- A reason of R491 holds in the cycles [x, y) before the next bundle. -/
def Core.gap (c : Core) (why x y : Nat) : Core := 
  if y ≤ x || c.gaps.contains (x, y, why) then c else { c with gaps := c.gaps ++ [(x, y, why)] }

/-- Reason of R491 for a cycle before the core's next bundle: the least that holds in it. -/
def Core.gapAt (c : Core) (t : Nat) : Nat :=
  let least := (c.gaps.filter fun (x, y, _) => x ≤ t && t < y).foldl (fun k (_, _, r) => min k r) 14
  if least < 5 then least else if t < c.waitEnd then 5 else if least < 14 then least else c.gapWhy

/-- The cycles [x, y) before the bundle of words ws, cut where their reason or their class may change. -/
def Core.cuts (c : Core) (ws : List Word) (x y : Nat) : List (Nat × Nat) :=
  let at' := (x :: y :: c.waitEnd :: c.blockedUntil ws :: c.gaps.flatMap fun (a, b, _) => [a, b]).filter
    fun p => x ≤ p && p ≤ y
  let ps := (at'.foldl (fun (t : Tab Unit) p => tset t p ()) []).map (·.1)
  ps.zip (ps.drop 1)

/-- Charge the cycles [x, y) before a bundle; b is the core then. -/
def Core.chargeGap (c b : Core) (ws : List Word) (x y : Nat) : Core :=
  (b.cuts ws x y).foldl (fun c (p, q) => c.charge (b.gapClass ws p) (b.gapAt p) (q - p)) c

/-- The samples of the cycles below the one named are taken (R490): b is the core at the bundle of address addr. -/
def Dev.sampleTo (m : Memory) (d : Dev) (n : Nat) (b : Core) (addr : Word) (ws : List Word) (upto time : Nat) : Dev :=
  match b.sample with
  | none => d
  | some (due, per) =>
    if upto ≤ due then d else
    let k := (upto - 1 - due) / max per 1 + 1
    let d := (List.range k).foldl (fun d i =>
      let t := due + i * per
      d.traceCore m n b addr 1 (b.gapAt t) (if isGeneral n then 7 else b.gapClass ws t) 0 time) d
    d.updCore n fun c => if c.sample = b.sample then { c with sample := some (due + k * per, per) } else c

/-- The cycles below the one named that are not charged yet are charged to their classes and reasons, and their samples
taken (R489-R491).  b is the core at the bundle of address addr, which comes next. -/
def Dev.accountTo (m : Memory) (d : Dev) (n : Nat) (b : Core) (addr : Word) (ws : List Word) (upto time : Nat) : Dev :=
  let d := d.updCore n fun c => { (c.chargeGap b ws b.charged upto) with charged := max b.charged upto }
  d.sampleTo m n b addr ws upto time

/-- The same up to and with the cycle named, in which the bundle issues (why 0) or stalls (DEDUCED, log entry 109). -/
def Dev.account (m : Memory) (d : Dev) (n : Nat) (b : Core) (addr : Word) (ws : List Word) (last why cls time : Nat) :
    Dev :=
  let d := d.accountTo m n b addr ws last time
  let d := d.updCore n fun c => { (c.charge cls why 1) with charged := last + 1 }
  match b.sample with
  | none => d
  | some (due, per) =>
    let due := if last ≤ due then due else due + ((last - 1 - due) / max per 1 + 1) * per
    if due ≠ last then d else
    let d := d.traceCore m n (if why = 0 then b.inBundle else b) addr 1 why (if isGeneral n then 7 else cls) 0 time
    d.updCore n fun c => if c.sample = some (due, per) then { c with sample := some (due + per, per) } else c

/-- Cycles that must pass from one issue to the next on a die whose issue is gated (R512). -/
def Dev.gatedPace (d : Dev) (n : Nat) : Nat :=
  if isGeneral n then 1 else
  match (d.die (dieOf n)).gate with
  | [] => 1
  | l => if l.any fun (g, _) => g = .railLow || g = .railCurrent then 4 else 2

/-! ## Completing a bundle -/

/-- The address breakpoint that a completing bundle matches (R495) (DEDUCED, log entry 29). -/
def breakAt (d : Dev) (n : Nat) (addr : Word) (before : Core) : Option Event :=
  ((d.ctxOfCore n).bind d.ctx).bind fun x =>
    if !x.dbg then none else
    (([0, 1, 2, 3] : List Nat).find? fun i =>
      match tget x.bps i with
      | some q => q.en && q.addr = addr && (!q.pen || (before.seq.region = .pass && q.pass.toNat = before.seq.pass))
      | none => false).map fun i => mkStop 0xD1 addr (toW (2 + 16 * i))

/-- Consumption of the bundle by its source, and the copy into the loop buffer (R196, R199, R203). -/
def Core.consume (c : Core) (b : Bundle) : Core :=
  let inLoop := c.lp.innermost.isSome
  let copy : Fetched := { addr := b.addr, words := b.words, fault := none }
  let buf := if inLoop && !(c.lp.buffer.any fun f => f.addr = b.addr) then c.lp.buffer ++ [copy] else c.lp.buffer
  let c := { c with lp := { c.lp with buffer := if inLoop then buf else [] } }
  match b.src with
  | 0 => { c with ibuf := c.ibuf.drop 1, cons := c.cons + 1 }
  | 1 => { c with fetched := none, fetchK := c.fetchK + 1 }
  | _ => c

/-- A general core passes over a skipped body at once, so that a trap's return address is the bundle that follows
(R161, R184). -/
def Dev.passOver (m : Memory) (d : Dev) (n : Nat) : Dev :=
  let c := d.core n
  if !isGeneral n || c.lp.skip = 0 then d else
  match walkCode m d (corePort d n) c.lp.skip c.pc with
  | some a => d.updCore n fun c => { c with pc := a, lp := { (c.lp.shift c.lp.skip) with skip := 0 } }
  | none => d

/-- Outcome of a task that EXIT ends (R32, R40). -/
def Core.exitOutcome (c : Core) : Nat := match c.task with | some t => if t.cancelled then 2 else 1 | none => 1

/-- The bundle completes (R39, R48, R182): results are in flight, the flow of control moves, phases end, the lowest
stop is taken; the effect of an EXIT beside a stop waits for the hold to be continued (R187).  The distance of R154 counts
completed bundles: an issue that ends in a replayable fault does not count (DESIGN CHOICE, log entry 112). -/
def State.finish (s : State) (b : Bundle) : State :=
  let n := b.core
  let before := b.base.core n
  let d := s.dev.account s.mem n before b.addr b.words b.cycle 0 (issueClass before b.words) s.time
  let gated := d.gatedPace n - (1 + b.wmax)
  let d := d.updCore n fun c => { (c.charge 4 5 gated) with charged := c.charged + gated }
  let code (a : Word) : Option Word := walkCode s.mem d (corePort d n) 1 a
  let exits := match b.ctl with | .exit => true | _ => false
  let stop := b.stop.orElse fun _ => breakAt d n b.addr before
  let d := d.updCore n fun c =>
    let wasAtBnd := c.atBnd
    let c := { c.consume b with
      issued := c.issued + 1
      remOps := []
      cwaits := []
      ready := b.cycle + 1 + b.wmax + gated
      waitEnd := b.cycle + 1 + b.wmax + gated
      gaps := []
      gapWhy := 3
      mat := { c.mat with recent := [] }
      atBnd := false
      spanStart := if wasAtBnd || c.spanStart.isNone then some b.cycle else c.spanStart
      heldSum := if wasAtBnd then 0 else c.heldSum }
    let c := if exits && stop.isSome then c.toNext b.next else c.flow b code
    (c.count 0x02 1).count 0x03 b.ran
  let d := d.passOver s.mem n
  let d := if b.phaseEnd then d.endPhase n else d
  let c := d.core n
  let d := if b.src ≠ 0 || (exits && stop.isSome) then d else d.redirected n (c.streamSuccessor b) b.cycle
  let d := match b.ctl with | .detach => d.updCore n fun c => (c.detach b.cycle).count 0x0D 1 | _ => d
  let d := match stop with
    | some e =>
      (d.updCore n fun c => { c with exitDue := exits, exitStream := exits && b.src = 0 }).takeEvent s.mem n before.inBundle
        b.addr c.pc e s.time
    | none => if exits && before.seq.region = .epilogue then d.taskEnd s.mem n (d.core n).exitOutcome s.time else d
  { s with dev := d, bundle := none }

/-! ## Bounds on the time base (R3, R515) -/

/-- Does a request to another package, or to this one through REM = 1 (R464), time out at FAB.TMO.ACC (R467, R468)?  A
notice is posted and never times out unless it was lost; a registered condition waits without bound. -/
def RemoteOut.expires (q : RemoteOut) : Bool :=
  match q.kind with
  | .notice => q.lost
  | .counterRead => !q.acked
  | _ => true

/-- Has a request had no answer within FAB.TMO.ACC microseconds of the time base (R467)? -/
def RemoteOut.overdue (q : RemoteOut) (d : Dev) (time : Nat) : Bool :=
  q.expires && decide (q.start + 1000 * d.fab.tmoAcc.toNat ≤ time)

/-- Can a collective still time out (R475)?  One that has gathered every rank cannot, unless it was lost with its port
(R465). -/
def Col.expires (x : Col) : Bool := x.gathered.isNone && x.bad.isNone && (x.others.isNone || x.lost)

/-- Has a collective not gathered within FAB.TMO.COL microseconds of its first rank's issue (R475)? -/
def Col.overdue (x : Col) (d : Dev) (time : Nat) : Bool :=
  x.expires && decide (x.start + 1000 * d.fab.tmoCol.toNat ≤ time)

/-- What is due by a bound of the spec, with the time at which it happens at the latest: the timeouts of R467 and R475, a
trace unit's add (R485), a change of watchpoints or sampling (R498, R500), a die's part of a swap (R36, R515). -/
def Dev.bounds (d : Dev) : List (Nat × Due) :=
  if d.sys.hot then [] else
  ((List.range d.remote.length).zip d.remote).filterMap (fun (i, q) =>
    if q.expires then some (q.start + 1000 * d.fab.tmoAcc.toNat, Due.remote i) else none) ++
  d.fab.cols.filterMap (fun (i, x) =>
    if x.expires then some (x.start + 1000 * d.fab.tmoCol.toNat, Due.collective i) else none) ++
  d.ctxs.flatMap (fun (k, c) =>
    c.rings.filterMap (fun (u, r) =>
      if r.log2 = 0 || r.owed = 0 then none else some (r.since + 1000, Due.wiAdd u k)) ++
    c.smpTodo.map (fun (n, t) => (t + 1000, Due.sampling n)) ++
    c.watchTodo.map fun (n, t) => (t + 1000, Due.watch n)) ++
  d.parts.flatMap fun (_, p) =>
    if p.swap.isSome then p.swapLeft.map fun i => (p.swapAt + 5000, Due.swap i) else []

/-- The first thing whose bound has come: it happens now (R3, R515). -/
def State.due (s : State) : Option Due := (s.dev.bounds.find? fun (t, _) => t ≤ s.time).map (·.2)

/-- The time after the step: some nanoseconds later, but past no bound (R3, R515) (DEDUCED, log entries 4 and 110). -/
def State.later (s : State) : Nat :=
  s.dev.bounds.foldl (fun t (x, _) => min t (max x s.time)) (s.time + Config.freeNs s.free)

/-- Time passes and a fresh free value is at hand (DEDUCED, log entry 4). -/
def State.tick (s : State) : State := { s with time := s.later, free := s.free + 1 }

/-- Open a bundle at the next issue cycle of the current core, unless one is in issue. -/
def State.opened (s : State) : State :=
  match s.bundle with
  | some _ => s
  | none =>
    let c := s.dev.core s.cur
    let d := s.dev.setCore s.cur (c.landBy c.ready)
    { s with
      dev := d
      bundle := some { core := s.cur, addr := c.pc, words := [], next := c.pc + 8, src := 1, cycle := c.ready, wmax := 0,
                       idx := 0, ran := 0, ctl := .none, phaseEnd := false, stop := none, base := d } }

/-- A package reset that was written acts (R510): every reset value; the bytes of memory and their check bits stay (log
entry 24) (DEDUCED, log entry 72). -/
def Dev.actReset (d : Dev) : Dev := if d.sys.rst then { Dev.reset with poison := d.poison } else d

/-- Count the syllable in the bundle's WAIT (R48) and, if it is the last, complete the bundle. -/
def State.closeSyllable (s : State) (h : Hdr) (ran : Bool) : State :=
  match s.bundle with
  | none => s
  | some b =>
    let b := { b with idx := b.idx + 1, wmax := max b.wmax h.wait.toNat, ran := if ran then b.ran + 1 else b.ran }
    if h.e then
      let s := (({ s with bundle := some b }.finish b).settle).tick
      { s with dev := s.dev.actReset }
    else { s with bundle := some b }

/-- The bundle takes an event of its syllable: it has no effect (R39). -/
def State.faultBundle (s : State) (d : Dev) (e : Event) : State :=
  match s.bundle with
  | none => s
  | some b =>
    let c := b.base.core b.core
    let d := d.updCore b.core fun c => { c with remOps := [], cwaits := [] }
    let d := d.accountTo s.mem b.core c b.addr b.words b.cycle s.time
    let d := d.takeEvent s.mem b.core c.inBundle b.addr b.next { e with sidx := b.idx } s.time
    (({ s with dev := d, bundle := none }).settle).tick

/-- A bundle that cannot issue yet, for a reason of R491, or for a lesser one of another of its syllables, leaves the
units as they were, a cycle later (R48, R51). -/
def State.stallBundle (s : State) (d : Dev) (why : Nat) : State :=
  match s.bundle with
  | none => s
  | some b =>
    let c := b.base.core b.core
    let why := min why b.hint
    let d := d.account s.mem b.core c b.addr b.words b.cycle why (c.gapClass b.words b.cycle) s.time
    let d := d.updCore b.core fun c => { c with ready := b.cycle + 1, gapWhy := why, gaps := [] }
    ({ s with dev := d, bundle := none }).tick

/-- A syllable that also acts on the bundle, as memory and registers stand at issue. -/
def bundleSyllable (h : Hdr) (f : State → Bundle → Core → Out) (g : State → Bundle → Bundle) (s : State) :
    Host.Outcome State Fault Refusal :=
  let s := s.opened
  match s.bundle with
  | none => .next s
  | some b =>
    let c := b.base.core b.core
    if selected c h then
      match f s b c with
      | .ok d => .next ({ s with dev := d, bundle := some (g s b) }.closeSyllable h true)
      | .raise e => .next (s.faultBundle b.base e)
      | .raiseIn d e => .next (s.faultBundle d e)
      | .stall r => .next (s.stallBundle b.base r)
      | .stallIn d r => .next (s.stallBundle d r)
    else .next (s.closeSyllable h false)

/-- A syllable that also acts on the bundle (control flow, phase end, stop). -/
def ctlSyllable (h : Hdr) (f : State → Bundle → Core → Out) (g : Bundle → Bundle) (s : State) :
    Host.Outcome State Fault Refusal :=
  bundleSyllable h f (fun _ b => g b) s

/-- The wrapper of every other syllable: guard and edge, its effect f on the units for the issuing core, its event, and
the completion of the bundle with its last syllable. -/
def syllable (h : Hdr) (f : State → Bundle → Core → Out) (s : State) : Host.Outcome State Fault Refusal :=
  bundleSyllable h f (fun _ b => b) s

/-- The wrapper of every event: it happens where its condition holds, otherwise nothing does; nothing happens after a
thermal stop (R512). -/
def happening (f : State → Option Dev) (s : State) : Host.Outcome State Fault Refusal :=
  if s.dev.sys.hot then .next s else
  match f s with
  | some d => .next (({ s with dev := d }.settle).tick)
  | none => .next s

end Sys2Proof.Machine
end

