-- ==== Sys2Proof/Machine/Operands.lean ====
section
/-!
DEFINITION. Which registers each syllable names as destinations and as sources (R45, R51, R53, R64), the fixed
latencies of R50 and R289, and the checks of a bundle before it executes: R44-R47, R51, R53.
-/

namespace Sys2Proof.Machine

/-- A register: file (0 s, 1 v, 2 m, 3 p, 4 b, 5 k, 6 h, 7 lr, the codes of R189) and number as written. -/
abbrev RegRef := Nat × Nat

abbrev rs (x : BitVec 6) : RegRef := (0, x.toNat)
abbrev rp (x : BitVec 4) : RegRef := (3, x.toNat)
abbrev rm (x : BitVec 3) : RegRef := (2, x.toNat)
abbrev rb (x : BitVec 3) : RegRef := (4, x.toNat)
abbrev rk (x : BitVec 4) : RegRef := (5, x.toNat)
abbrev rh (x : BitVec 6) : RegRef := (6, x.toNat)

/-- A group of n elements of w bits from register d (R56). -/
def vcount (d : BitVec 6) (n w : Nat) : List RegRef :=
  ((List.range (groupSize n w)).map fun i => (1, d.toNat + i)).filter fun (_, k) => k < 64

/-- A group named with NQ (R56). -/
def vgrp (d nq : BitVec 6) (w : Nat) : List RegRef := vcount d (16 * nq.toNat) w

/-- The second vector source, a scalar under BS (R65, R288). -/
def bsrc (bs : BitVec 1) (b nq : BitVec 6) (w : Nat) : List RegRef := if bs = 1 then [rs b] else vgrp b nq w

/-- Registers behind a selector of R62. -/
def selRegs (sel : BitVec 8) : List RegRef :=
  if sel = 0 then [(7, 0)] else if sel = 6 then (List.range 15).map fun i => (3, i + 1) else []

/-- Registers that a loop count reads (R160). -/
def countRegs (src : BitVec 2) (a : Nat) : List RegRef :=
  if src = 1 then [(0, a)] else if src = 2 then [(7, 0)] else []

/-- Registers of CWANY's conditions (R263). -/
def anyRegs (o : YW) : List RegRef :=
  (List.range 8).flatMap fun i =>
    if o.mask.getLsbD i then [(5, 8 * o.g.toNat + i), (0, o.a.toNat + i)] else []

/-- Destinations of a syllable (R45, R49). -/
def destsOf : Instr → List RegRef
  | .add _ o => [rs o.d]
  | .sub _ o => [rs o.d]
  | .and _ o => [rs o.d]
  | .or _ o => [rs o.d]
  | .xor _ o => [rs o.d]
  | .andn _ o => [rs o.d]
  | .shl _ o => [rs o.d]
  | .shr _ o => [rs o.d]
  | .sra _ o => [rs o.d]
  | .rol _ o => [rs o.d]
  | .mul _ o => [rs o.d]
  | .mulh _ o => [rs o.d]
  | .mulhn _ o => [rs o.d]
  | .min _ o => [rs o.d]
  | .max _ o => [rs o.d]
  | .minn _ o => [rs o.d]
  | .maxn _ o => [rs o.d]
  | .clz _ o => [rs o.d]
  | .ctz _ o => [rs o.d]
  | .popc _ o => [rs o.d]
  | .brev _ o => [rs o.d]
  | .bswap _ o => [rs o.d]
  | .bext _ o => [rs o.d]
  | .bins _ o => [rs o.d]
  | .addi _ o => [rs o.d]
  | .andi _ o => [rs o.d]
  | .ori _ o => [rs o.d]
  | .xori _ o => [rs o.d]
  | .shli _ o => [rs o.d]
  | .shri _ o => [rs o.d]
  | .srai _ o => [rs o.d]
  | .muli _ o => [rs o.d]
  | .ceq _ o => [rp o.pd]
  | .cne _ o => [rp o.pd]
  | .clt _ o => [rp o.pd]
  | .cle _ o => [rp o.pd]
  | .cltn _ o => [rp o.pd]
  | .clen _ o => [rp o.pd]
  | .pand _ o => [rp o.pd]
  | .por _ o => [rp o.pd]
  | .ceqi _ o => [rp o.pd]
  | .cnei _ o => [rp o.pd]
  | .clti _ o => [rp o.pd]
  | .clei _ o => [rp o.pd]
  | .cltni _ o => [rp o.pd]
  | .cleni _ o => [rp o.pd]
  | .pxor _ o => [rp o.pd]
  | .pandn _ o => [rp o.pd]
  | .sel _ o => [rs o.d]
  | .mfx _ o => [rs o.d]
  | .mtx _ o => selRegs o.sel
  | .mfb _ o => [rs o.d]
  | .mtb _ o => [rb o.bt]
  | .limmh _ o => [rs o.d]
  | .limml _ o => [rs o.d]
  | .nop _ => []
  | .halt _ => []
  | .exit _ => []
  | .trap _ _ => []
  | .detach _ => []
  | .join _ _ => []
  | .fuse _ => []
  | .unfuse _ => []
  | .pbt _ o => [rb o.bt]
  | .brt _ _ => []
  | .call _ o => [rb o.bl]
  | .ret _ _ => []
  | .loop _ _ => []
  | .mloop _ _ => []
  | .lstri _ _ => []
  | .lstrr _ _ => []
  | .lbrk _ _ => []
  | .lnext _ _ => []
  | .vadd _ ew o => vgrp o.d o.nq (widthOf ew)
  | .vsub _ ew o => vgrp o.d o.nq (widthOf ew)
  | .vmul _ ew o => vgrp o.d o.nq (widthOf ew)
  | .vmulh _ ew o => vgrp o.d o.nq (widthOf ew)
  | .vmin _ ew o => vgrp o.d o.nq (widthOf ew)
  | .vmax _ ew o => vgrp o.d o.nq (widthOf ew)
  | .vminn _ ew o => vgrp o.d o.nq (widthOf ew)
  | .vmaxn _ ew o => vgrp o.d o.nq (widthOf ew)
  | .vshl _ ew o => vgrp o.d o.nq (widthOf ew)
  | .vshr _ ew o => vgrp o.d o.nq (widthOf ew)
  | .vsra _ ew o => vgrp o.d o.nq (widthOf ew)
  | .vadds _ ew o => vgrp o.d o.nq (widthOf ew)
  | .vsubs _ ew o => vgrp o.d o.nq (widthOf ew)
  | .vpopc _ ew o => vgrp o.d o.nq (widthOf ew)
  | .vclz _ ew o => vgrp o.d o.nq (widthOf ew)
  | .vabs _ ew o => vgrp o.d o.nq (widthOf ew)
  | .vand _ o => vgrp o.d o.nq 32
  | .vor _ o => vgrp o.d o.nq 32
  | .vxor _ o => vgrp o.d o.nq 32
  | .vandn _ o => vgrp o.d o.nq 32
  | .vmov _ o => vgrp o.d o.nq 32
  | .vperm _ o => vgrp o.d o.nq 32
  | .vclmull _ o => vgrp o.d o.nq 64
  | .vclmulh _ o => vgrp o.d o.nq 64
  | .vsel _ o => vgrp o.d o.nq 32
  | .mand _ o => [rm o.md]
  | .mor _ o => [rm o.md]
  | .mxor _ o => [rm o.md]
  | .mnot _ o => [rm o.md]
  | .vseed _ _ => []
  | .vaddi _ ew o => vgrp o.d o.nq (widthOf ew)
  | .vshli _ ew o => vgrp o.d o.nq (widthOf ew)
  | .vshri _ ew o => vgrp o.d o.nq (widthOf ew)
  | .vmovi _ ew o => vgrp o.d o.nq (widthOf ew)
  | .vfadd _ o => vgrp o.d o.nq (vfWidth o.ty)
  | .vfsub _ o => vgrp o.d o.nq (vfWidth o.ty)
  | .vfmul _ o => vgrp o.d o.nq (vfWidth o.ty)
  | .vfma _ o => vgrp o.d o.nq (vfWidth o.ty)
  | .vfms _ o => vgrp o.d o.nq (vfWidth o.ty)
  | .vfnma _ o => vgrp o.d o.nq (vfWidth o.ty)
  | .vfmin _ o => vgrp o.d o.nq (vfWidth o.ty)
  | .vfmax _ o => vgrp o.d o.nq (vfWidth o.ty)
  | .vfabs _ o => vgrp o.d o.nq (vfWidth o.ty)
  | .vfneg _ o => vgrp o.d o.nq (vfWidth o.ty)
  | .vexp2 _ o => vgrp o.d o.nq (vfWidth o.ty)
  | .vlog2 _ o => vgrp o.d o.nq (vfWidth o.ty)
  | .vrcp _ o => vgrp o.d o.nq (vfWidth o.ty)
  | .vrsq _ o => vgrp o.d o.nq (vfWidth o.ty)
  | .vtanh _ o => vgrp o.d o.nq (vfWidth o.ty)
  | .vcvtf _ o => vgrp o.d o.nq 32
  | .vcvtn _ o => vgrp o.d o.nq 32
  | .vcvti _ o => vgrp o.d o.nq 32
  | .vcvtif _ o => vgrp o.d o.nq 32
  | .vcmp _ o => [rm o.md]
  | .vrsum _ o => vcount o.d (vsSegs o) (tyWidth o.ty)
  | .vrmax _ o => vcount o.d (vsSegs o) (tyWidth o.ty)
  | .vrmin _ o => vcount o.d (vsSegs o) (tyWidth o.ty)
  | .vpsum _ o => vgrp o.d o.nq (tyWidth o.ty)
  | .vargmax _ o => vcount o.d (vsSegs o) 32
  | .vtopk _ o => vgrp o.d o.nq 32
  | .vexts _ o => [rs o.d]
  | .vinss _ o => vgrp o.d o.nq (tyWidth o.ty)
  | .lds8 _ o => [rs o.d]
  | .lds16 _ o => [rs o.d]
  | .lds32 _ o => [rs o.d]
  | .lds64 _ o => [rs o.d]
  | .ldn8 _ o => [rs o.d]
  | .ldn16 _ o => [rs o.d]
  | .ldn32 _ o => [rs o.d]
  | .sts8 _ _ => []
  | .sts16 _ _ => []
  | .sts32 _ _ => []
  | .sts64 _ _ => []
  | .ldv _ o => vgrp o.d o.nq 32
  | .stv _ _ => []
  | .ldvs _ o => vgrp o.d o.nq 32
  | .stvs _ _ => []
  | .ldvx _ o => vgrp o.d o.nq (widthOf o.isz)
  | .stvx _ _ => []
  | .stz _ _ => []
  | .ldz _ o => vgrp o.d o.nq 32
  | .probe _ o => [rh o.h]
  | .hclaim _ o => [rh o.h]
  | .hrel _ o => [rh o.h]
  | .pref _ _ => []
  | .splds _ o => [rs o.d]
  | .spsts _ _ => []
  | .spldv _ o => [(1, o.d.toNat)]
  | .spstv _ _ => []
  | .beat _ o => if o.dop = 1 then [(1, 32 + 2 * o.dv.toNat), (1, 33 + 2 * o.dv.toNat)] else []
  | .acrel _ _ => []
  | .acrela _ => []
  | .acgrp _ _ => []
  | .acmov _ _ => []
  | .acld _ _ => []
  | .mcfg _ _ => []
  | .wswap _ => []
  | .wclr _ => []
  | .mwait _ => []
  | .rowld _ _ => []
  | .rowst _ _ => []
  | .rowupd _ o => [rs o.d]
  | .rowpack _ _ => [(7, 0)]
  | .rowrestore _ _ => [(7, 0)]
  | .rowcnt _ _ => [(7, 0)]
  | .rowset _ _ => []
  | .rowrec _ _ => []
  | .rowrdec _ o => [rs o.d]
  | .rowtrld _ _ => []
  | .rowtrst _ o => [rs o.d]
  | .rowmask _ o => [(2, o.d.toNat)]
  | .rowseq _ o => vcount o.d (rowsOf o.mq) 32
  | .rowclr _ _ => []
  | .cadd _ _ => []
  | .cwait _ _ => []
  | .cread _ o => [rs o.a]
  | .cmax _ _ => []
  | .cwany _ o => [rs o.d]
  | .cbind _ o => [rk o.k]
  | .stakeCreate _ _ => []
  | .stakeRetire _ _ => []
  | .stakeAdvance _ _ => []
  | .phase _ _ => []
  | .cpyq _ o => [rs o.y]
  | .cpymc _ _ => []
  | .hbdrain _ _ => []
  | .gsub _ o => [rs o.y]
  | .gunsub _ _ => []
  | .gred _ _ => []
  | .tlaunch _ o => [rs o.y]
  | .tqadd _ o => [rs o.y]
  | .tdqadd _ o => [rs o.y]
  | .tdqtake _ o => [rs o.y]
  | .tcancel _ o => [rs o.y]
  | .filreq _ o => [rs o.y]
  | .kvprobe _ o => [rs o.y, (6, fld o.imm.toNat 0 6)]
  | .kvmarkValid _ _ => []
  | .kvmarkExit _ _ => []
  | .kvmarkClear _ _ => []
  | .calve _ _ => []
  | .calveArm _ o => [rs o.y]
  | .colred _ _ => []
  | .colbc _ _ => []
  | .colag _ _ => []
  | .tret _ => []
  | .csrr _ o => [rs o.d]
  | .csrw _ o => [rs o.d]
  | .csrs _ o => [rs o.d]
  | .csrc _ o => [rs o.d]
  | .tmark _ _ => []
  | .smpctl _ _ => []
  | .bkpt _ _ => []
  | .wpset _ _ => []
  | .wpclr _ _ => []
  | .taginv _ _ => []
  | .tagflush _ => []
  | .partopForm _ o => [rs o.y]
  | .partopDissolve _ o => [rs o.y]
  | .partopPreempt _ o => [rs o.y]
  | .partopQreset _ o => [rs o.y]
  | .ctxopCreate _ o => [rs o.y]
  | .ctxopDestroy _ o => [rs o.y]
  | .ctxopInval _ o => [rs o.y]
  | .ctxopAttest _ o => [rs o.y]
  | .swapopSave _ o => [rs o.y]
  | .swapopRestore _ o => [rs o.y]
  | .swapopExch _ o => [rs o.y]
  | .illegalOpcode _ _ _ _ => []
  | .resultLanding _ _ => []
  | .pushLanding _ => []
  | .interrupt _ => []
  | .haltWake _ => []
  | .seqResumeReplay _ => []
  | .seqResumeContinue _ => []
  | .seqResumeUnresolved _ => []
  | .registerWrite _ _ _ _ => []
  | .launchDispatch _ _ => []
  | .taskStart _ => []
  | .stealProbe _ => []
  | .spillRefill _ => []
  | .passBoundary _ => []
  | .preemptHalt _ => []
  | .iterationOverrun _ => []
  | .swapComplete _ => []
  | .streamDelivery _ => []
  | .privateFetch _ => []
  | .icacheFill _ _ _ _ => []
  | .pageWalk _ _ _ _ => []
  | .engineCommandResume _ _ => []
  | .phaseEndComplete _ => []
  | .storeVisible _ _ => []
  | .tagInvalidation _ _ => []
  | .probeLookup _ => []
  | .windowFill _ _ _ _ => []
  | .hclaimGrant _ => []
  | .hrelPerform _ => []
  | .counterOperation _ _ _ _ => []
  | .syncAnswer _ => []
  | .moraineBatchTimeout _ _ => []
  | .batchApply _ _ => []
  | .graverAccept _ _ _ _ _ => []
  | .graverCommand _ _ _ _ _ _ => []
  | .generationUpdate _ _ _ => []
  | .scrubPassStart _ => []
  | .scrubRead _ _ => []
  | .scrubLevelCheck _ _ => []
  | .subscriptionTile _ _ => []
  | .subscriptionComplete _ _ => []
  | .graverReduction _ _ => []
  | .copyPacketTake _ => []
  | .stampReread _ => []
  | .copyPacketComplete _ _ _ _ => []
  | .cpyqEnqueue _ => []
  | .parkClaim _ _ => []
  | .parkComplete _ _ => []
  | .queueOpen _ => []
  | .queueStop _ => []
  | .firnOperation _ => []
  | .probeRetry _ => []
  | .fillEnd _ _ => []
  | .calvingNotice _ _ _ _ _ _ => []
  | .remoteRequest _ => []
  | .remoteAnswer _ _ _ => []
  | .remoteTimeout _ => []
  | .collectiveAssemble _ _ => []
  | .collectiveComplete _ => []
  | .collectiveTimeout _ => []
  | .linkDown _ _ => []
  | .ptpEventMessage _ _ => []
  | .genStart _ => []
  | .genStopRequest _ => []
  | .genHalt _ => []
  | .genIterationBegin _ => []
  | .genAppend _ => []
  | .genHoldAdvance _ => []
  | .genResume _ => []
  | .genSpec0Clear _ => []
  | .genReclaim _ _ => []
  | .genPoolTake _ => []
  | .genSlotRetire _ _ => []
  | .genSlotAllocate _ _ => []
  | .traceRecordWrite _ => []
  | .traceWiAdd _ _ => []
  | .sample _ => []
  | .counterRotate _ => []
  | .boundaryStopRequest _ => []
  | .packageReset => []
  | .bootRom _ _ _ => []
  | .coreReset _ => []
  | .featureAccept _ _ => []
  | .hostCounterAdd _ _ _ => []
  | .hostHbmWrite _ _ => []
  | .hostHbmRead _ _ => []
  | .hostControlAccess _ _ _ _ => []
  | .issueGating _ _ => []
  | .gatingEnd _ => []
  | .thermalStop _ => []
  | .refresh _ _ => []
  | .linkReturn _ => []
  | .bulkShareWindow _ => []
  | .samplingChangeApplied _ => []
  | .watchpointChangeApplied _ => []

/-- Source registers of a syllable, its guard apart (R49). -/
def readsOf : Instr → List RegRef
  | .add _ o => [rs o.a, rs o.b]
  | .sub _ o => [rs o.a, rs o.b]
  | .and _ o => [rs o.a, rs o.b]
  | .or _ o => [rs o.a, rs o.b]
  | .xor _ o => [rs o.a, rs o.b]
  | .andn _ o => [rs o.a, rs o.b]
  | .shl _ o => [rs o.a, rs o.b]
  | .shr _ o => [rs o.a, rs o.b]
  | .sra _ o => [rs o.a, rs o.b]
  | .rol _ o => [rs o.a, rs o.b]
  | .mul _ o => [rs o.a, rs o.b]
  | .mulh _ o => [rs o.a, rs o.b]
  | .mulhn _ o => [rs o.a, rs o.b]
  | .min _ o => [rs o.a, rs o.b]
  | .max _ o => [rs o.a, rs o.b]
  | .minn _ o => [rs o.a, rs o.b]
  | .maxn _ o => [rs o.a, rs o.b]
  | .clz _ o => [rs o.a]
  | .ctz _ o => [rs o.a]
  | .popc _ o => [rs o.a]
  | .brev _ o => [rs o.a]
  | .bswap _ o => [rs o.a]
  | .bext _ o => [rs o.a]
  | .bins _ o => [rs o.a, rs o.d]
  | .addi _ o => [rs o.a]
  | .andi _ o => [rs o.a]
  | .ori _ o => [rs o.a]
  | .xori _ o => [rs o.a]
  | .shli _ o => [rs o.a]
  | .shri _ o => [rs o.a]
  | .srai _ o => [rs o.a]
  | .muli _ o => [rs o.a]
  | .ceq _ o => [rs o.a, rs o.b]
  | .cne _ o => [rs o.a, rs o.b]
  | .clt _ o => [rs o.a, rs o.b]
  | .cle _ o => [rs o.a, rs o.b]
  | .cltn _ o => [rs o.a, rs o.b]
  | .clen _ o => [rs o.a, rs o.b]
  | .pand _ o => [rp o.pa, rp o.pb]
  | .por _ o => [rp o.pa, rp o.pb]
  | .ceqi _ o => [rs o.a]
  | .cnei _ o => [rs o.a]
  | .clti _ o => [rs o.a]
  | .clei _ o => [rs o.a]
  | .cltni _ o => [rs o.a]
  | .cleni _ o => [rs o.a]
  | .pxor _ o => [rp o.pa, rp o.pb]
  | .pandn _ o => [rp o.pa, rp o.pb]
  | .sel _ o => [rs o.a, rs o.b, rp o.ps]
  | .mfx _ o => selRegs o.sel
  | .mtx _ o => [rs o.d]
  | .mfb _ o => [rb o.bt]
  | .mtb _ o => [rs o.d]
  | .limmh _ _ => []
  | .limml _ _ => []
  | .nop _ => []
  | .halt _ => []
  | .exit _ => []
  | .trap _ _ => []
  | .detach _ => []
  | .join _ o => [rs o.a]
  | .fuse _ => []
  | .unfuse _ => []
  | .pbt _ _ => []
  | .brt _ o => [rb o.bt]
  | .call _ o => [rb o.bt]
  | .ret _ o => [rb o.bt]
  | .loop _ o => countRegs o.src (fld o.cnt.toNat 14 6)
  | .mloop _ o => countRegs o.src o.a.toNat
  | .lstri _ _ => []
  | .lstrr _ o => [rs o.a]
  | .lbrk _ _ => []
  | .lnext _ _ => []
  | .vadd _ ew o => vgrp o.a o.nq (widthOf ew) ++ bsrc o.bs o.b o.nq (widthOf ew)
  | .vsub _ ew o => vgrp o.a o.nq (widthOf ew) ++ bsrc o.bs o.b o.nq (widthOf ew)
  | .vmul _ ew o => vgrp o.a o.nq (widthOf ew) ++ bsrc o.bs o.b o.nq (widthOf ew)
  | .vmulh _ ew o => vgrp o.a o.nq (widthOf ew) ++ bsrc o.bs o.b o.nq (widthOf ew)
  | .vmin _ ew o => vgrp o.a o.nq (widthOf ew) ++ bsrc o.bs o.b o.nq (widthOf ew)
  | .vmax _ ew o => vgrp o.a o.nq (widthOf ew) ++ bsrc o.bs o.b o.nq (widthOf ew)
  | .vminn _ ew o => vgrp o.a o.nq (widthOf ew) ++ bsrc o.bs o.b o.nq (widthOf ew)
  | .vmaxn _ ew o => vgrp o.a o.nq (widthOf ew) ++ bsrc o.bs o.b o.nq (widthOf ew)
  | .vshl _ ew o => vgrp o.a o.nq (widthOf ew) ++ bsrc o.bs o.b o.nq (widthOf ew)
  | .vshr _ ew o => vgrp o.a o.nq (widthOf ew) ++ bsrc o.bs o.b o.nq (widthOf ew)
  | .vsra _ ew o => vgrp o.a o.nq (widthOf ew) ++ bsrc o.bs o.b o.nq (widthOf ew)
  | .vadds _ ew o => vgrp o.a o.nq (widthOf ew) ++ bsrc o.bs o.b o.nq (widthOf ew)
  | .vsubs _ ew o => vgrp o.a o.nq (widthOf ew) ++ bsrc o.bs o.b o.nq (widthOf ew)
  | .vpopc _ ew o => vgrp o.a o.nq (widthOf ew)
  | .vclz _ ew o => vgrp o.a o.nq (widthOf ew)
  | .vabs _ ew o => vgrp o.a o.nq (widthOf ew)
  | .vand _ o => vgrp o.a o.nq 32 ++ bsrc o.bs o.b o.nq 32
  | .vor _ o => vgrp o.a o.nq 32 ++ bsrc o.bs o.b o.nq 32
  | .vxor _ o => vgrp o.a o.nq 32 ++ bsrc o.bs o.b o.nq 32
  | .vandn _ o => vgrp o.a o.nq 32 ++ bsrc o.bs o.b o.nq 32
  | .vmov _ o => bsrc o.bs o.b o.nq 32
  | .vperm _ o => vgrp o.a o.nq 32 ++ bsrc o.bs o.b o.nq 32
  | .vclmull _ o => vgrp o.a o.nq 64 ++ bsrc o.bs o.b o.nq 64
  | .vclmulh _ o => vgrp o.a o.nq 64 ++ bsrc o.bs o.b o.nq 64
  | .vsel _ o => vgrp o.a o.nq 32 ++ bsrc o.bs o.b o.nq 32 ++ [rm o.ms]
  | .mand _ o => [rm o.ma, rm o.mb]
  | .mor _ o => [rm o.ma, rm o.mb]
  | .mxor _ o => [rm o.ma, rm o.mb]
  | .mnot _ o => [rm o.ma]
  | .vseed _ o => [rs o.a]
  | .vaddi _ ew o => vgrp o.a o.nq (widthOf ew)
  | .vshli _ ew o => vgrp o.a o.nq (widthOf ew)
  | .vshri _ ew o => vgrp o.a o.nq (widthOf ew)
  | .vmovi _ _ _ => []
  | .vfadd _ o => vgrp o.a o.nq (vfWidth o.ty) ++ bsrc o.bs o.b o.nq (vfWidth o.ty)
  | .vfsub _ o => vgrp o.a o.nq (vfWidth o.ty) ++ bsrc o.bs o.b o.nq (vfWidth o.ty)
  | .vfmul _ o => vgrp o.a o.nq (vfWidth o.ty) ++ bsrc o.bs o.b o.nq (vfWidth o.ty)
  | .vfma _ o => vgrp o.a o.nq (vfWidth o.ty) ++ bsrc o.bs o.b o.nq (vfWidth o.ty) ++ vgrp o.d o.nq (vfWidth o.ty)
  | .vfms _ o => vgrp o.a o.nq (vfWidth o.ty) ++ bsrc o.bs o.b o.nq (vfWidth o.ty) ++ vgrp o.d o.nq (vfWidth o.ty)
  | .vfnma _ o => vgrp o.a o.nq (vfWidth o.ty) ++ bsrc o.bs o.b o.nq (vfWidth o.ty) ++ vgrp o.d o.nq (vfWidth o.ty)
  | .vfmin _ o => vgrp o.a o.nq (vfWidth o.ty) ++ bsrc o.bs o.b o.nq (vfWidth o.ty)
  | .vfmax _ o => vgrp o.a o.nq (vfWidth o.ty) ++ bsrc o.bs o.b o.nq (vfWidth o.ty)
  | .vfabs _ o => vgrp o.a o.nq (vfWidth o.ty)
  | .vfneg _ o => vgrp o.a o.nq (vfWidth o.ty)
  | .vexp2 _ o => vgrp o.a o.nq (vfWidth o.ty)
  | .vlog2 _ o => vgrp o.a o.nq (vfWidth o.ty)
  | .vrcp _ o => vgrp o.a o.nq (vfWidth o.ty)
  | .vrsq _ o => vgrp o.a o.nq (vfWidth o.ty)
  | .vtanh _ o => vgrp o.a o.nq (vfWidth o.ty)
  | .vcvtf _ o => vgrp o.a o.nq 32
  | .vcvtn _ o => vgrp o.a o.nq 32
  | .vcvti _ o => vgrp o.a o.nq 32
  | .vcvtif _ o => vgrp o.a o.nq 32
  | .vcmp _ o => vgrp o.a o.nq (tyWidth o.ty) ++ bsrc o.bs o.b o.nq (tyWidth o.ty)
  | .vrsum _ o => vgrp o.a o.nq (tyWidth o.ty)
  | .vrmax _ o => vgrp o.a o.nq (tyWidth o.ty)
  | .vrmin _ o => vgrp o.a o.nq (tyWidth o.ty)
  | .vpsum _ o => vgrp o.a o.nq (tyWidth o.ty)
  | .vargmax _ o => vgrp o.a o.nq (tyWidth o.ty)
  | .vtopk _ o => vgrp o.a o.nq (tyWidth o.ty) ++ [rs o.b]
  | .vexts _ o => vgrp o.a o.nq (tyWidth o.ty) ++ [rs o.b]
  | .vinss _ o => [rs o.a, rs o.b]
  | .lds8 _ o => [rs o.a]
  | .lds16 _ o => [rs o.a]
  | .lds32 _ o => [rs o.a]
  | .lds64 _ o => [rs o.a]
  | .ldn8 _ o => [rs o.a]
  | .ldn16 _ o => [rs o.a]
  | .ldn32 _ o => [rs o.a]
  | .sts8 _ o => [rs o.a, rs o.d]
  | .sts16 _ o => [rs o.a, rs o.d]
  | .sts32 _ o => [rs o.a, rs o.d]
  | .sts64 _ o => [rs o.a, rs o.d]
  | .ldv _ o => [rs o.a]
  | .stv _ o => [rs o.a] ++ vgrp o.d o.nq 32
  | .ldvs _ o => [rs o.a, rs o.b]
  | .stvs _ o => [rs o.a, rs o.b] ++ vgrp o.d o.nq 32
  | .ldvx _ o => [rs o.a] ++ vgrp o.b o.nq 32
  | .stvx _ o => [rs o.a] ++ vgrp o.b o.nq 32 ++ vgrp o.d o.nq (widthOf o.isz)
  | .stz _ o => [rs o.a, rs o.b] ++ vgrp o.d o.nq 32
  | .ldz _ o => [rs o.a, rs o.b]
  | .probe _ o => [rs o.a, rb o.bt]
  | .hclaim _ o => [rs o.a]
  | .hrel _ _ => []
  | .pref _ o => [rs o.a]
  | .splds _ _ => []
  | .spsts _ o => [rs o.d]
  | .spldv _ _ => []
  | .spstv _ o => [(1, o.d.toNat)]
  | .beat _ o => (if o.aop = 0 then [] else [(0, 4 + o.aw.toNat)]) ++ (if o.wop = 0 then [] else [(0, 6 + o.ww.toNat)])
  | .acrel _ _ => []
  | .acrela _ => []
  | .acgrp _ _ => []
  | .acmov _ o => [rs o.a]
  | .acld _ o => [rs o.a]
  | .mcfg _ _ => []
  | .wswap _ => []
  | .wclr _ => []
  | .mwait _ => []
  | .rowld _ o => [rs o.a, rs o.b]
  | .rowst _ o => [rs o.a]
  | .rowupd _ o => vcount o.a (rowsOf o.mq) 32 ++ [rs o.b]
  | .rowpack _ o => [rs o.a, rs o.b]
  | .rowrestore _ o => [rs o.a, rs o.b]
  | .rowcnt _ _ => []
  | .rowset _ o => [rs o.a, rs o.d]
  | .rowrec _ o => [rs o.a] ++ vcount o.d o.imm.toNat 32
  | .rowrdec _ _ => []
  | .rowtrld _ o => [rs o.a, rs o.b]
  | .rowtrst _ o => [rs o.a]
  | .rowmask _ o => [rs o.a]
  | .rowseq _ o => [rs o.a]
  | .rowclr _ _ => []
  | .cadd _ o => [rk o.k, rs o.a]
  | .cwait _ o => [rk o.k, rs o.a]
  | .cread _ o => [rk o.k]
  | .cmax _ o => [rk o.k, rs o.a]
  | .cwany _ o => anyRegs o
  | .cbind _ o => [rs o.a]
  | .stakeCreate _ o => [rs o.a, rs o.b]
  | .stakeRetire _ o => [rs o.a, rs o.b]
  | .stakeAdvance _ o => [rs o.a, rs o.b]
  | .phase _ _ => []
  | .cpyq _ o => [rs o.x, (1, o.z.toNat)]
  | .cpymc _ o => [rs o.x]
  | .hbdrain _ o => [rs o.x, rs o.y]
  | .gsub _ o => [rs o.x]
  | .gunsub _ o => [rs o.x]
  | .gred _ o => [rs o.x]
  | .tlaunch _ o => [rs o.x]
  | .tqadd _ o => [rs o.x]
  | .tdqadd _ o => [rs o.x]
  | .tdqtake _ o => [rs o.x]
  | .tcancel _ o => [rs o.x]
  | .filreq _ o => [rs o.x, rs o.z]
  | .kvprobe _ o => [rs o.x, rs o.z]
  | .kvmarkValid _ o => [rs o.x, rs o.z]
  | .kvmarkExit _ o => [rs o.x, rs o.z]
  | .kvmarkClear _ o => [rs o.x, rs o.z]
  | .calve _ o => [rs o.x, rs o.y, rs o.z]
  | .calveArm _ o => [rs o.x, rs o.z]
  | .colred _ o => [rs o.x]
  | .colbc _ o => [rs o.x]
  | .colag _ o => [rs o.x]
  | .tret _ => []
  | .csrr _ _ => []
  | .csrw _ o => [rs o.a]
  | .csrs _ o => [rs o.a]
  | .csrc _ o => [rs o.a]
  | .tmark _ o => [rs o.a]
  | .smpctl _ o => [rs o.a]
  | .bkpt _ _ => []
  | .wpset _ o => [rs o.x, rs o.y]
  | .wpclr _ _ => []
  | .taginv _ o => [rs o.x]
  | .tagflush _ => []
  | .partopForm _ o => [rs o.x, rs o.z]
  | .partopDissolve _ o => [rs o.x, rs o.z]
  | .partopPreempt _ o => [rs o.x, rs o.z]
  | .partopQreset _ o => [rs o.x, rs o.z]
  | .ctxopCreate _ o => [rs o.x, rs o.z]
  | .ctxopDestroy _ o => [rs o.x, rs o.z]
  | .ctxopInval _ o => [rs o.x, rs o.z]
  | .ctxopAttest _ o => [rs o.x, rs o.z]
  | .swapopSave _ o => [rs o.x, rs o.z]
  | .swapopRestore _ o => [rs o.x, rs o.z]
  | .swapopExch _ o => [rs o.x, rs o.z]
  | .illegalOpcode _ _ _ _ => []
  | .resultLanding _ _ => []
  | .pushLanding _ => []
  | .interrupt _ => []
  | .haltWake _ => []
  | .seqResumeReplay _ => []
  | .seqResumeContinue _ => []
  | .seqResumeUnresolved _ => []
  | .registerWrite _ _ _ _ => []
  | .launchDispatch _ _ => []
  | .taskStart _ => []
  | .stealProbe _ => []
  | .spillRefill _ => []
  | .passBoundary _ => []
  | .preemptHalt _ => []
  | .iterationOverrun _ => []
  | .swapComplete _ => []
  | .streamDelivery _ => []
  | .privateFetch _ => []
  | .icacheFill _ _ _ _ => []
  | .pageWalk _ _ _ _ => []
  | .engineCommandResume _ _ => []
  | .phaseEndComplete _ => []
  | .storeVisible _ _ => []
  | .tagInvalidation _ _ => []
  | .probeLookup _ => []
  | .windowFill _ _ _ _ => []
  | .hclaimGrant _ => []
  | .hrelPerform _ => []
  | .counterOperation _ _ _ _ => []
  | .syncAnswer _ => []
  | .moraineBatchTimeout _ _ => []
  | .batchApply _ _ => []
  | .graverAccept _ _ _ _ _ => []
  | .graverCommand _ _ _ _ _ _ => []
  | .generationUpdate _ _ _ => []
  | .scrubPassStart _ => []
  | .scrubRead _ _ => []
  | .scrubLevelCheck _ _ => []
  | .subscriptionTile _ _ => []
  | .subscriptionComplete _ _ => []
  | .graverReduction _ _ => []
  | .copyPacketTake _ => []
  | .stampReread _ => []
  | .copyPacketComplete _ _ _ _ => []
  | .cpyqEnqueue _ => []
  | .parkClaim _ _ => []
  | .parkComplete _ _ => []
  | .queueOpen _ => []
  | .queueStop _ => []
  | .firnOperation _ => []
  | .probeRetry _ => []
  | .fillEnd _ _ => []
  | .calvingNotice _ _ _ _ _ _ => []
  | .remoteRequest _ => []
  | .remoteAnswer _ _ _ => []
  | .remoteTimeout _ => []
  | .collectiveAssemble _ _ => []
  | .collectiveComplete _ => []
  | .collectiveTimeout _ => []
  | .linkDown _ _ => []
  | .ptpEventMessage _ _ => []
  | .genStart _ => []
  | .genStopRequest _ => []
  | .genHalt _ => []
  | .genIterationBegin _ => []
  | .genAppend _ => []
  | .genHoldAdvance _ => []
  | .genResume _ => []
  | .genSpec0Clear _ => []
  | .genReclaim _ _ => []
  | .genPoolTake _ => []
  | .genSlotRetire _ _ => []
  | .genSlotAllocate _ _ => []
  | .traceRecordWrite _ => []
  | .traceWiAdd _ _ => []
  | .sample _ => []
  | .counterRotate _ => []
  | .boundaryStopRequest _ => []
  | .packageReset => []
  | .bootRom _ _ _ => []
  | .coreReset _ => []
  | .featureAccept _ _ => []
  | .hostCounterAdd _ _ _ => []
  | .hostHbmWrite _ _ => []
  | .hostHbmRead _ _ => []
  | .hostControlAccess _ _ _ _ => []
  | .issueGating _ _ => []
  | .gatingEnd _ => []
  | .thermalStop _ => []
  | .refresh _ _ => []
  | .linkReturn _ => []
  | .bulkShareWindow _ => []
  | .samplingChangeApplied _ => []
  | .watchpointChangeApplied _ => []

/-- Fixed latency of a result (R50, R289); none for an interlocked or absent one.  An L load from the scratchpad
quota has latency 8, which depends on its address. -/
def latencyOf : Instr → Option Nat
  | .add _ _ => some 1
  | .sub _ _ => some 1
  | .and _ _ => some 1
  | .or _ _ => some 1
  | .xor _ _ => some 1
  | .andn _ _ => some 1
  | .shl _ _ => some 1
  | .shr _ _ => some 1
  | .sra _ _ => some 1
  | .rol _ _ => some 1
  | .mul _ _ => some 3
  | .mulh _ _ => some 3
  | .mulhn _ _ => some 3
  | .min _ _ => some 1
  | .max _ _ => some 1
  | .minn _ _ => some 1
  | .maxn _ _ => some 1
  | .clz _ _ => some 1
  | .ctz _ _ => some 1
  | .popc _ _ => some 1
  | .brev _ _ => some 1
  | .bswap _ _ => some 1
  | .bext _ _ => some 1
  | .bins _ _ => some 1
  | .addi _ _ => some 1
  | .andi _ _ => some 1
  | .ori _ _ => some 1
  | .xori _ _ => some 1
  | .shli _ _ => some 1
  | .shri _ _ => some 1
  | .srai _ _ => some 1
  | .muli _ _ => some 3
  | .ceq _ _ => some 1
  | .cne _ _ => some 1
  | .clt _ _ => some 1
  | .cle _ _ => some 1
  | .cltn _ _ => some 1
  | .clen _ _ => some 1
  | .pand _ _ => some 1
  | .por _ _ => some 1
  | .ceqi _ _ => some 1
  | .cnei _ _ => some 1
  | .clti _ _ => some 1
  | .clei _ _ => some 1
  | .cltni _ _ => some 1
  | .cleni _ _ => some 1
  | .pxor _ _ => some 1
  | .pandn _ _ => some 1
  | .sel _ _ => some 1
  | .mfx _ _ => some 1
  | .mtx _ _ => some 1
  | .mfb _ _ => some 1
  | .mtb _ _ => some 1
  | .limmh _ _ => some 1
  | .limml _ _ => some 1
  | .nop _ => none
  | .halt _ => none
  | .exit _ => none
  | .trap _ _ => none
  | .detach _ => none
  | .join _ _ => none
  | .fuse _ => none
  | .unfuse _ => none
  | .pbt _ _ => some 1
  | .brt _ _ => none
  | .call _ _ => some 1
  | .ret _ _ => none
  | .loop _ _ => none
  | .mloop _ _ => none
  | .lstri _ _ => none
  | .lstrr _ _ => none
  | .lbrk _ _ => none
  | .lnext _ _ => none
  | .vadd _ _ _ => some 2
  | .vsub _ _ _ => some 2
  | .vmul _ _ _ => some 3
  | .vmulh _ _ _ => some 3
  | .vmin _ _ _ => some 2
  | .vmax _ _ _ => some 2
  | .vminn _ _ _ => some 2
  | .vmaxn _ _ _ => some 2
  | .vshl _ _ _ => some 2
  | .vshr _ _ _ => some 2
  | .vsra _ _ _ => some 2
  | .vadds _ _ _ => some 2
  | .vsubs _ _ _ => some 2
  | .vpopc _ _ _ => some 3
  | .vclz _ _ _ => some 3
  | .vabs _ _ _ => some 2
  | .vand _ _ => some 2
  | .vor _ _ => some 2
  | .vxor _ _ => some 2
  | .vandn _ _ => some 2
  | .vmov _ _ => some 2
  | .vperm _ _ => some 2
  | .vclmull _ _ => some 3
  | .vclmulh _ _ => some 3
  | .vsel _ _ => some 2
  | .mand _ _ => some 2
  | .mor _ _ => some 2
  | .mxor _ _ => some 2
  | .mnot _ _ => some 2
  | .vseed _ _ => none
  | .vaddi _ _ _ => some 2
  | .vshli _ _ _ => some 2
  | .vshri _ _ _ => some 2
  | .vmovi _ _ _ => some 2
  | .vfadd _ _ => some 4
  | .vfsub _ _ => some 4
  | .vfmul _ _ => some 4
  | .vfma _ _ => some 4
  | .vfms _ _ => some 4
  | .vfnma _ _ => some 4
  | .vfmin _ _ => some 4
  | .vfmax _ _ => some 4
  | .vfabs _ _ => some 4
  | .vfneg _ _ => some 4
  | .vexp2 _ _ => some 6
  | .vlog2 _ _ => some 6
  | .vrcp _ _ => some 6
  | .vrsq _ _ => some 6
  | .vtanh _ _ => some 6
  | .vcvtf _ _ => some 4
  | .vcvtn _ _ => some 4
  | .vcvti _ _ => some 4
  | .vcvtif _ _ => some 4
  | .vcmp _ _ => some 4
  | .vrsum _ _ => some 6
  | .vrmax _ _ => some 6
  | .vrmin _ _ => some 6
  | .vpsum _ _ => some 8
  | .vargmax _ _ => some 8
  | .vtopk _ _ => some 8
  | .vexts _ _ => some 6
  | .vinss _ _ => some 2
  | .lds8 _ _ => none
  | .lds16 _ _ => none
  | .lds32 _ _ => none
  | .lds64 _ _ => none
  | .ldn8 _ _ => none
  | .ldn16 _ _ => none
  | .ldn32 _ _ => none
  | .sts8 _ _ => none
  | .sts16 _ _ => none
  | .sts32 _ _ => none
  | .sts64 _ _ => none
  | .ldv _ _ => none
  | .stv _ _ => none
  | .ldvs _ _ => none
  | .stvs _ _ => none
  | .ldvx _ _ => none
  | .stvx _ _ => none
  | .stz _ _ => none
  | .ldz _ _ => none
  | .probe _ _ => none
  | .hclaim _ _ => none
  | .hrel _ _ => none
  | .pref _ _ => none
  | .splds _ _ => some 1
  | .spsts _ _ => none
  | .spldv _ _ => some 1
  | .spstv _ _ => none
  | .beat _ _ => some 6
  | .acrel _ _ => none
  | .acrela _ => none
  | .acgrp _ _ => none
  | .acmov _ _ => none
  | .acld _ _ => none
  | .mcfg _ _ => none
  | .wswap _ => none
  | .wclr _ => none
  | .mwait _ => none
  | .rowld _ _ => some 4
  | .rowst _ _ => some 4
  | .rowupd _ _ => some 4
  | .rowpack _ _ => none
  | .rowrestore _ _ => none
  | .rowcnt _ _ => none
  | .rowset _ _ => some 4
  | .rowrec _ _ => some 4
  | .rowrdec _ _ => some 4
  | .rowtrld _ _ => some 4
  | .rowtrst _ _ => some 4
  | .rowmask _ _ => some 4
  | .rowseq _ _ => some 4
  | .rowclr _ _ => some 4
  | .cadd _ _ => none
  | .cwait _ _ => none
  | .cread _ _ => none
  | .cmax _ _ => none
  | .cwany _ _ => none
  | .cbind _ _ => none
  | .stakeCreate _ _ => none
  | .stakeRetire _ _ => none
  | .stakeAdvance _ _ => none
  | .phase _ _ => none
  | .cpyq _ _ => none
  | .cpymc _ _ => none
  | .hbdrain _ _ => none
  | .gsub _ _ => none
  | .gunsub _ _ => none
  | .gred _ _ => none
  | .tlaunch _ _ => none
  | .tqadd _ _ => none
  | .tdqadd _ _ => none
  | .tdqtake _ _ => none
  | .tcancel _ _ => none
  | .filreq _ _ => none
  | .kvprobe _ _ => none
  | .kvmarkValid _ _ => none
  | .kvmarkExit _ _ => none
  | .kvmarkClear _ _ => none
  | .calve _ _ => none
  | .calveArm _ _ => none
  | .colred _ _ => none
  | .colbc _ _ => none
  | .colag _ _ => none
  | .tret _ => none
  | .csrr _ _ => none
  | .csrw _ _ => none
  | .csrs _ _ => none
  | .csrc _ _ => none
  | .tmark _ _ => none
  | .smpctl _ _ => none
  | .bkpt _ _ => none
  | .wpset _ _ => none
  | .wpclr _ _ => none
  | .taginv _ _ => none
  | .tagflush _ => none
  | .partopForm _ _ => none
  | .partopDissolve _ _ => none
  | .partopPreempt _ _ => none
  | .partopQreset _ _ => none
  | .ctxopCreate _ _ => none
  | .ctxopDestroy _ _ => none
  | .ctxopInval _ _ => none
  | .ctxopAttest _ _ => none
  | .swapopSave _ _ => none
  | .swapopRestore _ _ => none
  | .swapopExch _ _ => none
  | .illegalOpcode _ _ _ _ => none
  | .resultLanding _ _ => none
  | .pushLanding _ => none
  | .interrupt _ => none
  | .haltWake _ => none
  | .seqResumeReplay _ => none
  | .seqResumeContinue _ => none
  | .seqResumeUnresolved _ => none
  | .registerWrite _ _ _ _ => none
  | .launchDispatch _ _ => none
  | .taskStart _ => none
  | .stealProbe _ => none
  | .spillRefill _ => none
  | .passBoundary _ => none
  | .preemptHalt _ => none
  | .iterationOverrun _ => none
  | .swapComplete _ => none
  | .streamDelivery _ => none
  | .privateFetch _ => none
  | .icacheFill _ _ _ _ => none
  | .pageWalk _ _ _ _ => none
  | .engineCommandResume _ _ => none
  | .phaseEndComplete _ => none
  | .storeVisible _ _ => none
  | .tagInvalidation _ _ => none
  | .probeLookup _ => none
  | .windowFill _ _ _ _ => none
  | .hclaimGrant _ => none
  | .hrelPerform _ => none
  | .counterOperation _ _ _ _ => none
  | .syncAnswer _ => none
  | .moraineBatchTimeout _ _ => none
  | .batchApply _ _ => none
  | .graverAccept _ _ _ _ _ => none
  | .graverCommand _ _ _ _ _ _ => none
  | .generationUpdate _ _ _ => none
  | .scrubPassStart _ => none
  | .scrubRead _ _ => none
  | .scrubLevelCheck _ _ => none
  | .subscriptionTile _ _ => none
  | .subscriptionComplete _ _ => none
  | .graverReduction _ _ => none
  | .copyPacketTake _ => none
  | .stampReread _ => none
  | .copyPacketComplete _ _ _ _ => none
  | .cpyqEnqueue _ => none
  | .parkClaim _ _ => none
  | .parkComplete _ _ => none
  | .queueOpen _ => none
  | .queueStop _ => none
  | .firnOperation _ => none
  | .probeRetry _ => none
  | .fillEnd _ _ => none
  | .calvingNotice _ _ _ _ _ _ => none
  | .remoteRequest _ => none
  | .remoteAnswer _ _ _ => none
  | .remoteTimeout _ => none
  | .collectiveAssemble _ _ => none
  | .collectiveComplete _ => none
  | .collectiveTimeout _ => none
  | .linkDown _ _ => none
  | .ptpEventMessage _ _ => none
  | .genStart _ => none
  | .genStopRequest _ => none
  | .genHalt _ => none
  | .genIterationBegin _ => none
  | .genAppend _ => none
  | .genHoldAdvance _ => none
  | .genResume _ => none
  | .genSpec0Clear _ => none
  | .genReclaim _ _ => none
  | .genPoolTake _ => none
  | .genSlotRetire _ _ => none
  | .genSlotAllocate _ _ => none
  | .traceRecordWrite _ => none
  | .traceWiAdd _ _ => none
  | .sample _ => none
  | .counterRotate _ => none
  | .boundaryStopRequest _ => none
  | .packageReset => none
  | .bootRom _ _ _ => none
  | .coreReset _ => none
  | .featureAccept _ _ => none
  | .hostCounterAdd _ _ _ => none
  | .hostHbmWrite _ _ => none
  | .hostHbmRead _ _ => none
  | .hostControlAccess _ _ _ _ => none
  | .issueGating _ _ => none
  | .gatingEnd _ => none
  | .thermalStop _ => none
  | .refresh _ _ => none
  | .linkReturn _ => none
  | .bulkShareWindow _ => none
  | .samplingChangeApplied _ => none
  | .watchpointChangeApplied _ => none

/-- CLASS of a syllable (R43); 8 for an event. -/
def classOf : Instr → Nat
  | .add _ _ => 0
  | .sub _ _ => 0
  | .and _ _ => 0
  | .or _ _ => 0
  | .xor _ _ => 0
  | .andn _ _ => 0
  | .shl _ _ => 0
  | .shr _ _ => 0
  | .sra _ _ => 0
  | .rol _ _ => 0
  | .mul _ _ => 0
  | .mulh _ _ => 0
  | .mulhn _ _ => 0
  | .min _ _ => 0
  | .max _ _ => 0
  | .minn _ _ => 0
  | .maxn _ _ => 0
  | .clz _ _ => 0
  | .ctz _ _ => 0
  | .popc _ _ => 0
  | .brev _ _ => 0
  | .bswap _ _ => 0
  | .bext _ _ => 0
  | .bins _ _ => 0
  | .addi _ _ => 0
  | .andi _ _ => 0
  | .ori _ _ => 0
  | .xori _ _ => 0
  | .shli _ _ => 0
  | .shri _ _ => 0
  | .srai _ _ => 0
  | .muli _ _ => 0
  | .ceq _ _ => 0
  | .cne _ _ => 0
  | .clt _ _ => 0
  | .cle _ _ => 0
  | .cltn _ _ => 0
  | .clen _ _ => 0
  | .pand _ _ => 0
  | .por _ _ => 0
  | .ceqi _ _ => 0
  | .cnei _ _ => 0
  | .clti _ _ => 0
  | .clei _ _ => 0
  | .cltni _ _ => 0
  | .cleni _ _ => 0
  | .pxor _ _ => 0
  | .pandn _ _ => 0
  | .sel _ _ => 0
  | .mfx _ _ => 0
  | .mtx _ _ => 0
  | .mfb _ _ => 0
  | .mtb _ _ => 0
  | .limmh _ _ => 0
  | .limml _ _ => 0
  | .nop _ => 1
  | .halt _ => 1
  | .exit _ => 1
  | .trap _ _ => 1
  | .detach _ => 1
  | .join _ _ => 1
  | .fuse _ => 1
  | .unfuse _ => 1
  | .pbt _ _ => 1
  | .brt _ _ => 1
  | .call _ _ => 1
  | .ret _ _ => 1
  | .loop _ _ => 1
  | .mloop _ _ => 1
  | .lstri _ _ => 1
  | .lstrr _ _ => 1
  | .lbrk _ _ => 1
  | .lnext _ _ => 1
  | .vadd _ _ _ => 2
  | .vsub _ _ _ => 2
  | .vmul _ _ _ => 2
  | .vmulh _ _ _ => 2
  | .vmin _ _ _ => 2
  | .vmax _ _ _ => 2
  | .vminn _ _ _ => 2
  | .vmaxn _ _ _ => 2
  | .vshl _ _ _ => 2
  | .vshr _ _ _ => 2
  | .vsra _ _ _ => 2
  | .vadds _ _ _ => 2
  | .vsubs _ _ _ => 2
  | .vpopc _ _ _ => 2
  | .vclz _ _ _ => 2
  | .vabs _ _ _ => 2
  | .vand _ _ => 2
  | .vor _ _ => 2
  | .vxor _ _ => 2
  | .vandn _ _ => 2
  | .vmov _ _ => 2
  | .vperm _ _ => 2
  | .vclmull _ _ => 2
  | .vclmulh _ _ => 2
  | .vsel _ _ => 2
  | .mand _ _ => 2
  | .mor _ _ => 2
  | .mxor _ _ => 2
  | .mnot _ _ => 2
  | .vseed _ _ => 2
  | .vaddi _ _ _ => 2
  | .vshli _ _ _ => 2
  | .vshri _ _ _ => 2
  | .vmovi _ _ _ => 2
  | .vfadd _ _ => 2
  | .vfsub _ _ => 2
  | .vfmul _ _ => 2
  | .vfma _ _ => 2
  | .vfms _ _ => 2
  | .vfnma _ _ => 2
  | .vfmin _ _ => 2
  | .vfmax _ _ => 2
  | .vfabs _ _ => 2
  | .vfneg _ _ => 2
  | .vexp2 _ _ => 2
  | .vlog2 _ _ => 2
  | .vrcp _ _ => 2
  | .vrsq _ _ => 2
  | .vtanh _ _ => 2
  | .vcvtf _ _ => 2
  | .vcvtn _ _ => 2
  | .vcvti _ _ => 2
  | .vcvtif _ _ => 2
  | .vcmp _ _ => 2
  | .vrsum _ _ => 2
  | .vrmax _ _ => 2
  | .vrmin _ _ => 2
  | .vpsum _ _ => 2
  | .vargmax _ _ => 2
  | .vtopk _ _ => 2
  | .vexts _ _ => 2
  | .vinss _ _ => 2
  | .lds8 _ _ => 3
  | .lds16 _ _ => 3
  | .lds32 _ _ => 3
  | .lds64 _ _ => 3
  | .ldn8 _ _ => 3
  | .ldn16 _ _ => 3
  | .ldn32 _ _ => 3
  | .sts8 _ _ => 3
  | .sts16 _ _ => 3
  | .sts32 _ _ => 3
  | .sts64 _ _ => 3
  | .ldv _ _ => 3
  | .stv _ _ => 3
  | .ldvs _ _ => 3
  | .stvs _ _ => 3
  | .ldvx _ _ => 3
  | .stvx _ _ => 3
  | .stz _ _ => 3
  | .ldz _ _ => 3
  | .probe _ _ => 3
  | .hclaim _ _ => 3
  | .hrel _ _ => 3
  | .pref _ _ => 3
  | .splds _ _ => 3
  | .spsts _ _ => 3
  | .spldv _ _ => 3
  | .spstv _ _ => 3
  | .beat _ _ => 4
  | .acrel _ _ => 4
  | .acrela _ => 4
  | .acgrp _ _ => 4
  | .acmov _ _ => 4
  | .acld _ _ => 4
  | .mcfg _ _ => 4
  | .wswap _ => 4
  | .wclr _ => 4
  | .mwait _ => 4
  | .rowld _ _ => 5
  | .rowst _ _ => 5
  | .rowupd _ _ => 5
  | .rowpack _ _ => 5
  | .rowrestore _ _ => 5
  | .rowcnt _ _ => 5
  | .rowset _ _ => 5
  | .rowrec _ _ => 5
  | .rowrdec _ _ => 5
  | .rowtrld _ _ => 5
  | .rowtrst _ _ => 5
  | .rowmask _ _ => 5
  | .rowseq _ _ => 5
  | .rowclr _ _ => 5
  | .cadd _ _ => 6
  | .cwait _ _ => 6
  | .cread _ _ => 6
  | .cmax _ _ => 6
  | .cwany _ _ => 6
  | .cbind _ _ => 6
  | .stakeCreate _ _ => 6
  | .stakeRetire _ _ => 6
  | .stakeAdvance _ _ => 6
  | .phase _ _ => 6
  | .cpyq _ _ => 6
  | .cpymc _ _ => 6
  | .hbdrain _ _ => 6
  | .gsub _ _ => 6
  | .gunsub _ _ => 6
  | .gred _ _ => 6
  | .tlaunch _ _ => 6
  | .tqadd _ _ => 6
  | .tdqadd _ _ => 6
  | .tdqtake _ _ => 6
  | .tcancel _ _ => 6
  | .filreq _ _ => 6
  | .kvprobe _ _ => 6
  | .kvmarkValid _ _ => 6
  | .kvmarkExit _ _ => 6
  | .kvmarkClear _ _ => 6
  | .calve _ _ => 6
  | .calveArm _ _ => 6
  | .colred _ _ => 6
  | .colbc _ _ => 6
  | .colag _ _ => 6
  | .tret _ => 7
  | .csrr _ _ => 7
  | .csrw _ _ => 7
  | .csrs _ _ => 7
  | .csrc _ _ => 7
  | .tmark _ _ => 7
  | .smpctl _ _ => 7
  | .bkpt _ _ => 7
  | .wpset _ _ => 7
  | .wpclr _ _ => 7
  | .taginv _ _ => 7
  | .tagflush _ => 7
  | .partopForm _ _ => 7
  | .partopDissolve _ _ => 7
  | .partopPreempt _ _ => 7
  | .partopQreset _ _ => 7
  | .ctxopCreate _ _ => 7
  | .ctxopDestroy _ _ => 7
  | .ctxopInval _ _ => 7
  | .ctxopAttest _ _ => 7
  | .swapopSave _ _ => 7
  | .swapopRestore _ _ => 7
  | .swapopExch _ _ => 7
  | .illegalOpcode _ cls _ _ => cls.toNat
  | .resultLanding _ _ => 8
  | .pushLanding _ => 8
  | .interrupt _ => 8
  | .haltWake _ => 8
  | .seqResumeReplay _ => 8
  | .seqResumeContinue _ => 8
  | .seqResumeUnresolved _ => 8
  | .registerWrite _ _ _ _ => 8
  | .launchDispatch _ _ => 8
  | .taskStart _ => 8
  | .stealProbe _ => 8
  | .spillRefill _ => 8
  | .passBoundary _ => 8
  | .preemptHalt _ => 8
  | .iterationOverrun _ => 8
  | .swapComplete _ => 8
  | .streamDelivery _ => 8
  | .privateFetch _ => 8
  | .icacheFill _ _ _ _ => 8
  | .pageWalk _ _ _ _ => 8
  | .engineCommandResume _ _ => 8
  | .phaseEndComplete _ => 8
  | .storeVisible _ _ => 8
  | .tagInvalidation _ _ => 8
  | .probeLookup _ => 8
  | .windowFill _ _ _ _ => 8
  | .hclaimGrant _ => 8
  | .hrelPerform _ => 8
  | .counterOperation _ _ _ _ => 8
  | .syncAnswer _ => 8
  | .moraineBatchTimeout _ _ => 8
  | .batchApply _ _ => 8
  | .graverAccept _ _ _ _ _ => 8
  | .graverCommand _ _ _ _ _ _ => 8
  | .generationUpdate _ _ _ => 8
  | .scrubPassStart _ => 8
  | .scrubRead _ _ => 8
  | .scrubLevelCheck _ _ => 8
  | .subscriptionTile _ _ => 8
  | .subscriptionComplete _ _ => 8
  | .graverReduction _ _ => 8
  | .copyPacketTake _ => 8
  | .stampReread _ => 8
  | .copyPacketComplete _ _ _ _ => 8
  | .cpyqEnqueue _ => 8
  | .parkClaim _ _ => 8
  | .parkComplete _ _ => 8
  | .queueOpen _ => 8
  | .queueStop _ => 8
  | .firnOperation _ => 8
  | .probeRetry _ => 8
  | .fillEnd _ _ => 8
  | .calvingNotice _ _ _ _ _ _ => 8
  | .remoteRequest _ => 8
  | .remoteAnswer _ _ _ => 8
  | .remoteTimeout _ => 8
  | .collectiveAssemble _ _ => 8
  | .collectiveComplete _ => 8
  | .collectiveTimeout _ => 8
  | .linkDown _ _ => 8
  | .ptpEventMessage _ _ => 8
  | .genStart _ => 8
  | .genStopRequest _ => 8
  | .genHalt _ => 8
  | .genIterationBegin _ => 8
  | .genAppend _ => 8
  | .genHoldAdvance _ => 8
  | .genResume _ => 8
  | .genSpec0Clear _ => 8
  | .genReclaim _ _ => 8
  | .genPoolTake _ => 8
  | .genSlotRetire _ _ => 8
  | .genSlotAllocate _ _ => 8
  | .traceRecordWrite _ => 8
  | .traceWiAdd _ _ => 8
  | .sample _ => 8
  | .counterRotate _ => 8
  | .boundaryStopRequest _ => 8
  | .packageReset => 8
  | .bootRom _ _ _ => 8
  | .coreReset _ => 8
  | .featureAccept _ _ => 8
  | .hostCounterAdd _ _ _ => 8
  | .hostHbmWrite _ _ => 8
  | .hostHbmRead _ _ => 8
  | .hostControlAccess _ _ _ _ => 8
  | .issueGating _ _ => 8
  | .gatingEnd _ => 8
  | .thermalStop _ => 8
  | .refresh _ _ => 8
  | .linkReturn _ => 8
  | .bulkShareWindow _ => 8
  | .samplingChangeApplied _ => 8
  | .watchpointChangeApplied _ => 8

/-! ## Registers in flight -/

/-- Physical register behind a reference (R171). -/
def physRef (lp : LoopCtx) (r : RegRef) : RegRef :=
  match r.1 with
  | 0 | 1 => (r.1, physSV lp r.2)
  | 5 => (5, physK lp r.2)
  | _ => r

/-- Physical register that a result writes. -/
def Result.ref : Result → RegRef
  | .s n _ => (0, n)
  | .sAdd n _ => (0, n)
  | .v n _ _ => (1, n)
  | .m n _ => (2, n)
  | .p n _ => (3, n)
  | .b n _ => (4, n)
  | .k n _ => (5, n)
  | .h n _ => (6, n)
  | .lr _ => (7, 0)

/-- A result that will not come: its remote load has failed, and no bundle has reported it yet (R467). -/
def Core.lostResult (c : Core) (e : Pend) : Bool := e.tag ≠ 0 && c.remFails.any fun (t, _) => t = e.tag

/-- A register is pending (R51): an interlocked result for it is in flight. -/
def Core.isPending (c : Core) (r : RegRef) : Bool :=
  c.pend.any fun e => e.due.isNone && !c.lostResult e && e.res.ref = physRef c.lp r

/-- What the trip count of the running task's record reads (R29). -/
def Core.tripRegs (c : Core) : List RegRef :=
  match c.task with
  | none => []
  | some t =>
    let w := nth t.words 3 0
    match wfld w 62 2 with
    | 0 => []
    | 1 => [(7, 0)]
    | _ => [(0, wfld w 32 6)]

/-- Source registers of a syllable on a core: an MLOOP with the record's count reads what that count names (R173). -/
def readsAt (c : Core) (i : Instr) : List RegRef :=
  match i with
  | .mloop _ o => if o.src = 3 then c.tripRegs else readsOf i
  | _ => readsOf i

/-- Registers a syllable reads when it executes, its guard first. -/
def allReads (c : Core) (i : Instr) : List RegRef :=
  match hdrOf i with
  | some h => if h.gp = 0 then readsAt c i else (3, h.gp.toNat) :: readsAt c i
  | none => readsAt c i

/-- Does a syllable that executes read or write a pending register (R51)? -/
def stallsOn (c : Core) (i : Instr) : Bool :=
  match hdrOf i with
  | none => false
  | some h => (h.gp ≠ 0 && c.isPending (3, h.gp.toNat)) ||
      (selected c h && (readsAt c i ++ destsOf i).any fun r => c.isPending r)

/-- The fixed-latency result in flight for a register beyond a cycle that a WAIT_UNDERSIZED record names: of several, which
one R53 does not say, the first in the order of issue (DESIGN CHOICE, log entry 120). -/
def lateFor (c : Core) (r : RegRef) (cycle : Nat) : Option Pend :=
  c.pend.find? fun e => e.res.ref = physRef c.lp r && (match e.due with | some x => cycle < x | none => false)

/-- The record of R53 and R189 for a register read or overwritten too early. -/
def undersized (e : Pend) (r : RegRef) (cycle : Nat) : Event :=
  mkReplay 0x06 e.prod (toW ((e.due.getD cycle - cycle) % 2 ^ 16 * 2 ^ 16 + r.2 * 16 + r.1))

/-- The WAIT_UNDERSIZED check of one syllable (R53); lat is its fixed latency. -/
def waitCheck (c : Core) (i : Instr) (lat : Option Nat) (cycle : Nat) : Option Event :=
  match hdrOf i with
  | none => none
  | some h =>
    let guard : List RegRef := if h.gp = 0 then [] else [(3, h.gp.toNat)]
    let rd := if selected c h then guard ++ readsAt c i else guard
    let early := rd.findSome? fun r => (lateFor c r cycle).map fun e => undersized e r cycle
    early.orElse fun _ =>
      if !selected c h then none else
      match lat with
      | none => none
      | some l => (destsOf i).findSome? fun r =>
          (c.pend.find? fun e => e.res.ref = physRef c.lp r &&
            (match e.due with | some x => cycle + l ≤ x && cycle < x | none => false)).map fun e => undersized e r cycle

/-! ## Bundle checks (R44-R46) -/

/-- Two destination lists share a register. -/
def clash (a b : List RegRef) : Bool := a.any fun r => b.contains r

def isLimmh : Instr → Bool
  | .limmh _ _ => true
  | _ => false

def isLimml : Instr → Bool
  | .limml _ _ => true
  | _ => false

/-- R45: a LIMMH followed directly by a LIMML with the same d, guard and edge. -/
def limmPair (a b : Instr) : Bool :=
  match a, b with
  | .limmh h o, .limml h' o' =>
    o.d = o'.d && h.gn = h'.gn && h.gp = h'.gp && h.edge = h'.edge && h.elvl = h'.elvl
  | _, _ => false

def isTret : Instr → Bool
  | .tret _ => true
  | _ => false

/-- The C syllables that R45 keeps out of a bundle with TRET. -/
def movesFlow : Instr → Bool
  | .brt _ _ | .call _ _ | .ret _ _ | .loop _ _ | .mloop _ _ | .lbrk _ _ | .lnext _ _ => true
  | _ => false

/-- Classes by their words: a syllable that does not decode still has one (R43). -/
def classOfWord (w : Word) : Nat := wfld w 61 3

/-- A syllable's operand bits that are not zero where its opcode keeps them reserved, cleared: a bit is reserved where
the opcode does not decode with that bit alone. -/
def clearReserved (w : Nat) : Nat :=
  let base := w / 2 ^ 38 * 2 ^ 38
  (List.range 38).foldl (fun a k => if (decodeRaw (base + 2 ^ k)).isNone then a - fld w k 1 * 2 ^ k else a) w

/-- What the bundle checks of R45 read in a syllable: its opcode and operands, whatever its reserved fields hold, since
ILLEGAL_SYLLABLE comes after them (R46). -/
def lenientRaw (w : Nat) : Option Instr :=
  ((decodeRaw w).orElse fun _ => decodeRaw (w / 16 * 16 + 1)).orElse fun _ => decodeRaw (clearReserved w)

/-- What a bundle check sees of a syllable. -/
structure Slot where
  cls : Nat
  i : Option Instr
  deriving DecidableEq, Repr

def slotOf (w : Word) : Slot :=
  { cls := classOfWord w
    i := lenientRaw w.toNat }

/-- Does a slot hold an instruction with the property? -/
def Slot.holds (x : Slot) (p : Instr → Bool) : Bool := match x.i with | some i => p i | none => false

def Slot.dests (x : Slot) : List RegRef := match x.i with | some i => destsOf i | none => []

/-- The conditions of R45 against syllable x after those before it, and before the one that follows.  A LIMMH that a
LIMML with another d, guard or edge follows is itself the first syllable that breaks the pair rules (DEDUCED, log
entry 40). -/
def slotBad (before : List Slot) (x : Slot) (after : Option Slot) : Bool :=
  let last := before.getLast?
  let pairBefore := match last with
    | some y => (match y.i, x.i with | some a, some b => limmPair a b | _, _ => false)
    | none => false
  let pairAfter := match after with
    | some y => (match x.i, y.i with | some a, some b => limmPair a b | _, _ => false)
    | none => false
  let count := (before.filter fun y => y.cls = x.cls).length
  let sBefore := (before.filter fun y => y.cls = 0).length
  (match last with | some y => x.cls < y.cls | none => false) ||
  (if x.cls = 0 then 2 ≤ count else 1 ≤ count) ||
  (!pairBefore && before.any fun y => clash y.dests x.dests) ||
  (x.cls = 7 && before.any fun y => y.cls = 6) ||
  (x.holds isTret && before.any fun y => y.holds movesFlow) ||
  (x.holds isLimmh && !(pairAfter && sBefore = 0)) ||
  (x.holds isLimml && !pairBefore)

/-- R44, R45: the index of the first syllable at which a bundle is ill formed (DEDUCED, log entry 40). -/
def bundleBad (ws : List Word) : Option Nat :=
  let xs := ws.map slotOf
  if !(ws.any fun w => w.getLsbD 60) then some 7
  else (List.range xs.length).find? fun k =>
    match xs[k]? with
    | some x => slotBad (xs.take k) x xs[k + 1]?
    | none => false

end Sys2Proof.Machine
end

