-- ==== Sys2Proof/Machine/Flags.lean ====
section
/-!
DEFINITION. Results of a bundle on their way to registers (R49, R50, R171), predicates as the machine's flags
(R54, R60, R62), and the relations of compares (R144, R298).
-/

namespace Sys2Proof.Machine

/-! ## Results (R49, R50) -/

/-- The syllable's encoding, for a record that carries it (R189). -/
def sylWord (i : Instr) : Word := toW ((encode i).getD 0)

/-- A result of latency lat in flight: it lands at the issue cycle plus lat. -/
def Bundle.pend (b : Bundle) (res : Result) (lat : Nat) : Pend :=
  { res := res, due := some (b.cycle + lat), ready := true, prod := b.addr, tag := 0 }

/-- An interlocked result: ready or still to be answered under a tag (R50, R51). -/
def Bundle.interlocked (b : Bundle) (res : Result) (ready : Bool) (tag : Nat) : Pend :=
  { res := res, due := none, ready := ready, prod := b.addr, tag := tag }

/-- Send a result of latency lat to the core of the bundle. -/
def sendIn (d : Dev) (b : Bundle) (res : Result) (lat : Nat) : Dev :=
  d.updCore b.core fun c => c.push (b.pend res lat)

/-- Send an interlocked result. -/
def sendLate (d : Dev) (b : Bundle) (res : Result) (ready : Bool) (tag : Nat) : Dev :=
  d.updCore b.core fun c => c.push (b.interlocked res ready tag)

/-- Send an interlocked result that is known and lands in a given cycle. -/
def sendAt (d : Dev) (b : Bundle) (res : Result) (cycle : Nat) : Dev :=
  d.updCore b.core fun c => c.push { b.interlocked res true 0 with after := cycle }

/-- Scalar result for sN as the register was named at issue (R171). -/
def sendS (d : Dev) (b : Bundle) (c : Core) (n : Nat) (val : Word) (lat : Nat) : Dev :=
  sendIn d b (.s (physSV c.lp n) val) lat

/-- Predicate result. -/
def sendP (d : Dev) (b : Bundle) (n : Nat) (val : Bool) (lat : Nat) : Dev := sendIn d b (.p n val) lat

/-- Branch-target result; the bundle counts as the register's last writer (R154). -/
def sendB (d : Dev) (b : Bundle) (c : Core) (n : Nat) (val : Word) : Dev :=
  (sendIn d b (.b n (bundleAddr val)) 1).updCore b.core fun x => { x with bWrite := tset x.bWrite n (c.issued + 1) }

/-- Mask result. -/
def sendM (d : Dev) (b : Bundle) (n : Nat) (val : MWord) (lat : Nat) : Dev := sendIn d b (.m n val) lat

/-- Vector group result from register n: value and written bits of each register (R56, R57). -/
def sendV (d : Dev) (b : Bundle) (c : Core) (n : Nat) (vals : List (VWord × VWord)) (lat : Nat) : Dev :=
  ((List.range vals.length).zip vals).foldl
    (fun d (q, val, mask) => sendIn d b (.v (physSV c.lp (n + q)) val mask) lat) d

/-- The answer of an engine's command reaches the scalar register that waits for it under a tag. -/
def Core.answerS (c : Core) (tag : Nat) (v : Word) : Core :=
  { c with pend := c.pend.map fun (e : Pend) =>
      (if e.tag = tag && tag ≠ 0 && !e.ready then
        match e.res with | .s n _ => { e with res := .s n v, ready := true } | _ => e
       else e) }

/-- The same for the handle register that waits for it. -/
def Core.answerH (c : Core) (tag : Nat) (v : Handle) : Core :=
  { c with pend := c.pend.map fun (e : Pend) =>
      (if e.tag = tag && tag ≠ 0 && !e.ready then
        match e.res with | .h n _ => { e with res := .h n v, ready := true } | _ => e
       else e) }

/-- The stop of a syllable; the lowest-addressed one of a bundle counts (R182). -/
def Bundle.withStop (b : Bundle) (e : Event) : Bundle :=
  { b with stop := b.stop.orElse fun _ => some { e with sidx := b.idx } }

/-! ## Predicates (R60, R62) -/

/-- p15-p0 as bits (R62 pall); bit 0 reads 1. -/
def Core.pall (c : Core) : Word := toW ((List.range 16).foldl (fun a i => if c.p i then a + 2 ^ i else a) 0)

/-- Relations of the scalar compares (R144). -/
inductive Rel where
  | eq | ne | lt | le | ltn | len
  deriving DecidableEq, Repr

/-- A relation on two 64-bit values: n forms read them as two's complement. -/
def Rel.holds (r : Rel) (x y : Word) : Bool :=
  match r with
  | .eq => x == y
  | .ne => x != y
  | .lt => decide (x.toNat < y.toNat)
  | .le => decide (x.toNat ≤ y.toNat)
  | .ltn => decide (x.toInt < y.toInt)
  | .len => decide (x.toInt ≤ y.toInt)

end Sys2Proof.Machine
end

