-- ==== Sys2Proof/Machine/Frontend.lean ====
section
/-!
DEFINITION. Events of the cluster front end and of fetching (07): stream delivery, private fetch, instruction-cache
fills and page walks.
-/

namespace Sys2Proof.Machine

/-! ## What a stream bundle holds -/

/-- Instructions of a bundle, those that decode. -/
def decoded (ws : List Word) : List Instr := ws.filterMap fun w => decodeRaw w.toNat

def isJoin : Instr → Bool
  | .join _ _ => true
  | _ => false

def isBranch : Instr → Bool
  | .brt _ _ | .call _ _ | .ret _ _ => true
  | _ => false

def isExit : Instr → Bool
  | .exit _ => true
  | _ => false

/-- MLOOP with the task record's trip count (R173). -/
def isTaskLoop : Instr → Bool
  | .mloop _ o => o.src = 3
  | _ => false

/-- Is a bundle at a part of the kernel, followed by next, a redirect bundle (R200)? -/
def isRedirect (f : FrontEnd) (ws : List Word) (next : Word) : Bool :=
  let is := decoded ws
  is.any isBranch || (is.any isExit && (f.part = .prologue || f.part = .pass)) ||
    (f.part = .pass && !f.modulo && next = f.epi)

/-! ## Members and joins (R204-R207) -/

/-- Members of a front end, ascending. -/
def membersOf (d : Dev) (g : Nat) : List Nat :=
  (feClusters d g).flatMap fun k => (coresOfCluster k).filter fun n => (d.core n).isMember

/-- A detached member still at work (R205). -/
def runningDetached (d : Dev) (n : Nat) : Bool :=
  let c := d.core n
  c.isMember && !c.attached && c.joinWait.isNone && c.run ≠ .halted

/-- An attached member has still to issue a redirect bundle delivered earlier, at which it may detach. -/
def mayDetach (d : Dev) (n : Nat) : Bool :=
  let c := d.core n
  c.attached && (d.cluster (clusterOf n)).fe.conts.any fun (q, _) => c.cons ≤ q

/-- Delivery count of a JOIN address (R204) (DEDUCED, log entry 27). -/
def joinCount (f : FrontEnd) (x : Word) : Nat := ((f.joins.find? fun (a, _) => a = x).map (·.2)).getD 0

/-- The count after one more delivery. -/
def nextCount (n : Nat) : Nat := if n < 65535 then n + 1 else 1

/-- Count a delivery of the JOIN at x (R204). -/
def FrontEnd.countJoin (f : FrontEnd) (x : Word) : FrontEnd :=
  if f.joins.any fun (a, _) => a = x then
    { f with joins := f.joins.map fun (a, n) => if a = x then (a, nextCount n) else (a, n) }
  else if f.joins.length < 8 then { f with joins := f.joins ++ [(x, 1)] }
  else f

/-- Is a delivery of the JOIN at x counted (R204)? -/
def FrontEnd.counts (f : FrontEnd) (x : Word) : Bool := f.joins.length < 8 || f.joins.any fun (a, _) => a = x

/-- Detached members that wait for the next counted delivery of the JOIN at x (R206). -/
def joiners (d : Dev) (g : Nat) (x : Word) : List Nat :=
  let f := (d.cluster g).fe
  let n := nextCount (joinCount f x)
  if !f.counts x then []
  else (membersOf d g).filter fun k => !(d.core k).attached && (d.core k).joinWait = some (x, n)

/-! ## STREAM_DELIVERY (R196-R200, R205, R210, R214) -/

/-- Append an entry to the buffers of cores. -/
def Dev.enbuf (d : Dev) (ns : List Nat) (e : StreamEnt) : Dev :=
  ns.foldl (fun d n => d.updCore n fun c => { c with ibuf := c.ibuf ++ [e] }) d

/-- A front end after the delivery, in a cycle, of the bundle of words ws that the address next follows (R196, R200,
R204). -/
def FrontEnd.delivered (f : FrontEnd) (p : Word) (ws : List Word) (cycle : Nat) : FrontEnd :=
  let next := p + BitVec.ofNat 64 (8 * ws.length)
  let red := isRedirect f ws next
  let f := if (decoded ws).any isJoin then f.countJoin p else f
  { f with
    next := f.next + 1
    redirect := if red then some f.next else none
    pos := some next
    part := if red then f.part else f.nextPart next false
    modulo := f.modulo || (decoded ws).any isTaskLoop
    hwin := false
    wire := false
    cycle := cycle }

/-- A bundle is delivered to the cores ns and, where it holds a JOIN, to the members that wait for this delivery, which
become attached (R196, R206). -/
def putEntry (d : Dev) (g : Nat) (ns : List Nat) (e : StreamEnt) : Dev :=
  let js := if (decoded e.f.words).any isJoin then joiners d g e.f.addr else []
  let d := js.foldl (fun d n => d.updCore n fun c =>
    { (c.count 0x0E 1) with attached := true, cons := e.seq, joinWait := none, ibuf := [], fetched := none }) d
  let d := d.updCluster g fun x => { x with fe := x.fe.delivered e.f.addr e.f.words e.cycle }
  d.enbuf (ns ++ js) e

/-- Attached cores whose buffers the next delivery has not reached: after a fusion one side's may hold it already (R209). -/
def lackingOf (d : Dev) (g : Nat) : List Nat :=
  (attachedOf d g).filter fun n => (d.core n).cons + (d.core n).ibuf.length ≤ (d.cluster g).fe.next

/-- The bundle at p is the next one delivered to the attached cores, in a cycle. -/
def putBundle (d : Dev) (g : Nat) (p : Word) (ws : List Word) (cycle : Nat) : Dev :=
  putEntry d g (lackingOf d g)
    { seq := (d.cluster g).fe.next, f := { addr := p, words := ws, fault := none }, cycle := cycle }

/-- Deliver a fetched bundle at address p as the next stream bundle; one with a JOIN waits until no member is running
detached (R205), in a fused pair until a cycle after the wire shows that (R210). -/
def deliverBundle (d : Dev) (g : Nat) (p : Word) (ws : List Word) : Option Dev :=
  let fe := (d.cluster g).fe
  let att := attachedOf d g
  let cycle := max (fe.cycle + 1) fe.notBefore
  if !(decoded ws).any isJoin then (if att.isEmpty then none else some (putBundle d g p ws cycle))
  else if (membersOf d g).any (runningDetached d) || att.any (mayDetach d) then none
  else
    let waiting := (membersOf d g).filter fun n => (d.core n).joinWait.isSome
    let cycle := (waiting.map fun n => (d.core n).ready).foldl max cycle
    if fe.fused && !fe.wire then
      some (d.updCluster g fun x => { x with fe := { x.fe with wire := true, cycle := cycle } })
    else if att.isEmpty && (joiners d g p).isEmpty then none
    else some (putBundle d g p ws cycle)

/-- Is the window closed to the next delivery (R198)? -/
def windowClosed (d : Dev) (g : Nat) : Bool :=
  (attachedOf d g).any fun n => 64 ≤ (d.cluster g).fe.next - (d.core n).cons

/-- STREAM_DELIVERY: the front end of a cluster delivers its next bundle, or is stalled by the window (R198). -/
def streamDelivery (m : Memory) (d : Dev) (g : Nat) : Option Dev :=
  let x := d.cluster g
  let fe := x.fe
  let att := attachedOf d g
  if !fe.serving || fe.redirect.isSome || (fe.fused && g % 2 = 1) then none
  else match fe.pos with
    | none => none
    | some p =>
      if att.any fun n => (d.core n).ibuf.any fun e => e.f.fault.isSome then none
      else if windowClosed d g then
        some (d.updCluster g fun x => { x with fe := { x.fe with hwin := true, cycle := x.fe.cycle + 1 } })
      else match (streamPort d g).bundle m d p with
        | .miss _ => none
        | .fault e =>
          let entry : StreamEnt :=
            { seq := fe.next, f := { addr := p, words := [], fault := some e }
              cycle := max (fe.cycle + 1) fe.notBefore }
          if att.isEmpty then none else some (d.enbuf att entry)
        | .ok ws => (deliverBundle d g p ws).map fun d => (streamPort d g).use m d p

/-- The front end fetches again the bundle at which cores are held (R214): the fault leaves every buffer, and the next
delivery is of that bundle. -/
def Dev.refetch (d : Dev) (g : Nat) : Dev :=
  (attachedOf d g).foldl (fun d n => d.updCore n fun c =>
    { c with ibuf := c.ibuf.filter fun e => e.f.fault.isNone }) d

/-- STREAM_DELIVERY (R196). -/
def execStreamDelivery (cluster : Nat) (s : State) : Host.Outcome State Fault Refusal :=
  happening (fun s => streamDelivery s.mem s.dev cluster) s

/-! ## PRIVATE_FETCH (R203, R516) -/

/-- May a core fetch its next bundle itself? -/
def Core.fetchesAlone (c : Core) : Bool :=
  c.run = .running && !c.attached && c.fetched.isNone && !(c.lp.innermost.isSome && c.lp.buffer.any fun f => f.addr = c.pc)

/-- PRIVATE_FETCH (R203, R516): a general core's bundle arrives after a free number of its cycles, none where it was
present in the fetch path (log entry 5). -/
def execPrivateFetch (core : Nat) (s : State) : Host.Outcome State Fault Refusal :=
  happening (fun s =>
    let d := s.dev
    let c := d.core core
    if !c.fetchesAlone then none
    else
      let wait := if isGeneral core then Config.freeCycles s.free else 0
      let put (d : Dev) (f : Fetched) : Dev := d.updCore core fun c =>
        { c with fetched := some f, ready := c.ready + wait }.gap 3 c.charged (if wait = 0 then 0 else c.ready + wait)
      match (corePort d core).bundle s.mem d c.pc with
      | .miss _ => none
      | .fault e => some (put d { addr := c.pc, words := [], fault := some e })
      | .ok ws => some (put ((corePort d core).use s.mem d c.pc) { addr := c.pc, words := ws, fault := none })) s

/-! ## ICACHE_FILL (R215) -/

/-- First byte of the line that holds a physical address. -/
def lineBase (pa : Nat) : Nat := pa / Config.icacheLine * Config.icacheLine

/-- A line from memory. -/
def lineBytes (m : Memory) (d : Dev) (pa : Nat) : List Byte := readBytes m d everyone (lineBase pa) Config.icacheLine

/-- ICACHE_FILL (R215): errs counts the copies of the line that met an uncorrectable error, the cached one among them;
with two the line is unusable, and every bundle in it raises ICACHE_ERROR until an invalidation or a later line
takes its place (DEDUCED, log entry 87).  A corrected error is counted (R222). -/
def execIcacheFill (cluster pa errs : Nat) (corrected : Bool) (s : State) : Host.Outcome State Fault Refusal :=
  happening (fun s =>
    let x := s.dev.cluster cluster
    let cached := (x.line pa).isSome
    if cached && errs = 0 && !corrected then none
    else
      let room := Config.icacheBytes / Config.icacheLine
      let l : ILine := { line := lineBase pa, bytes := lineBytes s.mem s.dev pa, bad := 2 ≤ errs }
      let rest := x.icache.filter fun q => q.line ≠ lineBase pa
      some (s.dev.updCluster cluster fun x =>
        let fe : FrontEnd := { x.fe with icorr := if corrected then satInc x.fe.icorr else x.fe.icorr }
        { x with icache := if cached && errs = 0 then x.icache else (l :: rest).take room, fe := fe })) s

/-! ## PAGE_WALK (R115, R118) -/

/-- PAGE_WALK (R115, R118): a walk without fault enters the cluster's and the die's translation caches, or a die's alone
(dieCache), where it takes the place of an older translation of its page; a failed one enters none, and the access that
asked for it reports its fault. -/
def execPageWalk (cluster ctx : Nat) (va : BitVec 64) (memErr : Bool) (s : State) :
    Host.Outcome State Fault Refusal :=
  happening (fun s =>
    let d := s.dev
    match d.ctx ctx with
    | none => none
    | some c =>
      if wfld va 57 7 ≠ 0 || inAperture va.toNat then none
      else match walkFrom (readWord s.mem d everyone) (walkBad d) d c va.toNat c.ptRoot walkLevels with
        | .error _ => none
        | .ok (leaf, bits) =>
          if memErr then none else
          let e : TlbEnt := { ctx := ctx, va := va.toNat, bits := bits, leaf := leaf }
          some (d.enterTlb cluster e)) s

end Sys2Proof.Machine
end

