-- ==== Sys2Proof/Machine/Boundary.lean ====
section
/-!
DEFINITION. Kernel-iteration boundaries, pre-emption halts and the bound (R30, R35, R40, R156, R192, R193, R496), the
landing of results, interrupts, and what firmware does with a held core (R180, R181, R187).
-/

namespace Sys2Proof.Machine

/-! ## Landing (R49-R53) -/

/-- RESULT_LANDING (R49, R50): an interlocked result whose answer has arrived lands; of fixed-latency results, those
due by the one named. -/
def execResultLanding (core idx : Nat) (s : State) : Host.Outcome State Fault Refusal :=
  happening (fun s =>
    let c := s.dev.core core
    match c.pend[idx]? with
    | none => none
    | some e =>
      match e.due with
      | some x => if x ≤ c.ready then some (s.dev.setCore core (c.landBy x)) else none
      | none => if e.ready && e.after ≤ c.ready then some (s.dev.setCore core (c.landAt idx)) else none) s

/-! ## Pushes (R350, R364) -/

/-- Does a push in flight land by a cycle? -/
def Core.pushDue (c : Core) (cycle : Nat) : Bool :=
  match c.mat.pushes with
  | p :: _ => p.due ≤ cycle
  | [] => false

/-- Does the core issue nothing before its pushes in flight have landed, or wait for something other than a boundary's
results?  It halts, or stops, at a boundary (R193, R496). -/
def Core.awaitsPushes (c : Core) : Bool :=
  c.waits.any (· ≠ .boundary) || (c.preempt && c.atBnd) || (c.stopReq && c.waits.contains .boundary)

/-- PUSH_LANDING (R350): the oldest push lands in its cycle, which comes whether the core is held, waits, or halts; a
held core's clock reaches that cycle. -/
def execPushLanding (core : Nat) (s : State) : Host.Outcome State Fault Refusal :=
  happening (fun s =>
    let c := s.dev.core core
    match c.mat.pushes with
    | [] => none
    | p :: _ =>
      if c.ready < p.due && c.run = .running && !c.awaitsPushes then none
      else
        let ready := match c.run with | .running | .held _ => max c.ready p.due | _ => c.ready
        let held := match c.run with | .held _ => ready - c.ready | _ => 0
        some (s.dev.setCore core { c with
          ready := ready
          heldSum := c.heldSum + held
          mat := c.mat.landPush fun j => Config.freeAcc (128 * s.free + j) })) s

/-- Place of the handle of a PROBE whose lookup has not completed (R236). -/
def Core.lookupDue (c : Core) : Option Nat :=
  c.pend.findIdx? fun e => e.due.isNone && !e.ready && e.tag = 0 &&
    (match e.res with | .h _ (.window _ _) => true | _ => false)

/-- PROBE_LOOKUP (R236): the lookup of a PROBE completes; its handle is no longer pending. -/
def execProbeLookup (core : Nat) (s : State) : Host.Outcome State Fault Refusal :=
  happening (fun s =>
    let c := s.dev.core core
    c.lookupDue.map fun i => s.dev.setCore core (c.landAt i)) s

/-- Every interlocked result has its answer, or the failure that stands for it (R467). -/
def Core.answered (c : Core) : Bool := c.pend.all fun e => e.due.isSome || e.ready || c.lostResult e

/-- The cycle at which the last fixed-latency result lands. -/
def Core.lastDue (c : Core) : Nat := c.pend.foldl (fun t e => max t (e.due.getD e.after)) c.ready

/-- Every result lands (R192); one whose remote load failed stays for the bundle that reports it (R467). -/
def Core.landAll (c : Core) : Core :=
  let t := c.lastDue
  let c := c.landBy t
  let md := c.lp.mloop.isSome
  let (lost, come) := c.pend.partition c.lostResult
  let c' : Core := { c with r := come.foldl (fun r e => r.land md e.res) c.r, pend := lost, ready := max c.ready t }
  c'.gap 2 c.charged t

/-- The cycle by which the engines have finished what the core has issued (R193, R318, R360). -/
def Core.quietAt (c : Core) : Nat := max (max c.ready c.row.busyUntil) (max c.mat.busyUntil c.mat.drainUntil)

/-! ## Boundaries (R30, R156, R192) -/

/-- Passes of a task (R410): a literal, ⌈lr/M⌉, or a scalar register. -/
def Core.tripCount (c : Core) (words : List Word) : Nat :=
  let w := nth words 3 0
  match wfld w 62 2 with
  | 0 => wfld w 0 32
  | 1 => let m := 32 * 2 ^ wfld w 60 2
         (c.r.lr.toNat + m - 1) / m
  | _ => (c.s (wfld w 32 6)).toNat % 2 ^ 32

/-- Has a cancel come to a core that is at a boundary it has already waited for (R30, R40)? -/
def Core.cancelDue (c : Core) : Bool :=
  c.atBnd && (match c.task with | some t => t.cancelled && !t.leaving | none => false)

/-- Is the core between its parts, before the first bundle of a pass or of the epilogue (R30)? -/
def Core.boundaryDue (c : Core) : Bool :=
  c.waits.contains .boundary || c.cancelDue ||
    (match c.task, c.seq.region with
     | some t, .prologue => c.pc = t.ker && c.lp.skip = 0
     | some _, .pass => c.endsPass && !c.atBnd
     | _, _ => false)

/-- An active level other than the task loop, innermost first (R156). -/
def Core.strayLevel (c : Core) : Option Nat :=
  ([5, 4, 3, 2, 1, 0] : List Nat).find? fun l =>
    (c.lp.level l).active && !(match c.lp.mloop with | some q => q.task && q.level = l | none => false)

/-- Both weight planes return to zero bytes, P0 is active and WP is 0 (R345). -/
def Core.clearPlanes (c : Core) : Core :=
  { c with mat := { c.mat with plane0 := [], plane1 := [], active1 := false, wp := 0 } }

/-- Go to the epilogue with no further pass: by EXIT or by a cancel (R39, R40). -/
def Core.leave (c : Core) (t : Task) : Core :=
  let c := match c.lp.mloop with
    | some q => if q.task then c.endLevel q.level else c
    | none => c
  { c with pc := t.epi, task := some { t with leaving := true }, seq := { c.seq with region := .epilogue }
           joinWait := none, fuseWait := none }

/-- The part that follows the boundary (R30, R156, R40). -/
def Core.nextPart (c : Core) (t : Task) : Core :=
  match c.seq.region with
  | .prologue =>
    let n := c.tripCount t.words
    let t := { t with passes := n }
    if t.cancelled then ({ c with task := some t }).leave t
    else if n = 0 || t.ker = t.epi then
      { c with pc := t.epi, task := some t, seq := { c.seq with region := .epilogue, pass := n } }
    else { c with pc := t.ker, task := some t, seq := { c.seq with region := .pass, pass := 0 } }
  | .pass =>
    if c.atBnd || c.lp.inTaskLoop then (if t.cancelled then c.leave t else c)
    else
      let c := { c with seq := { c.seq with pass := c.seq.pass + 1 } }
      if t.cancelled then c.leave t
      else if c.seq.pass < t.passes then { c with pc := t.ker }
      else { c with pc := t.epi, seq := { c.seq with region := .epilogue } }
  | _ => { c with task := some { t with leaving := t.leaving || t.cancelled } }

/-- A non-steering core's part differs from the stream's continuation (R201).  A zero-pass core whose prologue ends by a
taken branch to the kernel address is compared there as at any redirect bundle, and detaches at boundary 0 (DESIGN CHOICE,
log entry 124; entry 90 has the prologue that ends without one). -/
def Dev.partDiverges (d : Dev) (n : Nat) : Bool :=
  let c := d.core n
  c.attached && c.cons ≠ 0 && !c.lp.inTaskLoop &&
    (match tget (d.cluster (clusterOf n)).fe.conts (c.cons - 1) with
     | some (a, _) => a ≠ c.pc && c.seq.region ≠ .none && (a = (d.cluster (feOf d (clusterOf n))).fe.kern)
     | none => false)

/-- The stream waits at the bundle that the core has just consumed for its steering core (R200, R201). -/
def Dev.awaitsSteering (d : Dev) (n : Nat) : Bool :=
  let c := d.core n
  let g := feOf d (clusterOf n)
  c.attached && c.cons ≠ 0 && (d.cluster g).fe.redirect = some (c.cons - 1)

/-- PASS_BOUNDARY on a core: results land, the trip count is evaluated, the next part begins (R192); a loop level
still active is LOOP_NEST (R156), and a boundary stop asked for is taken (R496) (DEDUCED, log entry 43). -/
def passBoundary (m : Memory) (d : Dev) (n time : Nat) : Option Dev :=
  let c := d.core n
  let others := c.waits.filter (· ≠ .boundary)
  if c.run ≠ .running || !c.boundaryDue || !others.isEmpty || !c.answered || d.awaitsSteering n ||
      (c.stopReq && !c.mat.pushes.isEmpty) then none
  else match c.task with
    | none => none
    | some t =>
      let c := { c.landAll with waits := [] }
      match c.strayLevel with
      | some l =>
        let v := c.lp.level l
        let succ := (c.nextPart t).pc
        some ((d.setCore n c).takeEvent m n c succ succ (mkFault 0x08 v.syl (toW l)) time)
      | none =>
        let c := (c.nextPart t).clearPlanes
        let c := { c with atBnd := true, spanStart := none, heldSum := 0 }
        let d := d.setCore n c
        let d := if d.partDiverges n then d.updCore n fun c => (c.detach c.ready).count 0x0D 1 else d
        if c.stopReq then
          some ((d.updCore n fun c => { c with stopReq := false, ready := c.quietAt }).takeEvent m n c c.pc c.pc
            (mkStop 0xD1 0 3) time)
        else some d

/-- PASS_BOUNDARY (R192). -/
def execPassBoundary (core : Nat) (s : State) : Host.Outcome State Fault Refusal :=
  happening (fun s => passBoundary s.mem s.dev core s.time) s

/-! ## Pre-emption (R35, R193, R211, R213) -/

/-- Does a pending pre-emption halt the core now (R35)?  After an EXIT or a cancel the epilogue runs first (R39,
R42). -/
def Core.haltDue (c : Core) : Bool :=
  c.preempt && (match c.run with
    | .idle => c.csrq.isEmpty
    | .running => c.atBnd && c.waits.isEmpty && c.csrq.isEmpty && !c.boundaryDue &&
        !(match c.task with | some t => t.leaving | none => false)
    | _ => false)

/-- A core halts: its phase ends, it leaves the attached set with its ATT bit kept, and a fused pair unfuses. -/
def Dev.haltCore (d : Dev) (n : Nat) : Dev :=
  let c := d.core n
  let g := clusterOf n
  let d := if c.task.isSome then (if c.isMember then d.unfuse g else d).endPhase n else d
  d.updCore n fun c => { c with
    run := .halted, savedAtt := c.attached, attached := false, ibuf := [], cwaits := [], joinWait := none, fuseWait := none,
    gaps := [] }

/-- The words of the core's next bundle, as far as it has them. -/
def Core.nextWords (c : Core) : List Word :=
  match (if c.lp.innermost.isSome then c.lp.buffer.find? fun f => f.addr = c.pc else none).or
      (if c.attached then (c.ibuf.head?.map (·.f)) else c.fetched) with
  | some f => if f.addr = c.pc then f.words else []
  | none => []

/-- The cycles up to the core's clock are charged before it halts or ends its task without a bundle (R489). -/
def Dev.accountNow (m : Memory) (d : Dev) (n time : Nat) : Dev :=
  let c := d.core n
  d.accountTo m n c c.pc c.nextWords c.ready time

/-- PREEMPT_HALT (R35, R193): at a boundary, or at once when idle; pushes in flight have been written first, and every
W operation has finished. -/
def execPreemptHalt (core : Nat) (s : State) : Host.Outcome State Fault Refusal :=
  happening (fun s =>
    let c := s.dev.core core
    if isGeneral core || !c.haltDue || !c.mat.pushes.isEmpty then none
    else
      let d := s.dev.updCore core fun c => ({ c with ready := c.quietAt }).gap 2 c.charged c.quietAt
      let d := if c.task.isSome then d.accountNow s.mem core s.time else d
      some ((d.haltCore core).noteHalt core s.time)) s

/-- A cycle in which the core waits, for a reason of R491; it counts against the iteration bound.  A boundary, an empty
buffer and a JOIN have been waited for since the last bundle, whatever else was. -/
def Core.waitCycle (why : Nat) (c : Core) : Core :=
  { c with ready := c.ready + 1 }.gap why (if why ≤ 4 then c.charged else c.ready) (c.ready + 1)

/-- Cycles counted against the iteration bound (R35). -/
def Core.spanCycles (c : Core) : Nat := match c.spanStart with | some x => c.ready - x - c.heldSum | none => 0

/-- Is the core's task ending (R131)? -/
def Core.isEnding (c : Core) : Bool := c.waits.any fun w => match w with | .ending _ => true | _ => false

/-- Does ITERATION_OVERRUN apply (R35)? -/
def Core.overrunDue (c : Core) : Bool :=
  c.preempt && c.run = .running && !c.isEnding &&
    (match c.task with | some t => wfld (nth t.words 7 0) 32 32 < c.spanCycles | none => false)

/-- ITERATION_OVERRUN (R35): at the bundle reached; the task ends as faulted and the core halts. -/
def execIterationOverrun (core : Nat) (s : State) : Host.Outcome State Fault Refusal :=
  happening (fun s =>
    let c := s.dev.core core
    if isGeneral core || !c.overrunDue then none
    else
      let bound := match c.task with | some t => wfld (nth t.words 7 0) 32 32 | none => 0
      some ((s.dev.accountNow s.mem core s.time).takeEvent s.mem core c c.pc c.pc (mkFault 0x07 (toW bound) (toW c.spanCycles)) s.time)) s

/-! ## Interrupts (R184, R158, R511) -/

/-- INTERRUPT (R184): between bundles, in user mode with IE = 1. -/
def execInterrupt (core : Nat) (s : State) : Host.Outcome State Fault Refusal :=
  happening (fun s =>
    let c := s.dev.core core
    if !isGeneral core || c.run ≠ .running || c.seq.priv || !c.seq.ie || !s.dev.sys.irq.contains (core - 256) then none
    else
      let y := s.dev.sys
      let d := { s.dev with sys := { y with irq := y.irq.erase (core - 256) } }
      some (d.takeEvent s.mem core c c.pc c.pc (mkStop 0xE2 0 0) s.time)) s

/-- HALT_WAKE (R158): a sleeping general core goes on when an interrupt is pending; no trap is taken, and the interrupt
that woke it is no longer pending (DEDUCED, log entry 86). -/
def execHaltWake (core : Nat) (s : State) : Host.Outcome State Fault Refusal :=
  happening (fun s =>
    let c := s.dev.core core
    if c.run = .asleep && isGeneral core && s.dev.sys.irq.contains (core - 256) then
      let y := s.dev.sys
      some ({ s.dev with sys := { y with irq := y.irq.erase (core - 256) } }.updCore core
        fun c => { c with run := .running })
    else none) s

/-! ## Resolutions of a held core (R180, R181, R187, R214) -/

/-- Cycles that firmware takes over a hold (R515: open); they do not count against the bound (R35). -/
def Core.afterHold (c : Core) (cycles : Nat) : Core :=
  { c with run := .running, ready := c.ready + cycles, heldSum := c.heldSum + cycles }.gap 1 c.charged (c.ready + cycles)

/-- Replay (R181): the whole bundle executes again, and its access walks again (R119); where its fetch failed, the front
end fetches again for every core held at that position (R214). -/
def Dev.replay (d : Dev) (n cycles : Nat) : Option Dev :=
  let c := d.core n
  match c.run with
  | .held e =>
    if e.kind ≠ .replayable then none
    else
      let stream := c.attached && (match c.ibuf with | x :: _ => x.f.fault.isSome | [] => false)
      let d := if stream then d.refetch (feOf d (clusterOf n)) else d
      let d := if e.cause = 0x32 then d.forgetPage ((d.ctxOfCore n).getD noContext) (clusterOf n) e.info0 else d
      some (d.updCore n fun c =>
        let c := c.afterHold cycles
        { c with fetched := match c.fetched with | some f => if f.fault.isSome then none else some f | none => none })
  | _ => none

/-- Continue after a stop (R181, R187): as the completed bundle would have led, an EXIT included. -/
def Dev.continueStop (m : Memory) (d : Dev) (n cycles time : Nat) : Option Dev :=
  let c := d.core n
  match c.run with
  | .held e =>
    if e.kind ≠ .stop then none
    else
      let d := d.updCore n fun c => { c.afterHold cycles with exitDue := false, exitStream := false }
      if !c.exitDue then some d
      else if c.seq.region = .epilogue then some (d.taskEnd m n c.exitOutcome time)
      else
        let d := d.updCore n Core.takeExit
        some (if c.exitStream then d.redirected n (d.core n).pc (d.core n).ready else d)
  | _ => none

/-- Unresolved (R181): the task ends as faulted at the bundle. -/
def Dev.unresolved (m : Memory) (d : Dev) (n time : Nat) : Option Dev :=
  match (d.core n).run with
  | .held _ => some (d.taskEnd m n 3 time)
  | _ => none

/-- SEQ_RESUME_REPLAY (R181). -/
def execSeqResumeReplay (core : Nat) (s : State) : Host.Outcome State Fault Refusal :=
  happening (fun s => s.dev.replay core (Config.freeCycles s.free)) s

/-- SEQ_RESUME_CONTINUE (R181, R187). -/
def execSeqResumeContinue (core : Nat) (s : State) : Host.Outcome State Fault Refusal :=
  happening (fun s => s.dev.continueStop s.mem core (Config.freeCycles s.free) s.time) s

/-- SEQ_RESUME_UNRESOLVED (R181). -/
def execSeqResumeUnresolved (core : Nat) (s : State) : Host.Outcome State Fault Refusal :=
  happening (fun s => s.dev.unresolved s.mem core s.time) s

/-! ## Debugging (R483, R496) -/

/-- Source unit of a trace unit (R188). -/
def traceEngine (u : Nat) : Nat := 394 + u

/-- Context of a core with its record. -/
def Dev.ctxAt (d : Dev) (n : Nat) : Option (Nat × Ctx) :=
  (d.ctxOfCore n).bind fun c => (d.ctx c).map fun x => (c, x)

/-- Is the core's context debuggable (R483)? (DEDUCED, log entry 71) -/
def Dev.debuggable (d : Dev) (n : Nat) : Bool := ((d.ctxAt n).map (·.2.dbg)).getD false

/-- Firmware's write to a trace register of number 0xD000 + o of a core, in a context that is not debuggable, is ignored
and recorded (R483, R501). -/
def Dev.debugRefused (d : Dev) (n ctx o info time : Nat) : Dev :=
  d.engineReport (traceEngine (traceUnitOf n)) ctx 0xD0 .fault 0 (toW (0xD000 + o)) (toW info) time

/-- Firmware writes REQ = 1 to a core's TRC.DBG (R483, R496). -/
def Dev.requestStop (d : Dev) (n time : Nat) : Dev :=
  match d.ctxAt n with
  | none => d
  | some (ctx, x) =>
    if !x.dbg then d.debugRefused n ctx 0x11 4 time else d.updCore n fun c => { c with stopReq := true }

/-- BOUNDARY_STOP_REQUEST (R483, R496): firmware asks for a stop at the core's next boundary. -/
def execBoundaryStopRequest (core : Nat) (s : State) : Host.Outcome State Fault Refusal :=
  happening (fun s => if isGeneral core then none else some (s.dev.requestStop core s.time)) s

end Sys2Proof.Machine
end

