-- ==== Sys2Proof/Machine/Hbm.lean ====
section
/-!
DEFINITION. HBM as every agent reaches it: check bits and error history (R388, R392), generation tags (R382, R383),
what a Graver reads (R128, R237), and the engines' own reads and writes of virtual memory (R112-R116, R121).
-/

namespace Sys2Proof.Machine

def Dev.grav (d : Dev) (s : Nat) : Grav := (tget d.gravs s).getD Grav.reset
def Dev.setGrav (d : Dev) (s : Nat) (g : Grav) : Dev := { d with gravs := tset d.gravs s g }

/-- Physical address of a stack's offset: the inverse of R110. -/
def stackAddress (s off : Nat) : Nat := off / 2 ^ 12 * 2 ^ 16 + (s ^^^ (off / 2 ^ 12 % 16)) * 2 ^ 12 + off % 2 ^ 12

/-- Pseudo-channel, bank, column unit and row of a stack offset (R374). -/
def pcOf (off : Nat) : Nat := fld off 6 6
def bankOf (off : Nat) : Nat := fld off 12 4
def colOf (off : Nat) : Nat := fld off 16 4
def rowOf (off : Nat) : Nat := fld off 20 16

/-- Add an error-history record of a stack (R392): the 64 latest are kept. -/
def Grav.record (g : Grav) (kind ctx unit time : Nat) : Grav :=
  let e : HistRec := { seq := g.seq + 1, kind := kind, ctx := ctx, unit := unit, time := time }
  { g with seq := g.seq + 1, hist := (e :: g.hist).take 64 }

/-- Is the 64-byte unit of an address poisoned (R388)? -/
def Dev.poisoned (d : Dev) (pa : Nat) : Bool := pa < hbmTop && d.poison.contains (pa / 64)

/-- Error-history record of an access to a poisoned unit. -/
def Dev.history (d : Dev) (kind ctx pa time : Nat) : Dev :=
  let s := stackOf pa
  d.setGrav s ((d.grav s).record kind ctx (stackOffset pa / 64) time)

/-- Pieces of a byte range, cut at multiples of k. -/
def pieces (k : Nat) : Nat → Nat → Nat → List (Nat × Nat)
  | 0, _, _ => []
  | fuel + 1, a, n =>
    if n = 0 then []
    else
      let l := min n (k - a % k)
      (a, l) :: pieces k fuel (a + l) (n - l)

/-- The pieces of [a, a + n) cut at multiples of 64. -/
def unitPieces (a n : Nat) : List (Nat × Nat) := pieces 64 (n / 64 + 2) a n

/-- One write within a 64-byte unit by an agent: a full unit of HBM clears the poison, a narrower write to a poisoned
unit is dropped and recorded (R388); w says how bytes are entered (DEDUCED, log entry 46). -/
def Dev.unitWrite (d : Dev) (ctx pa : Nat) (bs : List Byte) (time : Nat) (w : Dev → Dev) : Dev :=
  if d.poisoned pa then
    if bs.length = 64 then w { d with poison := d.poison.filter (· ≠ pa / 64) }
    else d.history 6 ctx pa time
  else w d

/-- Clear the error of scratchpad granules that a write covers whole (R225). -/
def Dev.clearGranules (d : Dev) (pa n : Nat) : Dev :=
  match placeOf pa with
  | .spm g off =>
    if (d.cluster g).spmBad.isEmpty then d
    else d.updCluster g fun x =>
      { x with spmBad := x.spmBad.filter fun q => !(off ≤ 8 * q && 8 * q + 8 ≤ off + n) }
  | _ => d

/-- An engine's write of bytes at a physical address. -/
def Dev.writeBytes (d : Dev) (src ctx pa : Nat) (bs : List Byte) (time : Nat) : Dev :=
  (unitPieces pa bs.length).foldl (fun d (a, l) =>
    let piece := (bs.drop (a - pa)).take l
    (d.unitWrite ctx a piece time fun d => d.engineWrite src a piece).clearGranules a l) d

/-! ## Generation tags (R382, R383) -/

/-- Current generation of a slot at a stack. -/
def Dev.generation (d : Dev) (stack ctx slot : Nat) : BitVec 16 := tgetD (d.grav stack).gens (65536 * ctx + slot) 0

/-- Does a Graver drop a tagged write of an address? -/
def Dev.staleTag (d : Dev) (ctx pa : Nat) (tag : Nat) : Bool :=
  fld tag 16 16 ≠ 0xFFFF && (d.generation (stackOf pa) ctx (fld tag 16 16)).toNat ≠ tag % 65536

/-- A tagged write: every 64-byte unit that reaches HBM is checked when it is accepted (R383). -/
def Dev.taggedWrite (d : Dev) (src ctx tag pa : Nat) (bs : List Byte) (time : Nat) : Dev :=
  (unitPieces pa bs.length).foldl (fun d (a, l) =>
    let piece := (bs.drop (a - pa)).take l
    if a < hbmTop && d.staleTag ctx a tag then
      let g := d.grav (stackOf a)
      d.setGrav (stackOf a) { g with stale := satInc g.stale }
    else d.writeBytes src ctx a piece time) d

/-! ## What a Graver reads -/

/-- HBM as its Gravers hold it: memory and every write applied there, with what its granule's order puts before it (R124,
R128, R129). -/
def readApplied (m : Memory) (d : Dev) (pa n : Nat) : List Byte :=
  let near := shownBy (·.applied) (d.stores.filter fun e => e.ended && pa / 8 ≤ e.gran && e.gran * 8 < pa + n)
  (List.range n).map fun i => overlay near (pa + i) (m.read (pa + i))

/-! ## Engine accesses to virtual memory (R115, R116, R121) -/

/-- Why an engine access fails. -/
inductive EngFault where
  /-- a translation fault at an address: the command suspends (R121) -/
  | trans (va : Word) (acc : Access) (f : TFault)
  /-- an uncorrectable error (R225, R388) -/
  | bad (pa : Nat)
  /-- the page lies in another package -/
  | away (pkg : Nat) (va : Word)
  /-- non-canonical or in the aperture -/
  | noEngine (va : Word)
  /-- a page that does not lie in HBM -/
  | notHbm (va : Word)
  /-- an element of a page whose format is unset: its index (R92) -/
  | unset (k : Nat)
  /-- a tile's page without linear scales, or scales that do not fit (R380, R399) -/
  | scales (va : Word)
  deriving DecidableEq, Repr

/-- Address of an access in a context by the engine src (DEDUCED, log entry 58); an engine of a die uses that die's cache
(R118). -/
def engineAddress (m : Memory) (d : Dev) (src ctx : Nat) (va : Word) (acc : Access) : Except EngFault TOk :=
  if wfld va 57 7 ≠ 0 || inAperture va.toNat then .error (.noEngine va)
  else match translate m d (walkBad d) ctx (cacheOf src) va acc with
    | .ok t => .ok t
    | .error f => .error (.trans va acc f)

/-- An uncorrectable unit or granule in [pa, pa + n). -/
def Dev.badAt (d : Dev) (pa n : Nat) : Bool :=
  d.poisoned pa ||
    (match placeOf pa with
     | .spm g off => (d.cluster g).spmBad.any fun q => off < 8 * q + 8 && 8 * q < off + n
     | _ => false)

/-- Read pieces of an address range as an engine; src is the agent. -/
def engineReadPieces (m : Memory) (d : Dev) (src ctx : Nat) : List (Nat × Nat) → Except EngFault (List Byte)
  | [] => .ok []
  | (a, l) :: t =>
    match engineAddress m d src ctx (toW a) .read with
    | .error e => .error e
    | .ok k =>
      match k.remote with
      | some p => .error (.away p (toW a))
      | none =>
        if d.badAt k.pa l then .error (.bad k.pa)
        else match engineReadPieces m d src ctx t with
          | .ok r => .ok (readBytes m d src k.pa l ++ r)
          | .error e => .error e

/-- Read n bytes at a virtual address as an engine. -/
def engineRead (m : Memory) (d : Dev) (src ctx : Nat) (va : Word) (n : Nat) : Except EngFault (List Byte) :=
  engineReadPieces m d src ctx (unitPieces va.toNat n)

/-- Words of a structure that an engine reads. -/
def engineWords (m : Memory) (d : Dev) (src ctx : Nat) (va : Word) (n : Nat) : Except EngFault (List Word) :=
  match engineRead m d src ctx va (8 * n) with
  | .ok b => .ok (wordsOf n b)
  | .error e => .error e

/-- Physical places of an engine's write: every piece translates before any byte is written. -/
def engineTargets (m : Memory) (d : Dev) (src ctx : Nat) : List (Nat × Nat) → Except EngFault (List (Nat × Nat × Nat))
  | [] => .ok []
  | (a, l) :: t =>
    match engineAddress m d src ctx (toW a) .write with
    | .error e => .error e
    | .ok k =>
      match k.remote with
      | some p => .error (.away p (toW a))
      | none => match engineTargets m d src ctx t with
        | .ok r => .ok ((a, k.pa, l) :: r)
        | .error e => .error e

/-- Write bytes at a virtual address as an engine; tag filters the writes that reach HBM. -/
def engineStore (m : Memory) (d : Dev) (src ctx : Nat) (va : Word) (bs : List Byte) (tag : Option Nat) (time : Nat) :
    Except EngFault Dev :=
  match engineTargets m d src ctx (unitPieces va.toNat bs.length) with
  | .error e => .error e
  | .ok l =>
    let d := d.useTlb m (walkBad d) ctx (cacheOf src) va
    .ok (l.foldl (fun d (a, pa, n) =>
      let piece := (bs.drop (a - va.toNat)).take n
      match tag with
      | some t => d.taggedWrite src ctx t pa piece time
      | none => d.writeBytes src ctx pa piece time) d)

/-- The record of a translation fault that suspends a command (R121, R188, R189). -/
def Dev.reportTrans (d : Dev) (src ctx : Nat) (baddr va : Word) (acc : Access) (f : TFault) (time : Nat) : Dev :=
  let kind : EvKind := if f.cause = 0x31 || f.cause = 0x32 || f.cause = 0x33 then .replayable else .fault
  d.engineReport src ctx f.cause kind baddr va (toW (acc.code * 16 + f.level)) time

/-- Is a failed translation one that firmware may resolve (R117, R121)? -/
def TFault.replayable (f : TFault) : Bool := f.cause = 0x31 || f.cause = 0x32 || f.cause = 0x33

/-- Report an uncorrectable HBM read of a command (R388, R389). -/
def Dev.reportBad (d : Dev) (src ctx pa time : Nat) : Dev :=
  let off := stackOffset pa
  (d.history 2 ctx pa time).engineReport src ctx 0x81 .fault 0 (toW (pa / 64 * 64))
    (toW (stackOf pa * 64 + pcOf off)) time

end Sys2Proof.Machine
end

