-- ==== Sys2Proof/Machine/Vector.lean ====
section
/-!
DEFINITION. The V class (R287-R309): groups of elements, source modifiers, integer and floating-point arithmetic,
selection, masks, compares, conversions, reductions, extract and insert, and the generator's seed.
-/

namespace Sys2Proof.Machine

/-! ## Groups of elements (R56, R57, R59, R288) -/

/-- Registers of a group as they stand at issue. -/
def Core.group (c : Core) (first g : Nat) : List VWord := (List.range g).map fun q => c.v (first + q)

/-- n elements of w bits of a list of registers (R56). -/
def elemsOf (regs : List VWord) (n w : Nat) : List Nat :=
  (List.range n).map fun i => fld (nth regs (i * w / 2048) 0).toNat (i * w % 2048) w

/-- n elements of w bits from register first. -/
def Core.elems (c : Core) (first n w : Nat) : List Nat := elemsOf (c.group first (groupSize n w)) n w

/-- Little-endian number of fields of w bits. -/
def packNat (w : Nat) : List Nat → Nat
  | [] => 0
  | x :: t => x % 2 ^ w + 2 ^ w * packNat w t

/-- Registers that elements of w bits fill, with the bits written: bits above the last element keep their values
(R57). -/
def packGroup (w : Nat) (vals : List Nat) : List (VWord × VWord) :=
  let per := 2048 / w
  (List.range (groupSize vals.length w)).map fun q =>
    let l := (vals.drop (q * per)).take per
    (BitVec.ofNat 2048 (packNat w l), BitVec.ofNat 2048 (2 ^ (w * l.length) - 1))

/-- Lane of 32 bits that lane j takes under a source modifier (R59). -/
def modLane (mdf j : Nat) : Nat :=
  let s := 2 ^ fld mdf 6 4
  let d := fld mdf 0 6
  let base := j - j % s
  match fld mdf 10 2 with
  | 1 => base + (j - base + d) % s
  | 2 => j ^^^ d
  | 3 => base + d
  | _ => j

/-- A register reshaped by a source modifier (R59). -/
def modVec (mdf : BitVec 12) (v : VWord) : VWord :=
  if mdf = 0 then v
  else BitVec.ofNat 2048 (packNat 32 ((List.range 64).map fun j => fld v.toNat (32 * modLane mdf.toNat j) 32))

/-- Elements of the second source: a broadcast scalar, or the group under its modifier (R59, R288). -/
def Core.second (c : Core) (bs : BitVec 1) (b : BitVec 6) (mdf : BitVec 12) (n w : Nat) : List Nat :=
  if bs = 1 then List.replicate n ((c.s b.toNat).toNat % 2 ^ w)
  else elemsOf ((c.group b.toNat (groupSize n w)).map (modVec mdf)) n w

/-- Elements named by NQ (R56). -/
def elemCount (nq : BitVec 6) : Nat := 16 * nq.toNat

/-- A syllable whose result is a group of elements. -/
def vecResult (h : Hdr) (d : BitVec 6) (w lat : Nat) (vals : Core → List Nat) (s : State) :
    Host.Outcome State Fault Refusal :=
  syllable h (fun s b c => .ok (sendV s.dev b c d.toNat (packGroup w (vals c)) lat)) s

/-- A binary VR form on elements of w bits (R291). -/
def vecBinary (h : Hdr) (o : VR) (w lat : Nat) (op : Nat → Nat → Nat) (s : State) :
    Host.Outcome State Fault Refusal :=
  vecResult h o.d w lat (fun c =>
    List.zipWith op (c.elems o.a.toNat (elemCount o.nq) w) (c.second o.bs o.b o.mdf (elemCount o.nq) w)) s

/-- A unary VR form (R291). -/
def vecUnary (h : Hdr) (o : VR) (w lat : Nat) (op : Nat → Nat) (s : State) : Host.Outcome State Fault Refusal :=
  vecResult h o.d w lat (fun c => (c.elems o.a.toNat (elemCount o.nq) w).map op) s

/-- A VI form on each element of a (R292). -/
def vecImm (h : Hdr) (o : VI) (w : Nat) (op : Nat → Nat) (s : State) : Host.Outcome State Fault Refusal :=
  vecResult h o.d w 2 (fun c => (c.elems o.a.toNat (elemCount o.nq) w).map op) s

/-! ## Element operations (R291-R294); results are taken modulo 2^w -/

/-- A signed result modulo 2^w. -/
def wrapInt (w : Nat) (z : Int) : Nat := (z % 2 ^ w).toNat

/-- A signed result clamped to w bits. -/
def clampInt (w : Nat) (z : Int) : Nat := wrapInt w (min (2 ^ (w - 1) - 1) (max (-(2 ^ (w - 1))) z))

def eAdd (w a b : Nat) : Nat := (a + b) % 2 ^ w
def eSub (w a b : Nat) : Nat := (a + 2 ^ w - b) % 2 ^ w
def eMul (w a b : Nat) : Nat := a * b % 2 ^ w
def eMulh (w a b : Nat) : Nat := a * b / 2 ^ w
def eMinn (w a b : Nat) : Nat := if signedOf w a ≤ signedOf w b then a else b
def eMaxn (w a b : Nat) : Nat := if signedOf w a ≤ signedOf w b then b else a
def eShl (w a b : Nat) : Nat := a * 2 ^ (b % w) % 2 ^ w
def eShr (w a b : Nat) : Nat := a / 2 ^ (b % w)
def eSra (w a b : Nat) : Nat := wrapInt w (signedOf w a / 2 ^ (b % w))
def eAdds (w a b : Nat) : Nat := clampInt w (signedOf w a + signedOf w b)
def eSubs (w a b : Nat) : Nat := clampInt w (signedOf w a - signedOf w b)
def ePopc (w a : Nat) : Nat := ((List.range w).filter fun i => a.testBit i).length
def eClz (w a : Nat) : Nat := ((List.range w).find? fun i => a.testBit (w - 1 - i)).getD w
def eAbs (w a : Nat) : Nat := (signedOf w a).natAbs % 2 ^ w
def eAndn (w a b : Nat) : Nat := a &&& (2 ^ w - 1 - b)

/-- Carry-less product of two 64-bit numbers (R294). -/
def clmul (a b : Nat) : Nat := (List.range 64).foldl (fun c k => if b.testBit k then c ^^^ (a * 2 ^ k) else c) 0

/-! ## Width-coded VR forms (R291) -/

/-- VADD (R291). -/
def execVadd (h : Hdr) (ew : BitVec 2) (o : VR) (s : State) : Host.Outcome State Fault Refusal :=
  vecBinary h o (widthOf ew) 2 (eAdd (widthOf ew)) s
/-- VSUB (R291). -/
def execVsub (h : Hdr) (ew : BitVec 2) (o : VR) (s : State) : Host.Outcome State Fault Refusal :=
  vecBinary h o (widthOf ew) 2 (eSub (widthOf ew)) s
/-- VMUL (R291). -/
def execVmul (h : Hdr) (ew : BitVec 2) (o : VR) (s : State) : Host.Outcome State Fault Refusal :=
  vecBinary h o (widthOf ew) 3 (eMul (widthOf ew)) s
/-- VMULH (R291). -/
def execVmulh (h : Hdr) (ew : BitVec 2) (o : VR) (s : State) : Host.Outcome State Fault Refusal :=
  vecBinary h o (widthOf ew) 3 (eMulh (widthOf ew)) s
/-- VMIN (R291). -/
def execVmin (h : Hdr) (ew : BitVec 2) (o : VR) (s : State) : Host.Outcome State Fault Refusal :=
  vecBinary h o (widthOf ew) 2 min s
/-- VMAX (R291). -/
def execVmax (h : Hdr) (ew : BitVec 2) (o : VR) (s : State) : Host.Outcome State Fault Refusal :=
  vecBinary h o (widthOf ew) 2 max s
/-- VMINN (R291). -/
def execVminn (h : Hdr) (ew : BitVec 2) (o : VR) (s : State) : Host.Outcome State Fault Refusal :=
  vecBinary h o (widthOf ew) 2 (eMinn (widthOf ew)) s
/-- VMAXN (R291). -/
def execVmaxn (h : Hdr) (ew : BitVec 2) (o : VR) (s : State) : Host.Outcome State Fault Refusal :=
  vecBinary h o (widthOf ew) 2 (eMaxn (widthOf ew)) s
/-- VSHL (R291). -/
def execVshl (h : Hdr) (ew : BitVec 2) (o : VR) (s : State) : Host.Outcome State Fault Refusal :=
  vecBinary h o (widthOf ew) 2 (eShl (widthOf ew)) s
/-- VSHR (R291). -/
def execVshr (h : Hdr) (ew : BitVec 2) (o : VR) (s : State) : Host.Outcome State Fault Refusal :=
  vecBinary h o (widthOf ew) 2 (eShr (widthOf ew)) s
/-- VSRA (R291). -/
def execVsra (h : Hdr) (ew : BitVec 2) (o : VR) (s : State) : Host.Outcome State Fault Refusal :=
  vecBinary h o (widthOf ew) 2 (eSra (widthOf ew)) s
/-- VADDS (R291). -/
def execVadds (h : Hdr) (ew : BitVec 2) (o : VR) (s : State) : Host.Outcome State Fault Refusal :=
  vecBinary h o (widthOf ew) 2 (eAdds (widthOf ew)) s
/-- VSUBS (R291). -/
def execVsubs (h : Hdr) (ew : BitVec 2) (o : VR) (s : State) : Host.Outcome State Fault Refusal :=
  vecBinary h o (widthOf ew) 2 (eSubs (widthOf ew)) s
/-- VPOPC (R291). -/
def execVpopc (h : Hdr) (ew : BitVec 2) (o : VR) (s : State) : Host.Outcome State Fault Refusal :=
  vecUnary h o (widthOf ew) 3 (ePopc (widthOf ew)) s
/-- VCLZ (R291). -/
def execVclz (h : Hdr) (ew : BitVec 2) (o : VR) (s : State) : Host.Outcome State Fault Refusal :=
  vecUnary h o (widthOf ew) 3 (eClz (widthOf ew)) s
/-- VABS (R291). -/
def execVabs (h : Hdr) (ew : BitVec 2) (o : VR) (s : State) : Host.Outcome State Fault Refusal :=
  vecUnary h o (widthOf ew) 2 (eAbs (widthOf ew)) s

/-! ## VR forms on 32-bit and 64-bit elements (R293, R294) -/

/-- VAND (R293). -/
def execVand (h : Hdr) (o : VR) (s : State) : Host.Outcome State Fault Refusal :=
  vecBinary h o 32 2 (· &&& ·) s
/-- VOR (R293). -/
def execVor (h : Hdr) (o : VR) (s : State) : Host.Outcome State Fault Refusal :=
  vecBinary h o 32 2 (· ||| ·) s
/-- VXOR (R293). -/
def execVxor (h : Hdr) (o : VR) (s : State) : Host.Outcome State Fault Refusal :=
  vecBinary h o 32 2 (· ^^^ ·) s
/-- VANDN (R293). -/
def execVandn (h : Hdr) (o : VR) (s : State) : Host.Outcome State Fault Refusal :=
  vecBinary h o 32 2 (eAndn 32) s
/-- VMOV (R293). -/
def execVmov (h : Hdr) (o : VR) (s : State) : Host.Outcome State Fault Refusal :=
  vecBinary h o 32 2 (fun _ b => b) s
/-- VCLMULL (R294). -/
def execVclmull (h : Hdr) (o : VR) (s : State) : Host.Outcome State Fault Refusal :=
  vecBinary h o 64 3 (fun a b => clmul a b % 2 ^ 64) s
/-- VCLMULH (R294). -/
def execVclmulh (h : Hdr) (o : VR) (s : State) : Host.Outcome State Fault Refusal :=
  vecBinary h o 64 3 (fun a b => clmul a b / 2 ^ 64) s
/-- VPERM (R293): a gather from the whole group of a. -/
def execVperm (h : Hdr) (o : VR) (s : State) : Host.Outcome State Fault Refusal :=
  vecResult h o.d 32 2 (fun c =>
    let n := elemCount o.nq
    let a := c.elems o.a.toNat n 32
    (c.second o.bs o.b o.mdf n 32).map fun i => if i < n then nth a i 0 else 0) s

/-! ## VI forms (R292) -/

/-- VADDI (R292). -/
def execVaddi (h : Hdr) (ew : BitVec 2) (o : VI) (s : State) : Host.Outcome State Fault Refusal :=
  vecImm h o (widthOf ew) (fun a => wrapInt (widthOf ew) (a + signedOf 20 o.imm.toNat)) s
/-- VSHLI (R292). -/
def execVshli (h : Hdr) (ew : BitVec 2) (o : VI) (s : State) : Host.Outcome State Fault Refusal :=
  vecImm h o (widthOf ew) (fun a => eShl (widthOf ew) a o.imm.toNat) s
/-- VSHRI (R292). -/
def execVshri (h : Hdr) (ew : BitVec 2) (o : VI) (s : State) : Host.Outcome State Fault Refusal :=
  vecImm h o (widthOf ew) (fun a => eShr (widthOf ew) a o.imm.toNat) s
/-- VMOVI (R292). -/
def execVmovi (h : Hdr) (ew : BitVec 2) (o : VI) (s : State) : Host.Outcome State Fault Refusal :=
  vecImm h o (widthOf ew) (fun _ => wrapInt (widthOf ew) (signedOf 20 o.imm.toNat)) s

/-! ## Selection, masks and compares (R295-R298) -/

/-- The bits of a register that a mask selects, byte by byte (R60). -/
def maskBits (m : MWord) : VWord :=
  BitVec.ofNat 2048 (packNat 8 ((List.range 256).map fun k => if m.getLsbD k then 255 else 0))

/-- VSEL (R295). -/
def execVsel (h : Hdr) (o : VM) (s : State) : Host.Outcome State Fault Refusal :=
  syllable h (fun s b c =>
    let n := elemCount o.nq
    let g := groupSize n 32
    let sel := maskBits (c.m o.ms.toNat)
    let bw := (packGroup 32 (c.second o.bs o.b 0 n 32)).map (·.1)
    let full := (packGroup 32 (List.replicate n 0)).map (·.2)
    let mix := List.zipWith (fun x y => (x &&& sel) ||| (y &&& ~~~sel)) (c.group o.a.toNat g) bw
    .ok (sendV s.dev b c o.d.toNat (mix.zip full) 2)) s

/-- A mask form (R296). -/
def maskForm (h : Hdr) (o : VMM) (op : MWord → MWord → MWord) (s : State) : Host.Outcome State Fault Refusal :=
  syllable h (fun s b c => .ok (sendM s.dev b o.md.toNat (op (c.m o.ma.toNat) (c.m o.mb.toNat)) 2)) s

/-- MAND (R296). -/
def execMand (h : Hdr) (o : VMM) (s : State) : Host.Outcome State Fault Refusal := maskForm h o (· &&& ·) s
/-- MOR (R296). -/
def execMor (h : Hdr) (o : VMM) (s : State) : Host.Outcome State Fault Refusal := maskForm h o (· ||| ·) s
/-- MXOR (R296). -/
def execMxor (h : Hdr) (o : VMM) (s : State) : Host.Outcome State Fault Refusal := maskForm h o (· ^^^ ·) s
/-- MNOT (R296). -/
def execMnot (h : Hdr) (o : VMM) (s : State) : Host.Outcome State Fault Refusal := maskForm h o (fun x _ => ~~~x) s

/-- A condition of R297 on two elements of a type. -/
def condHolds (ty : BitVec 3) (cnd a b : Nat) : Bool :=
  let f := tyFmt ty
  let x := f.decode a
  let y := f.decode b
  match cnd with
  | 0 => x.eqv y
  | 1 => !x.eqv y
  | 2 => x.lt y
  | 3 => x.lt y || x.eqv y
  | 4 => y.lt x
  | 5 => y.lt x || x.eqv y
  | 6 => decide (a < b)
  | 7 => decide (a ≤ b)
  | 8 => !x.isNan && !y.isNan
  | 9 => x.isNan || y.isNan
  | _ => false

/-- VCMP (R297, R298). -/
def execVcmp (h : Hdr) (o : VP) (s : State) : Host.Outcome State Fault Refusal :=
  syllable h (fun s b c =>
    let w := tyWidth o.ty
    let n := elemCount o.nq
    let bits := List.zipWith (fun x y => if condHolds o.ty o.cnd.toNat x y then 2 ^ (w / 8) - 1 else 0)
      (c.elems o.a.toNat n w) (c.second o.bs o.b 0 n w)
    .ok (sendM s.dev b o.md.toNat (BitVec.ofNat 256 (packNat (w / 8) bits)) 4)) s

/-! ## The generator (R97, R98, R309) -/

/-- The draw that an executing syllable makes: under RM = 0b11 it advances g (R98). -/
def drawIn (d : Dev) (n : Nat) (rm : BitVec 2) : Dev × Word :=
  if rm = 3 then
    let x := drawNext (d.core n).r.gen
    (d.updCore n fun c => { c with r := { c.r with gen := x } }, x)
  else (d, 0)

/-- Rounding of result i of a syllable whose draw is x. -/
def roundingOf (rm : BitVec 2) (sat : BitVec 1) (x : Word) (i : Nat) : Rounding :=
  { rm := rm, sat := sat = 1, u := if rm = 3 then drawWord x i else 0 }

/-- VSEED (R97, R309). -/
def execVseed (h : Hdr) (o : VX) (s : State) : Host.Outcome State Fault Refusal :=
  syllable h (fun s b c =>
    .ok (s.dev.updCore b.core fun x => { x with r := { x.r with gen := seedOf (c.s o.a.toNat) } })) s

/-! ## Floating-point arithmetic (R299) and approximations (R300, R301) -/

/-- A VF form: exact values of a, bmod and d as they stand at issue, one rounding for each element. -/
def vecFloat (h : Hdr) (o : VF) (lat : Nat) (op : FVal → FVal → FVal → FVal) (s : State) :
    Host.Outcome State Fault Refusal :=
  syllable h (fun s b c =>
    let f := vfFmt o.ty
    let n := elemCount o.nq
    let (d, x) := drawIn s.dev b.core o.rm
    let xs := c.elems o.a.toNat n f.c
    let ys := c.second o.bs o.b 0 n f.c
    let zs := c.elems o.d.toNat n f.c
    let vals := (List.range n).map fun i =>
      f.encode (roundingOf o.rm o.sat x i)
        (op (f.decode (nth xs i 0)) (f.decode (nth ys i 0)) (f.decode (nth zs i 0)))
    .ok (sendV d b c o.d.toNat (packGroup f.c vals) lat)) s

/-- VFMIN's choice (R299). -/
def fMin (x y : FVal) : FVal := if x.isNan then y else if y.isNan then x else if y.below x then y else x
/-- VFMAX's choice (R299). -/
def fMax (x y : FVal) : FVal := if x.isNan then y else if y.isNan then x else if x.below y then y else x

/-- VFADD (R299). -/
def execVfadd (h : Hdr) (o : VF) (s : State) : Host.Outcome State Fault Refusal :=
  vecFloat h o 4 (fun a b _ => a.add b) s
/-- VFSUB (R299). -/
def execVfsub (h : Hdr) (o : VF) (s : State) : Host.Outcome State Fault Refusal :=
  vecFloat h o 4 (fun a b _ => a.add b.neg) s
/-- VFMUL (R299). -/
def execVfmul (h : Hdr) (o : VF) (s : State) : Host.Outcome State Fault Refusal :=
  vecFloat h o 4 (fun a b _ => a.mul b) s
/-- VFMA (R299). -/
def execVfma (h : Hdr) (o : VF) (s : State) : Host.Outcome State Fault Refusal :=
  vecFloat h o 4 (fun a b d => (a.mul b).add d) s
/-- VFMS (R299). -/
def execVfms (h : Hdr) (o : VF) (s : State) : Host.Outcome State Fault Refusal :=
  vecFloat h o 4 (fun a b d => (a.mul b).add d.neg) s
/-- VFNMA (R299). -/
def execVfnma (h : Hdr) (o : VF) (s : State) : Host.Outcome State Fault Refusal :=
  vecFloat h o 4 (fun a b d => (a.mul b).neg.add d) s
/-- VFMIN (R299). -/
def execVfmin (h : Hdr) (o : VF) (s : State) : Host.Outcome State Fault Refusal :=
  vecFloat h o 4 (fun a b _ => fMin a b) s
/-- VFMAX (R299). -/
def execVfmax (h : Hdr) (o : VF) (s : State) : Host.Outcome State Fault Refusal :=
  vecFloat h o 4 (fun a b _ => fMax a b) s
/-- VFABS (R299). -/
def execVfabs (h : Hdr) (o : VF) (s : State) : Host.Outcome State Fault Refusal :=
  vecFloat h o 4 (fun a _ _ => a.abs) s
/-- VFNEG (R299). -/
def execVfneg (h : Hdr) (o : VF) (s : State) : Host.Outcome State Fault Refusal :=
  vecFloat h o 4 (fun a _ _ => a.neg) s
/-- VEXP2 (R300, R301). -/
def execVexp2 (h : Hdr) (o : VF) (s : State) : Host.Outcome State Fault Refusal :=
  vecFloat h o 6 (fun a _ _ => round16 (exp2Val a)) s
/-- VLOG2 (R300, R301). -/
def execVlog2 (h : Hdr) (o : VF) (s : State) : Host.Outcome State Fault Refusal :=
  vecFloat h o 6 (fun a _ _ => round16 (log2Val a)) s
/-- VRCP (R300, R301). -/
def execVrcp (h : Hdr) (o : VF) (s : State) : Host.Outcome State Fault Refusal :=
  vecFloat h o 6 (fun a _ _ => round16 (rcpVal a)) s
/-- VRSQ (R300, R301). -/
def execVrsq (h : Hdr) (o : VF) (s : State) : Host.Outcome State Fault Refusal :=
  vecFloat h o 6 (fun a _ _ => round16 (rsqVal a)) s
/-- VTANH (R300, R301). -/
def execVtanh (h : Hdr) (o : VF) (s : State) : Host.Outcome State Fault Refusal :=
  vecFloat h o 6 (fun a _ _ => round16 (tanhVal a)) s

/-! ## Conversions (R302, R303) -/

/-- A core's format register (R60, R84): the context's entry, unset where there is no context. -/
def formatReg (d : Dev) (n k : Nat) : Word :=
  match (d.ctxOfCore n).bind d.ctx with
  | some x => nth x.fmt k 0x0000000700000000
  | none => 0x0000000700000000

/-- KIND allowed to floating conversions, or to the integer ones (R302). -/
def kindAllowed (int : Bool) (w : Word) : Bool :=
  match descKind w with
  | 0 => (wfld w 16 4 = 0) == int
  | 1 | 2 | 3 => !int
  | 4 | 5 | 6 => int
  | _ => false

/-- A conversion between FP32 and a descriptor's format; i is the syllable itself, for its record (R310). -/
def convert (h : Hdr) (o : VC) (i : Instr) (int out : Bool) (s : State) : Host.Outcome State Fault Refusal :=
  syllable h (fun s b c =>
    let w := formatReg s.dev b.core o.fmt.toNat
    match descFmt w with
    | none => .raise (mkFault 0x50 (sylWord i) (toW o.fmt.toNat))
    | some f =>
      if !kindAllowed int w then .raise (mkFault 0x51 (sylWord i) (toW (descKind w * 256 + o.fmt.toNat)))
      else
        let src := if out then fmtFp32 else f
        let dst := if out then f else fmtFp32
        let n := elemCount o.nq
        let (d, x) := drawIn s.dev b.core o.rm
        let xs := c.elems o.a.toNat n src.c
        let vals := (List.range n).map fun i =>
          dst.encode (roundingOf o.rm o.sat x i) (src.decode (nth xs i 0))
        .ok (sendV d b c o.d.toNat (packGroup dst.c vals) 4)) s

/-- VCVTF (R302). -/
def execVcvtf (h : Hdr) (o : VC) (s : State) : Host.Outcome State Fault Refusal :=
  convert h o (.vcvtf h o) false false s
/-- VCVTN (R302). -/
def execVcvtn (h : Hdr) (o : VC) (s : State) : Host.Outcome State Fault Refusal :=
  convert h o (.vcvtn h o) false true s
/-- VCVTI (R302). -/
def execVcvti (h : Hdr) (o : VC) (s : State) : Host.Outcome State Fault Refusal :=
  convert h o (.vcvti h o) true true s
/-- VCVTIF (R302). -/
def execVcvtif (h : Hdr) (o : VC) (s : State) : Host.Outcome State Fault Refusal :=
  convert h o (.vcvtif h o) true false s

/-! ## Reductions and scans (R304-R307) -/

/-- Segments of 2^SEG consecutive items. -/
def segments {α : Type} (seg : Nat) (l : List α) : List (List α) :=
  (List.range (l.length / seg)).map fun q => (l.drop (q * seg)).take seg

/-- Source segments of a VS form. -/
def vsSource (c : Core) (o : VS) : List (List Nat) :=
  segments (2 ^ o.seg.toNat) (c.elems o.a.toNat (elemCount o.nq) (tyWidth o.ty))

/-- Sum of elements of a type: wrapped integers, or the exact sum rounded once (R305). -/
def sumElems (ty : BitVec 3) (r : Rounding) (l : List Nat) : Nat :=
  if tyFloat ty then (tyFmt ty).encode r (.sum (l.map (tyFmt ty).decode)) else l.sum % 2 ^ tyWidth ty

/-- A form whose destination elements are sums (R305): sums lists the terms of each. -/
def vecSums (h : Hdr) (o : VS) (lat : Nat) (sums : List Nat → List (List Nat)) (s : State) :
    Host.Outcome State Fault Refusal :=
  syllable h (fun s b c =>
    let (d, x) := drawIn s.dev b.core o.rm
    let terms := (vsSource c o).flatMap sums
    let vals := (List.range terms.length).map fun i => sumElems o.ty (roundingOf o.rm 0 x i) (nth terms i [])
    .ok (sendV d b c o.d.toNat (packGroup (tyWidth o.ty) vals) lat)) s

/-- VRSUM (R305). -/
def execVrsum (h : Hdr) (o : VS) (s : State) : Host.Outcome State Fault Refusal := vecSums h o 6 (fun l => [l]) s
/-- VPSUM (R305). -/
def execVpsum (h : Hdr) (o : VS) (s : State) : Host.Outcome State Fault Refusal :=
  vecSums h o 8 (fun l => (List.range l.length).map fun r => l.take (r + 1)) s

/-- Greatest or least of a segment: NaN elements are ignored, all NaN gives the canonical NaN (R306). -/
def pickElem (ty : BitVec 3) (best : FVal → FVal → FVal) (l : List Nat) : Nat :=
  let f := tyFmt ty
  f.encode rne ((l.map f.decode).foldl best .nan)

/-- VRMAX (R305, R306). -/
def execVrmax (h : Hdr) (o : VS) (s : State) : Host.Outcome State Fault Refusal :=
  vecResult h o.d (tyWidth o.ty) 6 (fun c => (vsSource c o).map (pickElem o.ty fMax)) s
/-- VRMIN (R305, R306). -/
def execVrmin (h : Hdr) (o : VS) (s : State) : Host.Outcome State Fault Refusal :=
  vecResult h o.d (tyWidth o.ty) 6 (fun c => (vsSource c o).map (pickElem o.ty fMin)) s

/-- Does a value rank before another (R307)? -/
def ranksBefore (x y : FVal) : Bool := !x.isNan && (y.isNan || y.below x)

/-- Place an index among ranked ones, after those it does not precede. -/
def insRank (e : Nat × FVal) : List (Nat × FVal) → List (Nat × FVal)
  | [] => [e]
  | x :: t => if ranksBefore e.2 x.2 then e :: x :: t else x :: insRank e t

/-- Indexes of a segment by rank: descending values, the lower index first among equals, NaN last. -/
def ranked (ty : BitVec 3) (l : List Nat) : List Nat :=
  ((((List.range l.length).zip (l.map (tyFmt ty).decode)).foldl (fun acc e => insRank e acc) []).map (·.1))

/-- VARGMAX (R305, R306). -/
def execVargmax (h : Hdr) (o : VS) (s : State) : Host.Outcome State Fault Refusal :=
  vecResult h o.d 32 8 (fun c => (vsSource c o).map fun l => (ranked o.ty l).headD 0) s

/-- VTOPK (R307). -/
def execVtopk (h : Hdr) (o : VS) (s : State) : Host.Outcome State Fault Refusal :=
  vecResult h o.d 32 8 (fun c =>
    let k := (c.s o.b.toNat).toNat
    (vsSource c o).flatMap fun l =>
      let order := ranked o.ty l
      (List.range l.length).map fun r => if r < k then nth order r 0 else 0xFFFFFFFF) s

/-! ## Extract and insert (R308) -/

/-- Register and bit of element j of w bits from a first register; none beyond the group or v63. -/
def elemPlace (first n w j : Nat) : Option (Nat × Nat) :=
  let r := first + j * w / 2048
  if n ≤ j || 63 < r then none else some (r, j * w % 2048)

/-- VEXTS (R308). -/
def execVexts (h : Hdr) (o : VS) (s : State) : Host.Outcome State Fault Refusal :=
  syllable h (fun s b c =>
    let w := tyWidth o.ty
    let val := match elemPlace o.a.toNat (elemCount o.nq) w (wfld (c.s o.b.toNat) 0 32) with
      | some (r, k) => toW (fld (c.v r).toNat k w)
      | none => 0
    .ok (sendS s.dev b c o.d.toNat val 6)) s

/-- VINSS (R308). -/
def execVinss (h : Hdr) (o : VS) (s : State) : Host.Outcome State Fault Refusal :=
  syllable h (fun s b c =>
    let w := tyWidth o.ty
    match elemPlace o.d.toNat (elemCount o.nq) w (wfld (c.s o.b.toNat) 0 32) with
    | some (r, k) =>
      let v := BitVec.ofNat 2048 ((c.s o.a.toNat).toNat % 2 ^ w * 2 ^ k)
      let m := BitVec.ofNat 2048 ((2 ^ w - 1) * 2 ^ k)
      .ok (sendV s.dev b c r [(v, m)] 2)
    | none => .ok s.dev) s

end Sys2Proof.Machine
end

