-- ==== Sys2Proof/Machine/Address.lean ====
section
/-!
DEFINITION. The accesses of the L class (R224-R229): which bytes a syllable touches, and where each of them lies.
-/

namespace Sys2Proof.Machine

/-- A part of an access that lies in one granule: an element, or eight bytes of an image. -/
structure Piece where
  ea : Word
  len : Nat
  elem : Nat
  deriving DecidableEq, Repr

/-- What a syllable accesses: the alignment it asks for, the range of a contiguous form, and its parts in the order
of R229. -/
structure Accesses where
  size : Nat
  range : Option (Word × Nat)
  parts : List Piece
  deriving DecidableEq, Repr

/-- Parts of n elements of w bytes at the addresses given by at. -/
def elementParts (n w : Nat) (at' : Nat → Word) : List Piece :=
  (List.range n).map fun i => { ea := at' i, len := w, elem := i }

/-- EA of the LM forms (R227). -/
def Core.lmAddress (c : Core) (o : LM) : Word := c.s o.a.toNat + o.disp.signExtend 64

/-- Scalar forms of w bytes (R227). -/
def Core.scalarAccess (c : Core) (o : LM) (w : Nat) : Accesses :=
  let ea := c.lmAddress o
  { size := w, range := some (ea, w), parts := elementParts 1 w fun _ => ea }

/-- LDV and STV (R228). -/
def Core.vectorAccess (c : Core) (o : LM) : Accesses :=
  let ea := c.lmAddress o
  let n := elemCount o.nq
  { size := 4, range := some (ea, 4 * n), parts := elementParts n 4 fun i => ea + toW (4 * i) }

/-- LDVS and STVS (R228): a signed byte stride. -/
def Core.strideAccess (c : Core) (o : LS) : Accesses :=
  { size := 4, range := none
    parts := elementParts (elemCount o.nq) 4 fun i => c.s o.a.toNat + toW i * c.s o.b.toNat }

/-- LDVX and STVX (R228): an index group of 32-bit elements. -/
def Core.indexAccess (c : Core) (o : LX) : Accesses :=
  let n := elemCount o.nq
  let w := 2 ^ o.isz.toNat
  let idx := c.elems o.b.toNat n 32
  { size := w, range := none, parts := elementParts n w fun i => c.s o.a.toNat + toW (nth idx i 0 * w) }

/-- The bytes [a, a + n) of an image or a descriptor, in granules (R245). -/
def imageAccess (a : Word) (n : Nat) : Accesses :=
  { size := 8, range := some (a, n)
    parts := (pieces 8 (n / 8 + 2) a.toNat n).map fun (p, l) => { ea := toW p, len := l, elem := 0 } }

/-- Does the access write or read the granule of a part whole (R225)? -/
def Accesses.covers (a : Accesses) (p : Piece) : Bool :=
  match a.range with
  | some (e, n) => e.toNat ≤ p.ea.toNat / 8 * 8 && p.ea.toNat / 8 * 8 + 8 ≤ e.toNat + n
  | none => p.len = 8

/-- Where a load reads, for its latency (R50). -/
def loadAccess (c : Core) : Instr → Option Accesses
  | .lds8 _ o | .ldn8 _ o => some (c.scalarAccess o 1)
  | .lds16 _ o | .ldn16 _ o => some (c.scalarAccess o 2)
  | .lds32 _ o | .ldn32 _ o => some (c.scalarAccess o 4)
  | .lds64 _ o => some (c.scalarAccess o 8)
  | .ldv _ o => some (c.vectorAccess o)
  | .ldvs _ o => some (c.strideAccess o)
  | .ldvx _ o => some (c.indexAccess o)
  | .ldz _ o => some (imageAccess (c.s o.a.toNat) 8)
  | _ => none

/-- What a syllable of the L class writes, STZ apart. -/
def storeAccess (c : Core) : Instr → Option Accesses
  | .sts8 _ o => some (c.scalarAccess o 1)
  | .sts16 _ o => some (c.scalarAccess o 2)
  | .sts32 _ o => some (c.scalarAccess o 4)
  | .sts64 _ o => some (c.scalarAccess o 8)
  | .stv _ o => some (c.vectorAccess o)
  | .stvs _ o => some (c.strideAccess o)
  | .stvx _ o => some (c.indexAccess o)
  | .stz _ o => some (imageAccess (c.s o.a.toNat) 8)
  | _ => none

/-- Addresses that the executing syllables of a bundle translate (R118). -/
def Core.translated (c : Core) (is : List Instr) : List Word :=
  let of' (i : Instr) : List Word :=
    if !(match hdrOf i with | some h => selected c h | none => false) then [] else
    match (loadAccess c i).or (storeAccess c i), i with
    | some a, _ => a.parts.map (·.ea)
    | none, .probe _ o => [c.s o.a.toNat]
    | none, .pref _ o => [c.lmAddress o]
    | none, _ => []
  (is.flatMap of').filter fun va => !inAperture va.toNat && wfld va 57 7 = 0

/-- Does every part lie in the aperture (R107)? -/
def Accesses.local (a : Accesses) : Bool :=
  a.parts.all fun p => wfld p.ea 57 7 = 0 && inAperture p.ea.toNat

/-! ## The window (R232, R239) -/

/-- Bytes of one way of a window. -/
def waySize : Nat := 0x800000

/-- Set and way of the window slot at an offset of a context (R232). -/
def Ctx.slotAt (c : Ctx) (off : Nat) : Option (Nat × Nat) :=
  let base := c.wbase * 65536
  if base ≤ off && off < base + c.wnum * waySize then
    some ((off - base) / 4096 % 2048, c.wlo + (off - base) / waySize)
  else none

/-- Offset of the slot of set and way (R232). -/
def Ctx.slotOffset (c : Ctx) (set way : Nat) : Nat := c.wbase * 65536 + ((way - c.wlo) * 2048 + set) * 4096

/-- Key of a tag-table entry. -/
def tagKey (set way : Nat) : Nat := 8 * set + way

/-- Does a handle of the core name a slot (R239)?  One still pending counts from its PROBE on, so that no duration of
R515 decides whether a load faults (DEDUCED, log entry 35). -/
def Core.holdsSlot (c : Core) (set way : Nat) : Bool :=
  (c.r.h.any fun (_, h) => h = .window set way) ||
    c.pend.any fun e => match e.res with | .h _ v => v = .window set way | _ => false

/-! ## One part of an access (R224, R229 item 4) -/

/-- Where a part lies: in this package, or on a page of another one. -/
inductive Loc where
  | here (pa : Nat)
  | away (pkg pa : Nat)
  deriving DecidableEq, Repr

/-- Why a part cannot be accessed. -/
inductive Miss where
  | event (e : Event)
  /-- the reader of a poisoned unit, with its error-history record (R388) -/
  | poison (pa : Nat) (e : Event)
  /-- a bound slot that is still filling (R239) -/
  | filling
  deriving DecidableEq, Repr

/-- INFO1 of a translation cause (R189). -/
def transInfo (elem : Nat) (acc : Access) (level : Nat) : Word := toW (elem % 1024 * 65536 + acc.code * 16 + level)

/-- ADDRESS_NONCANONICAL (R107, R108, R117). -/
def noncanonical (ea : Word) (elem : Nat) (acc : Access) : Event := mkFault 0x30 ea (transInfo elem acc 0)

/-- SPM_QUOTA (R224, R248). -/
def quotaFault (ea : Word) (reason : Nat) : Event := mkFault 0x35 ea (toW reason)

/-- HANDLE_STATE (R248). -/
def handleFault (ea : Word) (h reason : Nat) : Event := mkFault 0x38 ea (toW (h % 64 * 16 + reason))

/-- A failed translation as a core's event (R117). -/
def TFault.event (f : TFault) (ea : Word) (elem : Nat) (acc : Access) : Event :=
  let e := mkFault f.cause ea (transInfo elem acc f.level)
  if f.replayable then { e with kind := .replayable } else e

/-- A part in the aperture (R224, R225, R239). -/
def locateLocal (d : Dev) (n : Nat) (acc : Access) (slots whole : Bool) (p : Piece) : Except Miss Loc :=
  let off := p.ea.toNat - apertureBase
  let c := d.core n
  let g := clusterOf n
  if isGeneral n then .error (.event (quotaFault p.ea 3))
  else match (d.ctxOfCore n).bind d.ctx with
    | none => .error (.event (quotaFault p.ea (if spmSize ≤ off then 2 else 1)))
    | some x =>
      if off < x.qbase * 65536 || (x.qbase + x.qsize) * 65536 ≤ off then
        .error (.event (quotaFault p.ea (if spmSize ≤ off then 2 else 1)))
      else
        let bad := (d.cluster g).spmBad.contains (off / 8)
        let found : Except Miss Loc :=
          if bad && (acc = Access.read || !whole) then
            .error (.event (mkFault 0x39 (toW (p.ea.toNat / 8 * 8)) (toW (p.elem % 1024 * 65536))))
          else .ok (.here (spmBase g + off))
        match x.slotAt off with
        | none => found
        | some (set, way) =>
          if acc ≠ Access.read || !slots || !c.holdsSlot set way then .error (.event (handleFault p.ea 0 2))
          else match tget (d.cluster g).tags (tagKey set way) with
            | none => .error (.event (handleFault p.ea 0 2))
            | some e =>
              if !e.filled then .error .filling
              else if e.poisoned then
                .error (.event (mkFault 0x39 (toW (p.ea.toNat / 8 * 8)) (toW (p.elem % 1024 * 65536))))
              else found

/-- A part on a translated page (R112-R116, R225, R388, R467). -/
def locatePaged (m : Memory) (d : Dev) (n : Nat) (acc : Access) (whole : Bool) (p : Piece) : Except Miss Loc :=
  let ctx := (d.ctxOfCore n).getD noContext
  match translate m d (walkBad d) ctx (cacheOf n) p.ea acc with
  | .error f => .error (.event (f.event p.ea p.elem acc))
  | .ok t => match t.remote with
    | some pkg => .ok (.away pkg t.pa)
    | none =>
      let bad := match placeOf t.pa with
        | .spm g off => (d.cluster g).spmBad.contains (off / 8) && (acc = Access.read || !whole)
        | _ => false
      if bad then .error (.event (mkFault 0x39 (toW (p.ea.toNat / 8 * 8)) (toW (p.elem % 1024 * 65536))))
      else if acc = Access.read && d.poisoned t.pa then
        .error (.poison t.pa (mkFault 0x39 (toW (p.ea.toNat / 64 * 64)) (toW (p.elem % 1024 * 65536))))
      else .ok (.here t.pa)

/-- Where a part of an access lies, or why it cannot be accessed; slots says whether a full window slot may be
read. -/
def locate (m : Memory) (d : Dev) (n : Nat) (acc : Access) (slots whole : Bool) (p : Piece) : Except Miss Loc :=
  if wfld p.ea 57 7 ≠ 0 then .error (.event (noncanonical p.ea p.elem acc))
  else if inAperture p.ea.toNat then locateLocal d n acc slots whole p
  else locatePaged m d n acc whole p

/-- A contiguous access that leaves the canonical addresses or straddles the aperture's base (R107, R108). -/
def straddles (e : Word) (n : Nat) : Bool :=
  let last := e.toNat + n - 1
  2 ^ 57 ≤ last || (inAperture e.toNat != inAperture last)

/-- All parts of an access, in the order of R229: the first that fails decides. -/
def Accesses.locate (a : Accesses) (m : Memory) (d : Dev) (n : Nat) (acc : Access) (slots : Bool) :
    Except Miss (List (Piece × Loc)) :=
  let bad := match a.range with | some (e, k) => if straddles e k then some e else none | none => none
  match bad with
  | some e => .error (.event (noncanonical e 0 acc))
  | none => a.parts.mapM fun p =>
      match Sys2Proof.Machine.locate m d n acc slots (a.covers p) p with
      | .ok l => .ok (p, l)
      | .error x => .error x

/-- MISALIGNED, for the lowest element (R228, R248). -/
def Accesses.misaligned (a : Accesses) : Option Event :=
  (a.parts.find? fun p => p.ea.toNat % a.size ≠ 0).map fun p =>
    mkFault 0x36 p.ea (toW (p.elem % 1024 * 65536))

/-- A failed access as an answer; a poisoned unit keeps its history record. -/
def Miss.out (x : Miss) (b : Bundle) (time : Nat) : Out :=
  match x with
  | .event e => .raise e
  | .poison pa e => .raiseIn (b.base.history 2 ((b.base.ctxOfCore b.core).getD 0) pa time) e
  | .filling => .stall 8

/-- Do bytes at a physical address lie among those that a W syllable of the core accesses while it is busy (R319)? -/
def Core.rowBusyAt (c : Core) (cycle pa len : Nat) : Bool :=
  decide (cycle < c.row.busyUntil) && c.row.touched.any fun (a, n) => decide (a < pa + len) && decide (pa < a + n)

/-- The same of the parts of an access. -/
def Core.rowBusyOn (c : Core) (cycle : Nat) (parts : List (Piece × Loc)) : Bool :=
  parts.any fun (p, l) => match l with
    | .here pa => c.rowBusyAt cycle pa p.len
    | .away _ _ => false

/-- An earlier request of the core to its own package, through a page with REM = 1, for bytes of these parts is not
performed yet: the access comes after it (R127). -/
def Dev.awayOn (d : Dev) (n : Nat) (parts : List (Piece × Loc)) : Bool :=
  d.remote.any fun q => q.src = n && q.pkg = Config.packageNumber && (q.kind = .load || q.kind = .store) &&
    parts.any fun (p, l) => match l with
      | .here pa => q.pa < pa + p.len && pa < q.pa + q.data.length
      | .away _ _ => false

/-- The parts of an access whose checks have passed: it waits for an earlier W syllable on the same bytes (R319), and for
the core's own earlier accesses to them (R127). -/
def afterRow (b : Bundle) (parts : List (Piece × Loc)) (f : List (Piece × Loc) → Out) : Out :=
  if (b.base.core b.core).rowBusyOn b.cycle parts then .stall 9
  else if b.base.awayOn b.core parts then .stall 11
  else f parts

/-- Checks of an L syllable on its addresses: alignment, then every part (R229) (DEDUCED, log entry 45). -/
def Accesses.checked (a : Accesses) (s : State) (b : Bundle) (acc : Access) (slots : Bool)
    (f : List (Piece × Loc) → Out) : Out :=
  match a.misaligned with
  | some e => .raise e
  | none => match a.locate s.mem s.dev b.core acc slots with
    | .error x => x.out b s.time
    | .ok l => afterRow b l f

/-! ## Watchpoints (R498) -/

/-- Lowest byte of the ranges that a watchpoint matches. -/
def Watch.lowest (w : Watch) (ranges : List (Word × Nat)) : Option Nat :=
  (ranges.filterMap fun (a, n) =>
    let lo := max a.toNat w.addr.toNat
    if lo < min (a.toNat + n) (w.addr.toNat + w.len) then some lo else none).min?

/-- The stop of a completing access that matches a watchpoint, the lowest-numbered one. -/
def Bundle.watched (b : Bundle) (ranges : List (Word × Nat)) (write : Bool) : Bundle :=
  let ws := (b.base.core b.core).watch
  let hit := ([0, 1, 2, 3] : List Nat).findSome? fun i =>
    match tget ws i with
    | some w => if w.kind.getLsbD (if write then 1 else 0) then (w.lowest ranges).map fun a => (i, a) else none
    | none => none
  match hit with
  | some (i, a) => b.withStop (mkStop 0xD2 (toW a) (toW (i + (if write then 32 else 16))))
  | none => b

/-- The ranges that an access touches. -/
def Accesses.ranges (a : Accesses) : List (Word × Nat) :=
  match a.range with
  | some r => [r]
  | none => a.parts.map fun p => (p.ea, p.len)

end Sys2Proof.Machine
end

