-- ==== Sys2Proof/Machine/CsrMap.lean ====
section
/-!
DEFINITION. Which control-register numbers are assigned and which writes are privileged (R63, R77, R176 and the
register tables of the engines' chapters).
-/

namespace Sys2Proof.Machine

/-- Offsets within an engine's space that its chapter assigns; general says whether a general core asks (R176). -/
def csrAssigned (general : Bool) (n : Nat) : Bool :=
  let o := n % 4096
  match n / 4096 with
  | 0x0 => o ≤ 3 || (8 ≤ o && o ≤ 16) || (general && 0x20 ≤ o && o ≤ 0x26)
  | 0x1 => o ≤ 2
  | 0x2 => o ≤ 3 || (0x40 ≤ o && o ≤ 0x7F)
  | 0x3 => o = 0 || (0x10 ≤ o && o ≤ 0x13) || (0x18 ≤ o && o ≤ 0x1B) || (0x20 ≤ o && o ≤ 0x24)
  | 0x4 => o = 0
  | 0x5 => !general && (o ≤ 2 || (4 ≤ o && o ≤ 8))
  | 0x6 => !general && o ≤ 5
  | 0x7 => o < 256 && o % 16 ≤ 9
  | 0x8 => o < 0x400 || (0x400 ≤ o && o < 0x420)
  | 0x9 => o ≤ 4 || (0x10 ≤ o && o ≤ 0x2F)
  | 0xA => o ≤ 2
  | 0xB => o ≤ 0xE
  | 0xC => o ≤ 17 || (0x20 ≤ o && o ≤ 0x23) || (0x100 ≤ o && o < 0x300) || (0x400 ≤ o && o < 0x400 + 384)
  | 0xD => o ≤ 5 || (8 ≤ o && o ≤ 0xC) || o = 0x10 || o = 0x11 || (0x14 ≤ o && o ≤ 0x23)
  | 0xE => o ≤ 0xB || (0x10 ≤ o && o ≤ 0x19)
  | _ => false

/-- Registers whose write forms are privileged (R77). -/
def csrPrivileged (n : Nat) : Bool :=
  let o := n % 4096
  match n / 4096 with
  | 0x0 => o = 0x10 || 0x20 ≤ o
  | 0x3 => 0x10 ≤ o && o ≤ 0x1B
  | 0x7 => o % 16 = 0
  | 0x8 => o < 0x400
  | 0x9 => o = 3 || 0x10 ≤ o
  | 0xB => o = 0 || (2 ≤ o && o ≤ 4) || o = 7 || (9 ≤ o && o ≤ 11) || o = 13 || o = 14
  | 0xC => o = 0x20 || o = 0x22 || 0x100 ≤ o
  | 0xD => (2 ≤ o && o ≤ 4) || o = 0x10 || o = 0x11 || (0x14 ≤ o && o ≤ 0x17) || 0x20 ≤ o
  | 0xE => o ≠ 2 && o ≠ 3
  | _ => false

end Sys2Proof.Machine
end

