-- ==== Sys2Proof/Machine/Issue.lean ====
section
/-!
DEFINITION. Issue: where a core's next bundle comes from (R196-R203), the checks made before it executes (R46, R51,
R53, R182), what must happen before it can issue, and the running of its syllables.
-/

namespace Sys2Proof.Machine

/-- The meaning of an instruction, as issue uses it. -/
abbrev Meaning := Instr → State → Host.Outcome State Fault Refusal

/-! ## Decode checks of one syllable (R46) -/

/-- A control-register syllable: its number and whether it writes. -/
def csrOf : Instr → Option (Nat × Bool)
  | .csrr _ o => some (o.csr.toNat, false)
  | .csrw _ o | .csrs _ o | .csrc _ o => some (o.csr.toNat, true)
  | _ => none

/-- The forms that R77 always keeps to privileged general cores. -/
def isPartForm : Instr → Bool
  | .partopForm _ _ | .partopDissolve _ _ | .partopPreempt _ _ | .partopQreset _ _ | .ctxopCreate _ _
  | .ctxopDestroy _ _ | .ctxopInval _ _ | .ctxopAttest _ _ | .swapopSave _ _ | .swapopRestore _ _
  | .swapopExch _ _ => true
  | _ => false

/-- A syllable that names lr, which general cores do not hold (R60, R66) (DEDUCED, log entry 39). -/
def namesLr (i : Instr) : Bool := (readsOf i ++ destsOf i).any fun r => r.1 = 7

def isVacant : Instr → Bool
  | .illegalOpcode _ _ _ _ => true
  | _ => false

/-- Decode checks of one syllable in the order of R46. -/
def syllableFault (general priv : Bool) (w : Word) : Option (BitVec 8) :=
  let cls := classOfWord w
  if general && (cls = 4 || cls = 5) then some 0x04
  else match decodeRaw w.toNat with
    | none => some 0x03
    | some i =>
      if isVacant i then some 0x02
      else if !operandsOk i || (general && namesLr i) then some 0x03
      else match csrOf i with
        | some (n, wr) =>
          if !csrAssigned general n then some 0x03
          else if wr && csrPrivileged n && !(general && priv) then some 0x05 else none
        | none => if isPartForm i && !(general && priv) then some 0x05 else none

/-- The bundle's decode fault (R46, R189): the first found. -/
def decodeFault (general priv : Bool) (ws : List Word) : Option Event :=
  match bundleBad ws with
  | some k => some { cause := 0x01, kind := .fault, info0 := nth ws k 0, info1 := 0, sidx := k }
  | none => ((List.range ws.length).zip ws).findSome? fun (k, w) =>
      (syllableFault general priv w).map fun c =>
        ({ cause := c, kind := .fault, info0 := w, info1 := 0, sidx := k } : Event)

/-! ## Latencies that depend on an address (R50) -/

/-- Fixed latency of a syllable's results at issue: 8 for an L load in the aperture (R50, R223). -/
def latencyAt (c : Core) (i : Instr) : Option Nat :=
  match loadAccess c i with
  | some a => if a.local then some 8 else none
  | none => latencyOf i

/-- The WAIT_UNDERSIZED check of a bundle (R53): the first syllable's. -/
def scoreboard (c : Core) (is : List Instr) (cycle : Nat) : Option Event :=
  if !c.seq.sb then none else
  ((List.range is.length).zip is).findSome? fun (k, i) =>
    (waitCheck c i (latencyAt c i) cycle).map fun e => { e with sidx := k }

/-! ## Discarding (R199) -/

/-- Must the head of an attached core's buffer be discarded?  So are the bundles of the kernel that the stream delivers to
a core whose task has zero passes: it stays attached until the epilogue reaches it (DEDUCED, log entry 90). -/
def Core.discards (c : Core) : Bool :=
  c.attached &&
    (match c.ibuf with
     | e :: _ => e.f.fault.isNone && (c.lp.skip ≠ 0 || e.f.addr ≠ c.pc) &&
         !(c.lp.skip = 0 && c.lp.innermost.isSome && c.lp.buffer.any fun f => f.addr = c.pc)
     | [] => false)

/-- Does a core wait for its steering core at the bundle at its buffer's head, a redirect bundle (R201)?  It issues that
bundle, or passes it over inside the body that it skips (R199). -/
def Dev.awaitsLead (d : Dev) (n : Nat) : Bool :=
  let c := d.core n
  let g := feOf d (clusterOf n)
  match c.ibuf with
  | e :: _ => c.attached && (c.lp.skip ≠ 0 || !c.discards) && (d.cluster g).fe.redirect = some e.seq &&
      steering d g ≠ some n
  | [] => false

/-- Discard up to k delivered bundles.  The steering core's discarded redirect bundle continues where that core does: in a
body it skips, at the next bundle; otherwise at its own next bundle, the epilogue's after an EXIT in a replayed
iteration (DEDUCED, log entry 111).  Another core that skips a redirect bundle of the body is compared with the stream
there (R201). -/
def Dev.discard (d : Dev) (n : Nat) : Nat → Dev
  | 0 => d
  | k + 1 =>
    let c := d.core n
    if !c.discards then d
    else match c.ibuf with
      | [] => d
      | e :: t =>
        if d.awaitsLead n then d else
        let skipping := c.lp.skip ≠ 0
        let c := { (c.passBy e.f) with ibuf := t, cons := c.cons + 1, ready := max c.ready (e.cycle + 1) }
        let d := d.setCore n c
        let g := feOf d (clusterOf n)
        let leads := steering d g = some n
        let succ := if skipping then c.streamNext c.pc else c.pc
        let d := if (leads && (d.cluster g).fe.redirect = some e.seq) || (!leads && skipping) then
          d.redirected n succ c.ready else d
        d.discard n k

/-! ## What comes before the next bundle -/

/-- The bundle in the loop buffer at the core's address, replayed without fetching (R199). -/
def Core.replayed (c : Core) : Option Fetched :=
  if c.lp.innermost.isSome then c.lp.buffer.find? fun f => f.addr = c.pc else none

/-- What must happen before a core's next bundle can issue: an event of the opcode table. -/
inductive Need where
  | taskStart (n : Nat) | preemptHalt (n : Nat) | haltWake (n : Nat) | phaseEnd (n : Nat) | answer (n : Nat)
  | claim (n : Nat) | release (n : Nat) | boundary (n : Nat) | overrun (n : Nat) | push (n : Nat)
  | delivery (n g : Nat) | fetch (n : Nat) | line (g pa : Nat)
  /-- the control-register action that is due (R175) -/
  | register (n : Nat)
  deriving DecidableEq, Repr

/-- A miss of the instruction cache, else the fetch itself. -/
def fetchNeed (m : Memory) (d : Dev) (p : FetchPort) (va : Word) (q : Need) : Need :=
  match p.bundle m d va with
  | .miss pa => .line (p.cluster.getD 0) pa
  | _ => q

/-- A slot operation of the core is not complete: its later register actions wait for it (R175, R453). -/
def slotPending (d : Dev) (n : Nat) : Bool :=
  d.ctxs.any fun (_, c) => match c.gen.slotOp with | some q => q.core = n && q.tag ≠ 0 | none => false

/-- Numbers of GEN.OCC and GEN.DRAFT, whose writes act before the writing core's next bundle (R450). -/
def actsAtOnce (a : CsrAct) : Bool := a.op ≠ .read && (a.csr = 0xB005 || a.csr = 0xB006)

/-- Is the core's first control-register action due (R175)?  Its cycle has come, or the core has nothing to issue before
it. -/
def registerDue (d : Dev) (n : Nat) : Bool :=
  let c := d.core n
  match c.csrq with
  | [] => false
  | a :: _ => !slotPending d n &&
      (a.at' ≤ c.ready || c.run ≠ .running || !c.waits.isEmpty || c.boundaryDue || c.csrq.any actsAtOnce)

/-- The event that must happen before the core's next bundle can issue; none where the bundle is at hand, or where
the core waits for another agent (DEDUCED, log entry 38). -/
def needOf (m : Memory) (d : Dev) (n : Nat) : Option Need :=
  let c := d.core n
  if registerDue d n then some (.register n)
  else if d.recordWaits n then none
  else match c.run with
  | .idle => if isGeneral n then none else some (if c.preempt then .preemptHalt n else .taskStart n)
  | .asleep => some (.haltWake n)
  | .held _ | .halted | .stopped => none
  | .running =>
    if c.overrunDue && !isGeneral n then some (.overrun n)
    else match c.waits.find? (· ≠ .boundary) with
    | some (.phase _) => some (.phaseEnd n)
    | some .answer => some (.answer n)
    | some (.claim ..) => some (.claim n)
    | some (.release _) => some (.release n)
    | some (.ending _) => some (.phaseEnd n)
    | _ =>
      if c.boundaryDue then
        some (if c.stopReq && c.answered && !c.mat.pushes.isEmpty && !d.awaitsSteering n then .push n else .boundary n)
      else if c.haltDue then some (if c.mat.pushes.isEmpty then .preemptHalt n else .push n)
      else if c.replayed.isSome && c.lp.skip = 0 then none
      else if c.attached then
        (if c.ibuf.isEmpty then
          let g := feOf d (clusterOf n)
          some (match (d.cluster g).fe.pos with
            | some p => fetchNeed m d (streamPort d g) p (.delivery n g)
            | none => .delivery n g)
         else none)
      else match c.joinWait, c.fetched with
        | some _, some _ =>
          let g := feOf d (clusterOf n)
          if (streamDelivery m d g).isSome then some (.delivery n g) else none
        | _, some _ => none
        | _, none => some (fetchNeed m d (corePort d n) c.pc (.fetch n))

/-! ## The bundle at hand -/

/-- A bundle ready to be tried: contents, source and the earliest cycle. -/
structure AtHand where
  f : Fetched
  src : Nat
  cycle : Nat
  /-- the core has the bundle from this cycle on (R491) -/
  present : Nat := 0
  deriving DecidableEq, Repr

/-- Ring space for the append at place k of those waiting. -/
def Stream.granted (q : Stream) (k : Nat) : Bool := (q.widx - q.ridx).toNat + k < 2 ^ q.log2

/-- Does a core wait for ring space for its TLAUNCH (R423)? -/
def launchWaits (d : Dev) (n : Nat) : Bool :=
  d.ctxs.any fun (_, c) => c.streams.any fun (_, q) =>
    ((List.range q.appends.length).zip q.appends).any fun (k, a) => a.core = n && !q.granted k

/-- Does a core's probe wait for room in a fill table (R437)? -/
def probeWaits (d : Dev) (n : Nat) : Bool := d.dies.any fun (_, x) => x.firn.waiting.any fun q => q.core = n

/-- Does another engine keep the core from its next bundle: a park's slot (R403), stream space (R423), room in a fill
table (R437), a slot operation before a write of GEN.OCC or GEN.DRAFT that acts before that bundle (R450), or a record of
its own that a full fault queue holds (R511)? -/
def Dev.otherWaits (d : Dev) (n : Nat) : Bool :=
  let c := d.core n
  (c.waits.any fun w => match w with | .room _ => true | _ => false) || launchWaits d n || probeWaits d n ||
    c.csrq.any actsAtOnce || d.recordWaits n

/-- Bundle at hand for a core: loop buffer, stream or private fetch; none where a non-steering core waits at a
redirect bundle (R201), or a core for its park's slot (R403) for stream space (R423) or for
room in a fill table (R437).  A detached core's private rate counts from its detachment or its task's start, which a
privately fetched BRT, CALL or RET does not move: it is no stream bundle, hence no redirect bundle (R200, R203)
(DEDUCED, log entry 91). -/
def atHand (d : Dev) (n : Nat) : Option AtHand :=
  let c := d.core n
  if d.otherWaits n then none
  else match (if c.lp.skip = 0 then c.replayed else none) with
  | some f => some { f := f, src := 2, cycle := c.ready }
  | none =>
    if c.attached then
      match c.ibuf with
      | [] => none
      | e :: _ =>
        let g := feOf d (clusterOf n)
        if (d.cluster g).fe.redirect = some e.seq && steering d g ≠ some n then none
        else
          let led := ((tget (d.cluster (clusterOf n)).fe.conts e.seq).map (·.2)).getD 0
          let have' := max (e.cycle + 1) led
          some { f := e.f, src := 0, cycle := max c.ready have', present := have' }
    else match c.fetched with
      | none => none
      | some f =>
        let have' := if isGeneral n then 0 else c.fetchBase + 2 * (c.fetchK + 1)
        some { f := f, src := 1, cycle := max c.ready have', present := have' }

/-- An interlocked result that has its answer, to land first where a bundle stalls (R51). -/
def Core.answeredAt (c : Core) : Option Nat :=
  c.pend.findIdx? fun e => e.due.isNone && e.ready && e.after ≤ c.ready

/-- The syllables of a bundle in order, until it completes, faults or stalls. -/
def runSyllables (ex : Meaning) : List Instr → State → Host.Outcome State Fault Refusal
  | [], s => .next s
  | i :: t, s =>
    match ex i s with
    | .next s' => if s'.bundle.isNone then .next s' else runSyllables ex t s'
    | o => o

/-- The state with a bundle in issue on core n. -/
def State.begin (s : State) (n : Nat) (x : AtHand) : State :=
  let c := (s.dev.core n).landBy x.cycle
  let c := c.gap 3 c.charged x.present
  let d := s.dev.setCore n { c with ready := x.cycle }
  { s with
    cur := n
    dev := d
    bundle := some { core := n, addr := x.f.addr, words := x.f.words
                     next := x.f.addr + BitVec.ofNat 64 (8 * x.f.words.length), src := x.src, cycle := x.cycle
                     wmax := 0, idx := 0, ran := 0, ctl := .none, phaseEnd := false, stop := none
                     base := d } }

/-! ## Failed remote accesses (R467) -/

/-- Does a syllable end its core's phase when it executes (R125)? -/
def endsPhase (c : Core) (w : Word) (i : Instr) : Bool :=
  match hdrOf i with
  | none => false
  | some h => selected c h &&
      (match i with
       | .phase _ _ | .join _ _ | .halt _ => true
       | .exit _ => c.seq.region = .epilogue
       | .stakeRetire _ _ | .stakeAdvance _ _ => true
       | _ => classOfWord w = 6 && wfld w 36 2 ≠ 0)

/-- Does a syllable end its core's task (R157)? -/
def endsTask (c : Core) (i : Instr) : Bool :=
  match i with
  | .exit h => selected c h && c.seq.region = .epilogue
  | _ => false

/-- Every failed remote access that a bundle waits for: its tag and the event with the syllable's index.  A load is
reported where its destination is read or written, a store where the phase ends, anything else after a boundary, and
what is still left by the EXIT that ends the task (DEDUCED, log entry 67). -/
def Core.remoteFailures (c : Core) (ws : List Word) (is : List Instr) : List (Nat × Event) :=
  let syl := (List.range is.length).zip (ws.zip is)
  let touches (i : Instr) (e : Pend) : Bool :=
    (match hdrOf i with
     | some h => selected c h && (allReads c i ++ destsOf i).any fun r => physRef c.lp r = e.res.ref
     | none => false)
  c.remFails.filterMap fun (tag, e) =>
    if c.atBnd then some (tag, e)
    else if tag = 0 then
      (syl.find? fun (_, w, i) => endsPhase c w i).map fun (k, _, _) => (tag, { e with sidx := k })
    else match c.pend.find? fun q => q.tag = tag with
      | none => none
      | some q => (syl.find? fun (_, _, i) => touches i q || endsTask c i).map fun (k, _, _) => (tag, { e with sidx := k })

/-- The failed remote access that a bundle reports: that of the lowest syllable, the first to fail among those of one
(R182). -/
def Core.remoteFailure (c : Core) (ws : List Word) (is : List Instr) : Option (Nat × Event) :=
  let l := c.remoteFailures ws is
  l.find? fun x => l.all fun y => x.2.sidx ≤ y.2.sidx

/-- Is a failure met together with the reported one: that of another element of the same register (R467)? -/
def Core.sameLoad (c : Core) (tag t : Nat) : Bool :=
  let at' (k : Nat) : Option RegRef := if k = 0 then none else (c.pend.find? fun q => q.tag = k).map (·.res.ref)
  t = tag || (at' t).isSome && at' t = at' tag

/-- Remove a reported failure and the result that will not come; the bundle has waited for every element of the register,
and one record stands for those that have failed (DEDUCED, log entry 67). -/
def Core.dropFailure (c : Core) (tag : Nat) : Core :=
  { c with
    remFails := c.remFails.filter fun (t, _) => !c.sameLoad tag t
    pend := c.pend.filter fun q => q.tag = 0 || !(c.sameLoad tag q.tag && c.remFails.any fun (t, _) => t = q.tag) }

/-- Did trying a bundle only stall it: nothing issued, and no record written? -/
def onlyStalled (s t : State) (n : Nat) : Bool :=
  t.bundle.isNone && (t.dev.core n).issued = (s.dev.core n).issued && t.dev.seqnoOf n = s.dev.seqnoOf n

/-- A bundle in issue, with the least reason of R491 for which one of its syllables waits (R491): each syllable is tried by
itself. -/
def State.hinted (ex : Meaning) (t : State) (n : Nat) (is : List Instr) : State :=
  let reasons := is.filterMap fun i => match ex i t with
    | .next s => if onlyStalled t s n then some (s.dev.core n).gapWhy else none
    | _ => none
  { t with bundle := t.bundle.map fun b => { b with hint := reasons.foldl min 14 } }

/-- The syllables run; where the bundle only stalls, for the least reason among them. -/
def runOrStall (ex : Meaning) (is : List Instr) (t : State) (n : Nat) : Host.Outcome State Fault Refusal :=
  match runSyllables ex is t with
  | .next s => if onlyStalled t s n then runSyllables ex is (t.hinted ex n is) else .next s
  | o => o

/-- An executing W or M syllable of a bundle waits for its engine: the row engine (R318), pushes, an ACMOV or ACLD
(R355, R360), or drains (R361).  The bundle has not issued, so that no syllable of it has an effect or an event. -/
def Core.engineWaits (c : Core) (ws : List Word) (is : List Instr) (cycle : Nat) : Bool :=
  let runs (i : Instr) : Bool := match hdrOf i with | some h => selected c h | none => false
  cycle < c.blockedUntil ws ||
    (cycle < c.row.busyUntil && (ws.zip is).any fun (w, i) => classOfWord w = 5 && runs i) ||
    (cycle < c.mat.drainUntil && is.any fun i => (match i with | .mwait _ => true | _ => false) && runs i)

/-- The syllables of a bundle that fails with an event before the syllable of the event's index: a stall, and a fault of
an earlier syllable, come first (R182). -/
def runFailing (ex : Meaning) (is : List Instr) (t : State) (fail : State → Host.Outcome State Fault Refusal) (k : Nat) :
    Host.Outcome State Fault Refusal :=
  match runSyllables ex (is.take k) t with
  | .next s => if s.bundle.isNone then .next s else fail s
  | o => o

/-- The pages that a bundle accesses have passed the core's translation caches before it issues (R118). -/
def State.translating (t : State) (n : Nat) (is : List Instr) : State :=
  let ctx := (t.dev.ctxOfCore n).getD noContext
  let d := ((t.dev.core n).translated is).foldl (fun d va => d.useTlb t.mem (walkBad d) ctx (cacheOf n) va) t.dev
  { t with dev := d, bundle := t.bundle.map fun b => { b with base := d } }

/-- What executes: the syllables, unless WAIT_UNDERSIZED (R53) or a failed remote access (R467) stands for them; engines
are waited for first, since a bundle that must wait has not issued (R318, R355). -/
def issueBundle (ex : Meaning) (t : State) (n : Nat) (c : Core) (x : AtHand) (is : List Instr)
    (event : State → Event → Host.Outcome State Fault Refusal) : Host.Outcome State Fault Refusal :=
  match scoreboard c is x.cycle with
  | some e =>
    (match runSyllables ex is t with
     | .next s => if onlyStalled t s n then runSyllables ex is (t.hinted ex n is) else event t e
     | o => o)
  | none =>
    match c.remoteFailure x.f.words is with
    | some (tag, e) =>
      runFailing ex is t (fun _ => event { t with dev := t.dev.updCore n fun c => c.dropFailure tag } e) e.sidx
    | none => runOrStall ex is (t.translating n is) n

/-- The checks before execution (R46, R51, R53, R182) and the bundle itself. -/
def tryBundle (ex : Meaning) (s : State) (n : Nat) (x : AtHand) : Host.Outcome State Fault Refusal :=
  let t := s.begin n x
  let c := t.dev.core n
  let next := x.f.addr + BitVec.ofNat 64 (8 * x.f.words.length)
  let event (t : State) (e : Event) : Host.Outcome State Fault Refusal :=
    let d := t.dev.accountTo t.mem n c x.f.addr x.f.words x.cycle t.time
    .next (({ t with dev := d.takeEvent t.mem n c.inBundle x.f.addr next e t.time, bundle := none }).settle).tick
  match x.f.fault with
  | some e => event t e
  | none =>
    match decodeFault (isGeneral n) c.seq.priv x.f.words with
    | some e => event t e
    | none =>
      let is := decoded x.f.words
      let idle : State := { t with bundle := none }
      let stall (why : Nat) : Host.Outcome State Fault Refusal := .next ((t.hinted ex n is).stallBundle t.dev why)
      if c.pushDue x.cycle then execPushLanding n idle
      else if is.any fun i => stallsOn c i then
        match c.answeredAt with
        | some k => execResultLanding n k idle
        | none => if c.lookupDue.isSome then execProbeLookup n idle else .next (t.stallBundle t.dev 6)
      else if x.cycle < c.mat.busyUntil then stall 10
      else if x.cycle < c.busyUntil then stall 11
      else if storesAway t.dev n && (x.f.words.zip is).any fun (w, i) => endsPhase c w i then stall 11
      else if c.engineWaits x.f.words is x.cycle then stall 14
      else issueBundle ex t n c x is event

end Sys2Proof.Machine
end

