-- ==== Sys2Proof/Machine/Control.lean ====
section
/-!
DEFINITION. The C class (R150-R173, R204-R217): branches, loops, the ends of tasks and stops, and attachment; and the
vacant opcodes (R75).
-/

namespace Sys2Proof.Machine

/-! ## Branches (R150-R155) -/

/-- Preparation penalty of R154 for a branch through bN in the bundle that core c is about to issue.  The distance counts
completed bundles; a b register that no bundle, task start or restore has written, as after a reset of a general core,
counts as written just before the first bundle (DESIGN CHOICE, log entry 112). -/
def Core.penalty (c : Core) (n : Nat) : Nat :=
  match c.issued + 1 - tgetD c.bWrite n 0 with
  | 0 | 1 => 2
  | 2 => 1
  | _ => 0

/-- A taken branch to bN: LOOP_BRANCH while a level is active (R155), else the next bundle is at bN (R151, R154). -/
def branch (h : Hdr) (n : Nat) (w : Word) (also : Dev → Bundle → Core → Dev) (s : State) :
    Host.Outcome State Fault Refusal :=
  ctlSyllable h
    (fun s b c => match c.lp.innermost with
      | some l => .raise (mkFault 0x0A w (toW l))
      | none => .ok (also s.dev b c))
    (fun b => { b with ctl := .branch ((b.base.core b.core).b n) ((b.base.core b.core).penalty n) }) s

/-- PBT (R150). -/
def execPbt (h : Hdr) (o : CT) (s : State) : Host.Outcome State Fault Refusal :=
  syllable h (fun s b c =>
    .ok (sendB s.dev b c o.bt.toNat (b.addr + (o.disp.signExtend 64 <<< (3 : Nat))))) s

/-- BRT (R151). -/
def execBrt (h : Hdr) (o : CB) (s : State) : Host.Outcome State Fault Refusal :=
  branch h o.bt.toNat (sylWord (.brt h o)) (fun d _ _ => d) s

/-- CALL (R152): the link register gets the address of the bundle that follows. -/
def execCall (h : Hdr) (o : CC) (s : State) : Host.Outcome State Fault Refusal :=
  branch h o.bt.toNat (sylWord (.call h o)) (fun d b c => sendB d b c o.bl.toNat b.next) s

/-- RET (R153). -/
def execRet (h : Hdr) (o : CB) (s : State) : Host.Outcome State Fault Refusal :=
  branch h o.bt.toNat (sylWord (.ret h o)) (fun d _ _ => d) s

/-! ## Ends and stops (R157-R159) -/

/-- NOP (R159). -/
def execNop (h : Hdr) (s : State) : Host.Outcome State Fault Refusal := syllable h (fun s _ _ => .ok s.dev) s

/-- HALT (R158): the phase ends; a stop, or on a privileged general core a sleep. -/
def execHalt (h : Hdr) (s : State) : Host.Outcome State Fault Refusal :=
  ctlSyllable h (fun s _ _ => .ok s.dev)
    (fun b =>
      let b := { b with phaseEnd := true }
      if isGeneral b.core && (b.base.core b.core).seq.priv then { b with ctl := .sleep }
      else b.withStop (mkStop 0x11 0 0)) s

/-- EXIT (R157). -/
def execExit (h : Hdr) (s : State) : Host.Outcome State Fault Refusal :=
  ctlSyllable h
    (fun s b c => if isGeneral b.core || c.seq.region = .none then .raise (mkFault 0x0B 0 0) else .ok s.dev)
    (fun b => { b with ctl := .exit }) s

/-- TRAP (R159). -/
def execTrap (h : Hdr) (o : CI) (s : State) : Host.Outcome State Fault Refusal :=
  ctlSyllable h (fun s _ _ => .ok s.dev) (fun b => b.withStop (mkStop 0x10 (toW o.imm.toNat) 0)) s

/-! ## Loops (R160-R173) -/

/-- Trip count of a loop source (R65, R160): immediate, scalar, lr, or the task record's. -/
def Core.loopCount (c : Core) (src : BitVec 2) (imm reg : Nat) (mq : BitVec 2) : Nat :=
  match src.toNat with
  | 0 => imm
  | 1 => (c.s reg).toNat % 2 ^ 32
  | 2 => let m := rowsOf mq
         (c.r.lr.toNat + m - 1) / m
  | _ => match c.task with
    | some t => c.tripCount t.words
    | none => 0

/-- The nesting faults of R161 and R168 for a body of len bundles at level lv. -/
def Core.nestBad (c : Core) (lv len : Nat) : Bool :=
  c.lp.mloop.isSome ||
    (([0, 1, 2, 3, 4, 5] : List Nat).any fun l =>
      let v := c.lp.level l
      v.active && (lv ≤ l || (v.len : Int) < v.pos + 1 + len))

/-- Does an MLOOP with the record's trip count end the prologue, with its body at the kernel address (R173)? -/
def taskLoopBegins (b : Bundle) (c : Core) : Bool :=
  match c.task with
  | some t => c.seq.region = .prologue && b.next = t.ker
  | none => false

/-- R173: may an MLOOP with the record's trip count stand here?  Its bundle must be the prologue's last, its body
begin at the kernel address and end at the epilogue address. -/
def taskLoopOk (m : Memory) (d : Dev) (b : Bundle) (c : Core) (len : Nat) : Bool :=
  taskLoopBegins b c && walkCode m d (corePort d b.core) len b.next = c.task.map Task.epi

/-- Where such a body ends is read with it: a body bundle that cannot be fetched raises its fetch fault at the MLOOP, which
is checked again once firmware has mapped it (R167, R173; DEDUCED, log entry 92). -/
def taskLoopFault (m : Memory) (d : Dev) (b : Bundle) (c : Core) (len : Nat) : Option Event :=
  if taskLoopBegins b c then walkFault m d (corePort d b.core) len b.next else none

/-- What a bundle's LOOP or MLOOP does to the flow when it completes. -/
def Bundle.withLoop (b : Bundle) (lv trips len : Nat) (m : Option ModLoop) (dp : Nat) (w : Word) : Bundle :=
  { b with ctl := .loop lv trips len m dp w }

/-- LOOP (R160, R161, R167). -/
def execLoop (h : Hdr) (o : CL) (s : State) : Host.Outcome State Fault Refusal :=
  let w := sylWord (.loop h o)
  let lv := o.lv.toNat
  let len := o.len.toNat + 1
  ctlSyllable h
    (fun s _ c =>
      if o.src = 3 then .raise (mkFault 0x09 w (toW lv))
      else if c.nestBad lv len then .raise (mkFault 0x08 w (toW lv)) else .ok s.dev)
    (fun b => b.withLoop lv ((b.base.core b.core).loopCount o.src o.cnt.toNat (o.cnt.toNat / 2 ^ 14) o.mq) len none 0 w)
    s

/-- MLOOP (R167-R170, R173); of two causes LOOP_STATE is reported before LOOP_NEST (DEDUCED, log entry 88). -/
def execMloop (h : Hdr) (o : CM) (s : State) : Host.Outcome State Fault Refusal :=
  let w := sylWord (.mloop h o)
  let lv := o.lv.toNat
  let len := o.len.toNat + 1
  let stages := o.sc.toNat + 1
  let count (c : Core) : Nat := c.loopCount o.src 0 o.a.toNat o.mq
  let md (c : Core) : ModLoop :=
    { level := lv, n := count c, stages := stages, ii := max o.ii.toNat len, task := o.src = 3 }
  ctlSyllable h
    (fun s b c =>
      match (if o.src = 3 then taskLoopFault s.mem s.dev b c len else none) with
      | some e => .raise e
      | none =>
      if o.src = 3 && (!taskLoopOk s.mem s.dev b c len || (count c ≠ 0 && 2 ^ 32 ≤ count c + stages - 1)) then
        .raise (mkFault 0x09 w (toW lv))
      else if c.nestBad lv len then .raise (mkFault 0x08 w (toW lv)) else .ok s.dev)
    (fun b => b.withLoop lv (count (b.base.core b.core)) len (some (md (b.base.core b.core))) (o.dp.toNat + 1) w) s

/-- Set one stride of a level (R165). -/
def LoopLevel.setStride (v : LoopLevel) (i : Nat) (x : BitVec 32) : LoopLevel :=
  match i with
  | 0 => { v with stride0 := x }
  | 1 => { v with stride1 := x }
  | 2 => { v with stride2 := x }
  | _ => { v with stride3 := x }

/-- A stride for the core of the bundle. -/
def setStride (d : Dev) (n lv i : Nat) (x : BitVec 32) : Dev :=
  d.updCore n fun c => c.setLevel lv ((c.lp.level lv).setStride i x)

/-- LSTRI (R165). -/
def execLstri (h : Hdr) (o : CS) (s : State) : Host.Outcome State Fault Refusal :=
  syllable h (fun s b _ => .ok (setStride s.dev b.core o.lv.toNat o.w.toNat o.stride)) s

/-- LSTRR (R165). -/
def execLstrr (h : Hdr) (o : CW) (s : State) : Host.Outcome State Fault Refusal :=
  syllable h (fun s b c =>
    .ok (setStride s.dev b.core o.lv.toNat o.w.toNat ((c.s o.a.toNat).setWidth 32))) s

/-- LOOP_STATE of R167 for LBRK and LNEXT: an inactive level, or the task loop. -/
def Core.levelBad (c : Core) (lv : Nat) : Bool :=
  !(c.lp.level lv).active || (match c.lp.mloop with | some q => q.task && q.level = lv | none => false)

/-- LBRK (R166, R167). -/
def execLbrk (h : Hdr) (o : CV) (s : State) : Host.Outcome State Fault Refusal :=
  ctlSyllable h
    (fun s _ c => if c.levelBad o.lv.toNat then .raise (mkFault 0x09 (sylWord (.lbrk h o)) (toW o.lv.toNat))
      else .ok s.dev)
    (fun b => { b with ctl := .lbrk o.lv.toNat }) s

/-- LNEXT (R166, R167). -/
def execLnext (h : Hdr) (o : CV) (s : State) : Host.Outcome State Fault Refusal :=
  ctlSyllable h
    (fun s _ c => if c.levelBad o.lv.toNat then .raise (mkFault 0x09 (sylWord (.lnext h o)) (toW o.lv.toNat))
      else .ok s.dev)
    (fun b => { b with ctl := .lnext o.lv.toNat }) s

/-! ## Attachment (R204-R212) -/

/-- DETACH (R208). -/
def execDetach (h : Hdr) (s : State) : Host.Outcome State Fault Refusal :=
  ctlSyllable h
    (fun s b _ => if isGeneral b.core then .raise (mkFault 0x20 b.addr (toW (7 * 2 ^ 32))) else .ok s.dev)
    (fun b => if (b.base.core b.core).attached then { b with ctl := .detach } else b) s

/-- Words of a JOIN_MISMATCH (R218). -/
def joinMismatch (x : Word) (reason n c : Nat) : Event :=
  mkFault 0x20 x (toW (reason * 2 ^ 32 + n % 65536 * 65536 + c))

/-- The reason of R218 for which a JOIN at x naming count c raises JOIN_MISMATCH now. -/
def joinReason (d : Dev) (b : Bundle) (core : Core) (x : Word) (cnt : Nat) : Option Nat :=
  let g := feOf d (clusterOf b.core)
  let fe := (d.cluster g).fe
  let n := joinCount fe x
  let known := fe.joins.any fun (a, _) => a = x
  let away := (cnt + 65535 - n % 65535) % 65535
  let named (k : Nat) : Bool := match (d.core k).joinWait with
    | some (a, q) => fe.redirect.isNone && (fe.pos = some a || fe.pos.isNone) && q = nextCount (joinCount fe a)
    | none => false
  let mine : Bool := fe.redirect.isNone && (fe.pos = some x || fe.pos.isNone) && cnt = nextCount n
  if isGeneral b.core then some 7
  else if !core.isMember then some 4
  else if core.lp.innermost.isSome then some 5
  else if cnt = 0 then some 1
  else if core.attached then none
  else if !known && 8 ≤ fe.joins.length then some 3
  else if away = 0 || 32768 ≤ away then some 2
  else if (attachedOf d g).isEmpty && !mine &&
      (membersOf d g).all (fun k => k = b.core || (!named k && (d.core k).joinWait.isSome)) then some 6
  else none

/-- JOIN (R206, R207, R216): an attached member's phase ends; a detached one waits, without issuing, for the delivery
that its point names. -/
def execJoin (h : Hdr) (o : CJ) (s : State) : Host.Outcome State Fault Refusal :=
  ctlSyllable h
    (fun s b c =>
      let d := b.base
      let g := feOf d (clusterOf b.core)
      let cnt := ((c.s o.a.toNat).toNat + o.imm.toNat) % 65536
      match joinReason d b c b.addr cnt with
      | some r => .raise (joinMismatch b.addr r (joinCount (d.cluster g).fe b.addr) cnt)
      | none =>
        if c.attached then .ok s.dev
        else
          let d := d.updCore b.core fun c => { c with joinWait := some (b.addr, cnt) }
          let fe := (d.cluster g).fe
          .stallIn (if fe.pos.isNone && (attachedOf d g).isEmpty then
            d.updCluster g fun x =>
              { x with fe := { x.fe with pos := some b.addr, part := c.seq.region, modulo := false } } else d) 4)
    (fun b => { b with phaseEnd := true }) s

/-- Words of a FUSE_STATE (R218). -/
def fuseState (w : Word) (reason : Nat) : Event := mkFault 0x21 w (toW reason)

/-- Entries and numbers of an attached core after a renumbering of its stream; a bundle that could not be fetched is
fetched again. -/
def Core.renumber (c : Core) (f : Nat → Nat) : Core :=
  { c with cons := f c.cons, fuseWait := none
           ibuf := (c.ibuf.filter fun e => e.f.fault.isNone).map fun (e : StreamEnt) => { e with seq := f e.seq } }

/-- The count before a delivery that is made again (R204). -/
def prevCount (n : Nat) : Nat := if n = 1 then 0 else n - 1

/-- Take back the count of a delivery of the JOIN at x. -/
def FrontEnd.uncountJoin (f : FrontEnd) (x : Word) : FrontEnd :=
  { f with joins := f.joins.map fun (a, n) => if a = x then (a, prevCount n) else (a, n) }

/-- Two front ends fuse (R209), in the even one's numbering.  Both had gone on from the FUSE bundle along the same code,
and the one stream goes on where less of it had been delivered: the other cluster's cores hold those bundles already and
do not get them again, and a JOIN among them counts when it is delivered to both (DEDUCED, log entry 89). -/
def Dev.fuse (d : Dev) (even : Nat) (seqEven seqOdd : Nat) : Dev :=
  let up (k : Nat) : Nat := k + 2 ^ 32
  let shift (k : Nat) : Nat := k + 2 ^ 32 + seqEven - seqOdd
  let evens := (coresOfCluster even).filter fun n => (d.core n).attached
  let odds := (coresOfCluster (even + 1)).filter fun n => (d.core n).attached
  let fe := (d.cluster even).fe
  let fo := (d.cluster (even + 1)).fe
  let renum (ns : List Nat) (f : Nat → Nat) (d : Dev) : Dev := ns.foldl (fun d n => d.updCore n (·.renumber f)) d
  let d := renum odds shift (renum evens up d)
  let evenLags : Bool := up fe.next ≤ shift fo.next
  let again := ((evens.flatMap fun n => (d.core n).ibuf.filter fun e => shift fo.next ≤ e.seq).dedup).filter
    fun e => (decoded e.f.words).any isJoin
  let mapC (l : Tab (Word × Nat)) (f : Nat → Nat) : Tab (Word × Nat) := l.map fun (k, a) => (f k, a)
  let set (f : FrontEnd) (k : Nat → Nat) : FrontEnd := { f with
    fused := true, conts := mapC f.conts k, redirect := none, wire := false
    fuseSeq := some (up seqEven), unfuseSeq := none
    earlier := (f.earlier ++ f.fuseSeq.toList ++ f.unfuseSeq.toList).map k }
  let lead : FrontEnd := if evenLags then { set fe up with next := up fe.next, redirect := fe.redirect.map up }
    else again.foldl (fun f e => f.uncountJoin e.f.addr)
      { set fe up with next := shift fo.next, redirect := fo.redirect.map shift, pos := fo.pos, part := fo.part
                       modulo := fo.modulo, cycle := max fe.cycle fo.cycle, notBefore := fo.notBefore }
  (d.updCluster even fun x => { x with fe := lead }).updCluster (even + 1) fun x =>
    { x with fe := { set fo shift with next := shift fo.next } }

/-- Has a FUSE or UNFUSE bundle of the stream already acted (R209, R211)? -/
def FrontEnd.acted (f : FrontEnd) (last : Option Nat) (k : Nat) : Bool := last = some k || f.earlier.contains k

/-- FUSE (R209, R212): the first steering core to issue it waits for its partner's. -/
def execFuse (h : Hdr) (s : State) : Host.Outcome State Fault Refusal :=
  let w := sylWord (.fuse h)
  syllable h (fun s b c =>
    let d := b.base
    let own := clusterOf b.core
    let fe := (d.cluster own).fe
    if isGeneral b.core then .raise (fuseState w 5)
    else if !c.isMember || !c.attached then .raise (fuseState w 3)
    else if fe.acted fe.fuseSeq c.cons then .ok s.dev
    else if fe.fused then .raise (fuseState w 1)
    else if steering d own ≠ some b.core then .stall 4
    else
      let partner := if own % 2 = 0 then own + 1 else own - 1
      if !(d.cluster partner).fe.serving then .raise (fuseState w 4)
      else match (steering d partner).map d.core with
        | some p =>
          if p.fuseWait = some b.addr then
            let seqs := if own % 2 = 0 then (c.cons, p.cons) else (p.cons, c.cons)
            .ok (s.dev.fuse (own - own % 2) seqs.1 seqs.2)
          else .stallIn (d.updCore b.core fun c => { c with fuseWait := some b.addr }) 4
        | none => .stallIn (d.updCore b.core fun c => { c with fuseWait := some b.addr }) 4) s

/-- UNFUSE (R211, R212): acts for the steering core of the pair; for another core it has no effect. -/
def execUnfuse (h : Hdr) (s : State) : Host.Outcome State Fault Refusal :=
  let w := sylWord (.unfuse h)
  syllable h (fun s b c =>
    let d := b.base
    let own := clusterOf b.core
    let fe := (d.cluster own).fe
    if isGeneral b.core then .raise (fuseState w 5)
    else if !c.isMember || !c.attached then .raise (fuseState w 3)
    else if fe.earlier.contains c.cons then .ok s.dev
    else if fe.fused then
      if steering d (feOf d own) = some b.core then
        let mark (d : Dev) (g : Nat) : Dev := d.updCluster g fun x =>
          { x with fe := { x.fe with unfuseSeq := some c.cons, earlier := x.fe.earlier ++ x.fe.unfuseSeq.toList } }
        .ok (mark (mark (s.dev.unfuse own) (own - own % 2)) (own - own % 2 + 1))
      else .ok s.dev
    else if fe.unfuseSeq = some c.cons then .ok s.dev
    else .raise (fuseState w 2)) s

/-! ## Vacant opcodes (R75) -/

/-- A vacant opcode: ILLEGAL_OPCODE, or UNIT_ABSENT where a general core lacks the unit; guard and edge do not
matter (R46, R47). -/
def execIllegalOpcode (h : Hdr) (cls : BitVec 3) (opc : BitVec 8) (w : BitVec 38) (s : State) :
    Host.Outcome State Fault Refusal :=
  let s := s.opened
  match s.bundle with
  | none => .next s
  | some b =>
    let absent := isGeneral b.core && (cls = 4 || cls = 5)
    .next (s.faultBundle b.base
      (mkFault (if absent then 0x04 else 0x02) (sylWord (.illegalOpcode h cls opc w)) 0))

end Sys2Proof.Machine
end

