-- ==== Sys2Proof/Machine/Remote.lean ====
section
/-!
DEFINITION. What a core asks of another package (R467, R468): loads and stores of remote pages, and the operations
that a bundle waits for.
-/

namespace Sys2Proof.Machine

/-- The event of a failed remote request (R468, R480): reason 0x40 and 0x42 are the counter causes found there, 0x80
stands for no answer in time. -/
def remoteEvent (reason pkg : Nat) (ident val : Word) : Event :=
  if reason % 256 = 0x40 then mkFault 0x40 ident val
  else if reason % 256 = 0x42 then mkFault 0x42 ident (toW (reason / 256))
  else if reason = 0x80 then mkFault 0xC2 ident (toW (pkg * 2 ^ 32 + 1))
  else mkFault 0xC1 ident (toW (pkg * 2 ^ 32 + reason % 16))

/-- Send a request of a core at a package time (R465). -/
def Dev.sendRemote (d : Dev) (n pkg : Nat) (kind : RemoteKind) (ident : Word) (pa : Nat) (data : List Byte) (val : Word)
    (tag time : Nat) : Dev :=
  let q : RemoteOut :=
    { src := n, ctx := (d.ctxOfCore n).getD 0, pkg := pkg, kind := kind, ident := ident, pa := pa, data := data
      val := val, tag := tag, phase := (d.core n).phase, start := time }
  d.send q

/-- A request that the bundle waits for, recorded with the core until the bundle completes (R468). -/
def Dev.askRemote (d : Dev) (n pkg : Nat) (kind : RemoteKind) (ident val : Word) (pa len time : Nat) : Dev :=
  (d.sendRemote n pkg kind ident pa (List.replicate len 0) val 0 time).updCore n fun c =>
    { c with remOps := c.remOps ++ [{ kind := kind, ident := ident, val := val, answer := none }] }

/-- Go on with the answer of a request, sending it first from the units d; a failure is the bundle's event. -/
def withReply (d : Dev) (b : Bundle) (c : Core) (pkg : Nat) (kind : RemoteKind) (ident val : Word) (pa len time : Nat)
    (f : Word → Out) : Out :=
  match c.remOps.find? fun q => q.kind = kind && q.ident = ident && q.val = val with
  | none => .stallIn (d.askRemote b.core pkg kind ident val pa len time) 7
  | some q => match q.answer with
    | none => .stallIn b.base 7
    | some (0, w) => f w
    | some (r, _) => .raise (remoteEvent r pkg ident val)

/-- A load result of len bytes that another package answers: its bits stand at bit off of the register (R467). -/
def Dev.loadRemote (d : Dev) (b : Bundle) (res : Result) (pkg pa len : Nat) (va : Word) (off : Nat)
    (signed : Bool) (time : Nat) : Dev :=
  let tag := (d.core b.core).nextTag
  let d := (sendLate d b res false tag).updCore b.core fun c => { c with nextTag := tag + 1 }
  d.sendRemote b.core pkg .load va pa (List.replicate len 0) (toW (2 * off + (if signed then 1 else 0))) tag time

/-! ## Ports and shares (R22, R461-R464) -/

def Dev.updPort (d : Dev) (p : Nat) (f : Port → Port) : Dev :=
  { d with fab := { d.fab with ports := tset d.fab.ports p (f (tgetD d.fab.ports p Port.reset)) } }

/-- Flits of a bulk access of len bytes: a header for each 256 bytes, and the data (R461). -/
def bulkFlits (len : Nat) : Nat := (len + 255) / 256 + (len + 63) / 64

/-- Bulk flits that a share of a port's 112 GB/s comes to in 1 µs (R22, R461). -/
def shareFlits (share : Nat) : Nat := 1750 * share / 16

/-- Bulk flits that a context's partition may still send through the port to a package in its window; none where nothing
limits them. -/
def Dev.shareLeft (d : Dev) (ctx pkg : Nat) : Option Nat :=
  match d.ctx ctx, d.partOfCtx ctx, d.fab.portTo pkg with
  | some c, some p, some port =>
    some (shareFlits p.share - tgetD (tgetD d.fab.ports port Port.reset).window c.part 0)
  | _, _, _ => none

/-- Count k bulk flits of a context to or from a package. -/
def Dev.countBulk (d : Dev) (ctx pkg k : Nat) : Dev :=
  match d.ctx ctx, d.fab.portTo pkg with
  | some c, some port => d.updPort port fun x =>
      { x with window := tset x.window c.part (tgetD x.window c.part 0 + k) }
  | _, _ => d

/-- A port admits a context's bulk access of len bytes, at most 64, to or from a package, up to its partition's share in
the window (R22); none where it must wait for the next one. -/
def Dev.admitBulk (d : Dev) (ctx pkg len : Nat) : Option Dev :=
  match d.shareLeft ctx pkg with
  | none => some d
  | some left => if bulkFlits len ≤ left then some (d.countBulk ctx pkg (bulkFlits len)) else none

/-- A port admits as many of a context's k bulk flits to or from a package as its partition's share leaves (R22): the
units, and how many are left for the next window. -/
def Dev.admitFlits (d : Dev) (ctx pkg k : Nat) : Dev × Nat :=
  match d.shareLeft ctx pkg with
  | none => (d, 0)
  | some left => (d.countBulk ctx pkg (min k left), k - min k left)

end Sys2Proof.Machine
end

