-- ==== Sys2Proof/Machine/Counter.lean ====
section
/-!
DEFINITION. The sync engine's instructions (R259-R265, R272) and the events of counters, phases and the Moraine
(R126-R129, R255, R274-R278).
-/

namespace Sys2Proof.Machine

/-! ## Order fields (R132, R133) -/

/-- ORD asks for a release. -/
def releases (ord : BitVec 2) : Bool := ord.getLsbD 1

/-- A release at the scope of a syllable, where ORD asks for one (R131). -/
def Dev.releaseFor (d : Dev) (n : Nat) (ord : BitVec 2) (scp : BitVec 3) : Dev :=
  if releases ord then d.release n scp.toNat else d

/-- Any order asked for ends the phase (R125). -/
def Bundle.ordered (b : Bundle) (ord : BitVec 2) : Bundle := if ord = 0 then b else { b with phaseEnd := true }

/-! ## Counter instructions (R260-R263) -/

/-- COUNTER_UNBOUND (R280). -/
def unboundFault (w : Word) (c : Core) (k : Nat) : Event := mkFault 0x41 w (toW (k * 16 + physK c.lp k))

/-- Go on with the counter of a handle, or raise the faults of R262. -/
def withCounter (s : State) (b : Bundle) (c : Core) (w : Word) (k : Nat) (f : Word → CounterRef → Out) : Out :=
  match c.k k with
  | none => .raise (unboundFault w c k)
  | some id =>
    match resolveCounter s.dev ((s.dev.ctxOfCore b.core).getD noContext) id with
    | .error r => .raise (mkFault 0x42 id (toW r))
    | .ok q => f id q

/-- The core waits for the sync engine's answer (R260). -/
def awaitAnswer (d : Dev) (n : Nat) : Dev :=
  d.updCore n fun c => { (c.count 0x12 1) with waits := c.waits ++ [Wait.answer] }

/-- v of R259. -/
def Core.counterArg (c : Core) (o : YK) : Word := c.s o.a.toNat + o.imm.setWidth 64

/-- CADD and CMAX (R260). -/
def changeCounter (h : Hdr) (o : YK) (w : Word) (kind : RemoteKind) (op : Word → CounterOp) (s : State) :
    Host.Outcome State Fault Refusal :=
  ctlSyllable h
    (fun s b c =>
      let v := c.counterArg o
      withCounter s b c w o.k.toNat fun id q =>
        match q with
        | .here k i =>
          let d := s.dev.releaseFor b.core o.ord o.scp
          let ctx := (s.dev.ctxOfCore b.core).getD noContext
          let (d', _, fine) := counterOp s.mem d ctx k i (op v)
          if fine then .ok (awaitAnswer d' b.core)
          else .raiseIn (counterOp s.mem (b.base.releaseFor b.core o.ord o.scp) ctx k i .read).1 (mkFault 0x40 id v)
        | .remote pkg =>
          withReply (b.base.releaseFor b.core o.ord o.scp) b c pkg kind id v 0 0 s.time fun _ =>
            .ok ((s.dev.releaseFor b.core o.ord o.scp).updCore b.core fun c => c.count 0x12 1))
    (fun b => b.ordered o.ord) s

/-- CADD (R260). -/
def execCadd (h : Hdr) (o : YK) (s : State) : Host.Outcome State Fault Refusal :=
  changeCounter h o (sylWord (.cadd h o)) .counterAdd .add s

/-- CMAX (R260). -/
def execCmax (h : Hdr) (o : YK) (s : State) : Host.Outcome State Fault Refusal :=
  changeCounter h o (sylWord (.cmax h o)) .counterMax .raise s

/-- CREAD (R260): the result is interlocked. -/
def execCread (h : Hdr) (o : YK) (s : State) : Host.Outcome State Fault Refusal :=
  let w := sylWord (.cread h o)
  let d := o.a.toNat
  ctlSyllable h
    (fun s b c =>
      withCounter s b c w o.k.toNat fun id q =>
        let dev := s.dev.releaseFor b.core o.ord o.scp
        let put (dev : Dev) (v : Word) : Dev := sendLate dev b (.s (physSV c.lp d) v) true 0
        match q with
        | .here k i =>
          let (d', v, _) := counterOp s.mem dev ((s.dev.ctxOfCore b.core).getD noContext) k i .read
          .ok (awaitAnswer (put d' v) b.core)
        | .remote pkg =>
          withReply (b.base.releaseFor b.core o.ord o.scp) b c pkg .counterRead id 0 0 0 s.time fun v =>
            .ok ((put dev v).updCore b.core fun c => c.count 0x12 1))
    (fun b => b.ordered o.ord) s

/-- A core waits on a counter: its entry is loaded, and stays in the counter SRAM (R257). -/
def waitOn (m : Memory) (d : Dev) (n ctx k i : Nat) : Dev :=
  (counterOp m d ctx k i .read).1.updCore n fun c => { c with cwaits := ((d.dieOfCtx ctx k, ctx, i) :: c.cwaits).dedup }

/-- CWAIT (R257, R260): the bundle issues only once c ≥ v. -/
def execCwait (h : Hdr) (o : YK) (s : State) : Host.Outcome State Fault Refusal :=
  let w := sylWord (.cwait h o)
  ctlSyllable h
    (fun s b c =>
      let v := c.counterArg o
      withCounter s b c w o.k.toNat fun id q =>
        let dev := (s.dev.releaseFor b.core o.ord o.scp).updCore b.core fun c => c.count 0x12 1
        match q with
        | .here k i =>
          let ctx := (s.dev.ctxOfCore b.core).getD noContext
          let (d', x, _) := counterOp s.mem dev ctx k i .read
          if x.toNat < v.toNat then .stallIn (waitOn s.mem (b.base.releaseFor b.core o.ord o.scp) b.core ctx k i) 7
          else .ok d'
        | .remote pkg =>
          withReply (b.base.releaseFor b.core o.ord o.scp) b c pkg .counterRead id v 0 0 s.time fun _ => .ok dev)
    (fun b => b.ordered o.ord) s

/-- CBIND (R261): it takes effect for the next bundle. -/
def execCbind (h : Hdr) (o : YK) (s : State) : Host.Outcome State Fault Refusal :=
  syllable h (fun s b c =>
    let v := c.counterArg o
    match resolveCounter s.dev ((s.dev.ctxOfCore b.core).getD noContext) v with
    | .error r => .raise (mkFault 0x42 v (toW r))
    | .ok _ => .ok (s.dev.updCore b.core fun x =>
        { x with r := { x.r with k := tset x.r.k (physK c.lp o.k.toNat) (some v) } })) s

/-- One condition of CWANY: its number, handle and threshold (R263). -/
structure Cond where
  i : Nat
  k : Nat
  v : Word
  deriving DecidableEq, Repr

/-- Conditions of a CWANY in order. -/
def Core.conds (c : Core) (o : YW) : List Cond :=
  ((List.range 8).filter fun i => o.mask.getLsbD i).map fun i =>
    { i := i, k := 8 * o.g.toNat + i, v := c.s (o.a.toNat + i) }

/-- What is known of a condition. -/
inductive CondState where
  | fault (e : Event)
  | holds
  /-- a counter of this package below its threshold -/
  | below (k idx : Nat)
  /-- the other package has not answered -/
  | open'
  /-- the other package has not been asked -/
  | ask (pkg : Nat) (id : Word)
  deriving DecidableEq, Repr

/-- A condition as it stands (R260, R262, R468). -/
def Core.cond (c : Core) (m : Memory) (d : Dev) (n : Nat) (w : Word) (q : Cond) : CondState :=
  let ctx := (d.ctxOfCore n).getD noContext
  match c.k q.k with
  | none => .fault (unboundFault w c q.k)
  | some id =>
    match resolveCounter d ctx id with
    | .error r => .fault (mkFault 0x42 id (toW r))
    | .ok (.here k i) => if q.v.toNat ≤ (counterGet m d ctx k i).toNat then .holds else .below k i
    | .ok (.remote pkg) =>
      match c.remOps.find? fun x => x.kind = .counterRead && x.ident = id && x.val = q.v with
      | none => .ask pkg id
      | some x => match x.answer with
        | none => .open'
        | some (0, _) => .holds
        | some (r, _) => .fault (remoteEvent r pkg id q.v)

/-- Is a fault one of an order class of R262: 0 unbound, 1 range, 2 remote? -/
def CondState.faultOf (x : CondState) (cls : Nat) : Option Event :=
  match x with
  | .fault e => if (if e.cause = 0x41 then 0 else if e.cause = 0x42 then 1 else 2) = cls then some e else none
  | _ => none

/-- The counters of this package that a CWANY names, each operated on once (R257). -/
def Core.touchConds (c : Core) (m : Memory) (d : Dev) (ctx : Nat) (qs : List Cond) : Dev :=
  qs.foldl (fun d q =>
    match (c.k q.k).map (resolveCounter d ctx) with
    | some (.ok (.here k i)) => (counterOp m d ctx k i .read).1
    | _ => d) d

/-- CWANY (R257, R263) (DEDUCED, log entry 51). -/
def execCwany (h : Hdr) (o : YW) (s : State) : Host.Outcome State Fault Refusal :=
  let w := sylWord (.cwany h o)
  ctlSyllable h
    (fun s b c =>
      let n := b.core
      let qs := c.conds o
      let st := qs.map fun q => (q, c.cond s.mem s.dev n w q)
      let base := b.base.releaseFor n o.ord o.scp
      match ([0, 1, 2] : List Nat).findSome? fun k => st.findSome? fun (_, x) => x.faultOf k with
      | some e => .raise e
      | none =>
        let order := (List.range 8).map fun q => (c.wanyNext + q) % 8
        match order.find? fun i => st.any fun (q, x) => q.i = i && x = .holds with
        | some found =>
          let ctx := (s.dev.ctxOfCore n).getD noContext
          let d := (c.touchConds s.mem (s.dev.releaseFor n o.ord o.scp) ctx qs).updCore n fun c =>
            { (c.count 0x12 1) with wanyNext := (found + 1) % 8 }
          .ok (sendLate d b (.s (physSV c.lp o.d.toNat) (toW found)) true 0)
        | none => .stallIn (st.foldl (fun d (q, x) => match x with
            | .ask pkg id => d.askRemote n pkg .counterRead id q.v 0 0 s.time
            | .below k i => waitOn s.mem d n ((s.dev.ctxOfCore n).getD noContext) k i
            | _ => d) base) 7)
    (fun b => b.ordered o.ord) s

/-- PHASE (R133, R265). -/
def execPhase (h : Hdr) (o : YN) (s : State) : Host.Outcome State Fault Refusal :=
  ctlSyllable h (fun s b _ => .ok (s.dev.releaseFor b.core o.ord o.scp)) (fun b => { b with phaseEnd := true }) s

/-! ## STAKE (R272) -/

/-- STAKE_NEGATIVE (R280). -/
def stakeNegative (s' : Nat) (t : Word) (reason cnt : Nat) : Event :=
  mkFault 0x44 t (toW (s' * 2 ^ 32 + reason * 2 ^ 16 + cnt))

/-- The checks common to every STAKE, then f with the stage and the core's hold for it; a register write to a hold in the
same cycle comes after it, but for the fields that the STAKE updates (R6). -/
def withStake (s : State) (b : Bundle) (c : Core) (o : YP) (f : Nat → Option (Nat × Hold) → Out) : Out :=
  let sa := c.s o.a.toNat
  let ctx := (s.dev.ctxOfCore b.core).getD noContext
  if wfld sa 12 52 ≠ 0 then .raise (mkFault 0x43 sa 1)
  else if !stageOk s.mem s.dev ctx sa.toNat then .raise (mkFault 0x43 sa 2)
  else
    let cur := (s.dev.core b.core).holdsBefore b.cycle
    f sa.toNat ((cur.holdOf sa.toNat).map fun i => (i, cur.hold i))

/-- The deltas of a STAKE are entered beside its other effects d, or the core stalls for room (R274). -/
def stakeDeltas (s : State) (b : Bundle) (d : Dev) (ds : List Delta) : Out :=
  let ctx := (s.dev.ctxOfCore b.core).getD noContext
  let die := moraineDie s.dev b.core ctx
  if !ds.isEmpty && !moraineRoom s.dev die ctx ds then .stallIn (b.base.reportFull die ctx s.time) 7
  else .ok (enterDeltas d b.core die ctx ds s.time)

/-- The release of a retire or an advance at the stage's publication scope (R272). -/
def stakeRelease (s : State) (n stage : Nat) (d : Dev) : Dev :=
  d.release n (stageScope s.mem s.dev ((s.dev.ctxOfCore n).getD noContext) stage)

/-- A retire or an advance releases, which ends the core's phase (R131, R272) (DEDUCED, log entry 93). -/
def Bundle.released (b : Bundle) : Bundle := { b with phaseEnd := true }

/-- STAKE with SGN 0 (R272): create; with CNT 0 it has no effect. -/
def execStakeCreate (h : Hdr) (o : YP) (s : State) : Host.Outcome State Fault Refusal :=
  ctlSyllable h
    (fun s b c =>
      let t := c.s o.b.toNat
      let k := o.cnt.toNat
      withStake s b c o fun stage e =>
        let d := s.dev.releaseFor b.core o.ord o.scp
        if k = 0 then .ok d
        else
          let put (i : Nat) (v : Hold → Hold) : Out :=
            stakeDeltas s b (d.updCore b.core fun c => c.setHold i (v (c.hold i)))
              [{ stage := stage, time := t, n := (k : Int) }]
          match e with
          | some (i, v) =>
            if v.time = t && v.count + k ≤ 65535 then put i fun w => { w with count := v.count + k }
            else .raise (stakeNegative stage t 3 k)
          | none =>
            match ((s.dev.core b.core).holdsBefore b.cycle).freeHold with
            | some i => put i fun _ => { own := false, stage := stage, time := t, count := k }
            | none => .raise (stakeNegative stage t 3 k))
    (fun b => b.ordered o.ord) s

/-- STAKE with SGN 1 and CNT > 0 (R272): retire (DEDUCED, log entry 52). -/
def execStakeRetire (h : Hdr) (o : YP) (s : State) : Host.Outcome State Fault Refusal :=
  ctlSyllable h
    (fun s b c =>
      let t := c.s o.b.toNat
      let k := o.cnt.toNat
      withStake s b c o fun stage e =>
        match e with
        | none => .raise (stakeNegative stage t 1 k)
        | some (i, v) =>
          if v.time ≠ t || v.count < k then .raise (stakeNegative stage t 1 k)
          else if v.own && v.count - k < 1 then .raise (stakeNegative stage t 4 k)
          else
            let d := stakeRelease s b.core stage (s.dev.releaseFor b.core o.ord o.scp)
            stakeDeltas s b (d.updCore b.core fun c => c.setHold i { c.hold i with count := v.count - k })
              [{ stage := stage, time := t, n := -(k : Int) }])
    Bundle.released s

/-- STAKE adv (R272): advance. -/
def execStakeAdvance (h : Hdr) (o : YP) (s : State) : Host.Outcome State Fault Refusal :=
  ctlSyllable h
    (fun s b c =>
      let t := c.s o.b.toNat
      withStake s b c o fun stage e =>
        match e with
        | none => .raise (stakeNegative stage t 2 0)
        | some (i, v) =>
          if t.toNat < v.time.toNat then .raise (stakeNegative stage t 2 0)
          else
            let d := stakeRelease s b.core stage (s.dev.releaseFor b.core o.ord o.scp)
            stakeDeltas s b (d.updCore b.core fun c => c.setHold i { c.hold i with time := t })
              (if t = v.time then [] else
                [{ stage := stage, time := t, n := (v.count : Int) },
                 { stage := stage, time := v.time, n := -(v.count : Int) }]))
    Bundle.released s

/-! ## Events of stores and phases (R126, R129, R260) -/

/-- The phase of a store has ended: a core's phase that a release entered and a fault then kept open has not (R126,
R260). -/
def Dev.phaseOver (d : Dev) (e : StoreEnt) : Bool := e.ended && !(e.owner < 288 && (d.core e.owner).phase = e.phase)

/-- STORE_VISIBLE (R126): a store of an ended phase becomes visible to an agent, or to every agent. -/
def execStoreVisible (idx : Nat) (agent : Option Nat) (s : State) : Host.Outcome State Fault Refusal :=
  happening (fun s =>
    match s.dev.stores[idx]? with
    | none => none
    | some e =>
      if !s.dev.phaseOver e then none
      else match agent with
        | none => some (s.dev.showAll fun x => x = e)
        | some a => some (s.dev.showTo (fun x => x = e) [a])) s

/-- The cycles that a core waits at its phase end count against the iteration bound, with stall reason 2 (R129). -/
def Core.phaseWaited (c : Core) (cycles : Nat) : Core :=
  { c with ready := c.ready + cycles }.gap 2 c.charged (c.ready + cycles)

/-- PHASE_END_COMPLETE (R129, R467): the phase-end wait ends after a free number of cycles (log entry 5), once no remote
store of the core lacks its answer. -/
def execPhaseEndComplete (core : Nat) (s : State) : Host.Outcome State Fault Refusal :=
  happening (fun s =>
    let c := s.dev.core core
    let due := c.waits.any fun w => match w with | .phase _ => true | _ => false
    let ends := c.waits.findSome? fun w => match w with | .ending k => some k | _ => none
    if storesAway s.dev core then none
    else if !due then ends.map fun k => s.dev.taskEnd s.mem core k s.time
    else some ((s.dev.beginPhase core).updCore core fun c => c.phaseWaited (Config.freeCycles s.free))) s

/-- SYNC_ANSWER (R260). -/
def execSyncAnswer (core : Nat) (s : State) : Host.Outcome State Fault Refusal :=
  happening (fun s =>
    let c := s.dev.core core
    if c.waits.contains .answer then
      some (s.dev.setCore core { c with waits := c.waits.filter (· ≠ .answer) })
    else none) s

/-- COUNTER_OPERATION (R255, R262): an add or a raise that reaches a sync engine; a refused add is reported. -/
def execCounterOperation (ctx : Nat) (ident : BitVec 64) (isMax : Bool) (val : BitVec 64) (s : State) :
    Host.Outcome State Fault Refusal :=
  happening (fun s =>
    match resolveCounter s.dev ctx ident with
    | .ok (.here k i) =>
      let (d, _, fine) := counterOp s.mem s.dev ctx k i (if isMax then .raise val else .add val)
      some (if fine then d else d.engineReport (352 + d.dieOfCtx ctx k) ctx 0x40 .fault 0 ident val s.time)
    | _ => none) s

/-! ## The Moraine and the progress root (R274-R278) -/

/-- MORAINE_BATCH_TIMEOUT (R274): an open batch closes 128 cycles after its first delta (DEDUCED, log entry 53). -/
def execMoraineBatchTimeout (die ctx : Nat) (s : State) : Host.Outcome State Fault Refusal :=
  happening (fun s =>
    let x := s.dev.die die
    let q := x.moraineOf ctx
    if q.openDeltas.isEmpty then none else some (s.dev.setDie die (x.setMoraine ctx q.close))) s

/-- Net counts with a delta added. -/
def addNet (l : List (Nat × Word × Int)) (e : Delta) : List (Nat × Word × Int) :=
  if l.any fun (s, t, _) => s = e.stage && t = e.time then
    l.map fun (s, t, n) => if s = e.stage && t = e.time then (s, t, n + e.n) else (s, t, n)
  else l ++ [(e.stage, e.time, e.n)]

/-- Frontier of a stage (R276). -/
def frontier (m : Memory) (d : Dev) (ctx : Nat) (net : List (Nat × Word × Int)) (s : Nat) : Word :=
  net.foldl (fun f (s', t, n) =>
    if 0 < n then
      match closure m d ctx s' s with
      | some sum => let u := applySummary sum t
                    if u.toNat < f.toNat then u else f
      | none => f
    else f) (BitVec.allOnes 64)

/-- Stages that publish their frontier (R266, R277). -/
def publishers (m : Memory) (d : Dev) (ctx : Nat) : List Nat :=
  (List.range 4096).filter fun s => let w := stageWord m d ctx s 2
                                    w.getLsbD 0 && w.getLsbD 1

/-- One publication to a counter (R277) (DEDUCED, log entry 54). -/
def publish (m : Memory) (d : Dev) (ctx stage : Nat) (id v : Word) (time : Nat) : Dev :=
  let src := 352 + d.rootDie ctx
  match resolveCounter d ctx id with
  | .ok (.here k i) => (counterOp m (d.release src (stageScope m d ctx stage)) ctx k i (.raise v)).1
  | .ok (.remote pkg) =>
    let q : RemoteOut :=
      { src := src, ctx := ctx, pkg := pkg, kind := .counterMax, ident := id, pa := 0, data := [], val := v
        tag := stage, phase := 0, start := time }
    (d.release src (stageScope m d ctx stage)).send q
  | .error r =>
    match d.ctx ctx with
    | none => d
    | some c =>
      if c.root.skipped.contains (stage, id) then d
      else
        (d.setCtx ctx { c with root := { c.root with skipped := (stage, id) :: c.root.skipped } }).engineReport src ctx
          0x42 .fault 0 id (toW (stage * 2 ^ 16 + r)) time

/-- The greatest publication to a frontier counter in another package is kept: it is that counter's value (R278; DESIGN
CHOICE, log entry 126). -/
def Root.published (r : Root) (s : Nat) (f : Word) : Root :=
  { r with shown := tset r.shown s (if (tgetD r.shown s 0).toNat < f.toNat then f else tgetD r.shown s 0) }

/-- Publications of a stage: its frontier counter and its mirror (R277). -/
def publishStage (m : Memory) (ctx : Nat) (net : List (Nat × Word × Int)) (time : Nat) (d : Dev) (s : Nat) : Dev :=
  let f := frontier m d ctx net s
  let d := (publish m d ctx s (stageWord m d ctx s 0) f time).updCtx ctx fun c => { c with root := c.root.published s f }
  if (stageWord m d ctx s 2).getLsbD 2 then publish m d ctx s (stageWord m d ctx s 1) f time else d

/-- Value of a stage's frontier counter; of one in another package, the greatest publication sent to it. -/
def frontierNow (m : Memory) (d : Dev) (ctx s : Nat) : Option Word :=
  match resolveCounter d ctx (stageWord m d ctx s 0) with
  | .ok (.here k i) => some (counterGet m d ctx k i)
  | .ok (.remote _) => (d.ctx ctx).map fun c => tgetD c.root.shown s 0
  | .error _ => none

/-- Is an increment below a published frontier (R278)? -/
def isLate (m : Memory) (d : Dev) (ctx : Nat) (ps : List Nat) (e : Delta) : Bool :=
  0 < e.n && ps.any fun s =>
    match closure m d ctx e.stage s, frontierNow m d ctx s with
    | some sum, some f => (applySummary sum e.time).toNat < f.toNat
    | _, _ => false

/-- The root applies a batch that has reached it (R275-R278). -/
def applyBatch (m : Memory) (d : Dev) (ctx : Nat) (c : Ctx) (b : Batch) (time : Nat) : Dev :=
  let src := 352 + d.rootDie ctx
  let net := b.deltas.foldl addNet c.root.net
  if net.any fun (_, _, n) => (2 : Int) ^ 47 ≤ n || n < -((2 : Int) ^ 47) then
    (d.setCtx ctx { c with root := { c.root with frozen := true } }).engineReport src ctx 0x45 .fault 0
      (toW c.ovfBase) 1 time
  else
    let ps := publishers m d ctx
    let late := (b.deltas.filter (isLate m d ctx ps)).length
    let root : Root := { c.root with
      applied := tset c.root.applied b.die b.seq
      net := net.filter fun (_, _, n) => n ≠ 0
      late := satAdd c.root.late late
      arriving := c.root.arriving.erase b }
    ps.foldl (publishStage m ctx net time) (d.setCtx ctx { c with root := root })

/-- The next batch of a die that has been sent to a context's root. -/
def Root.next (r : Root) (die : Nat) : Option Batch :=
  r.arriving.find? fun b => b.die = die && b.seq = tgetD r.applied die 0 + 1

/-- A Moraine's batches have reached the root up to the next one to apply: where it has sent none, it sends its oldest. -/
def Dev.batchSent (d : Dev) (ctx die : Nat) : Dev :=
  match d.ctx ctx with
  | some c => if (c.root.next die).isSome then d else (d.sendBatch die ctx).getD d
  | none => d

/-- BATCH_APPLY (R275, R279): the root applies the next batch of a die in sequence order, whether its context is resident
or not. -/
def execBatchApply (ctx die : Nat) (s : State) : Host.Outcome State Fault Refusal :=
  happening (fun s =>
    let d := s.dev.batchSent ctx die
    match d.ctx ctx with
    | none => none
    | some c => if c.root.frozen then none else (c.root.next die).map fun b => applyBatch s.mem d ctx c b s.time) s

end Sys2Proof.Machine
end

