-- ==== Sys2Proof/Machine/Row.lean ====
section
/-!
DEFINITION. The row engine (R313-R342): control words, selection and compaction, restoring, traces and masks, and the
range checks that every path between the core's engines and its scratchpad shares (R329).
-/

namespace Sys2Proof.Machine

/-! ## Scratchpad ranges (R225, R319, R329) -/

/-- The first fault of the range [a, a + len) as R329 orders them. -/
def rangeFault (d : Dev) (n : Nat) (a : Word) (len align : Nat) (acc : Access) : Option Event :=
  if wfld a 57 7 ≠ 0 || (len ≠ 0 && straddles a len) then some (noncanonical a 0 acc)
  else if a.toNat % align ≠ 0 then some (mkFault 0x36 a 0)
  else if len = 0 then none
  else if !inAperture a.toNat || isGeneral n then some (quotaFault a (if isGeneral n then 3 else 1))
  else
    let off := a.toNat - apertureBase
    let at' (o : Nat) : Word := toW (apertureBase + o)
    match (d.ctxOfCore n).bind d.ctx with
    | none => some (quotaFault a 1)
    | some x =>
      let lo := x.qbase * 65536
      let hi := (x.qbase + x.qsize) * 65536
      let w := x.wbase * 65536
      let wTop := w + x.wnum * waySize
      let bad := if off < lo then some off else if hi < off + len then some (max off hi) else none
      let win := if off < wTop && w < off + len then some (max off w) else none
      match bad, win with
      | some q, some v => if q ≤ v then some (quotaFault (at' q) (if spmSize ≤ q then 2 else 1))
                          else some (handleFault (at' v) 0 2)
      | some q, none => some (quotaFault (at' q) (if spmSize ≤ q then 2 else 1))
      | none, some v => some (handleFault (at' v) 0 2)
      | none, none => none

/-- Physical address of an aperture address of a core. -/
def spmOf (n : Nat) (a : Word) : Nat := spmBase (clusterOf n) + (a.toNat - apertureBase)

/-- Bytes of a range as the core reads them. -/
def spmRead (m : Memory) (d : Dev) (n : Nat) (a : Word) (len : Nat) : List Byte := readBytes m d n (spmOf n a) len

/-- Stores of the core (R319). -/
def spmWrite (d : Dev) (n : Nat) (a : Word) (bs : List Byte) : Dev :=
  (d.coreStore n (spmOf n a) bs).clearGranules (spmOf n a) bs.length

/-- Granules of a range with an uncorrectable error, counted from its first. -/
def badGranules (d : Dev) (n : Nat) (a : Word) (len : Nat) : List Nat :=
  let bad := (d.cluster (clusterOf n)).spmBad
  let off := a.toNat - apertureBase
  if bad.isEmpty || len = 0 then [] else (List.range ((off % 8 + len + 7) / 8)).filter fun i => bad.contains (off / 8 + i)

/-- SPM_UNCORRECTABLE on the first bad granule of a range that is read (R336, R363). -/
def rangeBad (d : Dev) (n : Nat) (a : Word) (len : Nat) : Option Event :=
  (badGranules d n a len).head?.map fun i => mkFault 0x39 (toW (a.toNat / 8 * 8 + 8 * i)) 0

/-- Rows moved: the bytes of each source are read before any destination is written, and a bad granule moves with
them (R319). -/
def moveRows (m : Memory) (d : Dev) (n len : Nat) (moves : List (Word × Word)) (d' : Dev) : Dev :=
  let data := moves.map fun (src, dst) => (dst, spmRead m d n src len, badGranules d n src len)
  data.foldl (fun d (dst, bs, bad) =>
    let d := spmWrite d n dst bs
    if bad.isEmpty then d
    else d.updCluster (clusterOf n) fun x =>
      { x with spmBad := (x.spmBad ++ bad.map fun i => (dst.toNat - apertureBase) / 8 + i).dedup }) d'

/-! ## The engine's state (R313-R316) -/

def RowState.word (r : RowState) (i : Nat) : BitVec 32 := tgetD r.cwa i 0
def RowState.isLive (r : RowState) (i : Nat) : Bool := tgetD r.live i false
def RowState.trace (r : RowState) (c : Nat) : BitVec 16 := if c < 4096 then tgetD r.tm c 0xFFFF else 0xFFFF
def RowState.setWord (r : RowState) (i : Nat) (w : BitVec 32) : RowState := { r with cwa := tset r.cwa i w }
/-- Bytes of a row (R318). -/
def RowState.rowBytes (r : RowState) : Nat := 64 * r.rlen

/-- Fields of a control word (R315). -/
def cwSeq (w : BitVec 32) : Nat := fld w.toNat 16 16
def cwBlk (w : BitVec 32) : Nat := fld w.toNat 6 10
def cwRem (w : BitVec 32) : Nat := fld w.toNat 2 4
def cwAct (w : BitVec 32) : Nat := fld w.toNat 0 2

/-- The word with SEQ kept and new action fields. -/
def cwWith (w : BitVec 32) (blk rem act : Nat) : BitVec 32 :=
  BitVec.ofNat 32 (cwSeq w * 65536 + blk * 64 + rem * 4 + act)

/-- No trace (R333, part of R321). -/
def RowState.clearTrace (r : RowState) : RowState :=
  { r with live := [], tm := [], tlen := 0, plen := 0, tvalid := false, recurse := false }

/-- What a selection decides of a row (R316): live, and whether ROWPACK rewrites its word; none is RECURSION_STATE. -/
def selectRow (w : BitVec 32) (blk : Nat) (rec : Bool) : Option (Bool × Bool) :=
  let delta := (blk + 1024 - cwBlk w) % 1024
  if cwSeq w = 0xFFFF then some (false, false)
  else match cwAct w with
    | 0 => some (!rec, false)
    | 1 =>
      if delta = 0 then some (false, false)
      else if delta ≤ 511 then some (!rec, !rec)
      else some (!rec, false)
    | 2 => some (false, false)
    | _ => if cwBlk w = blk then some (rec && 1 ≤ cwRem w, false) else none

/-- Lowest row that raises RECURSION_STATE. -/
def RowState.badRow (r : RowState) (blk : Nat) (rec : Bool) : Option Nat :=
  (List.range r.nrow).find? fun i => (selectRow (r.word i) blk rec).isNone

/-- Live rows of a selection, ascending. -/
def RowState.selected (r : RowState) (blk : Nat) (rec : Bool) : List Nat :=
  (List.range r.nrow).filter fun i => match selectRow (r.word i) blk rec with | some (l, _) => l | none => false

/-- The words of a selection with the rewrites of R316. -/
def RowState.rewrite (r : RowState) (blk : Nat) (rec : Bool) : RowState :=
  ((List.range r.nrow).filter fun i => match selectRow (r.word i) blk rec with | some (_, x) => x | none => false).foldl
    (fun r i => r.setWord i (cwWith (r.word i) 0 0 0)) r

/-- A table of rows. -/
def tabOf {α : Type} (l : List α) : Tab α := (List.range l.length).zip l

/-! ## Faults (R336, R337) -/

def traceRange (w : Word) (value reason : Nat) (r : RowState) : Event :=
  mkFault 0x60 w (toW (value % 65536 * 2 ^ 48 + reason * 2 ^ 32 + r.nrow))

def rowSequence (w : Word) (drain : Bool) : Event := mkFault 0x61 w (if drain then 1 else 0)

def recursionState (w : Word) (r : RowState) (i : Nat) : Event :=
  mkFault 0x62 w (toW (i * 2 ^ 32 + (r.word i).toNat))

/-- TRACE_RANGE for the geometry (R336). -/
def RowState.geometry (r : RowState) (w : Word) : Option Event :=
  if r.rlen = 0 || 256 < r.rlen then some (traceRange w r.rlen 4 r) else none

/-- The first of a list of checks that fails. -/
def firstOf (l : List (Option Event)) : Option Event := l.findSome? id

/-! ## The wrapper (R318) -/

/-- A W syllable: it issues when the engine is free, starts after a drain of its own bundle, and keeps the engine busy
for the cycles that f answers beside the units; touch gives the ranges that it accesses while it is busy (R319). -/
def rowSyllable (h : Hdr) (touch : Core → List (Word × Nat))
    (f : State → Bundle → Core → Nat → Except Event (Dev × Nat)) (s : State) : Host.Outcome State Fault Refusal :=
  syllable h (fun s b c =>
    if b.cycle < c.row.busyUntil then .stall 9
    else
      let start := max b.cycle (s.dev.core b.core).row.busyUntil
      match f s b c (start - b.cycle) with
      | .error e => .raise e
      | .ok (d, busy) => .ok (d.updCore b.core fun x => { (x.count 0x11 1) with row := { x.row with
          busyUntil := start + busy
          touched := (touch c).map fun (a, n) => (spmOf b.core a, n) } })) s

/-- A W syllable that accesses no scratchpad. -/
def untouched (_ : Core) : List (Word × Nat) := []

/-- New row-engine state. -/
def Dev.setRow (d : Dev) (n : Nat) (r : RowState) : Dev := d.updCore n fun c => { c with row := r }

/-- Checks, then an effect with its busy cycles. -/
def checkedRow (l : List (Option Event)) (x : Dev × Nat) : Except Event (Dev × Nat) :=
  match firstOf l with
  | some e => .error e
  | none => .ok x

/-! ## Loading and storing control words (R321, R322) -/

/-- ROWLD (R321). -/
def execRowld (h : Hdr) (o : WR) (s : State) : Host.Outcome State Fault Refusal :=
  let w := sylWord (.rowld h o)
  rowSyllable h (fun c => [(c.s o.a.toNat, 4 * (c.s o.b.toNat).toNat)]) (fun s b c _ =>
    let a := c.s o.a.toNat
    let n := (c.s o.b.toNat).toNat
    let len := 4 * n
    if n = 0 || 4096 < n then .error (traceRange w n 1 c.row)
    else
      let words := (List.range n).map fun i =>
        BitVec.ofNat 32 (ofBytes (((spmRead s.mem s.dev b.core a len).drop (4 * i)).take 4))
      checkedRow [rangeFault s.dev b.core a len 4 .read, rangeBad s.dev b.core a len]
        (s.dev.setRow b.core { c.row.clearTrace with cwa := tabOf words, nrow := n }, 4 + (len + 255) / 256)) s

/-- ROWST (R321). -/
def execRowst (h : Hdr) (o : WR) (s : State) : Host.Outcome State Fault Refusal :=
  rowSyllable h (fun c => [(c.s o.a.toNat, 4 * c.row.nrow)]) (fun s b c _ =>
    let a := c.s o.a.toNat
    let len := 4 * c.row.nrow
    let bs := (List.range c.row.nrow).flatMap fun i => toBytes 4 (c.row.word i).toNat
    checkedRow [rangeFault s.dev b.core a len 4 .write]
      (if len = 0 then s.dev else spmWrite s.dev b.core a bs, 4 + (len + 255) / 256)) s

/-- ROWSET (R322). -/
def execRowset (h : Hdr) (o : WI) (s : State) : Host.Outcome State Fault Refusal :=
  let w := sylWord (.rowset h o)
  rowSyllable h untouched (fun s b c _ =>
    let first := (c.s o.a.toNat).toNat
    let n := o.imm.toNat
    let v := (c.s o.d.toNat).setWidth 32
    checkedRow [if c.row.nrow < first + n then some (traceRange w first 5 c.row) else none]
      (s.dev.setRow b.core ((List.range n).foldl (fun r i => r.setWord (first + i) v) c.row), 4)) s

/-! ## Updates (R323-R325, R330) -/

/-- Does rule t fire for an FP32 score (R323)? -/
def ruleFires (t : Word) (x : Nat) : Bool :=
  let v := fmtFp32.decode x
  let thr := fmtFp32.decode (wfld t 0 32)
  t.getLsbD 63 && !v.isNan && !thr.isNan && (if t.getLsbD 56 then v.lt thr else !v.lt thr)

/-- The new word of a row for its score, and whether it exits (R324). -/
def updateRow (r : RowState) (w : BitVec 32) (blk x : Nat) : BitVec 32 × Bool :=
  match ([0, 1, 2, 3] : List Nat).find? fun k => ruleFires (tgetD r.thr k 0) x with
  | none => (w, false)
  | some k =>
    let t := tgetD r.thr k 0
    let rc := wfld t 57 4
    match wfld t 61 2 with
    | 1 => (cwWith w ((blk + 1) % 1024) 0 1, false)
    | 2 => (cwWith w blk 0 2, true)
    | 3 => if 1 ≤ rc then (cwWith w blk rc 3, false) else (w, false)
    | _ => (w, false)

/-- ROWUPD (R324). -/
def execRowupd (h : Hdr) (o : WR) (s : State) : Host.Outcome State Fault Refusal :=
  let w := sylWord (.rowupd h o)
  rowSyllable h untouched (fun s b c late =>
    let n := tileRows o.mq
    let scores := c.elems o.a.toNat n 32
    let first := (c.s o.b.toNat).toNat
    let step (acc : RowState × Nat) (i : Nat) : RowState × Nat :=
      let r := first + i
      if r < acc.1.nrow && acc.1.isLive r && cwAct (acc.1.word r) = 0 then
        let (v, out) := updateRow acc.1 (acc.1.word r) o.blk.toNat (nth scores i 0)
        (acc.1.setWord r v, if out then acc.2 + 1 else acc.2)
      else acc
    let (row, x) := (List.range n).foldl step (c.row, 0)
    checkedRow [if c.row.tvalid then none else some (rowSequence w false)]
      (sendS (s.dev.setRow b.core { row with exits := satAdd row.exits x }) b c o.d.toNat (toW x) (4 + late), 4)) s

/-- ROWREC (R325). -/
def execRowrec (h : Hdr) (o : WI) (s : State) : Host.Outcome State Fault Refusal :=
  let w := sylWord (.rowrec h o)
  rowSyllable h untouched (fun s b c _ =>
    let first := (c.s o.a.toNat).toNat
    let n := o.imm.toNat
    let vals := c.elems o.d.toNat n 32
    let step (r : RowState) (i : Nat) : RowState :=
      let x := r.word (first + i)
      let k := min (nth vals i 0) 15
      if cwAct x ≠ 3 then r
      else r.setWord (first + i) (if k = 0 then cwWith x 0 0 0 else cwWith x (cwBlk x) k 3)
    checkedRow [if c.row.nrow < first + n then some (traceRange w first 5 c.row) else none]
      (s.dev.setRow b.core ((List.range n).foldl step c.row), 4)) s

/-- ROWRDEC (R330). -/
def execRowrdec (h : Hdr) (o : WR) (s : State) : Host.Outcome State Fault Refusal :=
  let w := sylWord (.rowrdec h o)
  rowSyllable h untouched (fun s b c late =>
    let rows := (List.range c.row.nrow).filter fun i => c.row.isLive i && cwAct (c.row.word i) = 3
    let blks := rows.map fun i => cwBlk (c.row.word i)
    let row := rows.foldl (fun r i =>
      let x := r.word i
      r.setWord i (if cwRem x ≤ 1 then cwWith x 0 0 0 else cwWith x (cwBlk x) (cwRem x - 1) 3)) c.row
    let left := (List.range row.nrow).filter fun i =>
      cwAct (row.word i) = 3 && blks.contains (cwBlk (row.word i)) && 1 ≤ cwRem (row.word i)
    checkedRow [if c.row.tvalid then none else some (rowSequence w false)]
      (sendS (s.dev.setRow b.core row) b c o.d.toNat (toW left.length) (4 + late), 4)) s

/-! ## Selection and compaction (R326, R327) -/

/-- lr lands in a cycle, interlocked (R318). -/
def sendLr (d : Dev) (b : Bundle) (v cycle : Nat) : Dev := sendAt d b (.lr (BitVec.ofNat 16 v)) cycle

/-- The first byte of row i of an array of rows at a. -/
def RowState.rowAt (r : RowState) (a : Word) (i : Nat) : Word := a + toW (i * r.rowBytes)

/-- Bytes that a ROWPACK moves (R326). -/
def packTouch (o : WR) (c : Core) : List (Word × Nat) :=
  let live := c.row.selected o.blk.toNat (decide (o.d = 1))
  let mrows := tileRows o.mq
  if o.a = 0 then [] else
  (c.s o.b.toNat, mrows * ((live.length + mrows - 1) / mrows) * c.row.rowBytes) ::
    live.map fun i => (c.row.rowAt (c.s o.a.toNat) i, c.row.rowBytes)

/-- ROWPACK (R326). -/
def execRowpack (h : Hdr) (o : WR) (s : State) : Host.Outcome State Fault Refusal :=
  let w := sylWord (.rowpack h o)
  rowSyllable h (packTouch o) (fun s b c late =>
    let n := b.core
    let r := c.row
    let blk := o.blk.toNat
    let rec' := o.d = 1
    let mv := o.a ≠ 0
    let rb := r.rowBytes
    let src := c.s o.a.toNat
    let dst := c.s o.b.toNat
    let live := r.selected blk rec'
    let tlen := live.length
    let mrows := tileRows o.mq
    let plen := mrows * ((tlen + mrows - 1) / mrows)
    let srcs := live.map (r.rowAt src)
    let pick := 4 + (r.nrow + 255) / 256
    let checks := [
      if mv then r.geometry w else none,
      (r.badRow blk rec').map fun i => recursionState w r i,
      if mv then firstOf ((rangeFault s.dev n src 0 64 .read) :: srcs.map fun a => rangeFault s.dev n a rb 64 .read)
        else none,
      if mv then rangeFault s.dev n dst (plen * rb) 64 .write else none]
    let d := if mv then
        let d := moveRows s.mem s.dev n rb ((List.range tlen).zip srcs |>.map fun (i, a) => (a, r.rowAt dst i)) s.dev
        if plen = tlen then d else spmWrite d n (r.rowAt dst tlen) (List.replicate ((plen - tlen) * rb) 0)
      else s.dev
    let row : RowState := { (r.rewrite blk rec') with
      live := live.map fun i => (i, true)
      tm := tabOf (live.map fun i => BitVec.ofNat 16 i)
      tlen := tlen
      plen := plen
      tvalid := true
      recurse := rec' }
    checkedRow checks
      (sendLr (d.setRow n row) b tlen (b.cycle + late + pick),
       pick + (if mv then (plen * rb + 255) / 256 else 0))) s

/-- ROWCNT (R326). -/
def execRowcnt (h : Hdr) (o : WR) (s : State) : Host.Outcome State Fault Refusal :=
  let w := sylWord (.rowcnt h o)
  rowSyllable h untouched (fun s b c late =>
    let r := c.row
    let rec' := o.d = 1
    let pick := 4 + (r.nrow + 255) / 256
    checkedRow [(r.badRow o.blk.toNat rec').map fun i => recursionState w r i]
      (sendLr s.dev b (r.selected o.blk.toNat rec').length (b.cycle + late + pick), pick)) s

/-- Rows that a ROWRESTORE writes, in trace order (R327). -/
def RowState.traced (r : RowState) : List Nat := (List.range r.tlen).map fun i => (r.trace i).toNat

/-- Bytes that a ROWRESTORE moves (R327). -/
def restoreTouch (o : WR) (c : Core) : List (Word × Nat) :=
  (c.s o.a.toNat, c.row.tlen * c.row.rowBytes) ::
    c.row.traced.map fun i => (c.row.rowAt (c.s o.b.toNat) i, c.row.rowBytes)

/-- ROWRESTORE (R327). -/
def execRowrestore (h : Hdr) (o : WR) (s : State) : Host.Outcome State Fault Refusal :=
  let w := sylWord (.rowrestore h o)
  rowSyllable h (restoreTouch o) (fun s b c late =>
    let n := b.core
    let r := c.row
    let rb := r.rowBytes
    let src := c.s o.a.toNat
    let dst := c.s o.b.toNat
    let moves := ((List.range r.tlen).zip r.traced).map fun (i, k) => (r.rowAt src i, r.rowAt dst k)
    checkedRow
      [if r.tvalid then none else some (rowSequence w false), r.geometry w,
       rangeFault s.dev n src (r.tlen * rb) 64 .read, rangeFault s.dev n dst 0 64 .write,
       firstOf ((r.traced.insertionSort (· ≤ ·)).map fun k => rangeFault s.dev n (r.rowAt dst k) rb 64 .write)]
      (sendLr (moveRows s.mem s.dev n rb moves s.dev) b r.tlen (b.cycle + late + 4),
       4 + (r.tlen * rb + 255) / 256)) s

/-! ## Traces, masks and slots (R331-R333) -/

/-- First entry at which a list is no trace image (R331): non-null rows below nrow, each once, then nulls. -/
def badEntry (nrow : Nat) : List Nat → List Nat → Option Nat
  | [], _ => none
  | e :: t, seen =>
    if e = 0xFFFF then t.find? (· ≠ 0xFFFF)
    else if 4096 ≤ e || nrow ≤ e || seen.contains e then some e
    else badEntry nrow t (e :: seen)

/-- ROWTRLD (R331). -/
def execRowtrld (h : Hdr) (o : WR) (s : State) : Host.Outcome State Fault Refusal :=
  let w := sylWord (.rowtrld h o)
  rowSyllable h (fun c => [(c.s o.a.toNat, 2 * (c.s o.b.toNat).toNat)]) (fun s b c _ =>
    let a := c.s o.a.toNat
    let n := (c.s o.b.toNat).toNat
    let len := 2 * n
    if 4096 < n then .error (traceRange w n 1 c.row)
    else
      let bytes := if len = 0 then [] else spmRead s.mem s.dev b.core a len
      let es := (List.range n).map fun i => ofBytes ((bytes.drop (2 * i)).take 2)
      let rows := es.filter (· ≠ 0xFFFF)
      let row : RowState := { c.row with
        tm := tabOf (es.map fun e => BitVec.ofNat 16 e)
        live := rows.foldl (fun t i => tset t i true) []
        tlen := rows.length
        plen := n
        tvalid := true
        recurse := false }
      checkedRow
        [rangeFault s.dev b.core a len 2 .read, rangeBad s.dev b.core a len,
         (badEntry c.row.nrow es []).map fun e => traceRange w e 3 c.row]
        (s.dev.setRow b.core row, 4 + (len + 127) / 128)) s

/-- ROWTRST (R331). -/
def execRowtrst (h : Hdr) (o : WR) (s : State) : Host.Outcome State Fault Refusal :=
  let w := sylWord (.rowtrst h o)
  rowSyllable h (fun c => [(c.s o.a.toNat, 2 * c.row.plen)]) (fun s b c late =>
    let a := c.s o.a.toNat
    let n := c.row.plen
    let bs := (List.range n).flatMap fun i => toBytes 2 (c.row.trace i).toNat
    let d := if n = 0 then s.dev else spmWrite s.dev b.core a bs
    checkedRow
      [if c.row.tvalid then none else some (rowSequence w false), rangeFault s.dev b.core a (2 * n) 2 .write]
      (sendS d b c o.d.toNat (toW n) (4 + late), 4 + (2 * n + 127) / 128)) s

/-- ROWMASK (R332). -/
def execRowmask (h : Hdr) (o : WR) (s : State) : Host.Outcome State Fault Refusal :=
  rowSyllable h untouched (fun s b c late =>
    let first := (c.s o.a.toNat).toNat
    let bits := (List.range 64).map fun i => if first + i < c.row.nrow && c.row.isLive (first + i) then 15 else 0
    .ok (sendM s.dev b o.d.toNat (BitVec.ofNat 256 (packNat 4 bits)) (4 + late), 4)) s

/-- ROWSEQ (R332). -/
def execRowseq (h : Hdr) (o : WR) (s : State) : Host.Outcome State Fault Refusal :=
  let w := sylWord (.rowseq h o)
  rowSyllable h untouched (fun s b c late =>
    let first := (c.s o.a.toNat).toNat
    let vals := (List.range (tileRows o.mq)).map fun i =>
      let r := (c.row.trace (first + i)).toNat
      if r = 0xFFFF then 0xFFFFFFFF else cwSeq (c.row.word r)
    checkedRow [if c.row.tvalid then none else some (rowSequence w false)]
      (sendV s.dev b c o.d.toNat (packGroup 32 vals) (4 + late), 4)) s

/-- ROWCLR (R333). -/
def execRowclr (h : Hdr) (o : WR) (s : State) : Host.Outcome State Fault Refusal :=
  let _ := o
  rowSyllable h untouched (fun s b c _ => .ok (s.dev.setRow b.core c.row.clearTrace, 4)) s

end Sys2Proof.Machine
end

