-- ==== Sys2Proof/Machine/Tiles.lean ====
section
/-!
DEFINITION. Elements of memory by the format of their page, with their block scales (R90-R92), and the canonical
reduction tree (R104): what Gravers, copy engines and fabric ports share.
-/

namespace Sys2Proof.Machine

/-- Format register k of a context (R84): an entry not installed is unset. -/
def Ctx.format (x : Ctx) (k : Nat) : Word := nth x.fmt k 0x0000000700000000

/-- A page as an engine finds it: its descriptor's index and word, geometry, base and size. -/
structure PageFmt where
  pa : Nat
  idx : Nat
  desc : Word
  geo : Nat
  base : Nat
  size : Nat
  deriving DecidableEq, Repr

/-- The page of an address (R92, R114). -/
def pageFmt (m : Memory) (d : Dev) (src ctx : Nat) (va : Word) (acc : Access) : Except EngFault PageFmt :=
  match engineAddress m d src ctx va acc with
  | .error e => .error e
  | .ok t =>
    let k := wfld t.leaf 12 4
    .ok { pa := t.pa, idx := k, desc := ((d.ctx ctx).map (·.format k)).getD 0x0000000700000000, geo := wfld t.leaf 10 2
          base := va.toNat - va.toNat % 2 ^ t.bits, size := 2 ^ t.bits }

/-- Does the range lie in HBM of this package?  The first page that does not, or that does not translate, decides. -/
def inHbm (m : Memory) (d : Dev) (src ctx : Nat) (va : Word) (n : Nat) (acc : Access) : Except EngFault Unit :=
  (unitPieces va.toNat n).forM fun (a, _) =>
    match engineAddress m d src ctx (toW a) acc with
    | .error e => .error e
    | .ok t => if t.remote.isSome || placeOf t.pa ≠ .hbm then .error (.notHbm (toW a)) else .ok ()

/-- SCL of a descriptor; 0 for no scales (R84). -/
def descScl (w : Word) : Nat := wfld w 30 2
/-- B of a scaled descriptor (R91). -/
def descBlock (w : Word) : Nat := if w.getLsbD 29 then 32 else 16

/-- Block index of element q of a page (R91). -/
def blockIndex (desc : Word) (geo q : Nat) : Nat :=
  if geo = 1 then q / 128 / descBlock desc * 128 + q % 128 else q / descBlock desc

/-- Address of the scale of block β of a page (R91). -/
def PageFmt.scaleAt (p : PageFmt) (β : Nat) : Word :=
  BitVec.ofInt 64 (p.base + (wfld p.desc 48 16 : Int) * p.size - (if p.desc.getLsbD 63 then 65536 * (p.size : Int) else 0) + β)

/-- A decoded scale byte (R90). -/
def scaleOf (scl x : Nat) : FVal :=
  if scl = 2 then ({ sgn := 1, e := 4, m := 3, bias := 7, spec := 1, c := 8 } : Fmt).decode x
  else if x = 255 then .nan else .fin false 1 ((x : Int) - 127)

/-- Element e of an array at a base whose containers have c bits, decoded with its scale by its page (R86, R92). -/
def readElement (m : Memory) (d : Dev) (src ctx : Nat) (base : Word) (c e : Nat) : Except EngFault FVal :=
  let a := base + toW (c * e / 8)
  match pageFmt m d src ctx a .read with
  | .error x => .error x
  | .ok p =>
    match descFmt p.desc with
    | none => .error (.unset p.idx)
    | some f =>
      match engineRead m d src ctx a ((f.c + 7) / 8) with
      | .error x => .error x
      | .ok bs =>
        let q := 8 * (a.toNat - p.base) / f.c + (if f.c = 4 && c = 4 then e % 2 else 0)
        let v := f.decode (ofBytes bs / 2 ^ (if f.c = 4 && c = 4 then 4 * (e % 2) else 0))
        if descScl p.desc = 0 then .ok v
        else match engineRead m d src ctx (p.scaleAt (blockIndex p.desc p.geo q)) 1 with
          | .error x => .error x
          | .ok sb => .ok (v.mul (scaleOf (descScl p.desc) (ofBytes sb)))

/-- Container width of the elements at an address (R86). -/
def containerAt (m : Memory) (d : Dev) (src ctx : Nat) (a : Word) : Except EngFault Nat :=
  match pageFmt m d src ctx a .read with
  | .error x => .error x
  | .ok p => match descFmt p.desc with
    | none => .error (.unset p.idx)
    | some f => .ok f.c

/-- Where the scale bytes of a tile of n element bytes lie, in block order: address and number, those of each page in its
own run (R91, R92).  A tile of n bytes carries n*8/(c*B) scales from the block of its first element on, also where that is
not the block's first (DESIGN CHOICE, log entry 99); k bounds the pages. -/
def scaleRuns (m : Memory) (d : Dev) (src ctx : Nat) : Nat → Word → Nat → Except EngFault (List (Word × Nat))
  | 0, _, _ => .ok []
  | k + 1, va, n =>
    match pageFmt m d src ctx va .read with
    | .error e => .error e
    | .ok p =>
      match descFmt p.desc with
      | none => .error (.unset p.idx)
      | some f =>
        if descScl p.desc = 0 || p.geo ≠ 0 then .error (.scales va) else
        let blk := max 1 (f.c * descBlock p.desc / 8)
        let seg := p.base + p.size - va.toNat
        let here := if n ≤ seg then n / blk else (seg + blk - 1) / blk
        let q := 8 * (va.toNat - p.base) / f.c
        let run := (p.scaleAt (q / descBlock p.desc), here)
        if n ≤ seg then .ok [run]
        else match scaleRuns m d src ctx k (va + toW (here * blk)) (n - here * blk) with
          | .ok t => .ok (run :: t)
          | .error e => .error e

/-- Pages that n bytes can touch. -/
def pagesOf (n : Nat) : Nat := n / 65536 + 2

/-- The scale bytes of a tile of n element bytes, in block order (R92). -/
def tileScales (m : Memory) (d : Dev) (src ctx : Nat) (va : Word) (n : Nat) : Except EngFault (List Byte) :=
  match scaleRuns m d src ctx (pagesOf n) va n with
  | .error e => .error e
  | .ok l => (l.mapM fun (a, k) => engineRead m d src ctx a k).map List.flatten

/-! ## The canonical tree (R104) -/

/-- One level: neighbours are combined, the lower rank on the left; an odd one is carried. -/
def pairUp {α : Type} (f : α → α → α) : List α → List α
  | a :: b :: t => f a b :: pairUp f t
  | l => l

/-- The result of the tree over x[0] … x[n-1]; fuel n is enough. -/
def canonicalTree {α : Type} (f : α → α → α) : Nat → List α → Option α
  | _, [] => none
  | _, [x] => some x
  | 0, x :: _ => some x
  | n + 1, l => canonicalTree f n (pairUp f l)

/-- The operations of reductions (R385): each result is rounded once to the destination format. -/
def reduceStep (f : Fmt) (op : Nat) (r : Rounding) (x y : FVal) : FVal :=
  let v := match op with
    | 0 => x.add y
    | 1 => if x.isNan then y else if y.isNan then x else if x.below y then y else x
    | _ => if x.isNan then y else if y.isNan then x else if y.below x then y else x
  f.decode (f.encode r v)

/-- Result element of a reduction over its contributors. -/
def reduceElement (f : Fmt) (op : Nat) (r : Rounding) (l : List FVal) : Nat :=
  f.encode r ((canonicalTree (reduceStep f op r) l.length l).getD (.fin false 0 0))

end Sys2Proof.Machine
end

