-- ==== Sys2Proof/Machine/Load.lean ====
section
/-!
DEFINITION. The L class: scalar and vector loads and stores (R227-R229), compressed images (R245-R247) and spill
memory (R174, R230).
-/

namespace Sys2Proof.Machine

/-! ## Loads (R227, R228) -/

/-- Value of loaded bytes, sign-extended for the LDN forms. -/
def loadValue (bs : List Byte) (signed : Bool) : Word :=
  if signed then sextN (8 * bs.length) (ofBytes bs) else toW (ofBytes bs)

/-- The bytes of a part as the core reads them (R127). -/
def partBytes (s : State) (n : Nat) (p : Piece) (pa : Nat) : List Byte := readBytes s.mem s.dev n pa p.len

/-- Register bits of w-bit elements: ones where keep holds. -/
def keepMask (w : Nat) (keep : List Bool) : List VWord :=
  (packGroup w (keep.map fun k => if k then 2 ^ w - 1 else 0)).map (·.1)

/-- A scalar load of w bytes into sd. -/
def loadScalar (h : Hdr) (o : LM) (w : Nat) (signed : Bool) (s : State) : Host.Outcome State Fault Refusal :=
  ctlSyllable h
    (fun s b c =>
      let a := c.scalarAccess o w
      a.checked s b .read true fun parts =>
        let d := s.dev.updCore b.core fun c => c.count 0x0F 1
        match parts with
        | (p, .here pa) :: _ =>
          let v := loadValue (partBytes s b.core p pa) signed
          .ok (if a.local then sendS d b c o.d.toNat v 8
            else sendLate d b (.s (physSV c.lp o.d.toNat) v) true 0)
        | (p, .away pkg pa) :: _ =>
          .ok (d.loadRemote b (.s (physSV c.lp o.d.toNat) 0) pkg pa p.len p.ea 0 signed s.time)
        | [] => .ok d)
    (fun b => b.watched ((b.base.core b.core).scalarAccess o w).ranges false) s

/-- A vector load into group vd (R228): the elements of this package at once, each remote one under its own tag. -/
def loadGroup (h : Hdr) (d : BitVec 6) (acc : Core → Accesses) (s : State) : Host.Outcome State Fault Refusal :=
  ctlSyllable h
    (fun s b c =>
      let a := acc c
      a.checked s b .read true fun parts =>
        let w := 8 * (match a.parts with | p :: _ => p.len | [] => 4)
        let first := d.toNat
        let near := parts.map fun (p, l) => match l with | .here pa => ofBytes (partBytes s b.core p pa) | .away _ _ => 0
        let keep := keepMask w (parts.map fun (_, l) => match l with | .here _ => true | .away _ _ => false)
        let vals := List.zipWith (fun (v, m) k => (v, m &&& k)) (packGroup w near) keep
        let dev := s.dev.updCore b.core fun c => c.count 0x0F 1
        if a.local then .ok (sendV dev b c first vals 8)
        else
          let dev := ((List.range vals.length).zip vals).foldl (fun dev (q, val, mask) =>
            sendLate dev b (.v (physSV c.lp (first + q)) val mask) true 0) dev
          .ok (parts.foldl (fun dev (p, l) => match l with
            | .here _ => dev
            | .away pkg pa =>
              let q := p.elem * w / 2048
              let off := p.elem * w % 2048
              dev.loadRemote b (.v (physSV c.lp (first + q)) 0 (BitVec.ofNat 2048 ((2 ^ w - 1) * 2 ^ off)))
                pkg pa p.len p.ea off false s.time) dev))
    (fun b => b.watched (acc (b.base.core b.core)).ranges false) s

/-- LDS8 (R227). -/
def execLds8 (h : Hdr) (o : LM) (s : State) : Host.Outcome State Fault Refusal := loadScalar h o 1 false s
/-- LDS16 (R227). -/
def execLds16 (h : Hdr) (o : LM) (s : State) : Host.Outcome State Fault Refusal := loadScalar h o 2 false s
/-- LDS32 (R227). -/
def execLds32 (h : Hdr) (o : LM) (s : State) : Host.Outcome State Fault Refusal := loadScalar h o 4 false s
/-- LDS64 (R227). -/
def execLds64 (h : Hdr) (o : LM) (s : State) : Host.Outcome State Fault Refusal := loadScalar h o 8 false s
/-- LDN8 (R227). -/
def execLdn8 (h : Hdr) (o : LM) (s : State) : Host.Outcome State Fault Refusal := loadScalar h o 1 true s
/-- LDN16 (R227). -/
def execLdn16 (h : Hdr) (o : LM) (s : State) : Host.Outcome State Fault Refusal := loadScalar h o 2 true s
/-- LDN32 (R227). -/
def execLdn32 (h : Hdr) (o : LM) (s : State) : Host.Outcome State Fault Refusal := loadScalar h o 4 true s
/-- LDV (R228). -/
def execLdv (h : Hdr) (o : LM) (s : State) : Host.Outcome State Fault Refusal :=
  loadGroup h o.d (fun c => c.vectorAccess o) s
/-- LDVS (R228). -/
def execLdvs (h : Hdr) (o : LS) (s : State) : Host.Outcome State Fault Refusal :=
  loadGroup h o.d (fun c => c.strideAccess o) s
/-- LDVX (R228). -/
def execLdvx (h : Hdr) (o : LX) (s : State) : Host.Outcome State Fault Refusal :=
  loadGroup h o.d (fun c => c.indexAccess o) s

/-! ## Stores (R225, R227, R228) -/

/-- Does the access write the 64-byte unit of a part whole (R388)? -/
def Accesses.coversUnit (a : Accesses) (p : Piece) : Bool :=
  match a.range with
  | some (e, n) => e.toNat ≤ p.ea.toNat / 64 * 64 && p.ea.toNat / 64 * 64 + 64 ≤ e.toNat + n
  | none => false

/-- Is a part the first that the access has in its 64-byte unit? -/
def Accesses.entersUnit (a : Accesses) (p : Piece) : Bool :=
  match a.range with
  | some (e, _) => p.ea = e || p.ea.toNat % 64 = 0
  | none => true

/-- One part of a store: into this package's memory, where a write of the whole unit ends its poison and a narrower one
to a poisoned unit is dropped (R388), or as a posted write to another package (R467). -/
def storePart (time : Nat) (b : Bundle) (a : Accesses) (d : Dev) (p : Piece) (l : Loc) (bs : List Byte) : Dev :=
  match l with
  | .here pa =>
    if d.poisoned pa && !a.coversUnit p then
      (if a.entersUnit p then d.history 6 ((d.ctxOfCore b.core).getD 0) pa time else d)
    else
      let d := if d.poisoned pa then { d with poison := d.poison.filter (· ≠ pa / 64) } else d
      let d := d.coreStore b.core pa bs
      if a.covers p then d.clearGranules (pa / 8 * 8) 8 else d
  | .away pkg pa => d.sendRemote b.core pkg .store p.ea pa bs 0 0 time

/-- Store the parts of an access in order (R228): of two elements on one byte the higher-numbered remains. -/
def storeParts (time : Nat) (b : Bundle) (a : Accesses) (parts : List (Piece × Loc)) (bs : List (List Byte)) (d : Dev) :
    Dev :=
  (parts.zip bs).foldl (fun d ((p, l), x) => storePart time b a d p l x) d

/-- A store of the values that vals gives for its elements. -/
def storeWith (h : Hdr) (acc : Core → Accesses) (vals : Core → List Nat) (s : State) :
    Host.Outcome State Fault Refusal :=
  ctlSyllable h
    (fun s b c =>
      let a := acc c
      a.checked s b .write false fun parts =>
        let bs := List.zipWith (fun (p : Piece) v => toBytes p.len v) a.parts (vals c)
        .ok (storeParts s.time b a parts bs (s.dev.updCore b.core fun c => c.count 0x10 1)))
    (fun b => b.watched (acc (b.base.core b.core)).ranges true) s

/-- STS8 (R227). -/
def execSts8 (h : Hdr) (o : LM) (s : State) : Host.Outcome State Fault Refusal :=
  storeWith h (fun c => c.scalarAccess o 1) (fun c => [(c.s o.d.toNat).toNat]) s
/-- STS16 (R227). -/
def execSts16 (h : Hdr) (o : LM) (s : State) : Host.Outcome State Fault Refusal :=
  storeWith h (fun c => c.scalarAccess o 2) (fun c => [(c.s o.d.toNat).toNat]) s
/-- STS32 (R227). -/
def execSts32 (h : Hdr) (o : LM) (s : State) : Host.Outcome State Fault Refusal :=
  storeWith h (fun c => c.scalarAccess o 4) (fun c => [(c.s o.d.toNat).toNat]) s
/-- STS64 (R227). -/
def execSts64 (h : Hdr) (o : LM) (s : State) : Host.Outcome State Fault Refusal :=
  storeWith h (fun c => c.scalarAccess o 8) (fun c => [(c.s o.d.toNat).toNat]) s
/-- STV (R228). -/
def execStv (h : Hdr) (o : LM) (s : State) : Host.Outcome State Fault Refusal :=
  storeWith h (fun c => c.vectorAccess o) (fun c => c.elems o.d.toNat (elemCount o.nq) 32) s
/-- STVS (R228). -/
def execStvs (h : Hdr) (o : LS) (s : State) : Host.Outcome State Fault Refusal :=
  storeWith h (fun c => c.strideAccess o) (fun c => c.elems o.d.toNat (elemCount o.nq) 32) s
/-- STVX (R228). -/
def execStvx (h : Hdr) (o : LX) (s : State) : Host.Outcome State Fault Refusal :=
  storeWith h (fun c => c.indexAccess o) (fun c => c.elems o.d.toNat (elemCount o.nq) (8 * 2 ^ o.isz.toNat)) s

/-! ## Compressed images (R245-R247) -/

/-- SPARSE_OVERRUN (R248) (DEDUCED, log entry 47). -/
def sparseFault (a : Word) (reason t cap : Nat) : Event :=
  mkFault 0x37 a (toW (t % 2 ^ 24 * 2 ^ 40 + reason * 2 ^ 36 + cap % 2 ^ 32))

/-- Bytes of a bitmask of n elements (R245). -/
def maskBytes (n : Nat) : Nat := 64 * ((n + 511) / 512)

/-- Size of an image of n elements of w bits, z of them non-zero (R245). -/
def imageSize (n w z : Nat) : Nat := 64 + maskBytes n + z * w / 8

/-- Number whose bit i says that element i is non-zero. -/
def nonzeroBits (vals : List Nat) : Nat := packNat 1 (vals.map fun v => if v = 0 then 0 else 1)

/-- The image of elements of w bits under a width code (R245). -/
def imageBytes (vals : List Nat) (w code : Nat) : List Byte :=
  let z := (vals.filter (· ≠ 0)).length
  toBytes 8 (z + vals.length * 2 ^ 16 + code * 2 ^ 32) ++ List.replicate 56 0 ++
    toBytes (maskBytes vals.length) (nonzeroBits vals) ++
    (vals.filter (· ≠ 0)).flatMap fun v => toBytes (w / 8) v

/-- Width of a code of R245. -/
def imageWidth (code : Nat) : Nat := 8 * 2 ^ code

/-- The image that STZ stores, from the registers at issue. -/
def stzImage (c : Core) (o : LS) : List Byte :=
  let code := wfld (c.s o.b.toNat) 48 2
  imageBytes (c.elems o.d.toNat (elemCount o.nq) (imageWidth code)) (imageWidth code) code

/-- STZ (R246). -/
def execStz (h : Hdr) (o : LS) (s : State) : Host.Outcome State Fault Refusal :=
  ctlSyllable h
    (fun s b c =>
      let a := c.s o.a.toNat
      let ob := c.s o.b.toNat
      let cap := wfld ob 0 32
      if a.toNat % 64 ≠ 0 then .raise (mkFault 0x36 a 0)
      else if wfld ob 48 2 = 3 then .raise (sparseFault a 2 0 cap)
      else
        let img := stzImage c o
        let t := img.length
        if cap < t then .raise (sparseFault a 1 t cap)
        else
          let x := imageAccess a t
          match x.locate s.mem s.dev b.core .write false with
          | .error e => e.out b s.time
          | .ok parts => afterRow b parts fun parts =>
            let bs := x.parts.map fun p => (img.drop (p.ea.toNat - a.toNat)).take p.len
            .ok (storeParts s.time b x parts bs (s.dev.updCore b.core fun c => c.count 0x10 1)))
    (fun b =>
      let c := b.base.core b.core
      b.watched [(c.s o.a.toNat, (stzImage c o).length)] true) s

/-- Read the parts of an image: remote ones are asked for and waited for. -/
def readParts (s : State) (b : Bundle) (c : Core) : List (Piece × Loc) → List Byte → (List Byte → Out) → Out
  | [], acc, f => f acc
  | (p, .here pa) :: t, acc, f => readParts s b c t (acc ++ partBytes s b.core p pa) f
  | (p, .away pkg pa) :: t, acc, f =>
    withReply b.base b c pkg .load p.ea 0 pa p.len s.time fun w => readParts s b c t (acc ++ toBytes p.len w.toNat) f

/-- Check and read the bytes [a, a + n) of an image (R229 item 4); slots says whether a full window slot may be read, as by
a load (R239). -/
def readImage (s : State) (b : Bundle) (c : Core) (slots : Bool) (a : Word) (n : Nat) (f : List Byte → Out) : Out :=
  match (imageAccess a n).locate s.mem s.dev b.core .read slots with
  | .error e => e.out b s.time
  | .ok parts => afterRow b parts fun parts => readParts s b c parts [] f

/-- Elements of an image: the packed values where the mask has ones, 0 elsewhere (R247). -/
def expand (bits : Nat) (w : Nat) : Nat → Nat → List Byte → List Nat
  | 0, _, _ => []
  | n + 1, i, bs =>
    if bits.testBit i then ofBytes (bs.take (w / 8)) :: expand bits w n (i + 1) (bs.drop (w / 8))
    else 0 :: expand bits w n (i + 1) bs

/-- Size of the image that a header tells of, 0 where its width code gives none (R247, R248). -/
def headerSize (hd : Nat) : Nat :=
  if fld hd 32 2 = 3 then 0 else imageSize (fld hd 16 16) (imageWidth (fld hd 32 2)) (fld hd 0 16)

/-- Bytes of the image at a, from its header as the core reads it. -/
def ldzExtent (s : State) (b : Bundle) (c : Core) (a : Word) : Nat :=
  match (imageAccess a 8).locate s.mem s.dev b.core .read false with
  | .ok ((p, .here pa) :: _) => headerSize (ofBytes (partBytes s b.core p pa))
  | .ok ((p, .away _ _) :: _) =>
    match (c.remOps.find? fun q => q.kind = .load && q.ident = p.ea).bind (·.answer) with
    | some (_, w) => headerSize w.toNat
    | none => 8
  | _ => 8

/-- LDZ (R247). -/
def execLdz (h : Hdr) (o : LS) (s : State) : Host.Outcome State Fault Refusal :=
  bundleSyllable h
    (fun s b c =>
      let a := c.s o.a.toNat
      let ob := c.s o.b.toNat
      let cap := wfld ob 0 32
      let n := elemCount o.nq
      if a.toNat % 64 ≠ 0 then .raise (mkFault 0x36 a 0)
      else readImage s b c false a 8 fun hb =>
        let hd := ofBytes hb
        let t := headerSize hd
        let code := fld hd 32 2
        let w := imageWidth code
        if hd / 2 ^ 34 ≠ 0 || code = 3 || fld hd 16 16 ≠ n || code ≠ wfld ob 48 2 then .raise (sparseFault a 3 t cap)
        else if cap < t then .raise (sparseFault a 1 t cap)
        else readImage s b c false (a + 64) (t - 64) fun body =>
          let bits := ofBytes (body.take (maskBytes n))
          let ones := ((List.range n).filter fun i => bits.testBit i).length
          if ones ≠ fld hd 0 16 || bits / 2 ^ n ≠ 0 then .raise (sparseFault a 3 t cap)
          else
            let vals := packGroup w (expand bits w n 0 (body.drop (maskBytes n)))
            let d := s.dev.updCore b.core fun c => c.count 0x0F 1
            if inAperture a.toNat then .ok (sendV d b c o.d.toNat vals 8)
            else .ok (((List.range vals.length).zip vals).foldl (fun d (q, val, mask) =>
              sendLate d b (.v (physSV c.lp (o.d.toNat + q)) val mask) true 0) d))
    (fun s b =>
      let c := b.base.core b.core
      b.watched [(c.s o.a.toNat, ldzExtent s b c (c.s o.a.toNat))] false) s

/-! ## Spill memory (R174, R230) -/

/-- SPLDS (R230). -/
def execSplds (h : Hdr) (o : LK) (s : State) : Host.Outcome State Fault Refusal :=
  syllable h (fun s b c =>
    let v := toW (ofBytes ((List.range 8).map fun i => c.spill.read (o.off.toNat + i)))
    .ok (sendS (s.dev.updCore b.core fun c => c.count 0x0F 1) b c o.d.toNat v 1)) s

/-- SPLDV (R230). -/
def execSpldv (h : Hdr) (o : LK) (s : State) : Host.Outcome State Fault Refusal :=
  syllable h (fun s b c =>
    let v : VWord := BitVec.ofNat 2048 (ofBytes ((List.range 256).map fun i => c.spill.read (o.off.toNat + i)))
    .ok (sendV (s.dev.updCore b.core fun c => c.count 0x0F 1) b c o.d.toNat [(v, BitVec.allOnes 2048)] 1)) s

/-- Write bytes into a core's spill memory. -/
def spillBytes (d : Dev) (n off : Nat) (bs : List Byte) : Dev :=
  d.updCore n fun c => { c with spill := c.spill.writes (((List.range bs.length).zip bs).map fun (i, x) => (off + i, x)) }

/-- SPSTS (R230). -/
def execSpsts (h : Hdr) (o : LK) (s : State) : Host.Outcome State Fault Refusal :=
  syllable h (fun s b c =>
    .ok (spillBytes (s.dev.updCore b.core fun c => c.count 0x10 1) b.core o.off.toNat (toBytes 8 (c.s o.d.toNat).toNat))) s

/-- SPSTV (R230). -/
def execSpstv (h : Hdr) (o : LK) (s : State) : Host.Outcome State Fault Refusal :=
  syllable h (fun s b c =>
    .ok (spillBytes (s.dev.updCore b.core fun c => c.count 0x10 1) b.core o.off.toNat (toBytes 256 (c.v o.d.toNat).toNat))) s

end Sys2Proof.Machine
end

