-- ==== Sys2Proof/Machine/Window.lean ====
section
/-!
DEFINITION. The cache window and its tag table (R231-R240), rings and their handles (R241-R244), tag-table
invalidation (R234), and the events of both.
-/

namespace Sys2Proof.Machine

/-! ## Lookup and victims (R233, R236) -/

/-- The evicted entry of a block that a core has found in its running phase, with its contents (R128). -/
def Cluster.recall (x : Cluster) (n ctx block : Nat) : Option (TagEnt × List Byte) :=
  x.evicted.find? fun (e, _) => e.ctx = ctx && e.block = block && e.recalled n

/-- Entry that a core's lookup of a block finds (R233): the visible stale one, first made stale, else the live one.  Where
the entry that it found before in the same phase has been evicted, it finds none but that one, which is filled again as
it was (R128, R236) (DEDUCED, log entry 95). -/
def Cluster.lookup (x : Cluster) (n ctx block : Nat) : Option (Nat × TagEnt) :=
  if (x.recall n ctx block).isSome then none else
  let mine := x.tags.filter fun (_, e) => e.ctx = ctx && e.block = block
  let old := mine.filter fun (_, e) => e.st = .stale && e.seenBy.contains n
  let first := old.foldl (fun (r : Option (Nat × TagEnt)) (k, e) =>
    match r with
    | some (_, f) => if e.staleAt < f.staleAt then some (k, e) else r
    | none => some (k, e)) none
  first.orElse fun _ => mine.find? fun (_, e) => e.st ≠ .stale

/-- Ways of a context's window. -/
def Ctx.ways (c : Ctx) : List Nat := (List.range c.wnum).map (c.wlo + ·)

/-- Way that a miss takes (R236): the lowest invalid one, else the least recently found full, unpinned one.  Where that one
holds a block which a core has found in its running phase, its contents stay with the cluster for that phase (R128). -/
def Cluster.victim (x : Cluster) (c : Ctx) (set : Nat) : Option Nat :=
  (c.ways.find? fun w => (tget x.tags (tagKey set w)).isNone).orElse fun _ =>
    (c.ways.foldl (fun (r : Option (Nat × Nat)) w =>
      match tget x.tags (tagKey set w) with
      | some e =>
        if e.st = .full && e.pins = 0 then
          match r with
          | some (_, q) => if e.recency < q then some (w, e.recency) else r
          | none => some (w, e.recency)
        else r
      | none => r) none).map (·.1)

/-- Is every way of a set pinned by this core's own handles (R236)? -/
def Core.pinsAll (c : Core) (x : Ctx) (set : Nat) : Bool := x.ways.all fun w => c.holdsSlot set w

/-- Physical address of a slot's first byte. -/
def slotAddress (d : Dev) (g ctx set way : Nat) : Nat :=
  spmBase g + ((d.ctx ctx).map fun c => c.slotOffset set way).getD 0

/-- The full entry of a way leaves it; where cores have found it in their running phase, its contents stay for them
(R128). -/
def Dev.evict (m : Memory) (d : Dev) (g set way : Nat) : Dev :=
  match tget (d.cluster g).tags (tagKey set way) with
  | none => d
  | some e =>
    if e.readers.isEmpty then d
    else
      let bs := readBytes m d everyone (slotAddress d g e.ctx set way) 4096
      d.updCluster g fun x => { x with evicted := x.evicted ++ [({ e with pins := 0 }, bs)] }

/-- A way is tagged with a block by a core's miss, in state filling (R236); the fill is queued.  The fill of a block that
was evicted in the core's phase brings the same contents back, for the cores that had found them (R128); any other fill
of the block sets those contents aside for these cores alone. -/
def Cluster.startFill (x : Cluster) (n ctx block set way pins : Nat) : Cluster :=
  let e : TagEnt := { ctx := ctx, block := block, st := .filling, filled := false, poisoned := false
                      recency := x.tagClock, seenBy := [], staleAt := 0, pins := pins, readers := [n] }
  let mine (q : TagEnt) : Bool := q.ctx = ctx && q.block = block
  match x.recall n ctx block with
  | some (q, bs) =>
    let other := x.tags.any fun (_, y) => mine y && y.st ≠ .stale
    let e := { e with again := some (bs, q.poisoned), readers := q.readers }
    let e := if q.st = .stale then { e with st := .stale, seenBy := q.seenBy, staleAt := q.staleAt }
      else if other then { e with st := .stale, seenBy := q.readers, staleAt := x.tagClock } else e
    { x with tags := tset x.tags (tagKey set way) e, tagClock := x.tagClock + 1, evicted := x.evicted.erase (q, bs) }
  | none =>
    { x with
      tags := tset x.tags (tagKey set way) e
      tagClock := x.tagClock + 1
      evicted := x.evicted.map fun (q, bs) =>
        if mine q && q.st ≠ TagState.stale then ({ q with st := .stale, seenBy := q.readers, staleAt := x.tagClock }, bs) else (q, bs) }

/-- A core's miss takes a way (R236). -/
def Dev.fillWay (m : Memory) (d : Dev) (n ctx block set way pins : Nat) : Dev :=
  (d.evict m (clusterOf n) set way).updCluster (clusterOf n) fun x => x.startFill n ctx block set way pins

/-- An entry found by a core: most recent, and pinned once more. -/
def Cluster.pin (x : Cluster) (key n : Nat) : Cluster :=
  { x with
    tags := x.tags.map fun (k, (e : TagEnt)) =>
      if k = key then (k, { e with recency := x.tagClock, pins := e.pins + 1, readers := (n :: e.readers).dedup }) else (k, e)
    tagClock := x.tagClock + 1 }

/-- A core's pin of an entry goes; entries that nothing keeps become invalid (R233, R238).  What the core may have read
through it in this phase it would find again, while the entry is visible to it. -/
def Cluster.unpin (x : Cluster) (key n : Nat) : Cluster :=
  ({ x with tags := x.tags.map fun (k, (e : TagEnt)) =>
      if k = key then (k, { e with
        pins := e.pins - 1
        readers := if e.st ≠ TagState.stale || e.seenBy.contains n then (n :: e.readers).dedup else e.readers }) else (k, e) }).sweep

/-! ## PROBE and PREF (R231, R236) -/

/-- What a PROBE comes to. -/
inductive ProbeRes where
  | fault (e : Event)
  | full
  | hit (key block : Nat)
  | miss (set way block : Nat)
  deriving DecidableEq, Repr

/-- The steps of R236 after the handle check; hn is the handle, acc the kind of access. -/
def probeFor (m : Memory) (d : Dev) (n hn : Nat) (va : Word) (acc : Access) : ProbeRes :=
  let ctx := (d.ctxOfCore n).getD noContext
  let g := clusterOf n
  if wfld va 57 7 ≠ 0 then .fault (noncanonical va 0 acc)
  else if inAperture va.toNat then .fault (handleFault va hn 4)
  else match translate m d (walkBad d) ctx (cacheOf n) va acc with
    | .error f => .fault (f.event va 0 acc)
    | .ok t =>
      match d.ctx ctx with
      | none => .fault (quotaFault va 3)
      | some x =>
        if isGeneral n || x.wnum = 0 then .fault (quotaFault va 3)
        else if t.remote.isSome || placeOf t.pa ≠ .hbm then .fault (handleFault va hn 4)
        else
          let block := t.pa / 4096
          let set := block % 2048
          match (d.cluster g).lookup n ctx block with
          | some (k, _) => .hit k block
          | none =>
            match (d.cluster g).victim x set with
            | some w => .miss set w block
            | none => if (d.core n).pinsAll x set then .fault (handleFault va hn 5) else .full

/-- Does a PROBE that misses branch (R236)? -/
def missBranches (c : Core) : Bool := !c.attached && c.lp.innermost.isNone

/-- PROBE (R236). -/
def execProbe (h : Hdr) (o : LP) (s : State) : Host.Outcome State Fault Refusal :=
  let hn := o.h.toNat
  bundleSyllable h
    (fun s b c =>
      let n := b.core
      if c.h hn ≠ .unbound then .raise (handleFault 0 hn 1)
      else
        let ctx := (s.dev.ctxOfCore n).getD noContext
        let g := clusterOf n
        match probeFor s.mem s.dev n hn (c.s o.a.toNat) .probe with
        | .fault e => .raise e
        | .full => .stall 8
        | .hit k _ =>
          let d := (s.dev.updCluster g fun x => x.pin k n).updCore n fun c => { (c.count 0x09 1) with hit := satInc c.hit }
          .ok (sendLate d b (.h hn (.window (k / 8) (k % 8))) false 0)
        | .miss set way block =>
          let d := (s.dev.fillWay s.mem n ctx block set way 1).updCore n fun c =>
            { (c.count 0x0A 1) with miss := satInc c.miss }
          .ok (sendLate d b (.h hn (.window set way)) false 0))
    (fun s b =>
      let c := b.base.core b.core
      let va := c.s o.a.toNat
      let b := b.watched [(va, 1)] false
      match probeFor s.mem s.dev b.core hn va .probe with
      | .miss _ _ _ =>
        if missBranches c then { b with ctl := .branch (c.b o.bt.toNat) (c.penalty o.bt.toNat) } else b
      | _ => b) s

/-- PREF (R231): it never faults and never stalls. -/
def execPref (h : Hdr) (o : LM) (s : State) : Host.Outcome State Fault Refusal :=
  ctlSyllable h
    (fun s b c =>
      match probeFor s.mem s.dev b.core 0 (c.lmAddress o) .read with
      | .miss set way block =>
        let ctx := (s.dev.ctxOfCore b.core).getD noContext
        .ok (s.dev.fillWay s.mem b.core ctx block set way 0)
      | _ => .ok s.dev)
    (fun b => b.watched [((b.base.core b.core).lmAddress o, 1)] false) s

/-- Units of a block that a fill finds poisoned; with a new error one more is, which one no rule says (R388; log
entry 96). -/
def fillErrors (d : Dev) (pa fresh : Nat) (err : Bool) : List Nat :=
  ((List.range 64).filter fun i => d.poisoned (pa + 64 * i) || (err && i = fresh % 64)).map fun i => pa + 64 * i

/-- WINDOW_FILL (R237, R388): the block's 4 KiB land in the slot; a unit with an uncorrectable error is poisoned and
recorded, and so is the entry.  A block evicted in a phase comes back as it was (R128). -/
def execWindowFill (cluster set way : Nat) (err : Bool) (s : State) : Host.Outcome State Fault Refusal :=
  happening (fun s =>
    let d := s.dev
    let key := tagKey set way
    match tget (d.cluster cluster).tags key with
    | none => none
    | some e =>
      match d.ctx e.ctx with
      | none => none
      | some x =>
        if e.filled then none
        else
          let pa := e.block * 4096
          let errs := if e.again.isSome then [] else fillErrors d pa (Config.freeCycles s.free) err
          let bs := (e.again.map (·.1)).getD (readApplied s.mem d pa 4096)
          let poisoned := (e.again.map (·.2)).getD !errs.isEmpty
          let d := errs.foldl (fun d a => d.history 2 e.ctx a s.time) d
          let d := { d with poison := (errs.map (· / 64)).foldl (fun l u => if l.contains u then l else u :: l) d.poison }
          let slot := spmBase cluster + x.slotOffset set way
          let d := (d.writeAll (288 + cluster) slot bs).clearGranules slot 4096
          some (d.updCluster cluster fun y => ({ y with tags := y.tags.map fun (k, (e : TagEnt)) =>
            if k = key then (k, { e with
              filled := true
              again := none
              poisoned := poisoned
              st := match e.st with | .filling => .full | q => q }) else (k, e) }).sweep)) s

/-! ## Invalidation (R134, R234) -/

/-- TAGINV (R234): on a general core no effect. -/
def execTaginv (h : Hdr) (o : ZG) (s : State) : Host.Outcome State Fault Refusal :=
  syllable h (fun s b c =>
    let va := c.s o.x.toNat
    let ctx := (s.dev.ctxOfCore b.core).getD noContext
    let g := clusterOf b.core
    if isGeneral b.core || wfld va 57 7 ≠ 0 || inAperture va.toNat then .ok s.dev
    else match translate s.mem s.dev (walkBad s.dev) ctx (some g) va .read with
      | .error _ => .ok s.dev
      | .ok t =>
        if t.remote.isSome then .ok s.dev
        else .ok (s.dev.updCluster g fun x =>
          x.makeStale (s.dev.inPhase g) fun e => e.ctx = ctx && e.block = t.pa / 4096)) s

/-- TAGFLUSH (R234): on a general core no effect. -/
def execTagflush (h : Hdr) (s : State) : Host.Outcome State Fault Refusal :=
  syllable h (fun s b _ =>
    let g := clusterOf b.core
    let ctx := (s.dev.ctxOfCore b.core).getD noContext
    if isGeneral b.core then .ok s.dev
    else .ok (s.dev.updCluster g fun x => x.makeStale (s.dev.inPhase g) fun e => e.ctx = ctx)) s

/-- TAG_INVALIDATION (R134): the Graver has applied the ended writes to a block, and the invalidation reaches a
cluster. -/
def execTagInvalidation (cluster block : Nat) (s : State) : Host.Outcome State Fault Refusal :=
  happening (fun s =>
    let p (e : StoreEnt) : Bool := e.ended && e.gran / 512 = block && e.gran * 8 < hbmTop
    if s.dev.stores.any fun e => p e && !e.inval.contains cluster then some (s.dev.applyWrites p [cluster]) else none) s

/-! ## Rings (R241-R244) -/

/-- A ring descriptor's fields (R241). -/
structure RingDesc where
  size : Nat
  nslot : Nat
  base : Nat
  cf : Word
  f : Word
  cd : Word
  dr : Word
  deriving DecidableEq, Repr

/-- The ring that eight words describe, where it keeps the limits of R241 and R242 in a context
(DEDUCED, log entry 49). -/
def ringOf (c : Ctx) (w : List Word) : Option RingDesc :=
  let w0 := nth w 0 0
  let w1 := nth w 1 0
  let r : RingDesc :=
    { size := wfld w0 32 32, nslot := wfld w0 0 16, base := wfld w1 0 26, cf := nth w 2 0, f := nth w 3 0
      cd := nth w 4 0, dr := nth w 5 0 }
  let top := r.base + r.nslot * r.size
  let group := 12 * 1048576
  if wfld w0 16 16 ≠ 0 || wfld w1 26 38 ≠ 0 || nth w 6 0 ≠ 0 || nth w 7 0 ≠ 0 || r.nslot = 0 || 4096 < r.nslot ||
      r.size = 0 || r.size % 64 ≠ 0 || r.base % 64 ≠ 0 || r.base < c.qbase * 65536 ||
      (c.qbase + c.qsize) * 65536 < top || r.base / group ≠ (top - 1) / group then none
  else some r

/-- Counter of a ring as the machine holds it; a ring's counters lie in this package. -/
def ringCounter (m : Memory) (d : Dev) (ctx : Nat) (id : Word) : Option Word :=
  match resolveCounter d ctx id with
  | .ok (.here k i) => some (counterGet m d ctx k i)
  | _ => none

/-- The fault of a ring's counter identifiers, in descriptor order (R242, R262, R280). -/
def ringCounterFault (d : Dev) (ctx : Nat) (r : RingDesc) : Option Event :=
  [r.cf, r.f, r.cd, r.dr].findSome? fun id =>
    match resolveCounter d ctx id with
    | .error k => some (mkFault 0x42 id (toW k))
    | .ok (.remote pkg) => some (remoteEvent 1 pkg id 0)
    | .ok (.here _ _) => none

/-- HCLAIM (R242, R244): the checks; the handle is pending until HCLAIM_GRANT grants the claim, before which no bundle
issues. -/
def execHclaim (h : Hdr) (o : LH) (s : State) : Host.Outcome State Fault Refusal :=
  let hn := o.h.toNat
  syllable h
    (fun s b c =>
      let n := b.core
      let sa := c.s o.a.toNat
      let a := sa &&& ~~~(1 : Word)
      if c.h hn ≠ .unbound then .raise (handleFault 0 hn 1)
      else if isGeneral n then .raise (quotaFault a 3)
      else if a.toNat % 64 ≠ 0 then .raise (mkFault 0x36 a 0)
      else if wfld a 57 7 = 0 && !inAperture a.toNat then .raise (quotaFault a 1)
      else match (imageAccess a 64).locate s.mem s.dev n .read true with
        | .error e => e.out b s.time
        | .ok parts =>
          let ctx := (s.dev.ctxOfCore n).getD noContext
          let bytes := parts.flatMap fun (p, l) => match l with | .here pa => partBytes s n p pa | .away _ _ => []
          match (s.dev.ctx ctx).bind fun x => ringOf x (wordsOf 8 bytes) with
          | none => .raise (handleFault a hn 3)
          | some r =>
            match ringCounterFault s.dev ctx r with
            | some e => .raise e
            | none => afterRow b parts fun _ =>
              let w : Wait := .claim hn r.cf r.f r.cd r.dr r.base r.size r.nslot (sa.getLsbD 0) b.addr b.idx
              .ok (s.dev.updCore n fun c => { c with
                waits := c.waits ++ [w]
                r := { c.r with h := tset c.r.h hn .pending } })) s

/-- A claim that a core waits for: handle, ring and role, and the HCLAIM that made it. -/
structure Claim where
  hn : Nat
  r : RingDesc
  drain : Bool
  bundle : Word
  sidx : Nat
  deriving DecidableEq, Repr

/-- The claim that a core waits for. -/
def Core.claimDue (c : Core) : Option Claim :=
  c.waits.findSome? fun w => match w with
    | .claim hn cf f cd dr base size nslot drain at' sidx =>
      some { hn := hn, drain := drain, bundle := at', sidx := sidx
             r := { size := size, nslot := nslot, base := base, cf := cf, f := f, cd := cd, dr := dr } }
    | _ => none

/-- Can a use be claimed: Cf < D + n, or Cd < F (R242)?  Then the counter to advance. -/
def claimable (m : Memory) (d : Dev) (ctx : Nat) (r : RingDesc) (drain : Bool) : Option Word :=
  match ringCounter m d ctx r.cf, ringCounter m d ctx r.f, ringCounter m d ctx r.cd, ringCounter m d ctx r.dr with
  | some cf, some f, some cd, some dr =>
    if drain then (if cd.toNat < f.toNat then some r.cd else none)
    else (if cf.toNat < dr.toNat + r.nslot then some r.cf else none)
  | _, _, _, _ => none

/-- Claim the next use of a ring in one action (R242): its number and the advanced counter.  A full counter refuses the
claim (R262). -/
def ringClaim (m : Memory) (d : Dev) (ctx : Nat) (r : RingDesc) (drain : Bool) : Option (Dev × Nat) :=
  (claimable m d ctx r drain).bind fun id =>
    match resolveCounter d ctx id with
    | .ok (.here k i) =>
      let (d', old, fine) := counterOp m (d.readCounter m ctx (if drain then r.f else r.dr)) ctx k i (.add 1)
      if fine then some (d', old.toNat) else none
    | _ => none

/-- The fault of a claim whose counter is full (R242, R262, R280). -/
def claimFault (m : Memory) (d : Dev) (ctx : Nat) (q : Claim) : Option Event :=
  (claimable m d ctx q.r q.drain).bind fun id =>
    if (ringClaim m d ctx q.r q.drain).isSome then none else some { (mkFault 0x40 id 1) with sidx := q.sidx }

/-- Release use j of a ring once it is next (R243): the counter that says so gets j + 1. -/
def ringRelease (m : Memory) (d : Dev) (ctx : Nat) (id : Word) (j : Nat) : Option Dev :=
  match resolveCounter d ctx id with
  | .ok (.here k i) =>
    if (counterGet m d ctx k i).toNat = j then
      let (d', _, fine) := counterOp m d ctx k i (.add 1)
      if fine then some d' else none
    else none
  | _ => none

/-- No claim waits. -/
def Core.unclaimed (c : Core) : Core :=
  { c with waits := c.waits.filter fun w => match w with | .claim .. => false | _ => true }

/-- A waiting claim is granted once it can be (R242): the use is claimed, the handle bound, and the core acquires at .pkg,
which ends its phase (R132); a full counter is the fault of its HCLAIM. -/
def grantClaim (m : Memory) (d : Dev) (n time : Nat) : Option Dev :=
  match (d.core n).claimDue, d.ctxOfCore n with
  | some q, some ctx =>
    (match ringClaim m d ctx q.r q.drain with
     | some (d, j) =>
       let hd : Handle := .ring q.r.cf q.r.f q.r.cd q.r.dr q.r.base q.r.size q.r.nslot j q.drain
       some ((d.updCore n fun c => { c.unclaimed with r := { c.r with h := tset c.r.h q.hn hd } }).endPhase n)
     | none => (claimFault m d ctx q).map fun e =>
       (d.updCore n Core.unclaimed).takeEvent m n (d.core n) q.bundle (d.core n).pc e time)
  | _, _ => none

/-- HCLAIM_GRANT (R242). -/
def execHclaimGrant (core : Nat) (s : State) : Host.Outcome State Fault Refusal :=
  happening (fun s => grantClaim s.mem s.dev core s.time) s

/-- Does every fill that a handle names have ended (R440)? -/
def fillsEnded (d : Dev) (die : Nat) (entries : List Nat) : Bool :=
  entries.all fun e => (tget (d.die die).firn.fills e).isNone

/-- HREL (R243, R440). -/
def execHrel (h : Hdr) (o : LH) (s : State) : Host.Outcome State Fault Refusal :=
  let hn := o.h.toNat
  ctlSyllable h
    (fun s b c =>
      let n := b.core
      let unbind (d : Dev) : Dev := d.updCore n fun c => { c with r := { c.r with h := tdel c.r.h hn } }
      if isGeneral n then .raise (quotaFault 0 3)
      else match c.h hn with
        | .unbound | .pending => .raise (handleFault 0 hn 1)
        | .window set way => .ok ((unbind s.dev).updCluster (clusterOf n) fun x => x.unpin (tagKey set way) n)
        | .ring .. => .ok (s.dev.updCore n fun c => { c with waits := c.waits ++ [Wait.release hn] })
        | .fills die es => if fillsEnded s.dev die es then .ok (unbind s.dev) else .stall 8)
    (fun b => match (b.base.core b.core).h hn with | .fills _ _ => { b with phaseEnd := true } | _ => b) s

/-- The handle whose release a core waits for. -/
def Core.releaseDue (c : Core) : Option Nat :=
  c.waits.findSome? fun w => match w with | .release hn => some hn | _ => none

/-- A waiting ring release is performed once its use is next and every earlier access of the core has completed (R243):
the core's stores are visible at .pkg, the counter moves on and the handle is unbound. -/
def performRelease (m : Memory) (d : Dev) (n : Nat) : Option Dev :=
  match (d.core n).releaseDue, d.ctxOfCore n with
  | some hn, some ctx =>
    match (d.core n).h hn with
    | .ring _ f _ dr _ _ _ j drain =>
      if d.remote.any fun r => r.src = n && (r.kind = .store || r.kind = .load) then none
      else (ringRelease m ((d.endPhase n).release n 3) ctx (if drain then dr else f) j).map fun d =>
        d.updCore n fun c => { c with
          r := { c.r with h := tdel c.r.h hn }
          waits := c.waits.filter fun w => match w with | .release _ => false | _ => true }
    | _ => none
  | _, _ => none

/-- HREL_PERFORM (R243). -/
def execHrelPerform (core : Nat) (s : State) : Host.Outcome State Fault Refusal :=
  happening (fun s => performRelease s.mem s.dev core) s

end Sys2Proof.Machine
end

