-- ==== Sys2Proof/Machine/Graver.lean ====
section
/-!
DEFINITION. The Gravers (R374-R394): command queues and buses, subscriptions, near-memory reductions, and the
scrubber.
-/

namespace Sys2Proof.Machine

/-! ## Queues and buses (R374-R377) -/

/-- What an entry writes, in the order of its acceptance (R375, R388). -/
def Dev.entryWrite (d : Dev) (stack : Nat) (e : GravEnt) (time : Nat) : Dev :=
  let pa := stackAddress stack (64 * e.unit)
  match e.data with
  | none => d
  | some (w, mask) =>
    if mask = BitVec.allOnes 64 then d.writeBytes (336 + stack) e.ctx pa (toBytes 64 w.toNat) time
    else d.unitWrite e.ctx pa [] time fun d => ((List.range 64).filter mask.getLsbD).foldl
      (fun d i => d.engineWrite (336 + stack) (pa + i) [(w >>> (8 * i)).setWidth 8]) d

/-- GRAVER_ACCEPT (R375, R383): a pseudo-channel queue with room accepts an entry for a 64-byte unit of the stack; a
tagged write with a stale generation is dropped here.  Every later access of the unit comes after the entry, so what it
writes shows from now on (DESIGN CHOICE, log entry 16). -/
def execGraverAccept (stack unit ctx : Nat)
    (data : Option (BitVec 512 × BitVec 64)) (tag : BitVec 32)
    (s : State) :
    Host.Outcome State Fault Refusal :=
  happening (fun s =>
    let g := s.dev.grav stack
    let p := unit % 64
    let q := tgetD g.queues p []
    let pa := stackAddress stack (64 * unit)
    if 16 ≤ stack || 2 ^ 30 ≤ unit || 32 ≤ q.length then none
    else if data.isSome && s.dev.staleTag ctx pa tag.toNat then
      some (s.dev.setGrav stack { g with stale := satInc g.stale })
    else
      let e : GravEnt := { unit := unit, ctx := ctx, data := data }
      some ((s.dev.setGrav stack { g with queues := tset g.queues p (q ++ [e]) }).entryWrite stack e s.time)) s

/-- Pseudo-channel that has a bus in a slot, from the last user and its run and from which of the two hold a ready
command (R377). -/
def busUser (last : Bool) (run : Nat) (r0 r1 : Bool) : Option Bool :=
  if r0 && r1 then some (if run < 8 then last else !last)
  else if r1 then some true else if r0 then some false else none

/-- Open row of a bank. -/
def Grav.openRow (g : Grav) (p bank : Nat) : Option Nat := tget g.rows (16 * p + bank)

/-- Banks that the row bus may activate: those of the 8 oldest entries that are idle (R376). -/
def Grav.idle (g : Grav) (p : Nat) : List GravEnt :=
  ((tgetD g.queues p []).take 8).filter fun e => (g.openRow p (bankOf (64 * e.unit))).isNone

/-- The entry whose bank is precharged where none can be activated: the first of the 8 oldest whose bank holds another
row, which no older entry of the queue uses. -/
def Grav.blocked (g : Grav) (p : Nat) : Option GravEnt :=
  let q := (tgetD g.queues p []).take 8
  let bank (e : GravEnt) : Nat := bankOf (64 * e.unit)
  let hit (e : GravEnt) : Bool := g.openRow p (bank e) = some (rowOf (64 * e.unit))
  (((List.range q.length).zip q).find? fun (i, e) =>
    (g.openRow p (bank e)).isSome && !hit e && !((q.take i).any fun o => bank o = bank e && hit o)).map (·.2)

/-- The row command of a queue (R376): the activate of one of the entries that it may serve, which one is free (DESIGN
CHOICE, log entry 16), else a precharge. -/
def Grav.rowCommand (g : Grav) (p pick : Nat) : Option Grav :=
  match g.idle p with
  | e :: t =>
    let x := nth (e :: t) (pick % (t.length + 1)) e
    some { g with rows := tset g.rows (16 * p + bankOf (64 * x.unit)) (rowOf (64 * x.unit)) }
  | [] => (g.blocked p).map fun x => { g with rows := tdel g.rows (16 * p + bankOf (64 * x.unit)) }

/-- Places in a queue of the entries whose row is open, with no older entry for the unit (R375, R376). -/
def Grav.columnPlaces (g : Grav) (p : Nat) : List Nat :=
  let q := tgetD g.queues p []
  ((List.range q.length).zip q).filterMap fun (i, e) =>
    if g.openRow p (bankOf (64 * e.unit)) = some (rowOf (64 * e.unit)) && !((q.take i).any fun o => o.unit = e.unit) then
      some i else none

/-- Place of the entry that the column bus serves: the oldest of them whose timing constraints are met, which one is free
(R376; DESIGN CHOICE, log entry 16). -/
def Grav.columnEntry (g : Grav) (p pick : Nat) : Option Nat :=
  let l := g.columnPlaces p
  l[pick % l.length]?

/-- What a read of a unit shows (R388): an error is corrected and counted, or the unit is uncorrectable and stays poisoned;
either one writes an error-history record. -/
def Dev.checkUnit (d : Dev) (stack ctx pa : Nat) (outcome : EccOutcome) (time : Nat) : Dev :=
  if d.poisoned pa then d.history 2 ctx pa time
  else match outcome with
    | .clean => d
    | .corrected =>
      let d := d.history 1 ctx pa time
      d.setGrav stack { d.grav stack with eccAccess := satInc (d.grav stack).eccAccess }
    | .uncorrectable => { d with poison := pa / 64 :: d.poison }.history 2 ctx pa time

/-- The column command of a queue: the entry is performed and leaves the queue; a read checks its unit (R388). -/
def columnCommand (d : Dev) (stack p pick : Nat) (outcome : EccOutcome) (time : Nat) : Option Dev :=
  let g := d.grav stack
  let q := tgetD g.queues p []
  (g.columnEntry p pick).bind fun i => (q[i]?).map fun e =>
    let d := d.setGrav stack { g with queues := tset g.queues p (q.eraseIdx i) }
    if e.data.isSome then d else d.checkUnit stack e.ctx (stackAddress stack (64 * e.unit)) outcome time

/-- GRAVER_COMMAND (R376, R377): the bus goes to a pseudo-channel of the channel, and its command is issued. -/
def execGraverCommand (stack channel : Nat) (column ready0 ready1 : Bool) (outcome : EccOutcome) (s : State) :
    Host.Outcome State Fault Refusal :=
  happening (fun s =>
    let g := s.dev.grav stack
    let k := 2 * channel + (if column then 1 else 0)
    let (last, run) := tgetD g.runs k (false, 0)
    if 16 ≤ stack || 32 ≤ channel then none
    else match busUser last run ready0 ready1 with
      | none => none
      | some u =>
        let p := 2 * channel + (if u then 1 else 0)
        let run := if u = last then run + 1 else 1
        let used (d : Dev) : Dev := d.setGrav stack { (d.grav stack) with runs := tset (d.grav stack).runs k (u, run) }
        if column then (columnCommand s.dev stack p (Config.freeCycles s.free) outcome s.time).map used
        else (g.rowCommand p (Config.freeCycles s.free)).map fun g => used (s.dev.setGrav stack g)) s

/-- REFRESH (R377): command slots go to refreshes, which are not counted in the waits; a refreshed channel's rows are
closed. -/
def execRefresh (stack channel : Nat) (s : State) : Host.Outcome State Fault Refusal :=
  happening (fun s =>
    let g := s.dev.grav stack
    if 16 ≤ stack || 32 ≤ channel then none
    else some (s.dev.setGrav stack { g with rows := g.rows.filter fun (k, _) => k / 32 ≠ channel })) s

/-! ## Descriptors of subscriptions and reductions (R378, R384, R387) -/

/-- Source number of a die's home Graver (R379). -/
def homeGraver (die : Nat) : Nat := 336 + 2 * die

/-- Reserved scope codes of a descriptor (R65). -/
def badScope (x : Nat) : Bool := 4 < x

/-- A canonical address outside the aperture. -/
def engineVa (va : Word) : Bool := wfld va 57 7 = 0 && !inAperture va.toNat

/-- SUBSCRIPTION_BAD reason of a descriptor, lowest first (R389).  Ring counters of another package are in range (R256);
no operation of the spec claims a use through them, so the subscription's tiles wait (log entry 100). -/
def subReason (d : Dev) (ctx : Nat) (c : Ctx) (w ring : List Word) : Option Nat :=
  let w1 := nth w 1 0
  let w5 := nth w 5 0
  let tileB := wfld w5 32 32
  let r := ringOf c ring
  if wfld (nth w 0 0) 0 6 ≠ 0 || wfld w1 32 32 % 64 ≠ 0 || wfld w1 0 32 = 0 || tileB = 0 || tileB % 64 ≠ 0 ||
      wfld w5 12 20 ≠ 0 || wfld w5 1 2 ≠ 0 || badScope (wfld w5 8 3) || badScope (wfld w5 4 3) ||
      nth w 6 0 ≠ 0 || nth w 7 0 ≠ 0 || (w5.getLsbD 11 && wfld (nth w 4 0) 0 2 ≠ 0) then some 1
  else match r with
    | none => some 2
    | some q =>
      if q.size < tileB then some 2
      else if [nth w 3 0, q.cf, q.f, q.cd, q.dr].any fun id => match resolveCounter d ctx id with
          | .error _ => true | .ok _ => false then some 3
      else if !engineVa (nth w 0 0) then some 4
      else none

/-- Is a result format one that reductions write (R384)? -/
def reduceFmt (w : Word) : Bool := (descFmt w).isSome && !(descKind w = 0 && descScl w ≠ 0)

/-- REDUCTION_BAD reason of a descriptor, lowest first (R389). -/
def redReason (d : Dev) (ctx : Nat) (c : Ctx) (w : List Word) : Option Nat :=
  let w3 := nth w 3 0
  let w5 := nth w 5 0
  let srcs := (List.range (wfld w3 16 8 + 1)).map fun i => nth w 1 0 + toW i * nth w 2 0
  if wfld (nth w 0 0) 0 6 ≠ 0 || wfld (nth w 1 0) 0 6 ≠ 0 || wfld (nth w 2 0) 0 6 ≠ 0 || wfld w3 32 32 = 0 ||
      wfld w3 24 8 ≠ 0 || wfld w3 8 4 ≠ 0 || wfld w3 0 3 ≠ 0 || wfld w5 11 53 ≠ 0 || wfld w5 0 3 ≠ 0 ||
      badScope (wfld w5 8 3) || badScope (wfld w5 4 3) || nth w 6 0 ≠ 0 || nth w 7 0 ≠ 0 then some 1
  else if wfld w3 6 2 = 3 || wfld w3 4 2 = 3 then some 2
  else if !reduceFmt (c.format (wfld w3 12 4)) then some 3
  else if (match resolveCounter d ctx (nth w 4 0) with | .error _ => true | .ok _ => false) then some 4
  else if !engineVa (nth w 0 0) || srcs.any fun a => !engineVa a then some 5
  else none

/-- Lowest free entry of a home Graver's table (R379). -/
def Die.freeSub (x : Die) : Option Nat := (List.range 64).find? fun e => (tget x.subs e).isNone

/-- Eight words of scratchpad at an aperture address. -/
def spmWords (m : Memory) (d : Dev) (n : Nat) (a : Word) : List Word := wordsOf 8 (spmRead m d n a 64)

/-! ## GSUB, GUNSUB, GRED (R379, R381, R385-R387) -/

/-- GSUB (R379, R387). -/
def execGsub (h : Hdr) (o : YG) (s : State) : Host.Outcome State Fault Refusal :=
  ctlSyllable h
    (fun s b c =>
      let n := b.core
      let a := c.s o.x.toNat
      let ctx := (s.dev.ctxOfCore n).getD noContext
      match firstOf [rangeFault s.dev n a 64 64 .read, rangeBad s.dev n a 64] with
      | some e => .raise e
      | none =>
        let w := spmWords s.mem s.dev n a
        let ra := nth w 2 0
        match s.dev.ctx ctx, firstOf [rangeFault s.dev n ra 64 64 .read, rangeBad s.dev n ra 64] with
        | none, _ => .raise (quotaFault a 1)
        | _, some e => .raise e
        | some x, none =>
          let ring := spmWords s.mem s.dev n ra
          match subReason s.dev ctx x w ring with
          | some r => .raise (mkFault 0x80 a (toW r))
          | none =>
            let die := dieOf n
            match (s.dev.die die).freeSub with
            | none => .stall 11
            | some e =>
              let ent : SubEnt :=
                { ctx := ctx, cluster := clusterOf n, isRed := false, dva := a, words := w, ring := ring, next := 0
                  flight := [], cancelled := false, susp := false, bad := false }
              let d := s.dev.releaseFor n o.ord o.scp
              let d := d.updDie die fun y => { y with subs := tset y.subs e ent }
              .ok (sendLate d b (.s (physSV c.lp o.y.toNat) (toW (die * 64 + e))) true 0))
    (fun b => b.ordered o.ord) s

/-- Every tile of a subscription is claimed and released, or none is left to claim. -/
def SubEnt.tilesDone (e : SubEnt) : Bool :=
  e.flight.isEmpty && (e.cancelled || wfld (nth e.words 1 0) 0 32 ≤ e.next)

/-- GUNSUB (R381). -/
def execGunsub (h : Hdr) (o : YG) (s : State) : Host.Outcome State Fault Refusal :=
  ctlSyllable h
    (fun s b c =>
      let id := (c.s o.x.toNat).toNat
      let ctx := (s.dev.ctxOfCore b.core).getD noContext
      let d := s.dev.releaseFor b.core o.ord o.scp
      if 512 ≤ id then .ok d
      else match tget (d.die (id / 64)).subs (id % 64) with
        | none => .ok d
        | some e =>
          if e.isRed || e.ctx ≠ ctx || e.tilesDone then .ok d
          else .ok (d.updDie (id / 64) fun y => { y with subs := tset y.subs (id % 64) { e with cancelled := true } }))
    (fun b => b.ordered o.ord) s

/-- GRED (R385, R387). -/
def execGred (h : Hdr) (o : YG) (s : State) : Host.Outcome State Fault Refusal :=
  ctlSyllable h
    (fun s b c =>
      let n := b.core
      let a := c.s o.x.toNat
      let ctx := (s.dev.ctxOfCore n).getD noContext
      match s.dev.ctx ctx, firstOf [rangeFault s.dev n a 64 64 .read, rangeBad s.dev n a 64] with
      | _, some e => .raise e
      | none, none => .raise (quotaFault a 1)
      | some x, none =>
        let w := spmWords s.mem s.dev n a
        match redReason s.dev ctx x w with
        | some r => .raise (mkFault 0x82 a (toW r))
        | none =>
          let die := dieOf n
          match (s.dev.die die).freeSub with
          | none => .stall 11
          | some e =>
            let ent : SubEnt :=
              { ctx := ctx, cluster := clusterOf n, isRed := true, dva := a, words := w, ring := [], next := 0
                flight := [], cancelled := false, susp := false, bad := false }
            let d := s.dev.releaseFor n o.ord o.scp
            .ok (d.updDie die fun y => { y with subs := tset y.subs e ent }))
    (fun b => b.ordered o.ord) s

/-! ## Faults of a command at its Graver (R121, R380, R385, R388, R389) -/

/-- Change an entry of a home Graver. -/
def Dev.updSub (d : Dev) (die entry : Nat) (f : SubEnt → SubEnt) : Dev :=
  d.updDie die fun y => match tget y.subs entry with
    | some e => { y with subs := tset y.subs entry (f e) }
    | none => y

/-- A command meets a fault at tile or element i, at the Graver src: it suspends where firmware may resolve it, else ends as faulted. -/
def Dev.subFault (d : Dev) (src die entry : Nat) (e : SubEnt) (x : EngFault) (i time : Nat) : Dev :=
  let cause : BitVec 8 := if e.isRed then 0x82 else 0x80
  let ends (d : Dev) : Dev := d.updSub die entry fun e => { e with bad := true, flight := [] }
  match x with
  | .trans va acc f =>
    let d := d.reportTrans src e.ctx e.dva va acc f time
    if f.replayable then
      { d.updSub die entry fun e => { e with susp := true } with susp := d.susp ++ [Cmd.sub die entry] }
    else ends d
  | .bad pa =>
    match placeOf pa with
    | .hbm => ends (d.reportBad src e.ctx pa time)
    | _ => ends (d.engineReport src e.ctx 0x39 .fault 0 (toW (pa / 8 * 8)) 0 time)
  | .unset k => ends (d.engineReport src e.ctx 0x50 .fault 0 e.dva (toW k) time)
  | .noEngine _ => ends (d.engineReport src e.ctx cause .fault 0 e.dva (if e.isRed then 5 else 4) time)
  | .scales _ => ends (d.engineReport src e.ctx cause .fault 0 e.dva (toW (i * 2 ^ 32 + 6)) time)
  | .notHbm _ | .away _ _ =>
    ends (d.engineReport src e.ctx cause .fault 0 e.dva (toW (i * 2 ^ 32 + (if e.isRed then 6 else 5))) time)

/-! ## Tiles (R380) -/

/-- Physical address of offset k of a ring's slot for use u. -/
def SubEnt.slotAddr (e : SubEnt) (r : RingDesc) (u k : Nat) : Nat := spmBase e.cluster + r.base + u % r.nslot * r.size + k

/-- Virtual address of tile j: the stride is signed. -/
def SubEnt.tileVa (e : SubEnt) (j : Nat) : Word :=
  nth e.words 0 0 + toW j * ((nth e.words 1 0 >>> 32).setWidth 32).signExtend 64

/-- A push tile: the bytes of HBM, and the scales of a scaled page behind them, go into the slot.  R380 speaks of the tile's
page: of a tile that crosses pages of different SCL the first page decides whether it is plain, and a scaled one that runs
onto a page without scales ends with reason 6 (DESIGN CHOICE, log entry 122). -/
def pushTile (m : Memory) (d : Dev) (die : Nat) (e : SubEnt) (r : RingDesc) (j u time : Nat) : Except EngFault Dev :=
  let src := homeGraver die
  let va := e.tileVa j
  let n := wfld (nth e.words 5 0) 32 32
  match inHbm m d src e.ctx va n .read, engineRead m d src e.ctx va n, pageFmt m d src e.ctx va .read with
  | .error x, _, _ => .error x
  | _, .error x, _ => .error x
  | _, _, .error x => .error x
  | .ok _, .ok bs, .ok p =>
    let put (d : Dev) (k : Nat) (l : List Byte) : Dev := d.writeBytes src e.ctx (e.slotAddr r u k) l time
    if (descFmt p.desc).isNone || descScl p.desc = 0 then .ok (put d 0 bs)
    else match tileScales m d src e.ctx va n with
      | .error x => .error x
      | .ok sc => if r.size < n + sc.length then .error (.scales va) else .ok (put (put d 0 bs) n sc)

/-- The tag of a pull tile, read with its slot (R380). -/
def SubEnt.readTag (m : Memory) (d : Dev) (die : Nat) (e : SubEnt) (r : RingDesc) (u : Nat) :
    Except EngFault (Option Nat) :=
  let taga := (nth e.words 4 0).toNat + 4 * (u % r.nslot)
  let tpa := spmBase e.cluster + (taga - apertureBase)
  if !(nth e.words 5 0).getLsbD 11 then .ok none
  else if e.moved ≠ 0 then .ok e.tag
  else if !inAperture taga || spmSize < taga - apertureBase + 4 then .error (.noEngine (toW taga))
  else if d.badAt tpa 4 then .error (.bad tpa)
  else .ok (some (ofBytes (readBytes m d (homeGraver die) tpa 4)))

/-- The bytes of a pull tile from those already moved up to top go to HBM, tagged where the descriptor says so; the tag is
kept for the rest. -/
def pullTile (m : Memory) (d : Dev) (die entry : Nat) (e : SubEnt) (r : RingDesc) (j u top time : Nat) :
    Except EngFault Dev :=
  let src := homeGraver die
  let n := wfld (nth e.words 5 0) 32 32
  let from' := e.slotAddr r u 0
  match e.readTag m d die r u, (pieces 8 (n / 8 + 2) from' n).find? fun (a, l) => d.badAt a l with
  | .error x, _ => .error x
  | .ok _, some (a, _) => .error (.bad a)
  | .ok tag, none =>
    let va := e.tileVa j + toW e.moved
    match inHbm m d src e.ctx (e.tileVa j) n .write,
        engineStore m d src e.ctx va (readBytes m d src (from' + e.moved) (top - e.moved)) tag time with
    | .error x, _ => .error x
    | .ok _, .error x => .error x
    | .ok _, .ok d => .ok (d.updSub die entry fun e => { e with moved := top, tag := tag })

/-- Claim the next tile of a subscription, with at most 4 in flight. -/
def subClaim (m : Memory) (d : Dev) (die entry : Nat) (e : SubEnt) (r : RingDesc) : Option Dev :=
  if e.cancelled || wfld (nth e.words 1 0) 0 32 ≤ e.next || 4 ≤ e.flight.length then none
  else (ringClaim m d e.ctx r ((nth e.words 5 0).getLsbD 0)).map fun (d, u) =>
    d.updSub die entry fun e => { e with flight := e.flight ++ [(e.next, u)], next := e.next + 1 }

/-- Move what is left of the oldest claimed tile and release it, once its use is next. -/
def subMove (m : Memory) (d : Dev) (die entry : Nat) (e : SubEnt) (r : RingDesc) (time : Nat) : Option Dev :=
  match e.flight with
  | [] => none
  | (j, u) :: t =>
    let pull := (nth e.words 5 0).getLsbD 0
    let id := if pull then r.dr else r.f
    let n := wfld (nth e.words 5 0) 32 32
    if ringCounter m d e.ctx id ≠ some (toW u) then none
    else match (if pull then pullTile m d die entry e r j u n time else pushTile m d die e r j u time) with
      | .error x => some (d.subFault (homeGraver die) die entry e x j time)
      | .ok d => (ringRelease m (d.release (homeGraver die) 3) e.ctx id u).map fun d =>
          d.updSub die entry fun e => { e with flight := t, moved := 0, tag := none }

/-- The next 64-byte unit of the oldest pull tile is written, but for its last one, which goes with the release: a
generation may change between the units (R383). -/
def tileUnit (m : Memory) (d : Dev) (die entry time : Nat) : Option Dev :=
  match tget (d.die die).subs entry with
  | none => none
  | some e =>
    match e.flight, (d.ctx e.ctx).bind fun c => ringOf c e.ring with
    | (j, u) :: _, some r =>
      if e.isRed || e.susp || e.bad || !(nth e.words 5 0).getLsbD 0 ||
          wfld (nth e.words 5 0) 32 32 ≤ e.moved + 64 then none
      else match pullTile m d die entry e r j u (e.moved + 64) time with
        | .ok d => some d
        | .error x => some (d.subFault (homeGraver die) die entry e x j time)
    | _, _ => none

/-- SUBSCRIPTION_TILE (R380): the next tile is claimed and the oldest one moved and released, as far as the ring's
counters allow. -/
def execSubscriptionTile (die entry : Nat) (s : State) : Host.Outcome State Fault Refusal :=
  happening (fun s =>
    match tget (s.dev.die die).subs entry with
    | none => none
    | some e =>
      if e.isRed || e.susp || e.bad then none
      else match (s.dev.ctx e.ctx).bind fun c => ringOf c e.ring with
        | none => none
        | some r =>
          let claimed := subClaim s.mem s.dev die entry e r
          let d := claimed.getD s.dev
          match tget (d.die die).subs entry with
          | none => claimed
          | some e => (subMove s.mem d die entry e r s.time).orElse fun _ => claimed) s

/-! ## Reductions (R385) -/

/-- Bytes of a reduction's result. -/
def redBytes (w : List Word) (c : Nat) : Nat := (wfld (nth w 3 0) 32 32 * c + 7) / 8

/-- Number of 4 KiB blocks of a reduction's result. -/
def redBlocks (w : List Word) (c : Nat) : Nat := (wfld (nth w 0 0) 0 12 + redBytes w c + 4095) / 4096

/-- Contributor i of one element.  R86 and R91 do not say where element e lies when an array runs onto pages whose formats
have another container width: it is located by the width of the page of the array's base address (DESIGN CHOICE, log entry
121). -/
def contributor (m : Memory) (d : Dev) (src ctx : Nat) (w : List Word) (e i : Nat) : Except EngFault FVal :=
  let base := nth w 1 0 + toW i * nth w 2 0
  match containerAt m d src ctx base with
  | .error x => .error x
  | .ok c => match inHbm m d src ctx (base + toW (c * e / 8)) 1 .read with
    | .error x => .error x
    | .ok _ => readElement m d src ctx base c e

/-- Number of contributors of a reduction (R384). -/
def redRanks (w : List Word) : Nat := wfld (nth w 3 0) 16 8 + 1

/-- The contributors of one element: those read ahead, and the others now. -/
def contributors (m : Memory) (d : Dev) (src ctx : Nat) (w : List Word) (e : Nat) (reads : Tab FVal) :
    Except EngFault (List FVal) :=
  (List.range (redRanks w)).mapM fun i => match tget reads i with
    | some v => .ok v
    | none => contributor m d src ctx w e i

/-- What is ahead of an element (R385). -/
def SubEnt.aheadOf (e : SubEnt) (k : Nat) : RedAhead := tgetD e.ahead k { reads := [], written := false }

/-- Element k of the result, as its encoding. -/
def redElement (m : Memory) (d : Dev) (src : Nat) (e : SubEnt) (f : Fmt) (k : Nat) : Except EngFault Nat :=
  let w3 := nth e.words 3 0
  let r : Rounding := { rm := BitVec.ofNat 2 (wfld w3 4 2), sat := w3.getLsbD 3, u := 0 }
  (contributors m d src e.ctx e.words k (e.aheadOf k).reads).map (reduceElement f (wfld w3 6 2) r)

/-- Elements lo to hi - 1 of the result that are not written yet, or the element that fails. -/
def redElements (m : Memory) (d : Dev) (src : Nat) (e : SubEnt) (f : Fmt) (lo hi : Nat) :
    Except (EngFault × Nat) (List (Nat × Nat)) :=
  (((List.range (hi - lo)).map (lo + ·)).filter fun k => !(e.aheadOf k).written).mapM fun k =>
    match redElement m d src e f k with
    | .ok v => .ok (k, v)
    | .error x => .error (x, k)

/-- Write an element into its container (R86, R385). -/
def putElement (m : Memory) (d : Dev) (src : Nat) (e : SubEnt) (f : Fmt) (time : Nat) (kv : Nat × Nat) : Except EngFault Dev :=
  let (k, v) := kv
  let a := nth e.words 0 0 + toW (k * f.c / 8)
  if f.c = 4 then
    match engineRead m d src e.ctx a 1 with
    | .error x => .error x
    | .ok bs =>
      let b := ofBytes bs
      engineStore m d src e.ctx a (toBytes 1 (if k % 2 = 0 then b / 16 * 16 + v % 16 else b % 16 + v % 16 * 16)) none time
  else engineStore m d src e.ctx a (toBytes (f.c / 8) (v % 2 ^ f.c)) none time

/-- Write what a 64-byte unit of the result holds of the elements computed: all of it at once, unless some are written. -/
def putUnit (m : Memory) (d : Dev) (src : Nat) (e : SubEnt) (f : Fmt) (vals : List (Nat × Nat)) (time : Nat)
    (u : Nat × Nat) : Except EngFault Dev :=
  let dst := (nth e.words 0 0).toNat
  let top := min (wfld (nth e.words 3 0) 32 32) ((u.1 + u.2 - dst) * 8 / f.c)
  let k0 := (u.1 - dst) * 8 / f.c
  let ks := (List.range (top - k0)).map (k0 + ·)
  if ks.any fun k => (e.aheadOf k).written then
    (vals.filter fun kv => ks.contains kv.1).foldlM (fun d kv => putElement m d src e f time kv) d
  else
    let half := f.c = 4 && ks.length % 2 = 1
    let keep := if half then
        match engineRead m d src e.ctx (toW (u.1 + u.2 - 1)) 1 with | .ok bs => ofBytes bs / 16 | .error _ => 0
      else 0
    let l := ks.map (fun k => tgetD vals k 0 % 2 ^ f.c) ++ (if half then [keep] else [])
    engineStore m d src e.ctx (toW u.1) (toBytes u.2 (l.foldr (fun v acc => v + 2 ^ f.c * acc) 0)) none time

/-- The Graver of the stack that holds the block of an address (R385). -/
def blockGraver (m : Memory) (d : Dev) (die ctx : Nat) (va : Word) : Nat :=
  match engineAddress m d (homeGraver die) ctx va .write with
  | .ok t => 336 + stackOf t.pa
  | .error _ => homeGraver die

/-- The destination block at hand: its bytes from lo to hi, its elements from first to last, and its Graver. -/
structure RedSpan where
  lo : Nat
  hi : Nat
  first : Nat
  last : Nat
  src : Nat

def redSpan (m : Memory) (d : Dev) (die : Nat) (e : SubEnt) (f : Fmt) : RedSpan :=
  let dst := (nth e.words 0 0).toNat
  let blk := dst / 4096 + e.next
  let lo := max dst (blk * 4096)
  let hi := min (dst + redBytes e.words f.c) ((blk + 1) * 4096)
  { lo := lo, hi := hi, first := (lo - dst) * 8 / f.c
    last := min (wfld (nth e.words 3 0) 32 32) ((hi - dst) * 8 / f.c), src := blockGraver m d die e.ctx (toW lo) }

/-- One destination block of a reduction: the Graver of its stack computes the elements that are not written yet and writes
them in containers of f[DFMT] (R385). -/
def redBlock (m : Memory) (d : Dev) (die entry : Nat) (e : SubEnt) (f : Fmt) (time : Nat) : Dev :=
  let q := redSpan m d die e f
  match inHbm m d q.src e.ctx (toW q.lo) (q.hi - q.lo) .write with
  | .error x => d.subFault q.src die entry e x q.first time
  | .ok _ =>
    match redElements m d q.src e f q.first q.last with
    | .error (x, k) => d.subFault q.src die entry e x k time
    | .ok vals =>
      match (unitPieces q.lo (q.hi - q.lo)).foldlM (fun d u => putUnit m d q.src e f vals time u) d with
      | .error x => d.subFault q.src die entry e x q.first time
      | .ok d => d.updSub die entry fun e => { e with next := e.next + 1, ahead := [] }

/-- Result format of a reduction. -/
def SubEnt.dfmt (e : SubEnt) (d : Dev) : Option Fmt :=
  (d.ctx e.ctx).bind fun c => descFmt (c.format (wfld (nth e.words 3 0) 12 4))

/-- GRAVER_REDUCTION (R385): the Graver of the next destination block performs it. -/
def execGraverReduction (die entry : Nat) (s : State) : Host.Outcome State Fault Refusal :=
  happening (fun s =>
    match tget (s.dev.die die).subs entry with
    | none => none
    | some e =>
      match e.dfmt s.dev with
      | none => none
      | some f =>
        if !e.isRed || e.susp || e.bad || redBlocks e.words f.c ≤ e.next then none
        else some (redBlock s.mem s.dev die entry e f s.time)) s

/-- A reduction at work on a block, with its format and block. -/
def redAtWork (m : Memory) (d : Dev) (die entry : Nat) : Option (SubEnt × Fmt × RedSpan) :=
  (tget (d.die die).subs entry).bind fun e => (e.dfmt d).bind fun f =>
    if !e.isRed || e.susp || e.bad || redBlocks e.words f.c ≤ e.next then none else some (e, f, redSpan m d die e f)

/-- An element of the block at hand that is not written. -/
def SubEnt.still (e : SubEnt) (q : RedSpan) (k : Nat) : Bool := q.first ≤ k && k < q.last && !(e.aheadOf k).written

/-- A contributor of an element of the block is read before the others: no order binds different elements (R385). -/
def redRead (m : Memory) (d : Dev) (die entry k i : Nat) : Option Dev :=
  (redAtWork m d die entry).bind fun (e, _, q) =>
    let y := e.aheadOf k
    if !e.still q k || redRanks e.words ≤ i || (tget y.reads i).isSome then none
    else match contributor m d q.src e.ctx e.words k i with
      | .error _ => none
      | .ok v => some (d.updSub die entry fun e => { e with ahead := tset e.ahead k { y with reads := tset y.reads i v } })

/-- An element of the block is written before the others (R385). -/
def redWrite (m : Memory) (d : Dev) (die entry k time : Nat) : Option Dev :=
  (redAtWork m d die entry).bind fun (e, f, q) =>
    if !e.still q k then none
    else match redElement m d q.src e f k with
      | .error _ => none
      | .ok v => match inHbm m d q.src e.ctx (toW q.lo) (q.hi - q.lo) .write, putElement m d q.src e f time (k, v) with
        | .error _, _ | _, .error _ => none
        | .ok _, .ok d => some (d.updSub die entry fun e =>
            { e with ahead := tset e.ahead k { reads := [], written := true } })

/-- Is a command finished, and with which outcome of R32? -/
def SubEnt.outcome (e : SubEnt) (d : Dev) : Option Nat :=
  if e.susp then none
  else if e.bad then some 3
  else if e.isRed then
    match e.dfmt d with
    | some f => if redBlocks e.words f.c ≤ e.next then some 1 else none
    | none => none
  else if e.tilesDone then some (if e.cancelled then 2 else 1)
  else none

/-- SUBSCRIPTION_COMPLETE (R380, R385): the completion add, a release at RSCP when REL = 1 of what the command's Gravers
wrote. -/
def execSubscriptionComplete (die entry : Nat) (s : State) : Host.Outcome State Fault Refusal :=
  happening (fun s =>
    match tget (s.dev.die die).subs entry with
    | none => none
    | some e =>
      (e.outcome s.dev).map fun out =>
        let src := homeGraver die
        let w5 := nth e.words 5 0
        let d := s.dev.updDie die fun y => { y with subs := tdel y.subs entry }
        let by' := if e.isRed then (List.range 16).map (336 + ·) else [src]
        let d := if w5.getLsbD 7 then by'.foldl (fun d a => d.release a (wfld w5 8 3)) d else d
        engineAdd s.mem d src e.ctx (nth e.words (if e.isRed then 4 else 3) 0) (outcomeValue out) s.time) s

/-! ## The scrubber (R390-R392) -/

/-- SCRUB_PASS_START (R390): a period begins; a pass that still runs goes on, with a late record. -/
def execScrubPassStart (stack : Nat) (s : State) : Host.Outcome State Fault Refusal :=
  happening (fun s =>
    let g := s.dev.grav stack
    if 16 ≤ stack || !g.en then none
    else if g.passing then some (s.dev.setGrav stack (g.record 5 0 (g.pos / 64) s.time))
    else some (s.dev.setGrav stack { g with passing := true, pos := 0, level := 0 })) s

/-- May the scrubber read now (R391)? -/
def Grav.mayScrub (g : Grav) : Bool :=
  g.en && g.passing &&
    (decide ((tgetD g.queues (pcOf g.pos) []).length < min 32 (g.thr * 2 ^ g.level)) || g.level = 4)

/-- Is an entry for a unit in its queue?  A scrub read comes after the writes accepted before it (R375, R390). -/
def Grav.queued (g : Grav) (unit : Nat) : Bool := (tgetD g.queues (unit % 64) []).any fun e => e.unit = unit

/-- SCRUB_READ (R388, R390): the next unit is read and, if corrected, rewritten, as one entry of its queue. -/
def execScrubRead (stack : Nat) (outcome : EccOutcome) (s : State) : Host.Outcome State Fault Refusal :=
  happening (fun s =>
    let g := s.dev.grav stack
    if 16 ≤ stack || !g.mayScrub || g.queued (g.pos / 64) then none
    else
      let u := g.pos / 64
      let pa := stackAddress stack g.pos
      let next := g.pos + 64
      let moved (g : Grav) : Grav :=
        if 2 ^ 36 ≤ next then { g with pos := 0, passing := false } else { g with pos := next }
      if s.dev.poisoned pa then some (s.dev.setGrav stack (moved (g.record 4 0 u s.time)))
      else match outcome with
        | .clean => some (s.dev.setGrav stack (moved g))
        | .corrected => some (s.dev.setGrav stack (moved { (g.record 3 0 u s.time) with eccScrub := satInc g.eccScrub }))
        | .uncorrectable =>
          some ({ s.dev with poison := pa / 64 :: s.dev.poison }.setGrav stack (moved (g.record 4 0 u s.time)))) s

/-- The level after a comparison at elapsed 256ths of the period (R391). -/
def Grav.nextLevel (g : Grav) (elapsed : Nat) : Nat :=
  let done := if g.passing then g.pos else 2 ^ 36
  if 64 * (256 * done) + 256 * 2 ^ 36 < 64 * (elapsed * 2 ^ 36) then min 4 (g.level + 1)
  else if elapsed * 2 ^ 36 ≤ 256 * done then g.level - 1
  else g.level

/-- SCRUB_LEVEL_CHECK (R391). -/
def execScrubLevelCheck (stack elapsed : Nat) (s : State) : Host.Outcome State Fault Refusal :=
  happening (fun s =>
    let g := s.dev.grav stack
    if 16 ≤ stack || !g.en then none else some (s.dev.setGrav stack { g with level := g.nextLevel elapsed })) s

end Sys2Proof.Machine
end

