-- ==== Sys2Proof/Machine/Copy.lean ====
section
/-!
DEFINITION. The copy engines and the holding buffers (R395-R409): queues and their packets, CPYQ, parks and drains.
-/

namespace Sys2Proof.Machine

def Dev.cpyq (d : Dev) (q : Nat) : CpyQ := (tget d.cpyqs q).getD CpyQ.reset
def Dev.setCpyq (d : Dev) (q : Nat) (x : CpyQ) : Dev := { d with cpyqs := tset d.cpyqs q x }

/-- Source number of the engine of a queue (R395, R188). -/
def copyEngine (q : Nat) : Nat := 320 + q / 16

/-- Slots of a queue's ring (R395). -/
def CpyQ.nslot (x : CpyQ) : Nat := 2 ^ x.log2

/-- Lap stamp of an index (R395). -/
def CpyQ.lap (x : CpyQ) (w : Nat) : Nat := (w / x.nslot + 1) % 65536

/-- Virtual address of the slot of an index. -/
def CpyQ.slotVa (x : CpyQ) (w : Nat) : Word := x.base + toW (64 * (w % x.nslot))

/-- Value of a counter of this package. -/
def localCounter (m : Memory) (d : Dev) (ctx : Nat) (id : Word) : Option Nat := (ringCounter m d ctx id).map (·.toNat)

/-! ## Opening and stopping (R395, R409) -/

/-- Open a queue if WI and RD are in range, the ring is aligned and the engine lies in the quota.  What a counter of
another package holds for r0 is the free word given (DESIGN CHOICE, log entry 100). -/
def openQueue (m : Memory) (d : Dev) (q : Nat) (far : Word) : Option Dev :=
  let x := d.cpyq q
  match d.partOfCtx x.ctx, resolveCounter d x.ctx x.wi, resolveCounter d x.ctx x.rd with
  | some p, .ok _, .ok _ =>
    if x.en || x.base.toNat % (64 * x.nslot) ≠ 0 || !p.engines.getLsbD (q / 16) || 256 ≤ q then none
    else some (d.setCpyq q { x with
      en := true, ridx := (localCounter m d x.ctx x.rd).getD far.toNat, reread := false, susp := false, known := 0 })
  | _, _, _ => none

/-- QUEUE_OPEN (R395). -/
def execQueueOpen (q : Nat) (s : State) : Host.Outcome State Fault Refusal :=
  happening (fun s => openQueue s.mem s.dev q (Config.freeWord s.free)) s

/-- QUEUE_STOP (R409): no further packet is taken; those in flight complete. -/
def execQueueStop (q : Nat) (s : State) : Host.Outcome State Fault Refusal :=
  happening (fun s =>
    let x := s.dev.cpyq q
    if x.en then some (s.dev.setCpyq q { x with en := false }) else none) s

/-! ## Packets (R398, R399, R408) -/

/-- Fields of word 0. -/
def pktOp (w : List Word) : Nat := wfld (nth w 0 0) 24 4
def pktTag (w : List Word) : Bool := (nth w 0 0).getLsbD 10
def pktLen (w : List Word) : Nat := wfld (nth w 3 0) 32 32
def pktRows (w : List Word) : Nat := wfld (nth w 3 0) 0 32

/-- Lowest and highest byte address of rows, as integers. -/
def rowSpan (base stride : Word) (rows len : Nat) : Int × Int :=
  let last : Int := base.toNat + ((rows : Int) - 1) * stride.toInt
  (min (base.toNat : Int) last, max (base.toNat : Int) last + len - 1)

/-- Rows that are canonical and below the aperture throughout. -/
def rowsOk (base stride : Word) (rows len : Nat) : Bool :=
  let (lo, hi) := rowSpan base stride rows len
  rows = 0 || len = 0 || (decide (0 ≤ lo) && decide (hi < apertureBase))

/-- Does an identifier name no counter (R256)? -/
def badCounter (d : Dev) (ctx : Nat) (id : Word) : Bool :=
  match resolveCounter d ctx id with | .error _ => true | .ok _ => false

/-- Reserved fields and operation codes: reason 1. -/
def pktReserved (w : List Word) : Bool :=
  let w0 := nth w 0 0
  let w7 := nth w 7 0
  let dst := nth w 2 0
  let op := pktOp w
  wfld w0 28 20 ≠ 0 || wfld w0 20 4 ≠ 0 || wfld w0 0 10 ≠ 0 || 3 < op || badScope (wfld w0 16 3) ||
    badScope (wfld w0 12 3) || (pktTag w && op ≠ 0) ||
    (match op with
     | 0 => if pktTag w then wfld w7 32 32 ≠ 0 else w7 ≠ 0
     | 2 => wfld dst 21 43 ≠ 0 || wfld dst 4 4 ≠ 0
     | _ => w7 ≠ 0)

/-- Limits of R399: reason 2. -/
def pktLimits (w : List Word) : Bool :=
  let dst := nth w 2 0
  let len := pktLen w
  let rows := pktRows w
  match pktOp w with
  | 0 => len = 0 || rows = 0 ||
      (pktTag w && (dst.toNat % 64 ≠ 0 || (nth w 5 0).toNat % 64 ≠ 0 || len % 64 ≠ 0))
  | 1 => len % 8 ≠ 0 || dst.toNat % 8 ≠ 0 || (nth w 5 0).toNat % 8 ≠ 0
  | 2 => rows ≠ 1 || len % 64 ≠ 0 || len = 0 || 65536 < len || nth w 4 0 ≠ 0 || nth w 5 0 ≠ 0 || wfld dst 8 8 = 0
  | _ => rows ≠ 1 || len % 64 ≠ 0

/-- Addresses of a packet: reason 3. -/
def pktAddresses (w : List Word) : Bool :=
  let src := rowsOk (nth w 1 0) (nth w 4 0) (pktRows w) (pktLen w)
  let dst := rowsOk (nth w 2 0) (nth w 5 0) (pktRows w) (pktLen w)
  match pktOp w with
  | 1 => !dst
  | 2 => !src
  | _ => !src || !dst

/-- PACKET_BAD reason that the packet's own words show, lowest first (R408). -/
def pktReason (d : Dev) (ctx : Nat) (w : List Word) : Option Nat :=
  let park := pktOp w = 2
  let clusters := ((d.partOfCtx ctx).map (·.clusters.length)).getD 0
  if pktReserved w then some 1
  else if pktLimits w then some 2
  else if pktAddresses w then some 3
  else if badCounter d ctx (nth w 6 0) || (park && badCounter d ctx (nth w 7 0)) then some 4
  else if park && clusters ≤ wfld (nth w 2 0) 16 5 then some 7
  else none

/-- The PACKET_BAD record (R408). -/
def Dev.packetBad (d : Dev) (q ctx : Nat) (slotVa : Word) (idx reason time : Nat) : Dev :=
  d.engineReport (copyEngine q) ctx 0x90 .fault slotVa (toW (q % 256 * 2 ^ 32 + idx % 2 ^ 32)) (toW reason) time

/-- Record what a command of a queue's engine met other than a translation fault (R225, R388, R408). -/
def Dev.copyRecord (d : Dev) (q ctx : Nat) (slotVa : Word) (idx : Nat) (x : EngFault) (time : Nat) : Dev :=
  match x with
  | .trans va acc f => d.reportTrans (copyEngine q) ctx slotVa va acc f time
  | .bad pa =>
    match placeOf pa with
    | .hbm => d.reportBad (copyEngine q) ctx pa time
    | _ => d.engineReport (copyEngine q) ctx 0x39 .fault slotVa (toW (pa / 8 * 8)) 0 time
  | .away pkg va => d.engineReport (copyEngine q) ctx 0xC1 .fault slotVa va (toW (pkg * 2 ^ 32 + 3)) time
  | .unset _ | .scales _ => d.packetBad q ctx slotVa idx 6 time
  | .noEngine _ | .notHbm _ => d.packetBad q ctx slotVa idx 3 time

/-! ## Taking packets (R396) -/

/-- Packets of an engine in flight. -/
def inFlight (d : Dev) (e : Nat) : Nat :=
  (((List.range 16).map fun i => (d.cpyq (16 * e + i)).packets.length)).sum

/-- The engine leaves a slot behind: 1 is added to RD as a release at .pkg. -/
def passSlot (m : Memory) (d : Dev) (q time : Nat) : Dev :=
  let x := d.cpyq q
  let d := d.setCpyq q { x with ridx := x.ridx + 1, reread := false }
  engineAdd m (d.release (copyEngine q) 3) (copyEngine q) x.ctx x.rd 1 time

/-- Is a queue open with a next packet written, by its index counter, or by what another package has answered for it
(R396)? -/
def Dev.queueReady (m : Memory) (d : Dev) (q : Nat) : Bool :=
  let x := d.cpyq q
  x.en && !x.susp && (match localCounter m d x.ctx x.wi with | some wi => x.ridx < wi | none => x.ridx < x.known)

/-- What a copy engine asks of a counter of another package: for a queue's WI, up to the next index (0), or for an enqueue
its WI (1), its RD (2), and the add that claims an index (3); at' is the queue, or the core, and tag its result's. -/
def cpyAsk (src ctx pkg : Nat) (id : Word) (what at' tag : Nat) (v : Word) (time : Nat) : RemoteOut :=
  { src := src, ctx := ctx, pkg := pkg, kind := if what = 3 then .counterAdd else .counterRead, ident := id, pa := at'
    data := List.replicate what 0, val := v, tag := tag, phase := 0, start := time }

/-- Is a request such a one? -/
def RemoteOut.isAsk (r : RemoteOut) (src what at' tag : Nat) : Bool :=
  r.src = src && (r.kind = .counterAdd || r.kind = .counterRead) && r.data.length = what && r.pa = at' && r.tag = tag

/-- The engine asks for the WI of an open queue that lies in another package, until it passes the next index (R396,
R468). -/
def askIndex (d : Dev) (q time : Nat) : Option Dev :=
  let x := d.cpyq q
  match resolveCounter d x.ctx x.wi with
  | .ok (.remote pkg) =>
    if !x.en || x.susp || x.ridx < x.known || d.remote.any fun r => r.kind = .counterRead && r.isAsk (copyEngine q) 0 q 0
    then none
    else some (d.send (cpyAsk (copyEngine q) x.ctx pkg x.wi 0 q 0 (toW (x.ridx + 1)) time))
  | _ => none

/-- The queue that an engine serves next: round robin from the one after the last served, among those whose slot is not
being read again (R396). -/
def Dev.nextQueue (m : Memory) (d : Dev) (e : Nat) : Option Nat :=
  ((List.range 16).map fun i => 16 * e + (tgetD d.cpyLast e 15 + 1 + i) % 16).find? fun q =>
    d.queueReady m q && !(d.cpyq q).reread

/-- The next slot of a queue is read: the packet is taken, or its stamp does not match, or the read fails. -/
def takePacket (m : Memory) (d : Dev) (q time : Nat) : Option Dev :=
  let x := d.cpyq q
  let d := d.readCounter m x.ctx x.wi
  let src := copyEngine q
  let va := x.slotVa x.ridx
  if !d.queueReady m q || 8 ≤ inFlight d (q / 16) then none
  else match engineWords m d src x.ctx va 8 with
    | .error (.trans a acc f) =>
      let d := d.reportTrans src x.ctx va a acc f time
      if f.replayable then some ({ d with susp := d.susp ++ [Cmd.take q] }.setCpyq q { x with susp := true })
      else some (passSlot m d q time)
    | .error e => some (passSlot m (d.copyRecord q x.ctx va x.ridx e time) q time)
    | .ok w =>
      if wfld (nth w 0 0) 48 16 ≠ x.lap x.ridx then
        (if x.reread then none else some (d.setCpyq q { x with reread := true }))
      else
        let bad := pktReason d x.ctx w
        let p : Packet :=
          { idx := x.ridx, words := w, susp := false, moved := 0, ahead := [], got := [], parking := false
            bad := bad.isSome, sent := false }
        let d := match bad with
          | some r => d.packetBad q x.ctx va x.ridx r time
          | none => d
        some (passSlot m (d.setCpyq q { x with packets := x.packets ++ [p] }) q time)

/-- An engine serves a queue, which is then the last that it has served. -/
def serveQueue (m : Memory) (d : Dev) (q time : Nat) : Option Dev :=
  (takePacket m d q time).map fun d => { d with cpyLast := tset d.cpyLast (q / 16) (q % 16) }

/-- COPY_PACKET_TAKE (R396): an engine takes the next packet of the queue whose turn it is, or asks another package for
the index counter of one that has nothing to take. -/
def execCopyPacketTake (q : Nat) (s : State) : Host.Outcome State Fault Refusal :=
  happening (fun s =>
    if s.dev.nextQueue s.mem (q / 16) = some q then serveQueue s.mem s.dev q s.time else askIndex s.dev q s.time) s

/-- STAMP_REREAD (R396): a slot whose stamp did not match is read again. -/
def execStampReread (q : Nat) (s : State) : Host.Outcome State Fault Refusal :=
  happening (fun s => if (s.dev.cpyq q).reread then serveQueue s.mem s.dev q s.time else none) s

/-! ## Performing packets (R399, R400, R468) -/

/-- One piece of a copy: within one 64-byte unit at the destination. -/
structure Chunk where
  src : Word
  dst : Word
  /-- bytes from the row's first -/
  off : Nat
  len : Nat
  deriving DecidableEq, Repr

/-- Pieces of one row. -/
def rowChunks (src dst : Word) (len : Nat) : List Chunk :=
  (unitPieces dst.toNat len).map fun (a, l) =>
    let o := a - dst.toNat
    { src := src + toW o, dst := toW a, off := o, len := l }

/-- Pieces of a copy or fill, row by row. -/
def copyChunks (w : List Word) : List Chunk :=
  (List.range (pktRows w)).flatMap fun r =>
    rowChunks (nth w 1 0 + toW r * nth w 4 0) (nth w 2 0 + toW r * nth w 5 0) (pktLen w)

/-- The 8-byte granules of a piece, each read and written whole (R123). -/
def Chunk.granules (c : Chunk) : List Chunk :=
  (pieces 8 (c.len / 8 + 2) c.dst.toNat c.len).map fun (a, l) =>
    let o := a - c.dst.toNat
    { src := c.src + toW o, dst := toW a, off := c.off + o, len := l }

/-- Every part of piece i that can be read and written by itself, with its key: a granule, and of a tagged write, which
Graver accepts as one (R383), the whole. -/
def Packet.allParts (p : Packet) (i : Nat) (c : Chunk) : List (Nat × Chunk) :=
  if pktTag p.words then [(8 * i, c)]
  else ((List.range 8).zip c.granules).map fun (k, g) => (8 * i + k, g)

/-- The parts in which piece i is moved in its turn: as one, unless a part of it was handled ahead. -/
def Packet.parts (p : Packet) (i : Nat) (c : Chunk) : List (Nat × Chunk) :=
  if p.ahead.any fun (k, _) => k / 8 = i then p.allParts i c else [(8 * i, c)]

/-- Why a packet does not go on. -/
inductive CopyStop where
  | eng (x : EngFault)
  /-- bytes of another package are wanted: len of them at an address -/
  | wanting (pkg : Nat) (va : Word) (pa len : Nat)
  /-- the other package has refused, or not answered in time -/
  | refused (pkg : Nat) (va : Word)
  deriving DecidableEq, Repr

/-- Read pieces of a source: bytes of another package come from those that have arrived. -/
def copyRead (m : Memory) (d : Dev) (src ctx : Nat) :
    List (Nat × Nat) → List Byte → Except CopyStop (List Byte × List Byte)
  | [], far => .ok ([], far)
  | (a, l) :: t, far =>
    match engineAddress m d src ctx (toW a) .read with
    | .error e => .error (.eng e)
    | .ok k =>
      match k.remote with
      | some pkg =>
        if far.length < l then .error (.wanting pkg (toW a) k.pa l)
        else match copyRead m d src ctx t (far.drop l) with
          | .ok (bs, far') => .ok (far.take l ++ bs, far')
          | .error e => .error e
      | none =>
        if d.badAt k.pa l then .error (.eng (.bad k.pa))
        else match copyRead m d src ctx t far with
          | .ok (bs, far') => .ok (readBytes m d src k.pa l ++ bs, far')
          | .error e => .error e

/-- Does a request carry a store of a copy packet to another package? -/
def RemoteOut.ofPacket (r : RemoteOut) (q idx : Nat) : Bool :=
  r.kind = .store && r.src = copyEngine q && r.val.toNat = q && r.tag = idx

/-- Does a request carry a read of a copy packet from another package? -/
def RemoteOut.reads (r : RemoteOut) (q idx : Nat) : Bool :=
  r.kind = .load && r.src = copyEngine q && r.val.toNat = q && r.tag = idx

/-- A request of a copy packet for bytes of another package. -/
def copyOut (d : Dev) (q idx pkg : Nat) (kind : RemoteKind) (va : Word) (pa : Nat) (bs : List Byte) (time : Nat) :
    RemoteOut :=
  { src := copyEngine q, ctx := (d.cpyq q).ctx, pkg := pkg, kind := kind, ident := va, pa := pa, data := bs, val := toW q
    tag := idx, phase := 0, start := time }

/-- Write one piece of a packet of a queue; in another package as a posted store. -/
def copyWrite (m : Memory) (d : Dev) (q : Nat) (p : Packet) (va : Word) (bs : List Byte) (time : Nat) :
    Except CopyStop Dev :=
  let src := copyEngine q
  let ctx := (d.cpyq q).ctx
  match engineAddress m d src ctx va .write with
  | .error e => .error (.eng e)
  | .ok k =>
    match k.remote with
    | some pkg => .ok (d.send (copyOut d q p.idx pkg .store va k.pa bs time))
    | none => .ok (if pktTag p.words then d.taggedWrite src ctx (wfld (nth p.words 7 0) 0 32) k.pa bs time
        else d.writeBytes src ctx k.pa bs time)

/-- Bytes of one part: read at the source, or the pattern of a fill. -/
def chunkBytes (m : Memory) (d : Dev) (src ctx : Nat) (p : Packet) (c : Chunk) (far : List Byte) :
    Except CopyStop (List Byte × List Byte) :=
  if pktOp p.words = 1 then
    .ok ((List.range c.len).map fun i => BitVec.ofNat 8 (wfld (nth p.words 1 0) (8 * ((c.off + i) % 8)) 8), far)
  else copyRead m d src ctx (unitPieces c.src.toNat c.len) far

/-- The bytes of one part, which may have been read ahead. -/
def copyBytes (m : Memory) (d : Dev) (q : Nat) (p : Packet) (key : Nat) (c : Chunk) (far : List Byte) :
    Except CopyStop (List Byte × List Byte) :=
  match tget p.ahead key with
  | some (some bs) => .ok (bs, far)
  | _ => chunkBytes m d (copyEngine q) (d.cpyq q).ctx p c far

/-- Move the parts of one piece that are not moved yet, until one cannot be: the units, the packet, the bytes of other
packages left, and what stopped it. -/
def moveParts (m : Memory) (q time : Nat) :
    List (Nat × Chunk) → Dev → Packet → List Byte → Dev × Packet × List Byte × Option CopyStop
  | [], d, p, far => (d, p, far, none)
  | (key, c) :: t, d, p, far =>
    if tget p.ahead key = some none then moveParts m q time t d p far else
    match copyBytes m d q p key c far with
    | .error e => (d, p, far, some e)
    | .ok (bs, rest) =>
      match copyWrite m d q p c.dst bs time with
      | .error e => (d, p, far, some e)
      | .ok d => moveParts m q time t d { p with ahead := tset p.ahead key none } rest

/-- Move the pieces of a packet in order until one cannot be moved. -/
def moveChunks (m : Memory) (q time : Nat) :
    List Chunk → Dev → Packet → List Byte → Dev × Packet × List Byte × Option CopyStop
  | [], d, p, far => (d, p, far, none)
  | c :: t, d, p, far =>
    match moveParts m q time (p.parts p.moved c) d p far with
    | (d, p, rest, none) =>
      moveChunks m q time t d
        { p with moved := p.moved + 1, ahead := p.ahead.filter fun (k, _) => k / 8 ≠ p.moved } rest
    | x => x

/-- Pieces of a scaled tile (R92, R399): its elements, then its scales from the first 64-byte boundary after them, those
of each page from its own run. -/
def tileChunks (m : Memory) (d : Dev) (src ctx : Nat) (w : List Word) : Except EngFault (List Chunk) :=
  let va := nth w 1 0
  let n := pktLen w
  let dst := nth w 2 0
  let after := toW ((dst.toNat + n + 63) / 64 * 64)
  match scaleRuns m d src ctx (pagesOf n) va n with
  | .error e => .error e
  | .ok runs =>
    .ok (rowChunks va dst n ++
      (runs.foldl (fun (acc : List Chunk × Word) (a, k) => (acc.1 ++ rowChunks a acc.2 k, acc.2 + toW k)) ([], after)).1)

/-- Change a packet of a queue. -/
def Dev.updPacket (d : Dev) (q idx : Nat) (f : Packet → Packet) : Dev :=
  let x := d.cpyq q
  d.setCpyq q { x with packets := x.packets.map fun (p : Packet) => (if p.idx = idx then f p else p) }

/-- A packet ends: its completion add, a release at RSCP when REL = 1 (R400). -/
def endPacket (m : Memory) (d : Dev) (q : Nat) (p : Packet) (outcome time : Nat) : Dev :=
  let x := d.cpyq q
  let src := copyEngine q
  let w0 := nth p.words 0 0
  let d := d.setCpyq q { x with packets := x.packets.filter (·.idx ≠ p.idx) }
  let d := if w0.getLsbD 15 then d.release src (wfld w0 16 3) else d
  engineAdd m d src x.ctx (nth p.words 6 0) (outcomeValue outcome) time

/-- A packet ends where it is: only its faulted completion is left, and no answer is awaited. -/
def Dev.spoilPacket (d : Dev) (q idx : Nat) : Dev :=
  { d with remote := d.remote.filter fun r => !r.reads q idx }.updPacket q idx fun p => { p with bad := true }

/-- A packet meets what stops it: it suspends, or is marked to end as faulted; where bytes of another package are wanting,
they are asked for (R468). -/
def Dev.stopPacket (d : Dev) (q idx : Nat) (e : CopyStop) (refusal time : Nat) : Dev :=
  let x := d.cpyq q
  let va := x.slotVa idx
  match e with
  | .wanting pkg a pa len => d.send (copyOut d q idx pkg .load a pa (List.replicate len 0) time)
  | .refused pkg a =>
    let cause : BitVec 8 := if refusal = 0x80 then 0xC2 else 0xC1
    (d.engineReport (copyEngine q) x.ctx cause .fault va a
      (toW (pkg * 2 ^ 32 + (if refusal = 0x80 then 1 else refusal % 16))) time).spoilPacket q idx
  | .eng (.trans a acc f) =>
    let d := d.reportTrans (copyEngine q) x.ctx va a acc f time
    if f.replayable then
      { d with susp := d.susp ++ [Cmd.copy q idx] }.updPacket q idx fun p => { p with susp := true }
    else d.spoilPacket q idx
  | .eng e => (d.copyRecord q x.ctx va idx e time).spoilPacket q idx

/-- The slot that a park describes. -/
def parkSlot (w : List Word) (ctx : Nat) (bytes : List Byte) (packet : Option (Nat × Nat)) : HoldSlot :=
  let w0 := nth w 0 0
  { parked := false, packet := packet, ctx := ctx, bytes := bytes, rem := wfld (nth w 2 0) 8 8, free := nth w 7 0
    done := nth w 6 0, rel := w0.getLsbD 15, rscp := wfld w0 16 3, busy := none }

/-- Bytes of a packet's pieces from the i-th on. -/
def pieceBytes (m : Memory) (d : Dev) (q : Nat) (p : Packet) : Nat → List Chunk → List Byte → Except CopyStop (List Byte)
  | _, [], _ => .ok []
  | i, c :: t, far =>
    let one := (p.parts i c).foldl (fun (acc : Except CopyStop (List Byte × List Byte)) (key, k) =>
      acc.bind fun (bs, far) => (copyBytes m d q p key k far).map fun (b, far) => (bs ++ b, far)) (.ok ([], far))
    one.bind fun (bs, far) => (pieceBytes m d q p (i + 1) t far).map fun r => bs ++ r

/-- The pieces of a packet, in order; those of a park at its source. -/
def Packet.pieces (p : Packet) (m : Memory) (d : Dev) (q : Nat) : Except EngFault (List Chunk) :=
  match pktOp p.words with
  | 2 => .ok (rowChunks (nth p.words 1 0) (nth p.words 1 0) (pktLen p.words))
  | 3 => tileChunks m d (copyEngine q) (d.cpyq q).ctx p.words
  | _ => .ok (copyChunks p.words)

/-- An address range that a packet must not touch: non-canonical or in the aperture (R399). -/
def spanBad (a : Word) (len : Nat) : Bool := decide (apertureBase < a.toNat + len)

/-- A park packet: its bytes are read and it waits for its slot (R402). -/
def parkPacket (m : Memory) (d : Dev) (q : Nat) (p : Packet) (l : List Chunk) (time : Nat) : Dev :=
  let x := d.cpyq q
  let w := p.words
  match pieceBytes m d q p 0 l p.got with
  | .error e => d.stopPacket q p.idx e 0 time
  | .ok bs =>
    let g := ((d.partOfCtx x.ctx).map fun y => nth y.clusters (wfld (nth w 2 0) 16 5) 0).getD 0
    let r : ParkReq :=
      { slot := wfld (nth w 2 0) 0 4, src := copyEngine q, hold := parkSlot w x.ctx bs (some (q, p.idx)) }
    (d.updPacket q p.idx fun p => { p with parking := true }).updCluster g fun c => { c with parks := c.parks ++ [r] }

/-- A packet goes on: the pieces left are moved, and it ends when the last one has landed.  A scaled tile with a scale
at an address that no packet may touch is refused before anything is written (R399, R408). -/
def movePacket (m : Memory) (d : Dev) (q : Nat) (p : Packet) (time : Nat) : Dev :=
  let d := d.updPacket q p.idx fun _ => p
  match p.pieces m d q with
  | .error e => d.stopPacket q p.idx (.eng e) 0 time
  | .ok l =>
    if pktOp p.words = 2 then parkPacket m d q p l time
    else if pktOp p.words = 3 && l.any fun c => spanBad c.src c.len || spanBad c.dst c.len then
      d.stopPacket q p.idx (.eng (.noEngine 0)) 0 time
    else match moveChunks m q time (l.drop p.moved) d p p.got with
      | (d, p', _, none) =>
        if d.remote.any fun r => r.ofPacket q p.idx then d.updPacket q p.idx fun _ => { p' with sent := true }
        else endPacket m d q p 1 time
      | (d, p', far, some e) => (d.updPacket q p.idx fun _ => { p' with got := far }).stopPacket q p.idx e 0 time

/-- An answer of another package to the read at place i of the requests (R468): its bytes within the partition's share
(R22), or a refusal. -/
def answerRead (m : Memory) (d : Dev) (q : Nat) (p : Packet) (i : Nat) (r : RemoteOut) (bytes : List Byte)
    (refusal time : Nat) : Option Dev :=
  let e := { d with remote := d.remote.eraseIdx i }
  if r.pkg = Config.packageNumber || r.lost || r.port.isNone || r.overdue d time || refusal = 0x80 then none
  else if refusal ≠ 0 then some (e.stopPacket q p.idx (.refused r.pkg r.ident) refusal time)
  else if bytes.length < r.data.length then none
  else (e.admitBulk r.ctx r.pkg r.data.length).map fun e =>
    movePacket m e q { p with got := p.got ++ bytes.take r.data.length } time

/-- May a packet not go on now: it is suspended or parks, or waits as FENCE for an earlier one (R398)? -/
def Packet.waits (p : Packet) (x : CpyQ) : Bool :=
  p.susp || p.parking || ((nth p.words 0 0).getLsbD 19 && x.packets.any fun y => y.idx < p.idx)

/-- COPY_PACKET_COMPLETE (R399, R400): a packet in flight is performed, FENCE behind every earlier one; its completion
waits until its last store in another package has landed (R131, R135).  Bytes that it has asked of another package come
with the event. -/
def execCopyPacketComplete (q idx : Nat) (remote : List (BitVec 8)) (refusal : Nat) (s : State) :
    Host.Outcome State Fault Refusal :=
  happening (fun s =>
    let x := s.dev.cpyq q
    match x.packets.find? (·.idx = idx) with
    | none => none
    | some p =>
      let out := s.dev.remote.any fun r => r.ofPacket q idx
      if p.waits x || ((p.bad || p.sent) && out) then none
      else if p.bad then some (endPacket s.mem s.dev q p 3 s.time)
      else if p.sent then some (endPacket s.mem s.dev q p 1 s.time)
      else match s.dev.remote.findIdx? fun r => r.reads q idx with
        | none => some (movePacket s.mem s.dev q p s.time)
        | some i => (s.dev.remote[i]?).bind fun r => answerRead s.mem s.dev q p i r remote refusal s.time) s

/-- One part of a packet's pieces is read, or written, ahead of the others: a packet's reads are not ordered among
themselves, and neither are its writes (R399) (DEDUCED, log entry 101). -/
def copyPart (m : Memory) (d : Dev) (q idx key : Nat) (write : Bool) (time : Nat) : Option Dev :=
  let x := d.cpyq q
  match x.packets.find? (·.idx = idx) with
  | none => none
  | some p =>
    if p.waits x || p.bad || p.sent then none
    else match p.pieces m d q with
      | .error _ => none
      | .ok l =>
        match ((l[key / 8]?).map fun c => p.allParts (key / 8) c).bind fun ps => ps.find? fun (k, _) => k = key with
        | none => none
        | some (_, c) =>
          let away (a : Word) (acc : Access) : Bool := match engineAddress m d (copyEngine q) x.ctx a acc with
            | .ok t => t.remote.isSome || (acc = .write && c.len < 64 && d.poisoned t.pa)
            | .error _ => true
          if key / 8 < p.moved || spanBad c.src c.len || spanBad c.dst c.len then none
          else match tget p.ahead key, write with
            | none, false =>
              (match chunkBytes m d (copyEngine q) x.ctx p c [] with
               | .ok (bs, _) => some (d.updPacket q idx fun p => { p with ahead := tset p.ahead key (some bs) })
               | .error _ => none)
            | some (some bs), true =>
              if pktOp p.words = 2 || away c.dst .write then none
              else (match copyWrite m d q p c.dst bs time with
                | .ok d => some (d.updPacket q idx fun p => { p with ahead := tset p.ahead key none })
                | .error _ => none)
            | _, _ => none

/-! ## CPYQ (R401) -/

/-- CPYQ (R401): the packet goes to the engine; its index is the interlocked result. -/
def execCpyq (h : Hdr) (o : YG) (s : State) : Host.Outcome State Fault Refusal :=
  ctlSyllable h
    (fun s b c =>
      let n := b.core
      let qw := c.s o.x.toNat
      let e := wfld qw 4 4
      let tag := (s.dev.core n).nextTag
      let r : CpyReq :=
        { ctx := (s.dev.ctxOfCore n).getD noContext, core := n, tag := tag, q := qw
          words := wordsOf 8 (toBytes 64 (c.v o.z.toNat).toNat), idx := none, susp := false }
      let d := s.dev.releaseFor n o.ord o.scp
      let d := sendLate d b (.s (physSV c.lp o.y.toNat) 0) false tag
      let d := d.updCore n fun c => { c with nextTag := tag + 1 }
      .ok { d with cpyReqs := tset d.cpyReqs e (tgetD d.cpyReqs e [] ++ [r]) })
    (fun b => b.ordered o.ord) s

/-- Answer a core's command under its tag. -/
def Dev.answerS (d : Dev) (n tag : Nat) (v : Word) : Dev := d.updCore n fun c => c.answerS tag v

/-- Is a request the one of a core under a result tag? -/
def CpyReq.isFrom (r : CpyReq) (core tag : Nat) : Bool := r.core = core && r.tag = tag

/-- Change the requests at an engine. -/
def Dev.updReqs (d : Dev) (e : Nat) (f : List CpyReq → List CpyReq) : Dev :=
  { d with cpyReqs := tset d.cpyReqs e (f (tgetD d.cpyReqs e [])) }

/-- A request leaves its engine with its answer (R401). -/
def Dev.answerReq (d : Dev) (e : Nat) (r : CpyReq) (v : Word) : Dev :=
  (d.updReqs e fun l => l.filter fun x => !x.isFrom r.core r.tag).answerS r.core r.tag v

/-- The slot write of an enqueue that has claimed index w, and its answer; a translation fault suspends it (R121). -/
def writeSlot (m : Memory) (d : Dev) (e : Nat) (r : CpyReq) (w time : Nat) : Dev :=
  let q := wfld r.q 0 8
  let x := d.cpyq q
  let src := copyEngine q
  let word0 := toW ((nth r.words 0 0).toNat % 2 ^ 48 + x.lap w * 2 ^ 48)
  let va := x.slotVa w
  match engineStore m d src x.ctx va (bytesOfWords (word0 :: r.words.drop 1)) none time with
  | .ok d => d.answerReq e r (toW w)
  | .error (.trans a acc f) =>
    let d := d.reportTrans src x.ctx va a acc f time
    if f.replayable then
      { d.updReqs e fun l => l.map fun x => (if x.isFrom r.core r.tag then { x with idx := some w, susp := true } else x)
        with susp := d.susp ++ [Cmd.enqueue e r.core r.tag] }
    else d.answerReq e r (toW w)
  | .error x => (d.copyRecord q r.ctx va w x time).answerReq e r (toW w)

/-- The request of an enqueue to a counter of another package, unless one is under way (R401). -/
def askEnqueue (d : Dev) (e : Nat) (r : CpyReq) (id : Word) (what : Nat) (v : Word) (time : Nat) : Option Dev :=
  let x := d.cpyq (wfld r.q 0 8)
  match resolveCounter d x.ctx id with
  | .ok (.remote pkg) =>
    if d.remote.any fun y => y.isAsk (320 + e) what r.core r.tag then none
    else some (d.send (cpyAsk (320 + e) x.ctx pkg id what r.core r.tag v time))
  | _ => none

/-- The index of an enqueue is claimed, or claimed at another package (R401).  An add that WI cannot take leaves it
unchanged and is reported, and the enqueue goes on with the value that WI holds (R262) (DESIGN CHOICE, log entry 114). -/
def claimIndex (m : Memory) (d : Dev) (e : Nat) (r : CpyReq) (wi : Nat) (time : Nat) : Option Dev :=
  let x := d.cpyq (wfld r.q 0 8)
  match resolveCounter d x.ctx x.wi with
  | .ok (.here k i) =>
    let (d, _, fine) := counterOp m (d.readCounter m x.ctx x.rd) x.ctx k i (.add 1)
    let d := if fine then d else d.engineReport (320 + e) x.ctx 0x40 .fault 0 x.wi 1 time
    some (writeSlot m d e r wi time)
  | _ => askEnqueue d e r x.wi 3 1 time

/-- CPYQ_ENQUEUE (R401): the engine deals with the oldest request that has arrived and is not suspended. -/
def execCpyqEnqueue (engine : Nat) (s : State) : Host.Outcome State Fault Refusal :=
  happening (fun s =>
    let m := s.mem
    let d := s.dev
    match (tgetD d.cpyReqs engine []).find? fun r => !r.susp with
    | none => none
    | some r =>
      let q := wfld r.q 0 8
      let x := d.cpyq q
      match r.idx with
      | some w => some (writeSlot m d engine r w s.time)
      | none =>
        if wfld r.q 8 56 ≠ 0 || !x.en || x.ctx ≠ r.ctx then
          some ((d.packetBad q r.ctx 0 0 5 s.time).answerReq engine r (BitVec.allOnes 64))
        else
          let known (id : Word) (far : Option Word) : Option Nat :=
            (localCounter m d x.ctx id).orElse fun _ => far.map (·.toNat)
          match known x.wi r.wi, known x.rd r.rd with
          | none, _ => askEnqueue d engine r x.wi 1 0 s.time
          | _, none => askEnqueue d engine r x.rd 2 0 s.time
          | some wi, some rd =>
            if wi < rd + x.nslot then claimIndex m d engine r wi s.time
            else if r.rd.isNone then none
            else some (d.updReqs engine fun l => l.map fun y => if y.isFrom r.core r.tag then { y with rd := none } else y)) s

/-- Another package answers what a copy engine asked of a counter (R396, R401, R468).  A refused enqueue is reported and
answered; with what word is not stated (DESIGN CHOICE, log entry 114: the free one). -/
def Dev.copyAnswer (d : Dev) (q : RemoteOut) (ok : Bool) (v free : Word) : Dev :=
  let e := q.src - 320
  let mine (r : CpyReq) : Bool := r.isFrom q.pa q.tag
  let set (f : CpyReq → CpyReq) : Dev := d.updReqs e fun l => l.map fun r => if mine r then f r else r
  match q.data.length, ok with
  | 0, true => d.setCpyq q.pa { d.cpyq q.pa with known := v.toNat }
  | 0, false => d
  | 1, true => set fun r => { r with wi := some v }
  | 2, true => set fun r => { r with rd := some v }
  | _, true => set fun r => { r with idx := some v.toNat }
  | _, false => match (tgetD d.cpyReqs e []).find? mine with
    | some r => d.answerReq e r free
    | none => d

/-! ## The holding buffer (R402-R406) -/

/-- The oldest park that waits for a slot. -/
def Cluster.nextPark (c : Cluster) (slot : Nat) : Option ParkReq := c.parks.find? (·.slot = slot)

/-- Cycles of moving a tile of len bytes through a holding slot. -/
def holdCycles (len : Nat) : Nat := 4 + (len + 255) / 256

/-- PARK_CLAIM (R402, R403): the oldest waiting park claims its free slot; a core that waits for it goes on after
the tile's cycles. -/
def execParkClaim (cluster slot : Nat) (s : State) : Host.Outcome State Fault Refusal :=
  happening (fun s =>
    let x := s.dev.cluster cluster
    match x.nextPark slot, tget x.slots slot with
    | some r, none =>
      let d := s.dev.setCluster cluster { x with slots := tset x.slots slot r.hold, parks := x.parks.erase r }
      some (if 256 ≤ r.src || !(d.core r.src).waits.contains (.room slot) then d
        else d.updCore r.src fun c => { c with
          waits := c.waits.erase (.room slot)
          busyUntil := c.ready + holdCycles r.hold.bytes.length })
    | _, _ => none) s

/-- PARK_COMPLETE (R402, R405): every byte is in the slot; it is parked and DONE is added. -/
def execParkComplete (cluster slot : Nat) (s : State) : Host.Outcome State Fault Refusal :=
  happening (fun s =>
    let x := s.dev.cluster cluster
    match tget x.slots slot with
    | none => none
    | some t =>
      if t.parked then none
      else
        let d := s.dev.setCluster cluster { x with slots := tset x.slots slot { t with parked := true } }
        match t.packet with
        | some (q, idx) =>
          ((d.cpyq q).packets.find? (·.idx = idx)).map fun p => endPacket s.mem d q p 1 s.time
        | none =>
          let src := 288 + cluster
          let d := if t.rel then d.release src t.rscp else d
          some (engineAdd s.mem d src t.ctx t.done 1 s.time)) s

/-- HOLDING_STATE (R408). -/
def holdingFault (w : Word) (slot cl reason : Nat) : Event := mkFault 0x91 w (toW (slot * 4096 + cl * 256 + reason))

/-- A CPYMC packet that is no park (R403): the ignored fields are cleared first. -/
def badPark (w : List Word) : Bool :=
  let w := ((nth w 0 0) &&& ~~~(0xFFFF000000080800 : Word)) :: w.drop 1
  pktOp w ≠ 2 || pktReserved w || pktLimits w

/-- CPYMC (R403, R406). -/
def execCpymc (h : Hdr) (o : YG) (s : State) : Host.Outcome State Fault Refusal :=
  let syl := sylWord (.cpymc h o)
  syllable h (fun s b c =>
    let n := b.core
    let a := c.s o.x.toNat
    let ctx := (s.dev.ctxOfCore n).getD noContext
    let g := clusterOf n
    if isGeneral n then .raise (holdingFault syl 0 0 6)
    else match firstOf [rangeFault s.dev n a 64 64 .read, rangeBad s.dev n a 64] with
      | some e => .raise e
      | none =>
        let w := spmWords s.mem s.dev n a
        let from' := nth w 1 0
        let len := pktLen w
        let slot := wfld (nth w 2 0) 0 4
        let range (id : Word) : Option Event :=
          match resolveCounter s.dev ctx id with
          | .error r => some (mkFault 0x42 id (toW r))
          | .ok _ => none
        match firstOf [rangeFault s.dev n from' len 64 .read, if len = 0 then none else rangeBad s.dev n from' len,
            range (nth w 6 0), range (nth w 7 0),
            if badPark w then some (holdingFault syl slot (g % 4) 4) else none] with
        | some e => .raise e
        | none =>
          let t := parkSlot w ctx (spmRead s.mem s.dev n from' len) none
          let x := s.dev.cluster g
          if c.rowBusyAt b.cycle (spmOf n from') len then .stall 9
          else if (tget x.slots slot).isNone && (x.nextPark slot).isNone then
            .ok ((s.dev.setCluster g { x with slots := tset x.slots slot t }).updCore n fun c =>
              { c with busyUntil := b.cycle + holdCycles len })
          else
            .ok ((s.dev.setCluster g { x with parks := x.parks ++ [{ slot := slot, src := n, hold := t }] }).updCore n
              fun c => { c with waits := c.waits ++ [Wait.room slot] })) s

/-- Does a core's drain that ends at a cycle of that core still go on (R404)?  The core issues its next bundle at that
cycle. -/
def Dev.drains (d : Dev) (n cycle : Nat) : Bool :=
  let c := d.core n
  c.run = .running && c.ready < cycle && c.busyUntil = cycle

/-- HBDRAIN (R404, R406) (DEDUCED, log entry 56). -/
def execHbdrain (h : Hdr) (o : YG) (s : State) : Host.Outcome State Fault Refusal :=
  let syl := sylWord (.hbdrain h o)
  syllable h (fun s b c =>
    let n := b.core
    let a := c.s o.x.toNat
    let y := c.s o.y.toNat
    let slot := wfld y 0 4
    let cl := wfld y 8 2
    let g := 4 * dieOf n + cl
    let ctx := (s.dev.ctxOfCore n).getD noContext
    if isGeneral n then .raise (holdingFault syl slot cl 6)
    else
      let t := tget (s.dev.cluster g).slots slot
      let mine := match t with | some t => t.ctx = ctx | none => false
      let len := if mine then (t.map (·.bytes.length)).getD 0 else 0
      match rangeFault s.dev n a len 64 .write with
      | some e => .raise e
      | none =>
        if wfld y 4 4 ≠ 0 || wfld y 10 54 ≠ 0 then .raise (holdingFault syl slot cl 1)
        else match t with
          | none => .raise (holdingFault syl slot cl 2)
          | some t =>
            if !t.parked then .stall 11
            else if !mine then .raise (holdingFault syl slot cl 3)
            else if (match t.busy with | some (k, x) => k ≠ n && s.dev.drains k x | none => false) then .stall 11
            else
              let until' := b.cycle + holdCycles len
              let d := (spmWrite s.dev n a t.bytes).updCore n fun c => { c with busyUntil := until' }
              if 1 < t.rem then
                .ok (d.updCluster g fun x =>
                  { x with slots := tset x.slots slot { t with rem := t.rem - 1, busy := some (n, until') } })
              else
                let src := 288 + g
                let d := (d.updCluster g fun x => { x with slots := tdel x.slots slot }).release src t.rscp
                .ok (engineAdd s.mem d src t.ctx t.free 1 s.time)) s

end Sys2Proof.Machine
end

