-- ==== Sys2Proof/Machine/Matrix.lean ====
section
/-!
DEFINITION. The matrix engine (R343-R373): configuration, beats with their pushes, shifts and drains, slots and names,
and rows moved between slots and scratchpad.
-/

namespace Sys2Proof.Machine

/-! ## Configuration (R346) -/

/-- The quantities of R346. -/
structure MatCfg where
  n : Nat
  wf : Fmt
  af : Fmt
  k : Nat
  /-- block sizes of scaled operands, 0 for an unscaled one, and their scale formats -/
  ba : Nat
  bw : Nat
  sa : Nat
  sw : Nat
  deriving DecidableEq, Repr

/-- Block size of a descriptor, 0 where it is not scaled. -/
def blockSize (w : Word) : Nat := if descScl w = 0 then 0 else descBlock w

def matCfg (wd ad : Word) (nq : Nat) : Option MatCfg :=
  match descFmt wd, descFmt ad with
  | some wf, some af =>
    let c := max wf.c af.c
    some { n := 16 * nq, wf := wf, af := af, k := if c = 16 then 128 else if c = 8 then 256 else 512
           ba := blockSize ad, bw := blockSize wd, sa := wfld ad 30 2, sw := wfld wd 30 2 }
  | _, _ => none

/-- Configuration in force, from the context's descriptors. -/
def Dev.matCfg (d : Dev) (n : Nat) (t : MatState) : Option MatCfg :=
  if t.configured then Machine.matCfg (formatReg d n t.wf) (formatReg d n t.af) t.nq else none

/-- k-values of a plane row. -/
def MatCfg.g (q : MatCfg) : Nat := q.k / 128
/-- Element bytes of an activation row, and with its scales (R351). -/
def MatCfg.ab (q : MatCfg) : Nat := q.k * q.af.c / 8
def MatCfg.aLen (q : MatCfg) : Nat := q.ab + (if q.ba = 0 then 0 else q.k / q.ba)
/-- Element bytes of a weight shift, and with its scales at shift position p (R351). -/
def MatCfg.wb (q : MatCfg) : Nat := q.g * q.n * q.wf.c / 8
def MatCfg.scalesAt (q : MatCfg) (p : Nat) : Bool := q.bw ≠ 0 && q.g * p % q.bw = 0
def MatCfg.wLen (q : MatCfg) (p : Nat) : Nat := q.wb + (if q.scalesAt p then q.n else 0)

/-- Is a descriptor one that the array takes (R99)? -/
def pairKind (w : Word) : Bool := ([0, 2, 3, 4, 5] : List Nat).contains (descKind w)

/-- Is it one that INT32 accumulation takes (R99)?  SCL = none binds KIND INT8 as it binds narrow (DESIGN CHOICE, log
entry 97). -/
def pairInt (w : Word) : Bool :=
  descKind w = 4 && wfld w 30 2 = 0 || descKind w = 5 ||
    (descKind w = 0 && wfld w 16 4 = 0 && wfld w 40 8 = 0 && wfld w 30 2 = 0)

/-- The reason of FORMAT_PAIR, 0 for a pair that R99 allows. -/
def pairReason (wd ad : Word) (ak : BitVec 2) : Nat :=
  if !(pairKind wd && pairKind ad) then 1
  else if ak ≠ 0 && !(pairInt wd && pairInt ad) then 2 else 0

/-- Set a core's matrix engine. -/
def Dev.setMat (d : Dev) (n : Nat) (t : MatState) : Dev := d.updCore n fun c => { c with mat := t }

/-- MCFG (R346). -/
def execMcfg (h : Hdr) (o : MC) (s : State) : Host.Outcome State Fault Refusal :=
  let w := sylWord (.mcfg h o)
  syllable h (fun s b _ =>
    let wd := formatReg s.dev b.core o.wf.toNat
    let ad := formatReg s.dev b.core o.af.toNat
    let r := pairReason wd ad o.ak
    if r ≠ 0 then
      .raise (mkFault 0x72 w (toW (descKind wd * 256 + descKind ad * 16 + o.ak.toNat * 4 + r)))
    else .ok (s.dev.setMat b.core { (s.dev.core b.core).mat with
      configured := true, nq := o.nq.toNat, wf := o.wf.toNat, af := o.af.toNat, ak := o.ak })) s

/-! ## Slots and names (R356-R359) -/

/-- A newly bound slot (R356). -/
def AccSlot.fresh : AccSlot := { cells := [], poison := [], bad := [], sat := false, bands := [] }

/-- Slot of a name. -/
def MatState.slotOf (t : MatState) (a : Nat) : Option AccSlot :=
  (tget t.names a).map fun k => (tget t.slots k).getD AccSlot.fresh

/-- Lowest slot that no name is bound to. -/
def MatState.freeSlot (t : MatState) : Nat :=
  ((List.range 32).find? fun k => t.names.all fun (_, x) => x ≠ k).getD 0

/-- Bind a name that is unbound to a free slot (R356). -/
def MatState.bind (t : MatState) (a : Nat) : MatState :=
  match tget t.names a with
  | some _ => t
  | none => { t with names := tset t.names a t.freeSlot, slots := tset t.slots t.freeSlot AccSlot.fresh }

/-- Change the slot of a bound name. -/
def MatState.updSlot (t : MatState) (a : Nat) (f : AccSlot → AccSlot) : MatState :=
  match tget t.names a with
  | some k => { t with slots := tset t.slots k (f ((tget t.slots k).getD AccSlot.fresh)) }
  | none => t

/-- Unbind a name: its slot is free, with SAT and groups cleared (R357). -/
def MatState.unbind (t : MatState) (a : Nat) : MatState :=
  match tget t.names a with
  | some k => { t with names := tdel t.names a, slots := tdel t.slots k }
  | none => t

/-- Is a push to a name still in flight, to one row of it or to any (R355)? -/
def MatState.waits (t : MatState) (a : Nat) (row : Option Nat) : Bool :=
  match tget t.names a with
  | none => false
  | some k => t.pushes.any fun p => p.slot = k && (match row with | some r => p.row = r | none => true)

/-- The first of rows r, r + 1, … of a slot outside every declared band (R359). -/
def AccSlot.outside (q : AccSlot) (r n : Nat) : Option Nat :=
  if q.bands.isEmpty then none
  else ((List.range n).map (r + ·)).find? fun x => q.bands.all fun (_, v) => x < v.lo || v.hi < x

/-- DRAIN_BAND, reason 1 (R359, R365); an unbound name is not checked (R358). -/
def MatState.bandFault (t : MatState) (w : Word) (a r n : Nat) : Option Event :=
  (t.slotOf a).bind fun q => (q.outside r n).map fun x => mkFault 0x71 w (toW (a * 65536 + x * 256 + 1))

/-- ACREL (R357). -/
def execAcrel (h : Hdr) (o : MA) (s : State) : Host.Outcome State Fault Refusal :=
  syllable h (fun s b c =>
    if c.mat.waits o.acc.toNat none then .stall 10
    else .ok (s.dev.setMat b.core ((s.dev.core b.core).mat.unbind o.acc.toNat))) s

/-- ACRELA (R357). -/
def execAcrela (h : Hdr) (s : State) : Host.Outcome State Fault Refusal :=
  syllable h (fun s b c =>
    if !c.mat.pushes.isEmpty then .stall 10
    else .ok (s.dev.setMat b.core { (s.dev.core b.core).mat with names := [], slots := [] })) s

/-- ACGRP (R359). -/
def execAcgrp (h : Hdr) (o : MG) (s : State) : Host.Outcome State Fault Refusal :=
  let w := sylWord (.acgrp h o)
  syllable h (fun s b c =>
    let a := o.acc.toNat
    let lo := o.lo.toNat
    let hi := o.hi.toNat
    let bands := ((c.mat.slotOf a).map (·.bands)).getD []
    if bands.any fun (k, v) => k ≠ o.grp.toNat && lo ≤ v.hi && v.lo ≤ hi then
      .raise (mkFault 0x71 w (toW (a * 65536 + lo * 256 + 2)))
    else
      .ok (s.dev.setMat b.core ((c.mat.bind a).updSlot a fun q =>
        { q with bands := tset q.bands o.grp.toNat { lo := lo, hi := hi } }))) s

/-! ## Operand rows (R351-R353) -/

/-- Field i of c bits of a byte list. -/
def field (bs : List Byte) (c i : Nat) : Nat := fld (ofBytes ((bs.drop (c * i / 8)).take ((c + 7) / 8))) (c * i % 8) c

/-- Exactly 1. -/
def oneVal : FVal := .fin false 1 0

/-- Plane row of a plane; an unlisted one holds zero bytes and no scales. -/
def planeRow (t : Tab PlaneRow) (p : Nat) : PlaneRow := (tget t p).getD { bytes := [], scales := [] }

def MatState.active (t : MatState) : Tab PlaneRow := if t.active1 then t.plane1 else t.plane0
def MatState.shadow (t : MatState) : Tab PlaneRow := if t.active1 then t.plane0 else t.plane1
def MatState.setShadow (t : MatState) (x : Tab PlaneRow) : MatState :=
  if t.active1 then { t with plane0 := x } else { t with plane1 := x }

/-- W(k, j) of the active plane. -/
def MatCfg.weight (q : MatCfg) (plane : Tab PlaneRow) (k j : Nat) : FVal :=
  q.wf.decode (field (planeRow plane (k / q.g)).bytes q.wf.c (k % q.g * q.n + j))

/-- Scale of the weight block that holds row k of column j: 1 where it is absent (R351). -/
def MatCfg.weightScale (q : MatCfg) (plane : Tab PlaneRow) (k j : Nat) : FVal :=
  if q.bw = 0 then oneVal
  else match nth (planeRow plane (k / q.bw * q.bw / q.g)).scales j none with
    | some x => scaleOf q.sw x.toNat
    | none => oneVal

/-- A(i, k) of an activation row. -/
def MatCfg.activation (q : MatCfg) (row : List Byte) (k : Nat) : FVal := q.af.decode (field row q.af.c k)

/-- Scale of the activation block that holds k. -/
def MatCfg.activationScale (q : MatCfg) (row : List Byte) (k : Nat) : FVal :=
  if q.ba = 0 then oneVal else scaleOf q.sa (nth row (q.ab + k / q.ba) 0).toNat

/-- Size of the blocks summed (R100). -/
def MatCfg.block (q : MatCfg) : Nat :=
  if q.ba = 0 && q.bw = 0 then q.k else if q.ba = 0 then q.bw else if q.bw = 0 then q.ba else min q.ba q.bw

/-- S of R100 for column j, with the special values of R101. -/
def MatCfg.beatSum (q : MatCfg) (plane : Tab PlaneRow) (row : List Byte) (j : Nat) : FVal :=
  .sum ((List.range (q.k / q.block)).map fun x =>
    let k := x * q.block
    let p := FVal.sum ((List.range q.block).map fun i => (q.activation row (k + i)).mul (q.weight plane (k + i) j))
    (p.mul (q.activationScale row k)).mul (q.weightScale plane k j))

/-- What a push carries: FP32 encodings t, or the exact integers S (R100, R102). -/
def MatCfg.pushValues (q : MatCfg) (plane : Tab PlaneRow) (row : List Byte) (ak : BitVec 2) : List Int :=
  (List.range q.n).map fun j =>
    let v := q.beatSum plane row j
    if ak = 0 then (fmtFp32.encode rne v : Nat) else v.scaled 0

/-- The window slots that a range of offsets touches. -/
def Ctx.slotsIn (x : Ctx) (off len : Nat) : List (Nat × Nat × Nat) :=
  ((pieces 4096 (len / 4096 + 2) off len).filterMap fun (o, _) => (x.slotAt o).map fun (set, way) => (o, set, way))

/-- The first fault of a beat's read range (R352). -/
def beatFault (d : Dev) (c : Core) (n : Nat) (a : Word) (len : Nat) : Option Event :=
  if wfld a 57 7 ≠ 0 || straddles a len then some (noncanonical a 0 .read)
  else if !inAperture a.toNat then some (quotaFault a 1)
  else if a.toNat % 8 ≠ 0 then some (mkFault 0x36 a 0)
  else
    let off := a.toNat - apertureBase
    let at' (o : Nat) : Word := toW (apertureBase + o)
    match (d.ctxOfCore n).bind d.ctx with
    | none => some (quotaFault a 1)
    | some x =>
      let lo := x.qbase * 65536
      let hi := (x.qbase + x.qsize) * 65536
      if off < lo then some (quotaFault a (if spmSize ≤ off then 2 else 1))
      else if hi < off + len then some (quotaFault (at' (max off hi)) (if spmSize ≤ max off hi then 2 else 1))
      else
        let tags := (d.cluster (clusterOf n)).tags
        ((x.slotsIn off len).find? fun (_, set, way) =>
          !(c.holdsSlot set way) || (tget tags (tagKey set way)).isNone).map fun (o, _, _) => handleFault (at' o) 0 2

/-- Does the range lie in a slot that is still filling, for which the core holds a handle (R352)? -/
def beatFilling (d : Dev) (c : Core) (n : Nat) (a : Word) (len : Nat) : Bool :=
  match (d.ctxOfCore n).bind d.ctx with
  | none => false
  | some x =>
    let tags := (d.cluster (clusterOf n)).tags
    (x.slotsIn (a.toNat - apertureBase) len).any fun (_, set, way) =>
      c.holdsSlot set way && (match tget tags (tagKey set way) with | some e => !e.filled | none => false)

/-- SPM_UNCORRECTABLE on a byte that a beat reads: a bad granule, or a slot whose fill failed (R237, R363). -/
def beatBad (d : Dev) (n : Nat) (a : Word) (len : Nat) : Option Event :=
  (rangeBad d n a len).orElse fun _ =>
    ((d.ctxOfCore n).bind d.ctx).bind fun x =>
      ((x.slotsIn (a.toNat - apertureBase) len).find? fun (_, set, way) =>
        match tget (d.cluster (clusterOf n)).tags (tagKey set way) with | some e => e.poisoned | none => false).map
          fun (o, _, _) => mkFault 0x39 (toW (apertureBase + o / 8 * 8)) 0

/-- Bank groups that a range touches (R223). -/
def bankGroups (a : Word) (len : Nat) : List Nat :=
  let off := a.toNat - apertureBase
  (List.range 4).filter fun g => off < (g + 1) * 0xC00000 && g * 0xC00000 < off + len

/-! ## Drains (R354, R358, R363, R364) -/

/-- Raw entries of row r of a name; an unbound name reads +0. -/
def MatState.rowEntries (t : MatState) (a r : Nat) : List Nat :=
  match t.slotOf a with
  | some q => (List.range 128).map fun j => (q.entry r j).toNat
  | none => List.replicate 128 0

/-- ACC_UNCORRECTABLE for the first bad entry among rows r to r + n - 1 and w columns (R363, R365). -/
def MatState.entryFault (t : MatState) (syl : Word) (a r n w : Nat) : Option Event :=
  (t.slotOf a).bind fun q =>
    if q.poison.isEmpty && q.bad.isEmpty then none
    else ((List.range n).flatMap fun i => (List.range w).map fun j => (r + i, j)).findSome? fun (x, j) =>
      if q.poison.contains (128 * x + j) || q.bad.contains (128 * x + j) then
        some (mkFault 0x74 syl (toW (a * 65536 + x * 256 + j))) else none

/-- An entry's exact value by the accumulation kind. -/
def entryValue (ak : BitVec 2) (v : Nat) : FVal := (if ak = 0 then fmtFp32 else fmtInt 32).decode v

/-- Converted elements in containers, cut or filled with zero bytes to a length. -/
def containerBytes (f : Fmt) (vals : List Nat) (len : Nat) : List Byte := toBytes len (packNat f.c vals)

/-- A row-engine drain of a beat: destination, if the row is not discarded. -/
def RowState.drainTo (r : RowState) (idx : Nat) : Option Word :=
  if 4096 ≤ idx || r.trace idx = 0xFFFF then none else some (r.dbase + toW ((r.trace idx).toNat * r.rowBytes))

/-! ## The beat (R349) -/

/-- The checks of R363 on a beat, in order. -/
def beatChecks (s : State) (b : Bundle) (c : Core) (o : MB) (w : Word) (q : MatCfg) : List (Option Event) :=
  let d := s.dev
  let n := b.core
  let t := c.mat
  let pushA := c.s (4 + o.aw.toNat)
  let shiftA := c.s (6 + o.ww.toNat)
  let rd := (o.drb.toNat + c.beatRow o.m) % 128
  let push := o.aop ≠ 0
  let shift := o.wop ≠ 0
  let drain := o.dop ≠ 0
  let rowDrain := o.dop = 2
  let wLen := q.wLen t.wp
  [ if rowDrain && (descFmt (formatReg d n t.drainFmt)).isNone then some (mkFault 0x50 w (toW t.drainFmt)) else none,
    if drain then t.bandFault w o.ds.toNat rd 1 else none,
    if rowDrain && !c.row.tvalid then some (rowSequence w true) else none,
    if rowDrain then c.row.geometry w else none,
    if push then beatFault d c n pushA q.aLen else none,
    if shift then beatFault d c n shiftA wLen else none,
    if rowDrain then (c.row.drainTo (t.drainCidx + rd)).bind fun a => rangeFault d n a c.row.rowBytes 64 .write
      else none,
    if push && shift && (bankGroups pushA q.aLen).any fun g => (bankGroups shiftA wLen).contains g then
      some (mkFault 0x70 pushA shiftA) else none,
    if push then beatBad d n pushA q.aLen else none,
    if shift then beatBad d n shiftA wLen else none,
    if drain then t.entryFault w o.ds.toNat rd 1 128 else none ]

/-- The push part: its name is bound and its values formed with the active plane (R349, R350). -/
def pushPart (s : State) (b : Bundle) (c : Core) (o : MB) (q : MatCfg) (t : MatState) : MatState :=
  if o.aop = 0 then t
  else
    let row := spmRead s.mem s.dev b.core (c.s (4 + o.aw.toNat)) q.aLen
    let t := t.bind o.aslot.toNat
    let p : Push :=
      { slot := tgetD t.names o.aslot.toNat 0, row := (o.arb.toNat + c.beatRow o.m) % 128, acc := o.aop = 2, ak := t.ak
        vals := q.pushValues c.mat.active row t.ak, due := b.cycle + 136 }
    { t with pushes := t.pushes ++ [p] }

/-- The weight part (R349, R351): a shift writes one row of the shadow plane; scales that it does not supply stay
(DEDUCED, log entry 55). -/
def shiftPart (s : State) (b : Bundle) (c : Core) (o : MB) (q : MatCfg) (t : MatState) : MatState :=
  if o.wop = 0 then t
  else
    let bytes := spmRead s.mem s.dev b.core (c.s (6 + o.ww.toNat)) (q.wLen t.wp)
    let old := (planeRow t.shadow t.wp).scales
    let scales := if q.scalesAt t.wp then ((bytes.drop q.wb).map some) ++ old.drop q.n else old
    let t := t.setShadow (tset t.shadow t.wp { bytes := bytes.take q.wb, scales := scales })
    let t := { t with wp := (t.wp + 1) % 128 }
    if o.wop = 2 then { t with active1 := !t.active1, wp := 0 } else t

/-- The drain part (R354, R358): to a vector pair, or through the row engine.  A name that the beat's own push binds is
not unbound (R349). -/
def drainPart (b : Bundle) (c : Core) (o : MB) (q : MatCfg) (d : Dev) : Dev :=
  if o.dop = 0 then d
  else
    let n := b.core
    let rd := (o.drb.toNat + c.beatRow o.m) % 128
    let es := c.mat.rowEntries o.ds.toNat rd
    let unbound := (c.mat.slotOf o.ds.toNat).isNone && !(o.aop ≠ 0 && o.aslot = o.ds)
    let until' := if o.dop = 1 then b.cycle + 6 else b.cycle + 4 + (c.row.rowBytes + 255) / 256
    let d := d.updCore n fun x => { x with mat := { x.mat with
      unalloc := x.mat.unalloc || unbound
      drainUntil := max x.mat.drainUntil until' } }
    if o.dop = 1 then
      sendV d b c (32 + 2 * o.dv.toNat) (packGroup 32 es) 6
    else
      let dst := (c.row.drainTo (c.mat.drainCidx + rd)).map fun a => (spmOf n a, c.row.rowBytes)
      let d := d.updCore n fun x => { x with row := { x.row with
        busyUntil := max x.row.busyUntil until'
        touched := dst.toList } }
      match c.row.drainTo (c.mat.drainCidx + rd), descFmt (formatReg d n c.mat.drainFmt) with
      | some a, some f =>
        let r : Rounding := { rm := c.mat.drainRm, sat := c.mat.drainSat, u := 0 }
        let vals := (es.take q.n).map fun v => f.encode r (entryValue c.mat.ak v)
        spmWrite d n a (containerBytes f vals c.row.rowBytes)
      | _, _ => d

/-- BEAT (R347-R355, R363). -/
def execBeat (h : Hdr) (o : MB) (s : State) : Host.Outcome State Fault Refusal :=
  let w := sylWord (.beat h o)
  syllable h (fun s b c =>
    let t := c.mat
    let rd := (o.drb.toNat + c.beatRow o.m) % 128
    if o.aop = 0 && o.wop = 0 && o.dop = 0 then .ok s.dev
    else if o.dop ≠ 0 && t.waits o.ds.toNat (some rd) then .stall 10
    else if o.dop = 2 && b.cycle < c.row.busyUntil then .stall 9
    else match s.dev.matCfg b.core t with
      | none => .raise (mkFault 0x73 w 0)
      | some q =>
        let reads := (if o.aop ≠ 0 then [(c.s (4 + o.aw.toNat), q.aLen)] else []) ++
          (if o.wop ≠ 0 then [(c.s (6 + o.ww.toNat), q.wLen t.wp)] else [])
        if reads.any fun (a, len) => beatFilling s.dev c b.core a len then .stall 8
        else if reads.any fun (a, len) => c.rowBusyAt b.cycle (spmOf b.core a) len then .stall 9
        else match firstOf (beatChecks s b c o w q) with
        | some e => .raise e
        | none =>
            let d := drainPart b c o q s.dev
            .ok (d.setMat b.core (shiftPart s b c o q (pushPart s b c o q (d.core b.core).mat)))) s

/-! ## Rows between slots and scratchpad (R360) -/

/-- RS of R360. -/
def moveSize (q : MatCfg) (f : Fmt) : Nat := 64 * ((q.n * f.c + 511) / 512)

/-- Checks of ACMOV and ACLD in the order of R363. -/
def moveChecks (d : Dev) (n : Nat) (c : Core) (o : MV) (w : Word) (load : Bool) (q : MatCfg) (f : Fmt) :
    List (Option Event) :=
  let rows := o.cnt.toNat + 1
  let a := c.s o.a.toNat
  let len := rows * moveSize q f
  [ if load then none else c.mat.bandFault w o.acc.toNat o.row.toNat rows,
    rangeFault d n a len 64 (if load then .read else .write),
    if load then rangeBad d n a len else none,
    if load then none else c.mat.entryFault w o.acc.toNat o.row.toNat rows q.n ]

/-- The waits and checks of ACMOV and ACLD, then their effect f. -/
def moveForm (h : Hdr) (o : MV) (w : Word) (load : Bool) (f : State → Bundle → Core → MatCfg → Fmt → Dev)
    (s : State) : Host.Outcome State Fault Refusal :=
  syllable h (fun s b c =>
    if c.mat.waits o.acc.toNat none then .stall 10
    else match s.dev.matCfg b.core c.mat, descFmt (formatReg s.dev b.core o.fmt.toNat) with
      | none, _ => .raise (mkFault 0x73 w 0)
      | some _, none => .raise (mkFault 0x50 w (toW o.fmt.toNat))
      | some q, some fm =>
        if c.rowBusyAt b.cycle (spmOf b.core (c.s o.a.toNat)) ((o.cnt.toNat + 1) * moveSize q fm) then .stall 9
        else match firstOf (moveChecks s.dev b.core c o w load q fm) with
        | some e => .raise e
        | none =>
          let busy := 4 + ((o.cnt.toNat + 1) * moveSize q fm + 255) / 256
          .ok ((f s b c q fm).updCore b.core fun x =>
            { x with mat := { x.mat with busyUntil := b.cycle + busy } })) s

/-- ACMOV (R360). -/
def execAcmov (h : Hdr) (o : MV) (s : State) : Host.Outcome State Fault Refusal :=
  moveForm h o (sylWord (.acmov h o)) false (fun s b c q f =>
    let n := b.core
    let (d, x) := drawIn s.dev n o.rm
    let rs := moveSize q f
    let a := c.s o.a.toNat
    let unbound := (c.mat.slotOf o.acc.toNat).isNone
    let d := d.updCore n fun y => { y with mat := { y.mat with unalloc := y.mat.unalloc || unbound } }
    let bytes := (List.range (o.cnt.toNat + 1)).flatMap fun r =>
      let es := (c.mat.rowEntries o.acc.toNat (o.row.toNat + r)).take q.n
      let vals := ((List.range q.n).zip es).map fun (j, v) =>
        f.encode (roundingOf o.rm o.sat x (128 * r + j)) (entryValue c.mat.ak v)
      containerBytes f vals rs
    spmWrite d n a bytes) s

/-- ACLD (R360). -/
def execAcld (h : Hdr) (o : MV) (s : State) : Host.Outcome State Fault Refusal :=
  moveForm h o (sylWord (.acld h o)) true (fun s b c q f =>
    let n := b.core
    let (d, x) := drawIn s.dev n o.rm
    let rs := moveSize q f
    let a := c.s o.a.toNat
    let dst := if c.mat.ak = 0 then fmtFp32 else fmtInt 32
    let bytes := spmRead s.mem s.dev n a ((o.cnt.toNat + 1) * rs)
    let writes := (List.range (o.cnt.toNat + 1)).flatMap fun r =>
      let row := (bytes.drop (r * rs)).take rs
      (List.range q.n).map fun j =>
        (128 * (o.row.toNat + r) + j,
         BitVec.ofNat 32 (dst.encode (roundingOf o.rm o.sat x (128 * r + j)) (f.decode (field row f.c j))))
    let keys := writes.map (·.1)
    d.setMat n (((d.core n).mat.bind o.acc.toNat).updSlot o.acc.toNat fun t => { t with
      cells := writes.foldl (fun u (k, v) => tset u k v) t.cells
      poison := t.poison.filter fun k => !keys.contains k
      bad := t.bad.filter fun k => !keys.contains k })) s

/-! ## Weight planes and waiting (R361) -/

/-- WSWAP (R361). -/
def execWswap (h : Hdr) (s : State) : Host.Outcome State Fault Refusal :=
  syllable h (fun s b _ =>
    let t := (s.dev.core b.core).mat
    .ok (s.dev.setMat b.core { t with active1 := !t.active1, wp := 0 })) s

/-- WCLR (R361). -/
def execWclr (h : Hdr) (s : State) : Host.Outcome State Fault Refusal :=
  syllable h (fun s b _ =>
    let t := (s.dev.core b.core).mat
    .ok (s.dev.setMat b.core { (t.setShadow []) with wp := 0 })) s

/-- MWAIT (R361): no push in flight, and every drain of earlier bundles delivered. -/
def execMwait (h : Hdr) (s : State) : Host.Outcome State Fault Refusal :=
  syllable h (fun s b c =>
    if !c.mat.pushes.isEmpty || b.cycle < c.mat.drainUntil then .stall 10 else .ok s.dev) s

end Sys2Proof.Machine
end

