-- ==== Sys2Proof/Machine/Tasks.lean ====
section
/-!
DEFINITION. The task engine (15, and 02 on launch groups and tasks): creation, the cluster queue and its spill ring,
taking and stealing work, launch groups, cancels and the five task syllables.
-/

namespace Sys2Proof.Machine

/-- Source number of a cluster's task engine (R188). -/
def taskEngine (g : Nat) : Nat := 288 + g

/-- Lowest cluster of a context's partition. -/
def Dev.lowCluster (d : Dev) (ctx : Nat) : Nat := ((d.partOfCtx ctx).map fun p => p.clusters.headD 0).getD 0

/-! ## The record (R410, R411) -/

def recStage (w : List Word) : Nat := wfld (nth w 6 0) 36 12
def recTime (w : List Word) : Word := nth w 5 0
def recMig (w : List Word) : Bool := (nth w 7 0).getLsbD 7

/-- The stake of one task, as a delta (R270). -/
def recDelta (w : List Word) (n : Int) : Delta := { stage := recStage w, time := recTime w, n := n }

/-- A reserved field, or one that SRC leaves unused, is non-zero. -/
def recReserved (w : List Word) : Bool :=
  let w3 := nth w 3 0
  let src := wfld w3 62 2
  ([0, 1, 2] : List Nat).any (fun i => wfld (nth w i 0) 57 7 ≠ 0) || wfld w3 38 22 ≠ 0 ||
    (src ≠ 1 && wfld w3 60 2 ≠ 0) || (src ≠ 2 && wfld w3 32 6 ≠ 0) || (src ≠ 0 && wfld w3 0 32 ≠ 0) ||
    wfld (nth w 4 0) 48 16 ≠ 0 || wfld (nth w 6 0) 48 6 ≠ 0 || wfld (nth w 6 0) 27 9 ≠ 0 ||
    wfld (nth w 7 0) 8 24 ≠ 0 || wfld (nth w 7 0) 0 4 ≠ 0

/-- BAD_TASK_RECORD reason of a record, lowest first (R411, R430). -/
def recReason (m : Memory) (d : Dev) (ctx : Nat) (w : List Word) : Option Nat :=
  let w3 := nth w 3 0
  let badParent := match resolveCounter d ctx (parentOf w) with | .error _ => true | .ok _ => false
  if recReserved w then some 1
  else if wfld w3 62 2 = 3 || wfld w3 60 2 = 3 then some 2
  else if wfld (nth w 7 0) 32 32 = 0 then some 3
  else if ([0, 1, 2] : List Nat).any fun i => wfld (nth w i 0) 0 3 ≠ 0 then some 4
  else if 4 < cscpOf w then some 5
  else if badParent then some 6
  else if !stageOk m d ctx (recStage w) then some 7
  else none

/-- A task that has not started completes: the completion add, then its stake (R32, R40, R270), and its TASK record
(R487). -/
def Dev.endUnstarted (m : Memory) (d : Dev) (g : Nat) (e : QEntry) (outcome time : Nat) : Dev :=
  let src := taskEngine g
  let d := (completionAdd m d src e.ctx e.words outcome (g / 4) [recDelta e.words (-1)] time).noteEnded e.ctx e.id
  d.traceEngineTask m src e.ctx outcome e.id time

/-! ## The start of a task (R61, R271, R314, R344, R411, R418) -/

/-- The core's state before a prologue (R52, R61, R154, R165, R171, R174, R314, R344, R369). -/
def Core.startState (c : Core) (w : List Word) (id : Word) (ctx : Nat) (member : Bool) (watch : Tab Watch) : Core :=
  let w4 := nth w 4 0
  let own : Hold := { own := true, stage := recStage w, time := recTime w, count := 1 }
  { c with
    r := { Regs.reset with
      gen := c.r.gen
      tcx := w4.setWidth 16
      tcy := (w4 >>> 16).setWidth 16
      tcz := (w4 >>> 32).setWidth 16
      tm := recTime w
      st := BitVec.ofNat 12 (recStage w) }
    lp := LoopCtx.reset
    seq := { c.seq with sb := false, priv := false, region := .prologue, pass := 0 }
    run := .running
    pc := bundleAddr (nth w 0 0)
    bWrite := (List.range 8).map fun i => (i, c.issued)
    pend := []
    cwaits := []
    spill := { cells := [] }
    remFails := []
    remOps := []
    task := some { words := w, id := id, ctx := ctx, isMember := member, passes := 0, cancelled := false, leaving := false }
    spanStart := none
    heldSum := 0
    charged := c.ready
    waitEnd := c.ready
    gaps := []
    gapWhy := 3
    attached := member
    cons := 0
    ibuf := []
    fetchBase := c.ready
    fetchK := 0
    fetched := none
    atBnd := false
    exitDue := false
    exitStream := false
    joinWait := none
    fuseWait := none
    probing := false
    wanyNext := 0
    holds := [(0, own)]
    watch := watch
    row := RowState.reset
    mat := MatState.reset
    busyUntil := 0 }

/-- A core takes a record: it is refused, or its prologue begins (R411, R418).  A member refused leaves its group. -/
def Dev.startTask (m : Memory) (d : Dev) (n : Nat) (e : QEntry) (member : Bool) (time : Nat) : Dev :=
  let g := clusterOf n
  match recReason m d e.ctx e.words with
  | some r =>
    let d := d.engineReport (taskEngine g) e.ctx 0xA1 .fault 0 e.id (toW r) time
    let d := if r = 6 then enterDeltas (d.noteEnded e.ctx e.id) (taskEngine g) (dieOf n) e.ctx [recDelta e.words (-1)] time
      else d.endUnstarted m g e 3 time
    if member then d.leaveGroup n else d
  | none =>
    let x := d.ctx e.ctx
    let d := d.updCore n fun c => c.startState e.words e.id e.ctx member ((x.map (·.watch)).getD c.watch)
    let c := d.core n
    if (x.map (·.ten)).getD false then d.traceCore m n c c.pc 3 0 0 e.id time else d

/-! ## Identifiers (R413) -/

/-- Bytes of a spill entry (R416). -/
def spillEntry (e : QEntry) (cancel : Bool) : List Byte :=
  bytesOfWords e.words ++ toBytes 8 e.id.toNat ++ [if cancel then 1 else 0] ++ List.replicate 55 0

/-- Virtual address of spill entry w. -/
def SpillRing.entryVa (r : SpillRing) (w : Nat) : Word := r.base + toW (128 * (w % 2 ^ r.log2))

/-- The tasks in a spill ring, each with the index of its entry. -/
def SpillRing.held (r : SpillRing) : List (Nat × Word) :=
  ((List.range r.ids.length).map fun i => (r.srd + BitVec.ofNat 32 i).toNat).zip r.ids

/-- The ring once its oldest entry is placed or completed. -/
def SpillRing.refilled (r : SpillRing) : SpillRing := { r with srd := r.srd + 1, ids := r.ids.drop 1 }

/-- Entries of a cluster's spill ring for a context. -/
def Cluster.ringOf (x : Cluster) (ctx : Nat) : SpillRing := tgetD x.spill ctx SpillRing.reset

/-- Saved images, in shadow storage and in HBM (R36). -/
def Dev.saved (d : Dev) : List Saved := d.dies.filterMap (fun (_, x) => x.shadow) ++ d.images.map (·.2)

/-- Identifiers of the tasks that live (R413): running, queued, on deques, spilled, and saved in shadow storage. -/
def liveIds (d : Dev) : List Word :=
  let ofCore (c : Core) : List Word := (match c.task with | some t => [t.id] | none => []) ++ c.deque.map (·.id)
  d.cores.flatMap (fun (_, c) => ofCore c) ++
    d.clusters.flatMap (fun (_, x) => x.queue.map (·.id) ++ x.spill.flatMap fun (_, r) => r.ids) ++
    d.saved.flatMap fun v => v.cores.flatMap (fun (_, c) => ofCore c) ++ v.queues.flatMap fun (_, q) => q.map (·.id)

/-- The next serial after n: 2^32 - 1 is followed by 1. -/
def nextSerial (n : Nat) : Nat := if n = 2 ^ 32 - 1 then 1 else n + 1

/-- The first serial after n that no live task of the cluster holds; fuel is one more than the live tasks. -/
def freeSerial (g : Nat) (live : List Word) : Nat → Nat → Nat
  | 0, n => nextSerial n
  | k + 1, n =>
    let q := nextSerial n
    if live.contains (toW (g * 2 ^ 32 + q)) then freeSerial g live k q else q

/-- A fresh identifier of a cluster, and the units with its serial taken. -/
def newId (d : Dev) (g : Nat) : Word × Dev :=
  let live := liveIds d
  let q := freeSerial g live (live.length + 1) (d.cluster g).serial
  (toW (g * 2 ^ 32 + q), d.updCluster g fun x => { x with serial := q })

/-! ## The cluster queue and its spill ring (R416, R417) -/

/-- What an append to a cluster queue meets. -/
inductive Placed where
  | ok (d : Dev)
  | full (log2 : Nat)
  /-- spilling is suspended -/
  | wait
  | fault (x : EngFault)
  deriving Repr

/-- Change the saved images of a context. -/
def Dev.updSaved (d : Dev) (ctx : Nat) (f : Saved → Saved) : Dev :=
  let g (v : Saved) : Saved := if v.ctx = ctx then f v else v
  { d with
    dies := d.dies.map fun (k, (x : Die)) => (k, { x with shadow := x.shadow.map g })
    images := d.images.map fun (k, v) => (k, g v) }

/-- A cluster's queue of a context: in place, or in the saved image of a context that is not resident (R23, R36). -/
def Dev.queueOf (d : Dev) (g ctx : Nat) : Option (List QEntry) :=
  if d.residentOn (g / 4) = some ctx then some (d.cluster g).queue
  else d.saved.findSome? fun v => if v.ctx = ctx then tget v.queues g else none

/-- Change that queue. -/
def Dev.updQueue (d : Dev) (g ctx : Nat) (f : List QEntry → List QEntry) : Dev :=
  if d.residentOn (g / 4) = some ctx then d.updCluster g fun x => { x with queue := f x.queue }
  else d.updSaved ctx fun v => match tget v.queues g with
    | some q => { v with queues := tset v.queues g (f q) }
    | none => v

/-- Change a cluster's spill ring of a context, and its pointers in a saved image. -/
def Dev.updRing (d : Dev) (g ctx : Nat) (f : SpillRing → SpillRing) : Dev :=
  let r := f ((d.cluster g).ringOf ctx)
  (d.updCluster g fun x => { x with spill := tset x.spill ctx r }).updSaved ctx fun v =>
    if (tget v.spills g).isSome then { v with spills := tset v.spills g r } else v

/-- append of R417; that of a context that is not resident goes to its saved queue (R23, R438) (DEDUCED, log entry 116). -/
def appendQueue (m : Memory) (d : Dev) (g : Nat) (e : QEntry) (time : Nat) : Placed :=
  let x := d.cluster g
  let r := x.ringOf e.ctx
  match d.queueOf g e.ctx with
  | none => .wait
  | some q =>
    if r.swr = r.srd && q.length < 32 then .ok (d.updQueue g e.ctx fun q => q ++ [e])
    else if (r.swr - r.srd).toNat < 2 ^ r.log2 then
      if x.spillStop then .wait
      else match engineStore m d (taskEngine g) e.ctx (r.entryVa r.swr.toNat) (spillEntry e false) none time with
        | .ok d => .ok (d.updRing g e.ctx fun r => { r with swr := r.swr + 1, ids := r.ids ++ [e.id] })
        | .error f => .fault f
    else .full r.log2

/-- Spilling and refilling of a cluster suspend on a fault, which is reported (R121, R417). -/
def Dev.spillFault (d : Dev) (g ctx : Nat) (x : EngFault) (time : Nat) : Dev :=
  let src := taskEngine g
  let d := match x with
    | .trans va acc f => d.reportTrans src ctx 0 va acc f time
    | .bad pa => d.reportBad src ctx pa time
    | .away pkg va => d.engineReport src ctx 0xC1 .fault 0 va (toW (pkg * 2 ^ 32 + 3)) time
    | .noEngine va | .notHbm va => d.engineReport src ctx 0x30 .fault 0 va 0 time
    | .unset _ | .scales _ => d
  { d.updCluster g (fun x => { x with spillStop := true }) with susp := d.susp ++ [Cmd.spill g] }

/-- SPILL_REFILL (R417): the oldest spilled entry goes to the queue's tail, or completes as cancelled. -/
def execSpillRefill (cluster : Nat) (s : State) : Host.Outcome State Fault Refusal :=
  happening (fun s =>
    let d := s.dev
    let x := d.cluster cluster
    match d.residentOn (cluster / 4) with
    | none => none
    | some ctx =>
      let r := x.ringOf ctx
      if r.swr = r.srd || x.spillStop || 32 ≤ x.queue.length || d.owes (taskEngine cluster) (cluster / 4) ctx then none
      else match engineRead s.mem d (taskEngine cluster) ctx (r.entryVa r.srd.toNat) 128 with
        | .error f => some (d.spillFault cluster ctx f s.time)
        | .ok bs =>
          let ws := wordsOf 10 bs
          let e : QEntry := { words := ws.take 8, id := nth ws 8 0, ctx := ctx }
          let d := d.updRing cluster ctx SpillRing.refilled
          if (nth ws 9 0).getLsbD 0 then some (d.endUnstarted s.mem cluster e 2 s.time)
          else some (d.updCluster cluster fun x => { x with queue := x.queue ++ [e] })) s

/-! ## Faults of the task syllables (R428-R430) -/

/-- DEQUE_STATE (R430). -/
def dequeState (w : Word) (reason : Nat) : Event := mkFault 0xA3 w (toW reason)

/-- The 64 bytes at an address as loads of the core at issue (R414, R429): in the scratchpad for a tensor core, at a
device virtual address for a general core. -/
def taskBytes (s : State) (b : Bundle) (c : Core) (a : Word) (f : List Word → Out) : Out :=
  let n := b.core
  if isGeneral n then
    if a.toNat % 64 ≠ 0 then .raise (mkFault 0x36 a 0) else readImage s b c true a 64 fun bs => f (wordsOf 8 bs)
  else match firstOf [rangeFault s.dev n a 64 64 .read, rangeBad s.dev n a 64] with
    | some e => .raise e
    | none => f (spmWords s.mem s.dev n a)

/-- STAGE_RANGE, then COUNTER_RANGE, of a record (R429 item 4). -/
def recRange (m : Memory) (d : Dev) (ctx : Nat) (w : List Word) : Option Event :=
  if !stageOk m d ctx (recStage w) then some (mkFault 0x43 (toW (recStage w)) 2)
  else match resolveCounter d ctx (parentOf w) with
    | .error r => some (mkFault 0x42 (parentOf w) (toW r))
    | .ok _ => none

/-- A creation (R414): place gives the cluster at which the task is created and how it is placed
(DEDUCED, log entry 60). -/
def createTask (s : State) (b : Bundle) (c : Core) (o : YG) (g : Nat) (place : Dev → QEntry → Placed) : Out :=
  let n := b.core
  let a := c.s o.x.toNat
  let ctx := (s.dev.ctxOfCore n).getD noContext
  taskBytes s b c a fun w =>
    match recRange s.mem s.dev ctx w with
    | some e => .raise e
    | none =>
      let die := moraineDie s.dev n ctx
      let (id, d) := newId (s.dev.releaseFor n o.ord o.scp) g
      match place d { words := w, id := id, ctx := ctx } with
      | .ok d =>
        if !moraineRoom s.dev die ctx [recDelta w 1] then .stallIn (b.base.reportFull die ctx s.time) 7
        else
          let d := enterDeltas d n die ctx [recDelta w 1] s.time
          .ok (sendLate d b (.s (physSV c.lp o.y.toNat) id) true 0)
      | .full k => .raiseIn (b.base.releaseFor n o.ord o.scp) (mkFault 0xA2 a (toW (g * 2 ^ 32 + k)))
      | .wait => .stall 11
      | .fault x => .stallIn (b.base.spillFault g ctx x s.time) 11

/-- TQADD (R425). -/
def execTqadd (h : Hdr) (o : YG) (s : State) : Host.Outcome State Fault Refusal :=
  let w := sylWord (.tqadd h o)
  ctlSyllable h
    (fun s b c =>
      let n := b.core
      let ctx := (s.dev.ctxOfCore n).getD noContext
      let cl := ((s.dev.partOfCtx ctx).map (·.clusters)).getD []
      let target : Except Nat Nat :=
        if o.imm.getLsbD 5 then (match cl[o.imm.toNat % 32]? with | some g => .ok g | none => .error 3)
        else if isGeneral n then .error 2 else .ok (clusterOf n)
      match target with
      | .error r => .raise (dequeState w r)
      | .ok g => createTask s b c o g fun d e => appendQueue s.mem d g e s.time)
    (fun b => b.ordered o.ord) s

/-- TDQADD (R425): onto the own deque, or the cluster's queue where it is full. -/
def execTdqadd (h : Hdr) (o : YG) (s : State) : Host.Outcome State Fault Refusal :=
  let w := sylWord (.tdqadd h o)
  ctlSyllable h
    (fun s b c =>
      let n := b.core
      if isGeneral n then .raise (dequeState w 1)
      else
        let g := clusterOf n
        createTask s b c o g fun d e =>
          if (d.core n).deque.length < 8 then .ok (d.updCore n fun c => { c with deque := c.deque ++ [e] })
          else appendQueue s.mem d g e s.time)
    (fun b => b.ordered o.ord) s

/-- TDQTAKE (R426). -/
def execTdqtake (h : Hdr) (o : YG) (s : State) : Host.Outcome State Fault Refusal :=
  let w := sylWord (.tdqtake h o)
  syllable h (fun s b c =>
    let n := b.core
    let a := c.s o.x.toNat
    if isGeneral n then .raise (dequeState w 1)
    else match rangeFault s.dev n a 64 64 .write with
      | some e => .raise e
      | none =>
        let answer (d : Dev) (v : Word) : Out :=
          .ok (sendLate d b (.s (physSV c.lp o.y.toNat) v) true 0)
        match (s.dev.core n).deque.getLast? with
        | none => answer s.dev 0
        | some e =>
          if !moraineRoom s.dev (dieOf n) e.ctx [recDelta e.words (-1)] then .stallIn (b.base.reportFull (dieOf n) e.ctx s.time) 7
          else
            let d := s.dev.updCore n fun c => { c with deque := c.deque.dropLast }
            let d := spmWrite d n a (bytesOfWords e.words)
            answer (d.endUnstarted s.mem (clusterOf n) e 2 s.time) e.id) s

/-! ## TCANCEL (R41, R427) -/

/-- Where a task of a context is. -/
inductive TaskPlace where
  | queue (g : Nat) (e : QEntry)
  | deque (n : Nat) (e : QEntry)
  | spill (g w : Nat)
  | running (n : Nat)
  deriving Repr

/-- A core as it stands for a context: in place, or in the saved image of a context that is not resident (R36). -/
def Dev.coreFor (d : Dev) (ctx n : Nat) : Core :=
  if d.residentOn (dieOf n) = some ctx then d.core n
  else (d.saved.findSome? fun v => if v.ctx = ctx then tget v.cores n else none).getD (d.core n)

/-- Change it. -/
def Dev.updCoreFor (d : Dev) (ctx n : Nat) (f : Core → Core) : Dev :=
  if d.residentOn (dieOf n) = some ctx then d.updCore n f
  else d.updSaved ctx fun v => match tget v.cores n with
    | some c => { v with cores := tset v.cores n (f c) }
    | none => v

/-- The live task of a context that has an identifier (R413), in place or in a saved image. -/
def findTask (d : Dev) (ctx : Nat) (id : Word) : Option TaskPlace :=
  let mine (e : QEntry) : Bool := e.ctx = ctx && e.id = id
  let ofCore (x : Nat × Core) : Option TaskPlace :=
    match x.2.task with
    | some t => if t.ctx = ctx && t.id = id then some (TaskPlace.running x.1)
                else (x.2.deque.find? mine).map (TaskPlace.deque x.1)
    | none => (x.2.deque.find? mine).map (TaskPlace.deque x.1)
  let ofQueue (x : Nat × List QEntry) : Option TaskPlace := (x.2.find? mine).map (TaskPlace.queue x.1)
  let queues := d.clusters.findSome? fun (g, x) =>
    (ofQueue (g, x.queue)).orElse fun _ =>
      (tget x.spill ctx).bind fun r => (r.held.find? fun (_, i) => i = id).map fun (w, _) => TaskPlace.spill g w
  let away := d.saved.findSome? fun v =>
    if v.ctx = ctx then (v.queues.findSome? ofQueue).orElse fun _ => v.cores.findSome? ofCore else none
  ((d.cores.findSome? ofCore).orElse fun _ => queues).orElse fun _ => away

/-- What a cancel comes to. -/
inductive CancelRes where
  /-- the answer of R427 -/
  | done (d : Dev) (v : Nat)
  /-- the Moraine of a die has no room for the stake that it retires (R274) -/
  | full (die : Nat)
  /-- its spill ring is suspended -/
  | wait
  | fault (g : Nat) (x : EngFault)
  deriving Repr

/-- A running task that a cancel still reaches: before its epilogue and before boundary n, whose wait it can still act at,
after an EXIT as after the last pass (R30, R40, R42, R157). -/
def Core.cancels (c : Core) : Bool :=
  match c.seq.region with
  | .prologue | .pass => true
  | .epilogue => c.atBnd || c.waits.contains .boundary
  | .none => false

/-- Cancel the task of a context that has an identifier (R41, R427). -/
def cancelTask (m : Memory) (d : Dev) (ctx : Nat) (id : Word) (time : Nat) : CancelRes :=
  let cl := ((d.partOfCtx ctx).map (·.clusters)).getD []
  if wfld id 37 27 ≠ 0 || !cl.contains (wfld id 32 5) then .done d 0
  else match findTask d ctx id with
    | none => .done d 0
    | some (.queue g e) =>
      if !moraineRoom d (g / 4) ctx [recDelta e.words (-1)] then .full (g / 4)
      else .done ((d.updQueue g ctx fun q => q.erase e).endUnstarted m g e 2 time) 1
    | some (.deque k e) =>
      if !moraineRoom d (dieOf k) ctx [recDelta e.words (-1)] then .full (dieOf k)
      else .done ((d.updCoreFor ctx k fun c => { c with deque := c.deque.erase e }).endUnstarted m (clusterOf k) e 2 time) 1
    | some (.spill g w) =>
      if (d.cluster g).spillStop then .wait
      else
        let r := (d.cluster g).ringOf ctx
        (match engineStore m d (taskEngine g) ctx (r.entryVa w + 72) [1] none time with
         | .ok d => .done d 1
         | .error x => .fault g x)
    | some (.running k) =>
      if (d.coreFor ctx k).cancels then
        .done (d.updCoreFor ctx k fun c => { c with task := c.task.map fun t => { t with cancelled := true } }) 2
      else .done d 3

/-- TCANCEL (R427). -/
def execTcancel (h : Hdr) (o : YG) (s : State) : Host.Outcome State Fault Refusal :=
  ctlSyllable h
    (fun s b c =>
      let n := b.core
      let ctx := (s.dev.ctxOfCore n).getD noContext
      match cancelTask s.mem (s.dev.releaseFor n o.ord o.scp) ctx (c.s o.x.toNat) s.time with
      | .done d v => .ok (sendLate d b (.s (physSV c.lp o.y.toNat) (toW v)) true 0)
      | .wait => .stall 11
      | .full die => .stallIn (b.base.reportFull die ctx s.time) 7
      | .fault g x => .stallIn (b.base.spillFault g ctx x s.time) 11)
    (fun b => b.ordered o.ord) s

/-! ## Streams and launch groups (R24-R27, R419, R423) -/

def Ctx.stream (c : Ctx) (n : Nat) : Stream := tgetD c.streams n Stream.reset

def Dev.updStream (d : Dev) (ctx n : Nat) (f : Stream → Stream) : Dev :=
  d.updCtx ctx fun c => { c with streams := tset c.streams n (f (c.stream n)) }

/-- Address of descriptor slot i. -/
def Stream.slotVa (q : Stream) (i : Nat) : Word := q.base + toW (64 * (i % 2 ^ q.log2))

/-- Write the slots of the waiting appends that have space, oldest first (R423); fuel bounds their number.  The slot is
written before the index moves: the engine that reads descriptors sees it. -/
def pumpAppends (m : Memory) (ctx n time : Nat) : Nat → Dev → Dev
  | 0, d => d
  | fuel + 1, d =>
    match d.ctx ctx with
    | none => d
    | some c =>
      let q := c.stream n
      match q.appends with
      | [] => d
      | a :: t =>
        if !q.granted 0 || d.susp.contains (.append ctx n) then d
        else
          let src := taskEngine (if isGeneral a.core then d.lowCluster ctx else clusterOf a.core)
          let drop (d : Dev) (v : Word) : Dev :=
            (d.updStream ctx n fun q => { q with appends := t }).updCore a.core fun c => c.answerS a.tag v
          match engineStore m d src ctx (q.slotVa q.widx.toNat) (bytesOfWords a.words) none time with
          | .ok d =>
            let d := drop (d.showTo (fun e => e.owner == src && e.ended) [taskEngine (d.lowCluster ctx)]) (toW q.widx.toNat)
            pumpAppends m ctx n time fuel (d.updStream ctx n fun q => { q with widx := q.widx + 1 })
          | .error (.trans va acc f) =>
            let d := d.reportTrans src ctx 0 va acc f time
            if f.replayable then { d with susp := d.susp ++ [Cmd.append ctx n] }
            else pumpAppends m ctx n time fuel (drop d (BitVec.allOnes 64))
          | .error (.away pkg va) =>
            let d := d.engineReport src ctx 0xC1 .fault 0 va (toW (pkg * 2 ^ 32 + 3)) time
            pumpAppends m ctx n time fuel (drop d (BitVec.allOnes 64))
          | .error _ => pumpAppends m ctx n time fuel (drop d (BitVec.allOnes 64))

/-- TLAUNCH (R423): the bundle completes; the core's next one waits for ring space (DEDUCED, log entry 61). -/
def execTlaunch (h : Hdr) (o : YG) (s : State) : Host.Outcome State Fault Refusal :=
  let w := sylWord (.tlaunch h o)
  ctlSyllable h
    (fun s b c =>
      let n := b.core
      let ctx := (s.dev.ctxOfCore n).getD noContext
      let k := o.imm.toNat % 16
      let set := match s.dev.ctx ctx with | some x => (x.stream k).log2 ≠ 0 | none => false
      if !set then .raise (dequeState w 4)
      else taskBytes s b c (c.s o.x.toNat) fun words =>
        let tag := (s.dev.core n).nextTag
        let d := s.dev.releaseFor n o.ord o.scp
        let d := sendLate d b (.s (physSV c.lp o.y.toNat) 0) false tag
        let d := d.updCore n fun c => { c with nextTag := tag + 1 }
        let a : Append := { core := n, tag := tag, words := words }
        let d := d.updStream ctx k fun q => { q with appends := q.appends ++ [a] }
        .ok (pumpAppends s.mem ctx k s.time 1024 d))
    (fun b => b.ordered o.ord) s

/-- A launch descriptor's fields (R25). -/
def launchExtents (w : List Word) : Nat × Nat × Nat :=
  let w2 := nth w 2 0
  (wfld w2 0 4, wfld w2 4 4, wfld w2 8 4)

def launchSize (w : List Word) : Nat := let (x, y, z) := launchExtents w
                                        x * y * z

/-- BAD_LAUNCH reason of a descriptor but for its template (R25, R430). -/
def launchReason (d : Dev) (ctx : Nat) (w : List Word) : Option Nat :=
  let (x, y, z) := launchExtents w
  let bad (v : Nat) : Bool := v = 0 || 8 < v
  let w5 := nth w 5 0
  let cl := ((d.partOfCtx ctx).map (·.clusters.length)).getD 0
  let gate := match resolveCounter d ctx (nth w 3 0) with | .error _ => true | .ok _ => false
  if wfld (nth w 0 0) 0 6 ≠ 0 || wfld (nth w 1 0) 48 16 ≠ 0 || wfld (nth w 2 0) 17 47 ≠ 0 || wfld w5 1 63 ≠ 0 ||
      nth w 6 0 ≠ 0 || nth w 7 0 ≠ 0 then some 1
  else if bad x || bad y || bad z || 8 < x * y * z then some 2
  else if cl ≤ wfld (nth w 2 0) 12 5 then some 3
  else if w5.getLsbD 0 && gate then some 4
  else none

/-- The cluster that a descriptor names, or the partition's lowest (R25). -/
def launchCluster (d : Dev) (ctx : Nat) (w : List Word) : Nat :=
  let cl := ((d.partOfCtx ctx).map (·.clusters)).getD []
  (cl[wfld (nth w 2 0) 12 5]?).getD (d.lowCluster ctx)

/-- The stream stops at its descriptor (R25) (DEDUCED, log entry 59). -/
def Dev.badLaunch (d : Dev) (ctx n g : Nat) (va : Word) (reason time : Nat) : Dev :=
  (d.engineReport (taskEngine g) ctx 0xA0 .fault 0 va (toW (n * 2 ^ 16 + reason)) time).updStream ctx n
    fun q => { q with stopped := true }

/-- The dispatch suspends at a translation fault of its reads (R25). -/
def Dev.suspendLaunch (d : Dev) (ctx n g : Nat) (va : Word) (acc : Access) (f : TFault) (time : Nat) : Dev :=
  let d := d.reportTrans (taskEngine g) ctx 0 va acc f time
  { d with susp := d.susp ++ [Cmd.dispatch ctx n] }

/-- Is the gate of a descriptor satisfied (R26)?  One in another package when its registration has been answered. -/
def gateOpen (m : Memory) (d : Dev) (ctx : Nat) (q : Stream) (w : List Word) : Bool :=
  if !(nth w 5 0).getLsbD 0 then true
  else match resolveCounter d ctx (nth w 3 0) with
    | .ok (.here k i) => (nth w 4 0).toNat ≤ (counterGet m d ctx k i).toNat
    | .ok (.remote _) => q.gate = 2
    | .error _ => false

/-- A stream at its next descriptor. -/
inductive Head where
  | nothing
  | ready (g : Nat) (w : List Word)
  /-- the gate in another package has not been asked -/
  | ask (g pkg : Nat) (w : List Word)
  | shut
  | bad (g reason : Nat)
  | fault (va : Word) (acc : Access) (f : TFault)
  deriving Repr

/-- Look at a stream's next descriptor (R25, R26). -/
def streamHead (m : Memory) (d : Dev) (ctx n : Nat) : Head :=
  match d.ctx ctx with
  | none => .nothing
  | some c =>
    let q := c.stream n
    if q.log2 = 0 || q.stopped || q.ridx = q.widx || d.susp.contains (.dispatch ctx n) then .nothing
    else match engineWords m d (taskEngine (d.lowCluster ctx)) ctx (q.slotVa q.ridx.toNat) 8 with
      | .error (.trans va acc f) => if f.replayable then .fault va acc f else .bad (d.lowCluster ctx) 5
      | .error _ => .bad (d.lowCluster ctx) 5
      | .ok w =>
        let g := launchCluster d ctx w
        match launchReason d ctx w with
        | some r => .bad g r
        | none =>
          if gateOpen m d ctx q w then (if (d.cluster g).group.isSome then .shut else .ready g w)
          else match resolveCounter d ctx (nth w 3 0) with
            | .ok (.remote pkg) => if q.gate = 0 then .ask g pkg w else .shut
            | _ => .shut

/-- A launch group is ready for a cluster and has a core among its own: from then on the core takes nothing and makes no
steal (R419). -/
def Dev.kept (m : Memory) (d : Dev) (ctx n : Nat) : Bool :=
  (List.range 16).any fun k => match streamHead m d ctx k with
    | .ready g w => g = clusterOf n && n % 8 < launchSize w
    | _ => false

/-- A core that may take work: idle, with no pre-emption, not kept for a ready launch group (R418, R419), its register
actions made, and no deltas of its own waiting for room (R274). -/
def Dev.takes (m : Memory) (d : Dev) (n : Nat) : Bool :=
  let c := d.core n
  !isGeneral n && c.run = .idle && !c.preempt && c.csrq.isEmpty &&
    (match d.residentOn (dieOf n) with
     | some ctx => !d.kept m ctx n && !d.owes n (dieOf n) ctx
     | none => false)

/-- Spilled entries of the resident context. -/
def Dev.spilled (d : Dev) (g : Nat) : Bool :=
  match d.residentOn (g / 4) with
  | some ctx => let r := (d.cluster g).ringOf ctx
                r.srd ≠ r.swr
  | none => false

/-- Lowest core of a cluster that takes from the queue (R418). -/
def Dev.queueTaker (m : Memory) (d : Dev) (g : Nat) : Option Nat :=
  (coresOfCluster g).find? fun n => d.takes m n && (d.core n).deque.isEmpty

/-- TASK_START (R418): the newest entry of the own deque, else the head of the cluster queue. -/
def execTaskStart (core : Nat) (s : State) : Host.Outcome State Fault Refusal :=
  happening (fun s =>
    let d := s.dev
    let c := d.core core
    let g := clusterOf core
    if !d.takes s.mem core then none
    else match c.deque.getLast? with
      | some e => some ((d.updCore core fun c => { c with deque := c.deque.dropLast }).startTask s.mem core e false s.time)
      | none =>
        match (d.cluster g).queue with
        | [] => none
        | e :: t =>
          if d.queueTaker s.mem g ≠ some core then none
          else some ((d.updCluster g fun x => { x with queue := t }).startTask s.mem core e false s.time)) s

/-! ## Stealing (R33, R420-R422) -/

/-- One step of a steal unit (R421). -/
def lfsrStep (s : BitVec 16) : BitVec 16 :=
  let b := s.getLsbD 15 ^^ s.getLsbD 13 ^^ s.getLsbD 12 ^^ s.getLsbD 10
  (s <<< 1) ||| (if b then 1 else 0)

/-- Victim of a probe (R422). -/
def stealVictim (n s : Nat) (away : Bool) : Nat :=
  let g := clusterOf n
  if away then
    let others := ((List.range 32).map (32 * dieOf n + ·)).filter fun k => clusterOf k ≠ g
    nth others (s % 24) n
  else 8 * g + (n % 8 + 1 + s % 7) % 8

/-- The k oldest entries that satisfy a test, and what is left. -/
def takeOldest (p : QEntry → Bool) : Nat → List QEntry → List QEntry × List QEntry
  | 0, l => ([], l)
  | _, [] => ([], [])
  | k + 1, e :: t =>
    if p e then
      let (a, r) := takeOldest p k t
      (e :: a, r)
    else
      let (a, r) := takeOldest p (k + 1) t
      (a, e :: r)

/-- A probe begins: one step of the unit, and 8 cycles (R422). -/
def Core.startProbe (c : Core) : Core := { c with lfsr := lfsrStep c.lfsr, ready := c.ready + 8, probing := true }.count 0x0B 1

/-- A probe ends: what is there to take is taken, or it has failed (R422). -/
def endProbe (m : Memory) (d : Dev) (core time : Nat) : Dev :=
  let c := d.core core
  let away := 7 ≤ c.localFails
  let v := stealVictim core c.lfsr.toNat away
  let ok (e : QEntry) : Bool := !away || recMig e.words
  let l := (d.core v).deque
  let k := (l.filter ok).length
  let (taken, rest) := takeOldest ok ((k + 1) / 2) l
  let d := d.updCore core fun c =>
    { c with probing := false, localFails := if k = 0 && !away then c.localFails + 1 else 0
             stolen := satAdd c.stolen taken.length, deque := c.deque ++ taken.drop 1 }.count 0x0C taken.length
  match taken with
  | [] => d
  | e :: _ => (d.updCore v fun c => { c with deque := rest }).startTask m core e false time

/-- STEAL_PROBE (R422): an idle core with nothing to take begins a probe, or ends the one that it makes; a probe of a core
that may take no more, or that has something to take of its own, is abandoned. -/
def execStealProbe (core : Nat) (s : State) : Host.Outcome State Fault Refusal :=
  happening (fun s =>
    let d := s.dev
    let g := clusterOf core
    let c := d.core core
    let nothing := d.takes s.mem core && c.deque.isEmpty && (d.cluster g).queue.isEmpty
    if c.probing then
      some (if nothing then endProbe s.mem d core s.time else d.updCore core fun c => { c with probing := false })
    else if !nothing || d.spilled g then none
    else some (d.updCore core Core.startProbe)) s

/-- Is a stream the first ready one for a cluster in the order of R26? -/
def firstReady (m : Memory) (d : Dev) (ctx n g : Nat) : Bool :=
  let last := tgetD (d.cluster g).lastStream ctx 15
  let ready (k : Nat) : Bool := match streamHead m d ctx k with | .ready g' _ => g' = g | _ => false
  ((List.range 16).map fun i => (last + 1 + i) % 16).find? ready = some n

/-- Member j's record: the template with its coordinate (R27). -/
def memberWords (t w : List Word) (j : Nat) : List Word :=
  let (x, y, _) := launchExtents w
  let o := nth w 1 0
  let c (lo i : Nat) : Nat := (wfld o lo 16 + i) % 65536
  let w4 := wfld (nth t 4 0) 48 16 * 2 ^ 48 + c 32 (j / (x * y)) * 2 ^ 32 + c 16 (j / x % y) * 2 ^ 16 + c 0 (j % x)
  t.set 4 (toW w4)

/-- The front end at a dispatch (R122, R195, R196, R204): the stream begins at the prologue address. -/
def FrontEnd.dispatched (f : FrontEnd) (t : List Word) (cycle : Nat) : FrontEnd :=
  let f : FrontEnd := { FrontEnd.reset with
    icorr := f.icorr
    serving := true
    kern := bundleAddr (nth t 1 0)
    epi := bundleAddr (nth t 2 0)
    pos := some (bundleAddr (nth t 0 0))
    notBefore := cycle + 1 }
  { f with part := f.nextPart (bundleAddr (nth t 0 0)) false }

/-- The template of a group's members: a descriptor that the generation sequencer appended adds its iteration's time
(R448). -/
def groupTemplate (d : Dev) (ctx n : Nat) (t : List Word) : List Word :=
  match d.ctx ctx with
  | some c => t.set 5 (recTime t + (if n = 15 then tgetD c.gen.offs (c.stream n).ridx.toNat 0 else 0))
  | none => t

/-- The stakes that a dispatch takes: one for each member (R270). -/
def groupDelta (d : Dev) (ctx n : Nat) (w t : List Word) : Delta := recDelta (groupTemplate d ctx n t) (launchSize w)

/-- The dispatch of a ready launch group (R26, R27, R122, R270): deltas before any member starts, then the members in
order of their cores. -/
def dispatchGroup (m : Memory) (d : Dev) (ctx n g : Nat) (w t : List Word) (time : Nat) : Dev :=
  let size := launchSize w
  let i := match d.ctx ctx with | some c => (c.stream n).ridx.toNat | none => 0
  let delta := groupDelta d ctx n w t
  let t := groupTemplate d ctx n t
  let (es, d) := (List.range size).foldl (fun (acc : List QEntry × Dev) j =>
    let (id, d) := newId acc.2 g
    let e : QEntry := { words := memberWords t w j, id := id, ctx := ctx }
    (acc.1 ++ [e], d)) (([] : List QEntry), d)
  let d := enterDeltas d (taskEngine g) (g / 4) ctx [delta] time
  let cores := (List.range size).map (8 * g + ·)
  let cycle := (cores.map fun k => (d.core k).ready).foldl max 0
  let q : Group := { ctx := ctx, stream := n, left := cores, code := visibleMemory m d (taskEngine g) }
  let d := d.updCluster g fun x =>
    let keep (l : ILine) : Bool := !x.icInval.contains (l.line / 4096)
    { x with group := some q, icache := x.icache.filter keep, icInval := []
             lastStream := tset x.lastStream ctx n, fe := x.fe.dispatched t cycle }
  let d := d.updStream ctx n fun q => { q with ridx := q.ridx + 1, gate := 0 }
  let d := if n = 15 then d.updCtx ctx fun c => { c with gen := { c.gen with offs := tdel c.gen.offs i } } else d
  let d := (cores.zip es).foldl (fun d (k, e) => d.startTask m k e true time) d
  pumpAppends m ctx n time 1024 d

/-- LAUNCH_DISPATCH (R25-R27, R419): the stream's next launch group, where it is the first ready one for its cluster and
its cores are idle, is dispatched; a bad descriptor stops the stream. -/
def execLaunchDispatch (ctx stream : Nat) (s : State) : Host.Outcome State Fault Refusal :=
  happening (fun s =>
    let m := s.mem
    let d := s.dev
    let va := match d.ctx ctx with | some c => (c.stream stream).slotVa (c.stream stream).ridx.toNat | none => 0
    match streamHead m d ctx stream with
    | .nothing | .shut => none
    | .fault a acc f => some (d.suspendLaunch ctx stream (d.lowCluster ctx) a acc f s.time)
    | .bad g r => some (d.badLaunch ctx stream g va r s.time)
    | .ask g pkg w =>
      let q : RemoteOut :=
        { src := taskEngine g, ctx := ctx, pkg := pkg, kind := .counterRead, ident := nth w 3 0, pa := 0, data := []
          val := nth w 4 0, tag := stream, phase := 0, start := s.time }
      some ((d.updStream ctx stream fun q => { q with gate := 1 }).send q)
    | .ready g w =>
      let cores := (List.range (launchSize w)).map (8 * g + ·)
      if d.residentOn (g / 4) ≠ some ctx || !firstReady m d ctx stream g ||
          !cores.all (fun k => !(d.core k).preempt && (d.core k).run ≠ .halted && (d.core k).run ≠ .stopped) then none
      else if !cores.all fun k => (d.core k).run = .idle && (d.core k).csrq.isEmpty then none
      else
      let d := if (nth w 5 0).getLsbD 0 then d.readCounter m ctx (nth w 3 0) else d
      match engineWords m d (taskEngine g) ctx (nth w 0 0) 8 with
        | .ok t =>
          if !moraineRoom d (g / 4) ctx [groupDelta d ctx stream w t] then some (d.reportFull (g / 4) ctx s.time)
          else some (dispatchGroup m d ctx stream g w t s.time)
        | .error (.trans a acc f) =>
          if f.replayable then some (d.suspendLaunch ctx stream g a acc f s.time)
          else some ((d.reportTrans (taskEngine g) ctx 0 a acc f s.time).badLaunch ctx stream g va 5 s.time)
        | .error (.bad pa) => some ((d.reportBad (taskEngine g) ctx pa s.time).badLaunch ctx stream g va 5 s.time)
        | .error _ => some (d.badLaunch ctx stream g va 5 s.time)) s

end Sys2Proof.Machine
end

