-- ==== Sys2Proof/Machine/Calving.lean ====
section
/-!
DEFINITION. The calving unit (R469-R473): notices that arrive, wait for their time, and are applied in order, their exit
operations through the home Firn (R434, R470).
-/

namespace Sys2Proof.Machine

/-- Source number of the calving unit (R469). -/
def calvingUnit : Nat := 405

/-- Source number of a die's Firn (R188). -/
def firnEngine (die : Nat) : Nat := 360 + die

def Dev.updFirn (d : Dev) (die : Nat) (f : Firn → Firn) : Dev := d.updDie die fun y => { y with firn := f y.firn }

/-- An operation reaches a home Firn behind those before it (R434). -/
def Dev.sendFirn (d : Dev) (die : Nat) (q : FirnOp) : Dev :=
  d.updFirn die fun y => { y with ops := y.ops ++ [{ q with no := y.nextOp }], nextOp := y.nextOp + 1 }

def Dev.updCalv (d : Dev) (ctx : Nat) (f : Calv → Calv) : Dev := d.updCtx ctx fun c => { c with calv := f c.calv }

/-- Saturating 16-bit count. -/
def sat16 (b : BitVec 16) (n : Nat) : BitVec 16 := BitVec.ofNat 16 (min (b.toNat + n) 65535)

/-- REMOTE_FAULT reason 6 of a notice or a target descriptor (R470, R473, R480). -/
def targetFault (i : Nat) : Word × Word := (toW i, toW (Config.packageNumber * 2 ^ 32 + 6))

/-- What applying a notice comes to. -/
inductive Applied where
  /-- handled; does it count as applied? -/
  | done (d : Dev) (counts : Bool)
  /-- its exit operation is on the way to the home Firn -/
  | exits (d : Dev)
  | susp (d : Dev)
  deriving Repr

/-- What an access of a notice that does not go on leaves behind (R121, R389). -/
def noticeFault (d : Dev) (ctx : Nat) (x : EngFault) (time : Nat) : Applied :=
  let src := calvingUnit
  match x with
  | .trans va acc f =>
    let d := d.reportTrans src ctx 0 va acc f time
    if f.replayable then .susp { d with susp := d.susp ++ [Cmd.notice ctx] } else .done d false
  | .bad pa => .done (d.reportBad src ctx pa time) false
  | .away pkg va => .done (d.engineReport src ctx 0xC1 .fault 0 va (toW (pkg * 2 ^ 32 + 3)) time) false
  | .noEngine va | .notHbm va => .done (d.engineReport src ctx 0x30 .fault 0 va 0 time) false
  | .unset _ | .scales _ => .done d false

/-- The end of a notice that is applied: its add to ACNT as a release at .pkg, and its count (R470). -/
def noticeEnd (m : Memory) (d : Dev) (ctx : Nat) (w : List Word) (time : Nat) : Dev :=
  (engineAdd m (d.release calvingUnit 3) calvingUnit ctx (nth w 2 0) 1 time).updCalv ctx
    fun v => { v with appl := sat16 v.appl 1 }

/-- The exit form of KVMARK for a notice, sent to the home Firn (R439, R470). -/
def sendExit (m : Memory) (d : Dev) (ctx : Nat) (kvd : Word) (q : Notice) : Except EngFault Dev :=
  match engineWords m d calvingUnit ctx kvd 8 with
  | .error x => .error x
  | .ok kw => .ok (d.sendFirn (d.rootDie ctx)
      { ctx := ctx, core := calvingUnit, kind := 3, dva := kvd, words := kw, t0 := q.token, n := 0
        b := (q.cw.extractLsb' 6 10).toNat, tag := 0, task := none, no := 0, susp := false })

/-- apply of R470 but for what follows the exit operation: the control word, and the exit where there is one. -/
def applyWrites (m : Memory) (d : Dev) (ctx : Nat) (w : List Word) (q : Notice) (time : Nat) : Applied :=
  let src := calvingUnit
  let at' := nth w 0 0 + toW (4 * q.row)
  match engineRead m d src ctx at' 4 with
  | .error x => noticeFault d ctx x time
  | .ok bs =>
    let old : BitVec 32 := BitVec.ofNat 32 (ofBytes bs)
    if old.extractLsb' 16 16 ≠ q.cw.extractLsb' 16 16 then
      .done (noticeEnd m (d.updCalv ctx fun v => { v with mism := sat16 v.mism 1 }) ctx w time) true
    else match (if old.extractLsb' 0 2 = 2 then .ok d
        else engineStore m d src ctx at' (toBytes 4 ((q.cw &&& 0xFFFFFFC0) ||| 2).toNat) none time) with
      | .error x => noticeFault d ctx x time
      | .ok d =>
        if nth w 1 0 = 0 then .done (noticeEnd m d ctx w time) true
        else match sendExit m d ctx (nth w 1 0) q with
          | .ok d => .exits d
          | .error x => noticeFault d ctx x time

/-- Handle a notice for an installed target whose time has come or passed (R470). -/
def applyNotice (m : Memory) (d : Dev) (ctx : Nat) (w : List Word) (tcur : Word) (q : Notice) (time : Nat) : Applied :=
  if q.time.toNat < tcur.toNat then .done (d.updCalv ctx fun v => { v with stale := sat16 v.stale 1 }) false
  else if wfld (nth w 3 0) 0 13 ≤ q.row then
    let (i0, i1) := targetFault q.target
    .done (d.engineReport calvingUnit ctx 0xC1 .fault 0 i0 i1 time) false
  else applyWrites m d ctx w q time

/-- The notices of a context that wait: pending, or behind the one at hand. -/
def Calv.waiting (v : Calv) : List Notice := v.pending ++ v.held.drop 1

/-- Waiting notices that the unit itself holds, of 1,024 (R471). -/
def unitNotices (d : Dev) : Nat := (d.ctxs.map fun (_, c) => c.calv.waiting.countP fun q => !q.spilled).sum

/-- Room for one more waiting notice of a context: in the unit, else in its overflow area, where its entry's bytes are
the free words given (R471).  The notice, as it is held there. -/
def noticeRoom (m : Memory) (d : Dev) (ctx : Nat) (q : Notice) (open' : Nat → Word) (time : Nat) : Option (Dev × Notice) :=
  if unitNotices d < 1024 then some (d, { q with spilled := false })
  else match d.ctx ctx with
    | none => none
    | some c =>
      let k := wfld c.calv.covf 0 5
      let used := c.calv.waiting.countP (·.spilled)
      if k = 0 || 2 ^ k ≤ used then none
      else
        let base := c.calv.covf &&& ~~~(0xFFF : Word)
        match engineStore m d calvingUnit ctx (base + toW (32 * used)) (bytesOfWords ((List.range 4).map open')) none time with
        | .ok d => some (d, { q with spilled := true })
        | .error _ => none

/-- Is a notice pending at its arrival: its target is uninstalled, or its time has not come (R470)? -/
def Calv.defers (v : Calv) (q : Notice) : Bool :=
  match tget v.targets q.target with
  | none => true
  | some (_, tcur) => tcur.toNat < q.time.toNat

/-- The calving unit handles a notice, which has room where it is pending (R470). -/
def handleNotice (m : Memory) (d : Dev) (ctx : Nat) (q : Notice) (time : Nat) : Dev :=
  match d.ctx ctx with
  | none => d
  | some c =>
    if c.calv.defers q then d.updCalv ctx fun v => { v with pending := v.pending ++ [q] }
    else
      let (w, tcur) := (tget c.calv.targets q.target).getD ([], 0)
      match applyNotice m d ctx w tcur q time with
      | .done d _ => d
      | .exits d => d.updCalv ctx fun v => { v with held := q :: v.held, exiting := true }
      | .susp d => d.updCalv ctx fun v => { v with held := q :: v.held }

/-- A notice reaches the calving unit (R470): behind one that is not finished it waits; none where the unit does not
accept it (R471) (DEDUCED, log entry 115). -/
def arriveNotice (m : Memory) (d : Dev) (ctx : Nat) (q : Notice) (open' : Nat → Word) (time : Nat) : Option Dev :=
  match d.ctx ctx with
  | none => none
  | some c =>
    let v := c.calv
    if !v.held.isEmpty || v.arm.isSome then
      (noticeRoom m d ctx q open' time).map fun (d, q) => d.updCalv ctx fun v => { v with held := v.held ++ [q] }
    else if v.defers q then (noticeRoom m d ctx q open' time).map fun (d, q) => handleNotice m d ctx q time
    else some (handleNotice m d ctx q time)

/-- An arm applies its notices in arrival order; its answer lands with the last (R473). -/
def runArm (m : Memory) (ctx core tag : Nat) (w : List Word) (time : Nat) : List Notice → Nat → Dev → Dev
  | [], k, d => (d.updCalv ctx fun v => { v with arm := none }).answerS core tag (toW k)
  | q :: t, k, d =>
    match applyWrites m d ctx w q time with
    | .done d counts => runArm m ctx core tag w time t (if counts then k + 1 else k) d
    | .exits d => d.updCalv ctx fun v => { v with arm := some (core, tag, k, q :: t), exiting := true }
    | .susp d => d.updCalv ctx fun v => { v with arm := some (core, tag, k, q :: t) }

/-- Notices that waited behind another go on, until one is not finished again. -/
def drainHeld (m : Memory) (ctx : Nat) (time : Nat) : List Notice → Dev → Dev
  | [], d => d
  | q :: t, d =>
    let d := handleNotice m d ctx q time
    let stuck := match d.ctx ctx with | some c => !c.calv.held.isEmpty | none => false
    if stuck then d.updCalv ctx fun v => { v with held := v.held ++ t } else drainHeld m ctx time t d

/-- The notices held go on, unless an arm is not complete. -/
def drainCalving (m : Memory) (ctx : Nat) (time : Nat) (d : Dev) : Dev :=
  match d.ctx ctx with
  | some c =>
    if c.calv.arm.isSome then d
    else drainHeld m ctx time c.calv.held (d.updCalv ctx fun v => { v with held := [] })
  | none => d

/-- The exit operation of the notice at hand is performed, or has ended without effect: the notice ends with a release
that covers the Firn's writes, and those behind it go on (R470, R473). -/
def exitPerformed (m : Memory) (d : Dev) (ctx : Nat) (ok : Bool) (time : Nat) : Dev :=
  match d.ctx ctx with
  | none => d
  | some c =>
    let v := c.calv
    if !v.exiting then d
    else
      let d := d.updCalv ctx fun v => { v with exiting := false }
      let finish (d : Dev) (w : List Word) : Dev :=
        if ok then noticeEnd m (d.release (firnEngine (d.rootDie ctx)) 3) ctx w time else d
      match v.arm with
      | some (core, tag, k, q :: t) =>
        let (w, _) := (tget v.targets q.target).getD ([], 0)
        drainCalving m ctx time (runArm m ctx core tag w time t (if ok then k + 1 else k) (finish d w))
      | some (_, _, _, []) => d
      | none => match v.held with
        | [] => d
        | q :: t =>
          let (w, _) := (tget v.targets q.target).getD ([], 0)
          drainCalving m ctx time ((finish d w).updCalv ctx fun v => { v with held := t })

end Sys2Proof.Machine
end

