-- ==== Sys2Proof/Machine/Firn.lean ====
section
/-!
DEFINITION. The Firn fill engine (16): FILREQ, KVPROBE and KVMARK, the operations of a home Firn and its fills.
-/

namespace Sys2Proof.Machine

/-! ## The KV descriptor (R433, R434) -/

def kvRowb (w : List Word) : Nat := wfld (nth w 4 0) 32 32
def kvNtok (w : List Word) : Nat := wfld (nth w 4 0) 16 16 + 1
def kvNblk (w : List Word) : Nat := wfld (nth w 4 0) 6 10 + 1
def kvTag (w : List Word) : Bool := (nth w 4 0).getLsbD 5
def kvRepeat (w : List Word) : Bool := wfld (nth w 4 0) 0 2 = 1

/-- Words of validity for one token. -/
def kvWords (w : List Word) : Nat := (kvNblk w + 63) / 64

/-- Address of the K or V row of (t, b) from the base in word i. -/
def kvRow (w : List Word) (i t b : Nat) : Word := nth w i 0 + toW ((b * kvNtok w + t) * kvRowb w)

/-- Address of the word that holds V(t, b). -/
def kvValidAt (w : List Word) (t b : Nat) : Word := nth w 2 0 + toW (8 * (t * kvWords w + b / 64))

/-- Address of E(t). -/
def kvExitAt (w : List Word) (t : Nat) : Word := nth w 3 0 + toW (2 * t)

/-- KV_PAGE_BAD reason, lowest first (R436); mark says KVMARK. -/
def kvReason (d : Dev) (ctx : Nat) (w : List Word) (range : Word) (mark : Bool) : Option Nat :=
  let n := wfld range 32 16
  let rowb := kvRowb w
  let project := !kvRepeat w
  let ftask := (nth w 5 0).toNat
  let taga := (nth w 7 0).toNat
  if wfld (nth w 4 0) 2 3 ≠ 0 || 1 < wfld (nth w 4 0) 0 2 || (nth w 0 0).toNat % 64 ≠ 0 ||
      (nth w 1 0).toNat % 64 ≠ 0 || (nth w 2 0).toNat % 8 ≠ 0 || (nth w 3 0).toNat % 2 ≠ 0 || rowb % 64 ≠ 0 ||
      rowb < 64 || 65536 < rowb || (project && ftask % 64 ≠ 0) || (if kvTag w then taga % 4 ≠ 0 else taga ≠ 0) then
    some 1
  else if wfld range 58 6 ≠ 0 || kvNblk w ≤ wfld range 48 10 || kvNtok w < wfld range 0 32 + n ||
      (if mark then n ≠ 0 else n = 0 || 64 < n) then some 2
  else if project == decide (ftask = 0) then some 3
  else match resolveCounter d ctx (nth w 6 0) with
    | .error _ => some 4
    | .ok _ => none

/-! ## The syllables (R435-R437, R439) -/

/-- Read the descriptor, make the checks of R436, and send the operation to the home Firn (DEDUCED, log entry 31). -/
def firnForm (o : YG) (kind : Nat) (s : State) (b : Bundle) (c : Core) (f : Dev → Nat → Dev) : Out :=
  let n := b.core
  let a := c.s o.x.toNat
  let range := c.s o.z.toNat
  let ctx := (s.dev.ctxOfCore n).getD noContext
  if a.toNat % 64 ≠ 0 then .raise (mkFault 0x36 a 0)
  else readImage s b c true a 64 fun bs =>
    let w := wordsOf 8 bs
    match kvReason s.dev ctx w range (2 ≤ kind) with
    | some r => .raise (mkFault 0xB0 a (toW r))
    | none =>
      let tag := (s.dev.core n).nextTag
      let q : FirnOp :=
        { ctx := ctx, core := n, kind := kind, dva := a, words := w, t0 := wfld range 0 32, n := wfld range 32 16
          b := wfld range 48 10, tag := tag, task := c.task.map (·.id), no := 0, susp := false }
      let d := (f (s.dev.releaseFor n o.ord o.scp) tag).updCore n fun c => { c with nextTag := tag + 1 }
      .ok (d.sendFirn (d.rootDie ctx) q)

/-- FILREQ (R437). -/
def execFilreq (h : Hdr) (o : YG) (s : State) : Host.Outcome State Fault Refusal :=
  syllable h (fun s b c => firnForm o 0 s b c fun d tag =>
    sendLate d b (.s (physSV c.lp o.y.toNat) 0) false tag) s

/-- KVPROBE (R437, R440). -/
def execKvprobe (h : Hdr) (o : YG) (s : State) : Host.Outcome State Fault Refusal :=
  let hn := o.imm.toNat % 64
  syllable h (fun s b c =>
    if c.h hn ≠ .unbound || c.pend.any (fun e => match e.res with | .h k _ => k = hn | _ => false) then
      .raise (handleFault 0 hn 1)
    else firnForm o 1 s b c fun d tag =>
      sendLate (sendLate d b (.s (physSV c.lp o.y.toNat) 0) false tag) b (.h hn .pending) false tag) s

/-- KVMARK valid (R439). -/
def execKvmarkValid (h : Hdr) (o : YG) (s : State) : Host.Outcome State Fault Refusal :=
  ctlSyllable h (fun s b c => firnForm o 2 s b c fun d _ => d) (fun b => b.ordered o.ord) s

/-- KVMARK exit (R439). -/
def execKvmarkExit (h : Hdr) (o : YG) (s : State) : Host.Outcome State Fault Refusal :=
  ctlSyllable h (fun s b c => firnForm o 3 s b c fun d _ => d) (fun b => b.ordered o.ord) s

/-- KVMARK clear (R439). -/
def execKvmarkClear (h : Hdr) (o : YG) (s : State) : Host.Outcome State Fault Refusal :=
  ctlSyllable h (fun s b c => firnForm o 4 s b c fun d _ => d) (fun b => b.ordered o.ord) s

/-! ## The arrays, as the home Firn reads and writes them (R434) -/

/-- An engine operation that reads and writes. -/
abbrev Eng (α : Type) := Except EngFault α

def kvExit (m : Memory) (d : Dev) (src ctx : Nat) (w : List Word) (t : Nat) : Eng Nat :=
  (engineRead m d src ctx (kvExitAt w t) 2).map ofBytes

def kvValidWord (m : Memory) (d : Dev) (src ctx : Nat) (w : List Word) (t b : Nat) : Eng Nat :=
  (engineRead m d src ctx (kvValidAt w t b) 8).map ofBytes

/-- V(t, b) := 1. -/
def kvSetValid (m : Memory) (d : Dev) (src ctx : Nat) (w : List Word) (t b time : Nat) : Eng Dev :=
  match kvValidWord m d src ctx w t b with
  | .error e => .error e
  | .ok v => engineStore m d src ctx (kvValidAt w t b) (toBytes 8 (v ||| 2 ^ (b % 64))) none time

/-- If E(t) = 0xFFFF, E(t) := b (R439). -/
def kvSetExit (m : Memory) (d : Dev) (src ctx : Nat) (w : List Word) (t b time : Nat) : Eng Dev :=
  match kvExit m d src ctx w t with
  | .error e => .error e
  | .ok v => if v = 0xFFFF then engineStore m d src ctx (kvExitAt w t) (toBytes 2 b) none time else .ok d

/-- Every V(t, ·) := 0 and E(t) := 0xFFFF (R439). -/
def kvClear (m : Memory) (d : Dev) (src ctx : Nat) (w : List Word) (t time : Nat) : Eng Dev :=
  match engineStore m d src ctx (kvValidAt w t 0) (List.replicate (8 * kvWords w) 0) none time with
  | .error e => .error e
  | .ok d => engineStore m d src ctx (kvExitAt w t) [0xFF, 0xFF] none time

/-- The gaps of a probe, with their exit blocks (R434). -/
def kvGaps (m : Memory) (d : Dev) (src ctx : Nat) (w : List Word) (b : Nat) : List Nat → Eng (List (Nat × Nat))
  | [] => .ok []
  | t :: l =>
    match kvExit m d src ctx w t, kvValidWord m d src ctx w t b with
    | .error e, _ | _, .error e => .error e
    | .ok x, .ok v =>
      match kvGaps m d src ctx w b l with
      | .error e => .error e
      | .ok r => .ok (if x ≠ 0xFFFF && x < b && !v.testBit (b % 64) then (t, x) :: r else r)

/-! ## Fills (R438) -/

def Dev.updFill (d : Dev) (die k : Nat) (f : FillEnt → FillEnt) : Dev :=
  d.updFirn die fun y => match tget y.fills k with
    | some e => { y with fills := tset y.fills k (f e) }
    | none => y

/-- The fill in flight of an entry. -/
def Firn.inFlight (y : Firn) (ctx : Nat) (dva : Word) (t b : Nat) : Option Nat :=
  (y.fills.find? fun (_, e) => e.ctx = ctx && e.dva = dva && e.t = t && e.b = b).map (·.1)

/-- A fill leaves the table; its add to FDONE, if it makes one, is a release at .pkg (R438, R439). -/
def Dev.endFill (m : Memory) (d : Dev) (die k : Nat) (e : FillEnt) (add : Option Word) (time : Nat) : Dev :=
  let src := firnEngine die
  let d := match add with
    | some v => engineAdd m (d.release src 3) src e.ctx (nth e.words 6 0) v time
    | none => d
  { d.updFirn die fun y => { y with fills := tdel y.fills k } with
    susp := d.susp.filter (· ≠ Cmd.fill die k) }

/-- A fill ends as failed (R438, R441): a REPEAT fill adds the faulted value (DEDUCED, log entry 32). -/
def Dev.failFill (m : Memory) (d : Dev) (die k : Nat) (e : FillEnt) (reason time : Nat) : Dev :=
  let d := d.engineReport (firnEngine die) e.ctx 0xB1 .fault 0 e.dva (toW (e.b * 2 ^ 48 + e.t * 2 ^ 32 + reason)) time
  let d := d.updFirn die fun y => { y with fails := satInc y.fails }
  d.endFill m die k e (if kvRepeat e.words then some (outcomeValue 3) else none) time

/-- A fill meets a fault (R121, R438): it suspends, or it ends as failed. -/
def Dev.fillFault (m : Memory) (d : Dev) (die k : Nat) (e : FillEnt) (x : EngFault) (time : Nat) : Dev :=
  let src := firnEngine die
  match x with
  | .trans va acc f =>
    let d := d.reportTrans src e.ctx e.dva va acc f time
    if f.replayable then
      { d.updFill die k fun e => { e with susp := true } with susp := d.susp ++ [Cmd.fill die k] }
    else d.failFill m die k e 1 time
  | .bad pa => (d.reportBad src e.ctx pa time).failFill m die k e 2 time
  | .away pkg va => (d.engineReport src e.ctx 0xC1 .fault e.dva va (toW (pkg * 2 ^ 32 + 3)) time).failFill m die k e 1 time
  | _ => d.failFill m die k e 1 time

/-- The record of a PROJECT fill's task (R438). -/
def fillRecord (tpl w : List Word) (t b : Nat) : List Word :=
  let w4 := toW (wfld (nth tpl 4 0) 48 16 * 2 ^ 48 + b * 2 ^ 16 + t)
  let mask : Word := 0xFFC0000007FFFFFF
  let w6 := (nth tpl 6 0 &&& ~~~mask) ||| (nth w 6 0 &&& mask)
  let w7 := (nth tpl 7 0 &&& ~~~(0x70 : Word)) ||| 0x30
  ((tpl.set 4 w4).set 6 w6).set 7 w7

/-- The task of a PROJECT fill is created as the prober would create it (R414, R438): in a full spill ring it is not
(reason 4).  Where the template's stage or parent is out of range, a creation raises a fault, and the fill ends as failed;
with which reason is not stated (DESIGN CHOICE, log entry 127: the free number). -/
def createFill (m : Memory) (d : Dev) (die k : Nat) (e : FillEnt) (tpl : List Word) (free : Word) (time : Nat) : Dev :=
  let words := fillRecord tpl e.words e.t e.b
  let g := if isGeneral e.core then d.lowCluster e.ctx else clusterOf e.core
  let home := moraineDie d e.core e.ctx
  if (recRange m d e.ctx words).isSome then d.failFill m die k e (wfld free 0 3) time
  else
    let (id, d') := newId d g
    match appendQueue m d' g { words := words, id := id, ctx := e.ctx } time with
    | .ok d' =>
      if !moraineRoom d home e.ctx [recDelta words 1] then d.reportFull home e.ctx time
      else (enterDeltas d' e.core home e.ctx [recDelta words 1] time).updFill die k fun e =>
        { e with begun := true, task := some id }
    | .full _ => d.failFill m die k e 4 time
    | .wait => d
    | .fault x => d.spillFault g e.ctx x time

/-- A fill begins: a REPEAT fill with a tag reads it, a PROJECT fill creates its task (R438). -/
def beginFill (m : Memory) (d : Dev) (die k : Nat) (free : Word) (time : Nat) : Dev :=
  match tget (d.die die).firn.fills k with
  | none => d
  | some e =>
    let src := firnEngine die
    let w := e.words
    if kvRepeat w then
      if kvTag w then
        match engineRead m d src e.ctx (nth w 7 0 + toW (4 * e.t)) 4 with
        | .ok bs => d.updFill die k fun e => { e with begun := true, wtag := toW (ofBytes bs) }
        | .error x => d.fillFault m die k e x time
      else d.updFill die k fun e => { e with begun := true }
    else match engineWords m d src e.ctx (nth w 5 0) 8 with
      | .error x => d.fillFault m die k e x time
      | .ok tpl => createFill m d die k e tpl free time

/-- A 64-byte unit of a REPEAT fill's rows is copied: those of K, then those of V (R438). -/
def fillUnit (m : Memory) (d : Dev) (die k : Nat) (e : FillEnt) (u time : Nat) : Eng Dev :=
  let src := firnEngine die
  let w := e.words
  let per := kvRowb w / 64
  let row (b : Nat) : Word := kvRow w (u / per) e.t b + toW (64 * (u % per))
  let tag := if kvTag w then some (e.wtag.toNat % 2 ^ 32) else none
  match engineRead m d src e.ctx (row e.e) 64 with
  | .error x => .error x
  | .ok bs => (engineStore m d src e.ctx (row e.b) bs tag time).map fun d =>
      d.updFill die k fun e => { e with units := u :: e.units }

/-- The units that are left are copied in order, until one meets a fault; what was written remains (R121). -/
def fillUnits (m : Memory) (die k : Nat) (e : FillEnt) (time : Nat) : List Nat → Dev → Dev × Option EngFault
  | [], d => (d, none)
  | u :: t, d =>
    match fillUnit m d die k e u time with
    | .ok d => fillUnits m die k e time t d
    | .error x => (d, some x)

/-- The rows of a REPEAT fill are copied and V is set (R438). -/
def copyFill (m : Memory) (d : Dev) (die k : Nat) (e : FillEnt) (time : Nat) : Dev × Option EngFault :=
  match fillUnits m die k e time ((List.range (2 * (kvRowb e.words / 64))).filter fun u => !e.units.contains u) d with
  | (d, some x) => (d, some x)
  | (d, none) => match kvSetValid m d (firnEngine die) e.ctx e.words e.t e.b time with
    | .ok d => (d, none)
    | .error x => (d, some x)

/-- A unit of a fill is written before the others: no order is stated for them (R438). -/
def fillAhead (m : Memory) (d : Dev) (die entry unit time : Nat) : Option Dev :=
  match tget (d.die die).firn.fills entry with
  | none => none
  | some e =>
    if e.susp || e.cleared || !e.begun || !kvRepeat e.words || 2 * (kvRowb e.words / 64) ≤ unit || e.units.contains unit
    then none
    else match fillUnit m d die entry e unit time with
      | .ok d => some d
      | .error _ => none

/-! ## Operations in their turn (R434, R437, R439) -/

/-- Answer a probe: the count, and the handle of a KVPROBE. -/
def Dev.answerProbe (d : Dev) (q : FirnOp) (count : Word) (v : Handle) : Dev :=
  d.updCore q.core fun c => (c.answerS q.tag count).answerH q.tag v

/-- Perform a probe on its gaps: those with a fill in flight join it, the others start one (R437). -/
def performProbe (m : Memory) (d : Dev) (die : Nat) (q : FirnOp) (gaps : List (Nat × Nat)) (free : Word) (time : Nat) :
    Dev :=
  let (d, es) := gaps.foldl (fun (acc : Dev × List Nat) (te : Nat × Nat) =>
    let y := (acc.1.die die).firn
    match y.inFlight q.ctx q.dva te.1 q.b with
    | some k => (acc.1.updFirn die fun y => { y with shared := satInc y.shared }, acc.2 ++ [k])
    | none =>
      let k := y.nextFill
      let e : FillEnt :=
        { ctx := q.ctx, core := q.core, begun := false, dva := q.dva, words := q.words, t := te.1, b := q.b, e := te.2
          wtag := 0, task := none, marked := false, cleared := false, ended := false, susp := false }
      let d := acc.1.updFirn die fun y =>
        { y with fills := tset y.fills k e, nextFill := k + 1, started := satInc y.started }
      (beginFill m d die k free time, acc.2 ++ [k])) (d, [])
  d.answerProbe q (toW gaps.length) (.fills die es)

/-- Do the gaps that need a fill fit in the table's 256 entries? -/
def Firn.fits (y : Firn) (q : FirnOp) (gaps : List (Nat × Nat)) : Bool :=
  y.fills.length + (gaps.filter fun (t, _) => (y.inFlight q.ctx q.dva t q.b).isNone).length ≤ 256

/-- Tokens of a probe. -/
def FirnOp.tokens (q : FirnOp) : List Nat := (List.range q.n).map (q.t0 + ·)

/-- Change the operation of a number, in its turn or set aside. -/
def Firn.updOp (y : Firn) (no : Nat) (f : FirnOp → FirnOp) : Firn :=
  let g (q : FirnOp) : FirnOp := if q.no = no then f q else q
  { y with ops := y.ops.map g, waiting := y.waiting.map g }

/-- The operation of a number leaves its Firn. -/
def Firn.dropOp (y : Firn) (no : Nat) : Firn :=
  { y with ops := y.ops.filter (·.no ≠ no), waiting := y.waiting.filter (·.no ≠ no) }

/-- An operation ends without effect: a probe's count is then the free value given, with a handle that names no fill, and
a notice's exit lets its notice end. -/
def Dev.endOp (m : Memory) (d : Dev) (die : Nat) (q : FirnOp) (free : Word) (time : Nat) : Dev :=
  let d := d.updFirn die fun y => y.dropOp q.no
  if q.kind < 2 then d.answerProbe q free (.fills die [])
  else if q.core = calvingUnit then exitPerformed m d q.ctx false time
  else d

/-- An operation of a Firn meets a fault: it suspends where firmware can resolve it (R121), otherwise it ends. -/
def Dev.firnFault (m : Memory) (d : Dev) (die : Nat) (q : FirnOp) (x : EngFault) (free : Word) (time : Nat) : Dev :=
  let src := firnEngine die
  let ended (d : Dev) : Dev := d.endOp m die q free time
  match x with
  | .trans va acc f =>
    let d := d.reportTrans src q.ctx q.dva va acc f time
    if f.replayable then
      { d.updFirn die fun y => y.updOp q.no fun q => { q with susp := true } with susp := d.susp ++ [Cmd.firn die q.no] }
    else ended d
  | .bad pa => ended (d.reportBad src q.ctx pa time)
  | .away pkg va => ended (d.engineReport src q.ctx 0xC1 .fault q.dva va (toW (pkg * 2 ^ 32 + 3)) time)
  | .noEngine va | .notHbm va => ended (d.engineReport src q.ctx 0x30 .fault q.dva va 0 time)
  | .unset _ | .scales _ => ended d

/-- What an operation comes to in its turn. -/
inductive Marked where
  | ok (d : Dev)
  /-- a cancel of it must wait: the operation waits, and those behind it go on (R121) -/
  | wait
  /-- a cancel has met a fault, which is reported: the operation waits likewise -/
  | waitIn (d : Dev)
  | fault (x : EngFault)
  deriving Repr

/-- The fills of a cleared token end without a write, their tasks cancelled as TCANCEL cancels (R439); d0 holds the units
before the operation. -/
def clearFills (m : Memory) (q : FirnOp) (die time : Nat) (d0 : Dev) : List (Nat × FillEnt) → Dev → Marked
  | [], d => .ok d
  | (k, e) :: t, d =>
    if e.ctx = q.ctx && e.dva = q.dva && e.t = q.t0 then
      let d := d.updFill die k fun e => { e with cleared := true }
      match e.task with
      | none => clearFills m q die time d0 t d
      | some id => match cancelTask m d q.ctx id time with
        | .done d _ => clearFills m q die time d0 t d
        | .wait => .wait
        | .full die => .waitIn (d0.reportFull die q.ctx time)
        | .fault g x => .waitIn (d0.spillFault g q.ctx x time)
    else clearFills m q die time d0 t d

/-- A KVMARK at its home Firn (R439). -/
def performMark (m : Memory) (d : Dev) (die : Nat) (q : FirnOp) (time : Nat) : Marked :=
  let src := firnEngine die
  let done (r : Eng Dev) (f : Dev → Marked) : Marked := match r with | .ok d => f d | .error x => .fault x
  match q.kind with
  | 2 => done (kvSetValid m d src q.ctx q.words q.t0 q.b time) fun d =>
      .ok (match (d.die die).firn.inFlight q.ctx q.dva q.t0 q.b with
        | some k => d.updFill die k fun e => if q.task.isSome && e.task = q.task then { e with marked := true } else e
        | none => d)
  | 3 => done (kvSetExit m d src q.ctx q.words q.t0 q.b time) .ok
  | _ => done (kvClear m d src q.ctx q.words q.t0 time) fun e => clearFills m q die time d (d.die die).firn.fills e

/-- The oldest waiting probe is performed afresh in the first turn in which its gaps fit (R437). -/
def firnRetry (m : Memory) (d : Dev) (die : Nat) (free : Word) (time : Nat) : Option Dev :=
  match (d.die die).firn.waiting.find? fun q => !q.susp with
  | none => none
  | some q =>
    match kvGaps m d (firnEngine die) q.ctx q.words q.b q.tokens with
    | .error x => some (d.firnFault m die q x free time)
    | .ok gaps =>
      if (d.die die).firn.fits q gaps then
        some (performProbe m (d.updFirn die fun y => y.dropOp q.no) die q gaps free time)
      else none

/-- An operation that has reached the home Firn, in its turn; none where it must wait. -/
def firnTurn (m : Memory) (d : Dev) (die : Nat) (free : Word) (time : Nat) (q : FirnOp) : Option Dev :=
  let y := (d.die die).firn
  let drop (d : Dev) : Dev := d.updFirn die fun y => y.dropOp q.no
  let aside (d : Dev) : Dev := (drop d).updFirn die fun y => { y with waiting := y.waiting ++ [q] }
  if q.kind < 2 then
    if !y.waiting.isEmpty then some (aside d)
    else match kvGaps m d (firnEngine die) q.ctx q.words q.b q.tokens with
      | .error x => some (d.firnFault m die q x free time)
      | .ok gaps => some (if y.fits q gaps then performProbe m (drop d) die q gaps free time else aside d)
  else match performMark m d die q time with
    | .fault x => some (d.firnFault m die q x free time)
    | .ok d => some (if q.core = calvingUnit then exitPerformed m (drop d) q.ctx true time else drop d)
    | .wait => none
    | .waitIn d => some d

/-- FIRN_OPERATION (R434, R437): a turn of the home Firn: the oldest waiting probe, where its gaps fit, else the oldest
operation that has reached it and need not wait (R121); a probe may be set aside. -/
def execFirnOperation (die : Nat) (s : State) : Host.Outcome State Fault Refusal :=
  happening (fun s =>
    let d := s.dev
    let free := Config.freeWord s.free
    (firnRetry s.mem d die free s.time).orElse fun _ =>
      ((d.die die).firn.ops.filter fun q => !q.susp).findSome? (firnTurn s.mem d die free s.time)) s

/-- PROBE_RETRY (R437): the oldest waiting probe is performed afresh once its gaps fit. -/
def execProbeRetry (die : Nat) (s : State) : Host.Outcome State Fault Refusal :=
  happening (fun s => firnRetry s.mem s.dev die (Config.freeWord s.free) s.time) s

/-- A fill goes on to its end (R438, R439). -/
def fillTurn (m : Memory) (d : Dev) (die entry : Nat) (free : Word) (time : Nat) : Option Dev :=
  match tget (d.die die).firn.fills entry with
  | none => none
  | some e =>
    if e.cleared && e.task.isNone then some (d.endFill m die entry e (some (outcomeValue 2)) time)
    else if e.susp then none
    else if !e.begun then some (beginFill m d die entry free time)
    else if kvRepeat e.words then
      some (match copyFill m d die entry e time with
        | (d, none) => d.endFill m die entry e (some (outcomeValue 1)) time
        | (d, some x) => d.fillFault m die entry e x time)
    else
      let marking := (d.die die).firn.ops.any fun q => 2 ≤ q.kind && q.ctx = e.ctx && q.task = e.task
      if !e.ended || marking then none
      else if e.marked || e.cleared then some (d.endFill m die entry e none time)
      else some (d.failFill m die entry e 3 time)

/-- FILL_END (R437-R439): a turn of the home Firn: the oldest waiting probe, where its gaps fit, else a fill goes on to its
end. -/
def execFillEnd (die entry : Nat) (s : State) : Host.Outcome State Fault Refusal :=
  happening (fun s =>
    let free := Config.freeWord s.free
    (firnRetry s.mem s.dev die free s.time).orElse fun _ => fillTurn s.mem s.dev die entry free s.time) s

end Sys2Proof.Machine
end

