-- ==== Sys2Proof/Machine/Fabric.lean ====
section
/-!
DEFINITION. The fabric ports (18): requests of and to other packages, calving notices, collectives, links.
-/

namespace Sys2Proof.Machine

/-- Source number under which a package's ports act for requests and collectives (R461). -/
def fabricPort : Nat := 368

/-! ## Calving notices (R470, R472, R473) -/

/-- The row word of a notice (R472). -/
def noticeOf (target : Word) (row time : Word) : Notice :=
  { target := wfld target 0 6, row := wfld row 0 12, token := wfld row 16 16, cw := BitVec.ofNat 32 (wfld row 32 32)
    time := time, spilled := false }

/-- CALVE, the sending form (R472) (DEDUCED, log entry 62). -/
def execCalve (h : Hdr) (o : YG) (s : State) : Host.Outcome State Fault Refusal :=
  ctlSyllable h
    (fun s b c =>
      let n := b.core
      let x := c.s o.x.toNat
      let y := c.s o.y.toNat
      let pkg := wfld x 54 9
      if x.getLsbD 63 && 383 < pkg then .raise (mkFault 0xC1 x (toW (pkg * 2 ^ 32 + 7)))
      else
        let d := s.dev.releaseFor n o.ord o.scp
        if wfld y 32 2 ≠ 2 then .ok d
        else
          let q : RemoteOut :=
            { src := n, ctx := (d.ctxOfCore n).getD noContext
              pkg := if x.getLsbD 63 then pkg else Config.packageNumber, kind := .notice, ident := x
              pa := y.toNat, data := [], val := c.s o.z.toNat, tag := 0, phase := 0, start := s.time }
          .ok (d.send q))
    (fun b => b.ordered o.ord) s

/-- CALVE, the arming form (R473).  A bad descriptor is reported at the address it was loaded from (R480) (DEDUCED, log
entry 63). -/
def execCalveArm (h : Hdr) (o : YG) (s : State) : Host.Outcome State Fault Refusal :=
  syllable h (fun s b c =>
    let n := b.core
    let a := c.s o.x.toNat
    let tz := c.s o.z.toNat
    let ctx := (s.dev.ctxOfCore n).getD noContext
    if a.toNat % 32 ≠ 0 then .raise (mkFault 0x36 a 0)
    else readImage s b c true a 32 fun bs =>
      let w := wordsOf 4 bs
      let w3 := nth w 3 0
      let i := wfld w3 16 6
      let nrow := wfld w3 0 13
      if wfld w3 22 42 ≠ 0 || wfld w3 13 3 ≠ 0 || nrow = 0 || 4096 < nrow || (nth w 0 0).toNat % 4 ≠ 0 ||
          (nth w 1 0).toNat % 64 ≠ 0 then .raise (mkFault 0xC1 a (targetFault i).2)
      else match resolveCounter s.dev ctx (nth w 2 0), s.dev.ctx ctx with
        | .error r, _ => .raise (mkFault 0x42 (nth w 2 0) (toW r))
        | .ok _, none => .raise (mkFault 0x42 (nth w 2 0) 2)
        | .ok _, some x =>
          let v := x.calv
          if v.arm.isSome || !v.held.isEmpty then .stall 11
          else
            let tcur := match tget v.targets i with
              | some (_, t) => if t.toNat < tz.toNat then tz else t
              | none => tz
            let mine (q : Notice) : Bool := q.target = i && q.time.toNat ≤ tcur.toNat
            let old := v.pending.filter fun q => mine q && q.time ≠ tcur
            let now := v.pending.filter fun q => mine q && q.time = tcur
            let tag := (s.dev.core n).nextTag
            let d := sendLate s.dev b (.s (physSV c.lp o.y.toNat) 0) false tag
            let d := d.updCore n fun c => { c with nextTag := tag + 1 }
            let d := d.updCalv ctx fun v => { v with
              targets := tset v.targets i (w, tcur)
              pending := v.pending.filter fun q => !mine q
              stale := sat16 v.stale old.length }
            .ok (runArm s.mem ctx n tag w s.time now 0 d)) s

/-! ## Requests of other packages (R466, R467) -/

/-- Word w of export entry e. -/
def Fab.exportWord (f : Fab) (e w : Nat) : Word := tgetD f.exports (2 * e + w) 0

/-- Does an entry match a request, its permission bit apart (R466)? (DEDUCED, log entry 65) -/
def Fab.matches (f : Fab) (spkg sctx : Nat) (kind : RemoteKind) (pa : Nat) (e : Nat) : Bool :=
  let w0 := f.exportWord e 0
  let base := wfld (f.exportWord e 1) 16 36 * 65536
  w0.getLsbD 63 && wfld w0 54 9 = spkg && wfld w0 48 6 = sctx &&
    (match kind with
     | .load | .store => base ≤ pa && pa < base + wfld w0 0 20 * 65536 && placeOf pa ≠ .control
     | _ => true)

/-- Does an entry hold the permission bit of a request (R466)? -/
def Fab.permits (f : Fab) (kind : RemoteKind) (e : Nat) : Bool :=
  (f.exportWord e 0).getLsbD (match kind with | .load => 39 | .store => 40 | _ => 41)

/-- What serving a request comes to. -/
inductive Served where
  /-- the answer: a reason, 0 for success, and a value -/
  | answer (d : Dev) (reason : Nat) (v : Word)
  /-- it waits here -/
  | waits
  deriving Repr

/-- Serve a request in this package (R466, R467, R468, R471): the first entry that matches with its permission bit serves
it; where the entries that match lack that bit, the reason is 2 (DEDUCED, log entry 65).  src is the agent that reads, and
put makes the store in a context. -/
def serveRemote (m : Memory) (d : Dev) (src spkg sctx : Nat) (kind : RemoteKind) (pa len : Nat) (put : Nat → Dev → Dev)
    (ident val row : Word) (open' : Nat → Word) (time : Nat) : Served :=
  let found := (List.range 256).filter (d.fab.matches spkg sctx kind pa)
  match found.find? (d.fab.permits kind) with
  | none => .answer d (if found.isEmpty then 1 else 2) 0
  | some e =>
    let w0 := d.fab.exportWord e 0
    let ctx := wfld w0 42 6
    let id := ident &&& 0x003FFFFFFFFFFFFF
    let counter (f : Nat → Nat → Served) : Served :=
      match resolveCounter d ctx id with
      | .ok (.here k i) => f k i
      | .ok (.remote _) => .answer d (0x42 + 256) 0
      | .error r => .answer d (0x42 + 256 * r) 0
    match kind with
      | .load =>
        if placeOf pa = .nothing then .answer d 3 0
        else if d.badAt pa len then .answer (if d.poisoned pa then d.history 2 ctx pa time else d) 4 0
        else .answer d 0 (toW (ofBytes (readBytes m d src pa len)))
      | .store =>
        if placeOf pa = .nothing then .answer d 3 0
        else .answer (put ctx d) 0 0
      | .counterAdd => counter fun k i =>
          let (d, old, fine) := counterOp m d ctx k i (.add val)
          .answer d (if fine then 0 else 0x40) old
      | .counterMax => counter fun k i => let (d, old, _) := counterOp m d ctx k i (.raise val)
                                          .answer d 0 old
      | .counterRead => counter fun k i =>
          let (d, v, _) := counterOp m d ctx k i .read
          if val.toNat ≤ v.toNat then .answer d 0 v else .waits
      | .notice =>
        match arriveNotice m d ctx (noticeOf ident row val) open' time with
        | some d => .answer d 0 0
        | none => .waits

/-- Does a request travel in the priority class (R462)? -/
def prioritised : RemoteKind → Bool
  | .load | .store => false
  | _ => true

/-- REMOTE_REQUEST (R466): a request of another package is served or refused.  A notice that the calving unit does not
accept waits, and its pair's priority traffic queues behind it (R463, R471). -/
def execRemoteRequest (r : RemoteReq) (s : State) : Host.Outcome State Fault Refusal :=
  happening (fun s =>
    let d := s.dev
    let first := d.fab.refused.find? fun x => x.spkg = r.spkg
    let put (ctx : Nat) (d : Dev) : Dev :=
      (d.writeBytes fabricPort ctx r.pa (toBytes r.len r.val.toNat) s.time).showAll
        fun e => e.owner == fabricPort && e.ended
    if !d.accepted 2 || prioritised r.kind && first.isSome && first ≠ some r then none
    else match serveRemote s.mem d fabricPort r.spkg r.sctx r.kind r.pa r.len put r.ident r.val r.rowWord
        (fun i => Config.freeWord (4 * s.free + i)) s.time with
    | .answer d _ _ => some { d with fab := { d.fab with refused := d.fab.refused.erase r } }
    | .waits => if r.kind = .notice && first.isNone then some { d with fab := { d.fab with refused := d.fab.refused ++ [r] } }
        else none) s

/-! ## Answers (R467, R468, R472) -/

/-- Report the failure of an engine's request in its context's fault ring. -/
def Dev.reportRemote (d : Dev) (src ctx reason pkg : Nat) (ident val : Word) (time : Nat) : Dev :=
  let e := remoteEvent reason pkg ident val
  d.engineReport src ctx e.cause .fault 0 e.info0 e.info1 time

/-- The loaded bytes reach the pending result under a tag: offset and sign as the request names them (R467). -/
def Core.answerLoad (c : Core) (tag off : Nat) (signed : Bool) (len : Nat) (v : Word) : Core :=
  { c with pend := c.pend.map fun (e : Pend) =>
      (if e.tag = tag && !e.ready then
        match e.res with
        | .s n _ => { e with res := .s n (loadValue (toBytes len v.toNat) signed), ready := true }
        | .v n _ mask => { e with res := .v n (BitVec.ofNat 2048 (v.toNat % 2 ^ (8 * len) * 2 ^ off)) mask, ready := true }
        | _ => { e with ready := true }
       else e) }

/-- Another package has refused a frontier's publication: the first skip of each stage and counter is recorded, as
REMOTE_FAULT (R277).  The reason of one that is out of range there is not stated: the free word gives it (DESIGN CHOICE, log
entry 102). -/
def Dev.refusedMirror (d : Dev) (q : RemoteOut) (reason : Nat) (free : Word) (time : Nat) : Dev :=
  match d.ctx q.ctx with
  | none => d
  | some c =>
    if c.root.skipped.contains (q.tag, q.ident) then d
    else
      let why := if reason % 256 = 0x42 then wfld free 0 4 else reason
      (d.setCtx q.ctx { c with root := { c.root with skipped := (q.tag, q.ident) :: c.root.skipped } }).reportRemote
        q.src q.ctx why q.pkg q.ident q.val time

/-- What a failed request leaves behind, or an answered one brings, by what asked (R467, R468): a notice, a copy engine's
access or question, a publication, the sequencer's frontier, a gate, an engine's add, a load, a posted store, an operation that a bundle waits for. -/
def replyTo (d : Dev) (q : RemoteOut) (reason : Nat) (v free : Word) (time : Nat) : Dev :=
  let report (d : Dev) (src : Nat) : Dev := d.reportRemote src q.ctx reason q.pkg q.ident q.val time
  if q.kind = .notice then
    if reason = 0 || q.lost then d else report d calvingUnit
  else if (q.kind = .store || q.kind = .load) && 320 ≤ q.src then
    if reason = 0 then d else d.stopPacket q.val.toNat q.tag (.refused q.pkg q.ident) reason time
  else if q.kind = .counterMax && 352 ≤ q.src && reason ≠ 0x80 then
    if reason = 0 then d else d.refusedMirror q reason free time
  else if 320 ≤ q.src && q.src < 336 && (q.kind = .counterRead || !q.data.isEmpty) then
    (if reason = 0 then d else report d q.src).copyAnswer q (reason = 0) v free
  else if 386 ≤ q.src && q.kind = .counterRead then
    if reason = 0 then d.updCtx q.ctx fun c =>
      let f := c.gen.front.getD 0
      { c with gen := { c.gen with front := some (if f.toNat < q.val.toNat then q.val else f) } }
    else report d q.src
  else if 288 ≤ q.src then
    if q.kind = .counterRead then
      if reason = 0 then d.updStream q.ctx q.tag fun z => { z with gate := 2 }
      else (report d q.src).updStream q.ctx q.tag fun z => { z with gate := 0, stopped := true }
    else if reason = 0 then d else report d q.src
  else if q.tag ≠ 0 then
    if reason = 0 then
      d.updCore q.src fun c => c.answerLoad q.tag (q.val.toNat / 2) (q.val.getLsbD 0) q.data.length v
    else d.updCore q.src fun c =>
      if c.pend.any fun (e : Pend) => e.tag = q.tag then
        { c with remFails := c.remFails ++ [(q.tag, remoteEvent reason q.pkg q.ident q.val)] }
      else c
  else if q.kind = .store then
    if reason = 0 then d
    else d.updCore q.src fun c => { c with remFails := c.remFails ++ [(0, remoteEvent reason q.pkg q.ident q.val)] }
  else
    let mine (r : RemOp) : Bool := r.kind = q.kind && r.ident = q.ident && r.val = q.val && r.answer.isNone
    if (d.core q.src).remOps.any mine then
      d.updCore q.src fun c => { c with remOps := c.remOps.map fun (r : RemOp) =>
        (if mine r = true then { r with answer := some (reason, v) } else r) }
    else if reason = 0 then d else report d q.src

/-- An answer, or its absence (reason 0x80), comes to what asked; a completion add is followed by the stakes that its task
gives up (R273). -/
def answerTo (d : Dev) (q : RemoteOut) (reason : Nat) (v free : Word) (time : Nat) : Dev :=
  enterDeltas (replyTo d q reason v free time) q.src q.die q.ctx q.stakes time

/-- A store to a remote page that this package serves itself: it is its agent's own, of the running phase if that has not
ended (R126, R464, R467). -/
def Dev.ownStore (d : Dev) (q : RemoteOut) (ctx time : Nat) : Dev :=
  (unitPieces q.pa q.data.length).foldl (fun d (a, l) =>
    let piece := (q.data.drop (a - q.pa)).take l
    (d.unitWrite ctx a piece time fun d =>
      if q.src < 288 && (d.core q.src).phase = q.phase then d.coreStore q.src a piece
      else d.store q.src q.phase true a piece).clearGranules a l) d

/-- Requests of this package to itself that keep the order of their class (R463, R464): the bulk class carries loads and
stores, the priority class the others.  A condition once registered has arrived. -/
def RemoteOut.lane (q : RemoteOut) : Option Bool :=
  if q.pkg ≠ Config.packageNumber || q.acked then none else some (prioritised q.kind)

/-- Does an earlier request of its lane stand before a request? -/
def behindLane (l : List RemoteOut) (idx : Nat) (q : RemoteOut) : Bool :=
  q.lane.isSome && (l.take idx).any fun p => p.lane = q.lane

/-- CALVING_NOTICE (R470): a notice sent within the package arrives, in the order of the sends. -/
def execCalvingNotice (ctx target row token : Nat) (cw : BitVec 32) (time : BitVec 64) (s : State) :
    Host.Outcome State Fault Refusal :=
  happening (fun s =>
    let n : Notice := { target := target, row := row, token := token, cw := cw, time := time, spilled := false }
    let l := s.dev.remote
    let i := l.findIdx fun q => q.kind = .notice && !q.ident.getLsbD 63
    match l[i]? with
    | none => none
    | some q =>
      if behindLane l i q || q.ctx ≠ ctx || noticeOf q.ident (toW q.pa) q.val ≠ n then none
      else
        arriveNotice s.mem { s.dev with remote := l.eraseIdx i } ctx n (fun i => Config.freeWord (4 * s.free + i)) s.time)
    s

/-- Change the request at a place. -/
def Dev.updRemote (d : Dev) (idx : Nat) (f : RemoteOut → RemoteOut) : Dev := { d with remote := d.remote.modify idx f }

/-- A request that waits for a port enters the one that its pair uses now, once every earlier request of the pair is
answered or has timed out (R464). -/
def Dev.enterPort (d : Dev) (idx : Nat) (q : RemoteOut) : Option Dev :=
  (d.portFor (d.remote.take idx) q.pkg).map fun p => d.updRemote idx fun q => { q with port := some p }

/-- Can a request not be answered now: it is lost, late, or behind another of its lane, or has an event of its own? -/
def RemoteOut.closed (q : RemoteOut) (d : Dev) (idx time : Nat) : Bool :=
  q.lost || q.overdue d time || behindLane d.remote idx q || (q.kind = .notice && !q.ident.getLsbD 63)

/-- This package serves a request of its own (R464) (DEDUCED, log entry 66). -/
def serveOwn (m : Memory) (d : Dev) (q : RemoteOut) (open' : Nat → Word) (time : Nat) : Served :=
  serveRemote m d q.src q.pkg q.ctx q.kind q.pa q.data.length (fun ctx d => d.ownStore q ctx time) q.ident q.val
    (toW q.pa) open' time

/-- The bytes that a packet has read of this package through REM = 1 reach it. -/
def Dev.copyGot (m : Memory) (d : Dev) (q : RemoteOut) : Dev :=
  d.updPacket q.val.toNat q.tag fun p => { p with got := p.got ++ readBytes m d q.src q.pa q.data.length }

/-- REMOTE_ANSWER (R467): an answer or a refusal reaches the requester, bulk data within its partition's share (R22); a
request to the package itself is served here (R464) (DEDUCED, log entry 66).  A copy packet's reads of other packages
have their bytes with its own event. -/
def execRemoteAnswer (idx reason : Nat) (data : BitVec 64) (s : State) : Host.Outcome State Fault Refusal :=
  happening (fun s =>
    let free (i : Nat) : Word := Config.freeWord (4 * s.free + i)
    match s.dev.remote[idx]? with
    | none => none
    | some q =>
      let d := { s.dev with remote := s.dev.remote.eraseIdx idx }
      if q.closed s.dev idx s.time then none
      else if q.pkg = Config.packageNumber then
        match serveOwn s.mem d q free s.time with
        | .answer d r v =>
          let d := if q.kind = .load && 320 ≤ q.src && r = 0 then d.copyGot s.mem q else d
          some (answerTo d q r v (free 0) s.time)
        | .waits => none
      else if q.port.isNone then s.dev.enterPort idx q
      else if q.kind = .load && 320 ≤ q.src then none
      else match q.kind with
        | .load | .store =>
          (d.admitBulk q.ctx q.pkg q.data.length).map fun d => answerTo d q reason data (free 0) s.time
        | _ => some (answerTo d q reason data (free 0) s.time)) s

/-- Another sync engine acknowledges the registration of a condition (R468): from now on it may wait without bound. -/
def Dev.registered (m : Memory) (d : Dev) (idx time : Nat) : Option Dev :=
  match d.remote[idx]? with
  | none => none
  | some q =>
    let waits := match serveOwn m { d with remote := d.remote.eraseIdx idx } q (fun _ => 0) time with
      | .waits => true
      | .answer .. => false
    if q.kind ≠ .counterRead || q.acked || q.closed d idx time then none
    else if q.pkg = Config.packageNumber then (if waits then some (d.updRemote idx fun q => { q with acked := true }) else none)
    else if q.port.isNone then d.enterPort idx q
    else some (d.updRemote idx fun q => { q with acked := true })

/-- REMOTE_TIMEOUT (R467, R468): no answer within FAB.TMO.ACC microseconds of the package time base (R3); the bound of a
step makes it happen (`State.due`).  A lost notice is given up. -/
def execRemoteTimeout (idx : Nat) (s : State) : Host.Outcome State Fault Refusal :=
  happening (fun s =>
    match s.dev.remote[idx]? with
    | none => none
    | some q =>
      if !q.overdue s.dev s.time then none
      else some (answerTo { s.dev with remote := s.dev.remote.eraseIdx idx } q 0x80 0 (Config.freeWord (4 * s.free)) s.time))
    s

/-! ## Links (R22, R465, R468) -/

/-- LINK_RETURN (R465): firmware brings the link up again. -/
def execLinkReturn (port : Nat) (s : State) : Host.Outcome State Fault Refusal :=
  happening (fun s =>
    if 18 ≤ port then none else some (s.dev.updPort port fun x => { x with up := true, lanef := 0 })) s

/-- PTP_EVENT_MESSAGE (R468): the port stamps an event message at the link (PRESUMED, log entry 81). -/
def execPtpEventMessage (port : Nat) (transmit : Bool) (s : State) : Host.Outcome State Fault Refusal :=
  happening (fun s =>
    if 18 ≤ port then none
    else some (s.dev.updPort port fun x => { x with stamps := x.stamps ++ [(transmit, s.time)] })) s

/-- BULK_SHARE_WINDOW (R22): a port's next window begins, 1 µs of the package time base after the one before (R3). -/
def execBulkShareWindow (port : Nat) (s : State) : Host.Outcome State Fault Refusal :=
  happening (fun s =>
    if 18 ≤ port || s.time < (tgetD s.dev.fab.ports port Port.reset).since + 1000 then none
    else some (s.dev.updPort port fun x => { x with since := s.time, window := [] })) s

/-! ## Collectives (R474-R477) -/

def colNel (w : List Word) : Nat := wfld (nth w 3 0) 32 32
def colNrank (w : List Word) : Nat := wfld (nth w 5 0) 48 16
def colRankNo (w : List Word) : Nat := wfld (nth w 5 0) 32 16
def colWord3 (w : List Word) : Nat := wfld (nth w 3 0) 0 32

/-- COLLECTIVE_MISMATCH reason 1 (R474); form 0 reduces, 1 broadcasts, 2 gathers. -/
def colBad (d : Dev) (ctx form : Nat) (w : List Word) : Bool :=
  let w3 := nth w 3 0
  let w5 := nth w 5 0
  let nel := colNel w
  let dfmt := match d.ctx ctx with | some c => c.format (wfld w3 12 4) | none => 0
  (nth w 2 0).toNat % 2 ≠ 0 || wfld w5 11 21 ≠ 0 || wfld w5 0 3 ≠ 0 || badScope (wfld w5 8 3) || badScope (wfld w5 4 3) ||
    wfld (nth w 6 0) 32 32 ≠ 0 || nth w 7 0 ≠ 0 || colNrank w < 2 || 1024 < colNrank w ||
    (if form = 0 then
      nel = 0 || wfld w3 16 16 ≠ 0 || wfld w3 8 4 ≠ 0 || wfld w3 0 3 ≠ 0 || wfld w3 6 2 = 3 || wfld w3 4 2 = 3 ||
        !reduceFmt dfmt
     else colWord3 w ≠ 0 || nel % 64 ≠ 0)

/-- COLLECTIVE_MISMATCH (R480). -/
def colMismatch (a : Word) (w : List Word) (reason : Nat) : Event :=
  mkFault 0xC3 a (toW (wfld (nth w 6 0) 0 32 * 2 ^ 32 + reason))

/-- Collectives in flight. -/
def Dev.setCol (d : Dev) (i : Nat) (x : Col) : Dev := { d with fab := { d.fab with cols := tset d.fab.cols i x } }

/-- A rank joins its collective, or starts it in a free entry (R475). -/
def joinCol (d : Dev) (form part time : Nat) (r : ColRank) : Option Dev :=
  let id : BitVec 32 := (nth r.words 6 0).setWidth 32
  match d.fab.cols.find? fun (_, (x : Col)) =>
      x.form = form && x.colid = id && x.part = part && x.others.isNone && x.bad.isNone && !x.overdue d time with
  | some (i, x) => some (d.setCol i { x with ranks := x.ranks ++ [r] })
  | none =>
    if 64 ≤ d.fab.cols.length then none
    else
      let i := d.fab.nextCol
      let x : Col := { form := form, colid := id, part := part, start := time, ranks := [r], gathered := none, susp := false
                       bad := none }
      some { d.setCol i x with fab := { (d.setCol i x).fab with nextCol := i + 1 } }

/-- The common meaning of COLRED, COLBC and COLAG (R474-R479). -/
def enterCol (h : Hdr) (o : YG) (form : Nat) (s : State) : Host.Outcome State Fault Refusal :=
  ctlSyllable h
    (fun s b c =>
      let n := b.core
      let a := c.s o.x.toNat
      let ctx := (s.dev.ctxOfCore n).getD noContext
      match firstOf [rangeFault s.dev n a 64 64 .read, rangeBad s.dev n a 64] with
      | some e => .raise e
      | none =>
        let w := spmWords s.mem s.dev n a
        if colBad s.dev ctx form w then .raise (colMismatch a w 1)
        else if colNrank w ≤ colRankNo w then .raise (colMismatch a w 2)
        else readImage s b c true (nth w 2 0 + toW (2 * colRankNo w)) 2 fun bs =>
          if ofBytes bs ≠ Config.packageNumber then .raise (colMismatch a w 2)
          else match resolveCounter s.dev ctx (nth w 4 0) with
            | .error r => .raise (mkFault 0x42 (nth w 4 0) (toW r))
            | .ok _ =>
              let part := ((s.dev.ctx ctx).map (·.part)).getD 0
              let r : ColRank := { core := n, ctx := ctx, dva := a, words := w }
              match joinCol (s.dev.releaseFor n o.ord o.scp) form part s.time r with
              | some d => .ok d
              | none => .stall 11)
    (fun b => b.ordered o.ord) s

/-- COLRED (R474) (DEDUCED, log entry 64). -/
def execColred (h : Hdr) (o : YG) (s : State) : Host.Outcome State Fault Refusal := enterCol h o 0 s
/-- COLBC (R474). -/
def execColbc (h : Hdr) (o : YG) (s : State) : Host.Outcome State Fault Refusal := enterCol h o 1 s
/-- COLAG (R474). -/
def execColag (h : Hdr) (o : YG) (s : State) : Host.Outcome State Fault Refusal := enterCol h o 2 s

/-- A rank's group table. -/
def ColRank.readGroup (m : Memory) (d : Dev) (r : ColRank) : Eng (List (BitVec 16)) :=
  let k := colNrank r.words
  (engineRead m d fabricPort r.ctx (nth r.words 2 0) (2 * k)).map fun bs =>
    (List.range k).map fun i => BitVec.ofNat 16 (ofBytes ((bs.drop (2 * i)).take 2))

/-- Has a collective that is not gathered traffic on a port (R465)?  Its ranks lie in the packages of its group table. -/
def Col.uses (x : Col) (m : Memory) (d : Dev) (port : Nat) : Bool :=
  x.gathered.isNone && x.bad.isNone && x.ranks.any fun r => match r.readGroup m d with
    | .ok l => l.any fun pkg => pkg.toNat ≠ Config.packageNumber && d.fab.portTo pkg.toNat = some port
    | .error _ => false

/-- LINK_DOWN (R465): the whole port goes down, with records to the system path and to each context with traffic on it;
the traffic is lost. -/
def execLinkDown (port : Nat) (lanes : BitVec 4) (s : State) : Host.Outcome State Fault Refusal :=
  happening (fun s =>
    if 18 ≤ port || lanes = 0 then none
    else
      let d := s.dev
      let hit (q : RemoteOut) : Bool := q.port = some port && !q.lost && !q.acked
      let struck (x : Col) : Bool := x.uses s.mem d port
      let ctxs := ((d.remote.filter hit).map (·.ctx) ++
        (d.fab.cols.filter fun (_, x) => struck x).flatMap fun (_, x) => x.ranks.map (·.ctx)).dedup
      let src := fabricPort + port
      let i1 := toW lanes.toNat
      let d := { d with
        remote := d.remote.map fun (q : RemoteOut) => (if hit q = true then { q with lost := true } else q)
        fab := { d.fab with cols := d.fab.cols.map fun (i, x) => (i, if struck x then { x with lost := true } else x) } }
      let d := d.updPort port fun x => { x with up := false, lanef := x.lanef ||| lanes, ldown := sat16 x.ldown 1 }
      let d := d.systemReport src 0xC0 (toW port) i1 s.time
      some (ctxs.foldl (fun d ctx => d.engineReport src ctx 0xC0 .fault 0 (toW port) i1 s.time) d)) s

/-- Elements that a local rank brings to a reduction (R92, R476), located as a contributor's are (DESIGN CHOICE, log entry
121). -/
def ColRank.elements (m : Memory) (d : Dev) (r : ColRank) : Eng (List FVal) :=
  let base := nth r.words 0 0
  match containerAt m d fabricPort r.ctx base with
  | .error x => .error x
  | .ok c => (List.range (colNel r.words)).mapM fun e => readElement m d fabricPort r.ctx base c e

/-- Elements that a rank of another package brings, each decoded with its scale by its own page (R91, R92, R476). -/
def farElements (q : RankDesc) : Eng (List FVal) :=
  q.elems.mapM fun (desc, raw, scale) => match descFmt desc with
    | none => .error (.unset 0)
    | some f =>
      let x := f.decode raw
      .ok (if descScl desc = 0 then x else x.mul (scaleOf (descScl desc) scale.toNat))

/-- Bytes that a rank of another package brings, with their scales. -/
def rankSize (q : RankDesc) : Nat :=
  if q.elems.isEmpty then q.bytes.length
  else ((q.elems.map fun (desc, _, _) => ((descFmt desc).map (·.c)).getD 0).sum + 7) / 8 +
    (q.elems.map fun (desc, _, _) => if descScl desc = 0 then 0 else 1024 / descBlock desc).sum / 1024

/-- The result of a collective, the same at every rank (R104, R476). -/
def colResult (m : Memory) (d : Dev) (x : Col) (others : List RankDesc) : Eng (List Byte) :=
  match x.ranks with
  | [] => .ok []
  | r0 :: _ =>
    let w := r0.words
    let nrank := colNrank w
    let here (i : Nat) : Option ColRank := x.ranks.find? fun r => colRankNo r.words = i
    let far (i : Nat) : Option RankDesc := others.find? fun q => q.rank = i
    let bytesAt (i : Nat) : Eng (List Byte) := match here i, far i with
      | some r, _ => engineRead m d fabricPort r.ctx (nth r.words 0 0) (colNel w)
      | none, some q => .ok q.bytes
      | none, none => .ok []
    match x.form with
    | 0 =>
      let one (i : Nat) : Eng (List FVal) := match here i, far i with
        | some r, _ => r.elements m d
        | none, some q => farElements q
        | none, none => .ok []
      match (List.range nrank).mapM one, (d.ctx r0.ctx).bind fun c => descFmt (c.format (wfld (nth w 3 0) 12 4)) with
      | .error e, _ => .error e
      | .ok _, none => .error (.unset (wfld (nth w 3 0) 12 4))
      | .ok xs, some f =>
        let rm : Rounding := { rm := BitVec.ofNat 2 (wfld (nth w 3 0) 4 2), sat := (nth w 3 0).getLsbD 3, u := 0 }
        let vals := (List.range (colNel w)).map fun e =>
          reduceElement f (wfld (nth w 3 0) 6 2) rm (xs.map fun l => nth l e (.fin false 0 0))
        .ok (toBytes ((colNel w * f.c + 7) / 8) (vals.foldr (fun v acc => v % 2 ^ f.c + 2 ^ f.c * acc) 0))
    | 1 => bytesAt 0
    | _ => ((List.range nrank).mapM bytesAt).map List.flatten

/-- Do the descriptors agree, and does every rank occur once (R475)?  The reason of a mismatch. -/
def colReason (gs : List (List (BitVec 16))) (x : Col) (others : List RankDesc) : Option Nat :=
  match x.ranks, gs with
  | r0 :: _, g0 :: _ =>
    let w := r0.words
    let same := (x.ranks.all fun r => colNrank r.words = colNrank w && colNel r.words = colNel w &&
        colWord3 r.words = colWord3 w) && gs.all (· = g0) &&
      others.all fun q => q.nrank = colNrank w && q.nel = colNel w && q.word3.toNat = colWord3 w && q.group = g0
    let nos := x.ranks.map (fun r => colRankNo r.words) ++ others.map (·.rank)
    if !same then some 3 else if nos.dedup.length ≠ nos.length then some 4 else none
  | _, _ => none

/-- A collective meets a fault (R121): it suspends, or ends as faulted at every rank; cause 0 has its record already. -/
def Dev.colFault (d : Dev) (i : Nat) (x : Col) (f : EngFault) (time : Nat) : Dev :=
  let ctx := (x.ranks.head?.map (·.ctx)).getD 0
  let dva := (x.ranks.head?.map (·.dva)).getD 0
  let ends (d : Dev) (c : BitVec 8) (r : Nat) : Dev := d.setCol i { x with bad := some (c, r) }
  match f with
  | .trans va acc f =>
    let d := d.reportTrans fabricPort ctx dva va acc f time
    if f.replayable then { d.setCol i { x with susp := true } with susp := d.susp ++ [Cmd.col i] } else ends d 0 0
  | .bad pa =>
    (match placeOf pa with
     | .hbm => ends (d.reportBad fabricPort ctx pa time) 0 0
     | _ => ends (d.engineReport fabricPort ctx 0x39 .fault 0 (toW (pa / 8 * 8)) 0 time) 0 0)
  | .unset k => ends (d.engineReport fabricPort ctx 0x50 .fault 0 dva (toW k) time) 0 0
  | .away pkg va => ends (d.engineReport fabricPort ctx 0xC1 .fault dva va (toW (pkg * 2 ^ 32 + 3)) time) 0 0
  | .noEngine _ | .notHbm _ | .scales _ => ends d 0xC3 1

/-- Bulk flits of a collective to and from a package: what its ranks bring, and what the ranks here bring to it (R22,
R462). -/
def Col.flits (x : Col) (m : Memory) (d : Dev) (group : List (BitVec 16)) (others : List RankDesc) (pkg : Nat) : Nat :=
  let c := ((x.ranks.head?.bind fun r => match containerAt m d fabricPort r.ctx (nth r.words 0 0) with
    | .ok c => some c
    | .error _ => none)).getD 8
  let own (r : ColRank) : Nat := if x.form = 0 then (colNel r.words * c + 7) / 8 else colNel r.words
  let there (q : RankDesc) : Bool := (nth group q.rank 0).toNat = pkg
  ((others.filter there).map fun q => bulkFlits (rankSize q)).sum +
    (others.filter there).length * (x.ranks.map fun r => bulkFlits (own r)).sum

/-- The data of a collective goes through the ports, as the partition's share lets it (R22): the units, the flits moved to
and from each package, and whether all are. -/
def moveCol (d : Dev) (ctx : Nat) (need : Nat → Nat) : List Nat → Tab Nat → Dev × Tab Nat × Bool
  | [], moved => (d, moved, true)
  | pkg :: t, moved =>
    let (d, left) := d.admitFlits ctx pkg (need pkg - tgetD moved pkg 0)
    let (d, moved, all) := moveCol d ctx need t (tset moved pkg (need pkg - left))
    (d, moved, all && left = 0)

/-- COLLECTIVE_ASSEMBLE (R475, R476): every rank has gathered, here and in the other packages, within its time; its data
moves; the result is formed or the collective is refused.  A rank's first read with ACQ = 1 sees what its enqueue, where
it was a release, has made visible to the ports (R131, R135, R477) (DEDUCED, log entry 117). -/
def execCollectiveAssemble (idx : Nat) (others : List RankDesc) (s : State) : Host.Outcome State Fault Refusal :=
  happening (fun s =>
    let m := s.mem
    let d := s.dev
    match tget d.fab.cols idx with
    | none => none
    | some x =>
      let n := colNrank ((x.ranks.head?.map (·.words)).getD [])
      let others := x.others.getD others
      if x.susp || x.lost || x.gathered.isSome || x.bad.isSome || x.overdue d s.time ||
          x.ranks.length + others.length < n then none
      else
        let x := { x with others := some others }
        let d := d.setCol idx x
        match x.ranks.mapM fun r => r.readGroup m d with
        | .error f => some (d.colFault idx x f s.time)
        | .ok gs =>
          match colReason gs x others with
          | some r => some (d.setCol idx { x with bad := some (0xC3, r) })
          | none =>
            let ctx := (x.ranks.head?.map (·.ctx)).getD 0
            let group := gs.headD []
            let pkgs := (others.map fun q => (nth group q.rank 0).toNat).dedup
            if !pkgs.all s.dev.reaches then none
            else
              let (d, moved, all) := moveCol d ctx (x.flits m d group others) pkgs x.moved
              let x := { x with moved := moved }
              if !all then some (d.setCol idx x)
              else match colResult m d x others with
                | .error f => some (d.colFault idx x f s.time)
                | .ok bs => some (d.setCol idx { x with gathered := some bs })) s

/-- The record of a rank whose collective ends as faulted (R475, R480). -/
def Dev.colRecord (d : Dev) (r : ColRank) (cause : BitVec 8) (reason time : Nat) : Dev :=
  if cause = 0 then d
  else
    let i1 := if cause = 0xC2 then toW (Config.packageNumber * 2 ^ 32 + reason)
      else toW (wfld (nth r.words 6 0) 0 32 * 2 ^ 32 + reason)
    d.engineReport fabricPort r.ctx cause .fault 0 r.dva i1 time

/-- A rank leaves its collective with its add to DONE (R477). -/
def Dev.rankDone (m : Memory) (d : Dev) (i : Nat) (x : Col) (r : ColRank) (outcome time : Nat) : Dev :=
  let left := x.ranks.drop 1
  let d := if left.isEmpty then { d with fab := { d.fab with cols := tdel d.fab.cols i } }
    else d.setCol i { x with ranks := left }
  let w5 := nth r.words 5 0
  let d := if w5.getLsbD 7 then d.release fabricPort (wfld w5 8 3) else d
  engineAdd m d fabricPort r.ctx (nth r.words 4 0) (outcomeValue outcome) time

/-- The bytes a rank writes: the last byte of an odd number of 4-bit elements keeps its upper half. -/
def rankBytes (m : Memory) (d : Dev) (x : Col) (r : ColRank) (bs : List Byte) : List Byte :=
  let f := (d.ctx r.ctx).bind fun c => descFmt (c.format (wfld (nth r.words 3 0) 12 4))
  let half := x.form = 0 && colNel r.words % 2 = 1 && (match f with | some f => f.c = 4 | none => false)
  if !half then bs
  else match engineRead m d fabricPort r.ctx (nth r.words 1 0 + toW (bs.length - 1)) 1 with
    | .ok old => bs.dropLast ++ [BitVec.ofNat 8 ((bs.getLastD 0).toNat % 16 + ofBytes old / 16 * 16)]
    | .error _ => bs

/-- COLLECTIVE_COMPLETE (R475-R477): the next rank's result lands and DONE is added, or it ends as faulted. -/
def execCollectiveComplete (idx : Nat) (s : State) : Host.Outcome State Fault Refusal :=
  happening (fun s =>
    let m := s.mem
    let d := s.dev
    match tget d.fab.cols idx with
    | none => none
    | some x =>
      match x.ranks, x.bad, x.gathered with
      | [], _, _ => none
      | r :: _, some (c, k), _ => some ((d.colRecord r c k s.time).rankDone m idx x r 3 s.time)
      | r :: _, none, some bs =>
        if x.susp then none
        else match engineStore m d fabricPort r.ctx (nth r.words 1 0) (rankBytes m d x r bs) none s.time with
          | .ok d => some (d.rankDone m idx x r 1 s.time)
          | .error f => some (d.colFault idx x f s.time)
      | _, none, none => none) s

/-- COLLECTIVE_TIMEOUT (R475): not every rank has gathered within FAB.TMO.COL microseconds of the first one's issue; the
bound of a step makes it happen (`State.due`). -/
def execCollectiveTimeout (idx : Nat) (s : State) : Host.Outcome State Fault Refusal :=
  happening (fun s =>
    let d := s.dev
    match tget d.fab.cols idx with
    | none => none
    | some x =>
      if !x.overdue d s.time then none else some (d.setCol idx { x with bad := some (0xC2, 2) })) s

end Sys2Proof.Machine
end

