-- ==== Sys2Proof/Machine/Sequencer.lean ====
section
/-!
DEFINITION. The generation sequencer (17): iterations, buckets, the hold, sequence slots and page pools.
-/

namespace Sys2Proof.Machine

/-- Source number of a partition's sequencer (R443). -/
def genEngine (part : Nat) : Nat := 386 + part

def Dev.updGen (d : Dev) (ctx : Nat) (f : Gen → Gen) : Dev := d.updCtx ctx fun c => { c with gen := f c.gen }

/-- T(k) (R445). -/
def Gen.timeOf (g : Gen) (k : Nat) : Word := g.tbase + toW (k * 2 ^ 16)

/-- The context that a partition's sequencer serves (R443). -/
def Dev.served (d : Dev) (part : Nat) : Option (Nat × Ctx) :=
  ((tget d.parts part).bind (·.resident)).bind fun c => (d.ctx c).map fun x => (c, x)

/-- D′ of R447. -/
def Gen.drafts (g : Gen) : Nat := if g.spec0 then 0 else g.draft.toNat

/-- BUCKET_BAD (R458). -/
def Dev.bucketBad (d : Dev) (part ctx : Nat) (g : Gen) (addr : Word) (b reason time : Nat) : Dev :=
  (d.engineReport (genEngine part) ctx 0xB8 .fault 0 addr
    (toW (g.occ.toNat * 2 ^ 32 + g.drafts * 2 ^ 24 + b * 2 ^ 16 + reason)) time).updGen ctx
    fun g => { g with reason := reason }

/-- The sequencer stops (R447), with the bucket selected, if there is one: the selection is made afresh on resume. -/
def Dev.genStops (d : Dev) (part ctx : Nat) (g : Gen) (addr : Word) (b reason time : Nat) : Dev :=
  (d.bucketBad part ctx g addr b reason time).updGen ctx fun g =>
    { g with stop := true, busy := false, left := 0, bkt := if reason = 1 then b else g.bkt }

/-- A read or write of the sequencer meets a fault (R121): it is reported, and it suspends, while the sequencer's other
work goes on, or ends as the work it belongs to says. -/
def Dev.genFault (d : Dev) (part ctx act : Nat) (x : EngFault) (ends : Dev → Dev) (time : Nat) : Dev :=
  let src := genEngine part
  match x with
  | .trans va acc f =>
    let d := d.reportTrans src ctx 0 va acc f time
    if f.replayable then { d with susp := d.susp ++ [Cmd.gen ctx act] } else ends d
  | .bad pa => ends (d.reportBad src ctx pa time)
  | .away pkg va => ends (d.engineReport src ctx 0xC1 .fault 0 va (toW (pkg * 2 ^ 32 + 3)) time)
  | .noEngine _ | .notHbm _ | .unset _ | .scales _ => ends d

/-! ## Start and stop (R445) -/

/-- Enter deltas of the sequencer's hold on the root die. -/
def Dev.genDeltas (d : Dev) (part ctx : Nat) (ds : List Delta) (time : Nat) : Dev :=
  enterDeltas d (genEngine part) (d.rootDie ctx) ctx ds time

/-- The sequencer is stalled while deltas of its hold wait for room (R274). -/
def Dev.genOwes (d : Dev) (part ctx : Nat) : Bool := d.owes (genEngine part) (d.rootDie ctx) ctx

/-- Setting RUN from 0 to 1 (R445). -/
def startGen (m : Memory) (d : Dev) (part time : Nat) : Dev :=
  match d.served part with
  | none => d
  | some (ctx, x) =>
    let g := x.gen
    if g.run then d
    else if stageOk m d ctx g.hstage && stageOk m d ctx g.trstage && (stageWord m d ctx g.trstage 2).getLsbD 1 &&
        (x.stream 15).log2 ≠ 0 then
      (d.genDeltas part ctx [{ stage := g.hstage, time := g.timeOf g.k, n := 1 }] time).updGen ctx fun g =>
        { g with run := true, halting := false, busy := false, left := 0, front := none }
    else d.bucketBad part ctx g 0 0 3 time

/-- A write of RUN := 0: it acts when the current iteration's appends are done. -/
def stopGen (d : Dev) (part : Nat) : Dev :=
  match d.served part with
  | some (ctx, x) => if x.gen.run then d.updGen ctx fun g => { g with halting := true } else d
  | none => d

/-- GEN_START (R445): firmware sets RUN. -/
def execGenStart (part : Nat) (s : State) : Host.Outcome State Fault Refusal :=
  happening (fun s =>
    match s.dev.served part with
    | some (_, x) => if x.gen.run then none else some (startGen s.mem s.dev part s.time)
    | none => none) s

/-- GEN_STOP_REQUEST (R445): firmware clears RUN. -/
def execGenStopRequest (part : Nat) (s : State) : Host.Outcome State Fault Refusal :=
  happening (fun s =>
    match s.dev.served part with
    | some (_, x) => if x.gen.run && !x.gen.halting then some (stopGen s.dev part) else none
    | none => none) s

/-- GEN_HALT (R445): the appends are done, the hold is retired, and K holds the next iteration. -/
def execGenHalt (part : Nat) (s : State) : Host.Outcome State Fault Refusal :=
  happening (fun s =>
    match s.dev.served part with
    | some (ctx, x) =>
      let g := x.gen
      if !g.run || !g.halting || g.left ≠ 0 || s.dev.genOwes part ctx then none
      else some ((s.dev.genDeltas part ctx [{ stage := g.hstage, time := g.timeOf g.k, n := -1 }] s.time).updGen ctx fun g =>
        { g with run := false, halting := false, busy := false, k := if g.busy then (g.k + 1) % 2 ^ 48 else g.k })
    | none => none) s

/-! ## One iteration (R446-R449) -/

/-- The token-ready frontier: its counter's value, or the greatest that it is known to have reached where it is read with
REM = 1 (R256, R446). -/
def tokenFrontier (m : Memory) (d : Dev) (ctx : Nat) (g : Gen) : Option Word :=
  match resolveCounter d ctx (stageWord m d ctx g.trstage 0) with
  | .ok (.here k i) => some (counterGet m d ctx k i)
  | .ok (.remote _) => g.front
  | .error _ => none

/-- Does the frontier show a time complete (R446)? -/
def frontierAt (m : Memory) (d : Dev) (ctx : Nat) (g : Gen) (t : Word) : Bool :=
  match tokenFrontier m d ctx g with
  | some f => t.toNat ≤ f.toNat
  | none => false

/-- The sequencer asks for a frontier counter read with REM = 1, which answers once it has reached the time (R259, R446);
none where it has asked already, or the counter is of this package. -/
def askFrontier (m : Memory) (d : Dev) (part ctx : Nat) (g : Gen) (t : Word) (time : Nat) : Option Dev :=
  let id := stageWord m d ctx g.trstage 0
  match resolveCounter d ctx id with
  | .ok (.remote pkg) =>
    let q : RemoteOut :=
      { src := genEngine part, ctx := ctx, pkg := pkg, kind := .counterRead, ident := id, pa := 0, data := [], val := t
        tag := 0, phase := 0, start := time }
    if d.remote.any fun r => r.src = q.src && r.ctx = ctx && r.kind = q.kind && r.ident = id && r.val = t then none
    else some (d.send q)
  | _ => none

/-- The time that the frontier must have reached before iteration k begins (R446). -/
def Gen.beginAt (g : Gen) : Word := g.timeOf (g.k - g.ahead)

/-- May iteration k begin (R446)? -/
def beginDue (m : Memory) (d : Dev) (ctx : Nat) (g : Gen) : Bool :=
  g.k < g.ahead + 1 || frontierAt m d ctx g g.beginAt

/-- The sequencer's read of its frontier counter counts as a use of the counter's entry (R257). -/
def Dev.readFrontier (m : Memory) (d : Dev) (ctx : Nat) (g : Gen) : Dev :=
  d.readCounter m ctx (stageWord m d ctx g.trstage 0)

/-- A selection's outcome (R447). -/
inductive Pick where
  | bucket (b nl : Nat) (list : Word)
  | bad (b : Nat)
  | none
  | fault (x : EngFault)
  deriving Repr

/-- Select the lowest-numbered bucket that fits, reading the table from entry b; fuel counts the entries left. -/
def pickBucket (m : Memory) (d : Dev) (src ctx : Nat) (g : Gen) : Nat → Nat → Pick
  | 0, _ => .none
  | n + 1, b =>
    match engineWords m d src ctx (g.btab + toW (16 * b)) 2 with
    | .error x => .fault x
    | .ok w =>
      let w0 := nth w 0 0
      let w1 := nth w 1 0
      if w1.getLsbD 0 && g.occ.toNat ≤ wfld w1 16 16 && g.drafts ≤ wfld w1 4 4 then
        let nl := wfld w1 40 8
        if wfld w0 0 6 ≠ 0 || wfld w1 48 16 ≠ 0 || wfld w1 32 8 ≠ 0 || wfld w1 8 8 ≠ 0 || wfld w1 1 3 ≠ 0 ||
            nl = 0 || 64 < nl then .bad b
        else .bucket b nl w0
      else pickBucket m d src ctx g n (b + 1)

/-- GEN_ITERATION_BEGIN (R446, R447): an iteration begins and a bucket is selected, or the sequencer asks for the frontier
that it waits for. -/
def execGenIterationBegin (part : Nat) (s : State) : Host.Outcome State Fault Refusal :=
  happening (fun s =>
    let m := s.mem
    let d := s.dev
    match d.served part with
    | none => none
    | some (ctx, x) =>
      let g := x.gen
      if !g.run || g.stop || g.busy || g.halting || d.susp.contains (.gen ctx 0) || d.genOwes part ctx then none
      else if !beginDue m d ctx g then askFrontier m d part ctx g g.beginAt s.time
      else
        let d := if g.k < g.ahead + 1 then d else d.readFrontier m ctx g
        some (match pickBucket m d (genEngine part) ctx g 64 0 with
        | .bucket b nl list => d.updGen ctx fun g =>
            { g with bkt := b, list := list, left := nl, listed := 0, busy := true
                     drafted := if 0 < g.drafts then g.k + 1 else g.drafted }
        | .bad b => d.genStops part ctx g (g.btab + toW (16 * b)) b 1 s.time
        | .none => d.genStops part ctx g g.btab 0 2 s.time
        | .fault x => d.genFault part ctx 0 x (·.genStops part ctx g 0 g.bkt 4 s.time) s.time)) s

/-- GEN_APPEND (R448): the next descriptor of the list goes to stream 15 once it has space. -/
def execGenAppend (part : Nat) (s : State) : Host.Outcome State Fault Refusal :=
  happening (fun s =>
    let m := s.mem
    let d := s.dev
    match d.served part with
    | none => none
    | some (ctx, x) =>
      let g := x.gen
      let q := x.stream 15
      let src := genEngine part
      if !g.run || g.stop || g.left = 0 || d.susp.contains (.gen ctx 1) || d.genOwes part ctx || !q.appends.isEmpty ||
          !q.granted 0 then none
      else
        let stops (d : Dev) : Dev := d.genStops part ctx g 0 g.bkt 4 s.time
        match engineRead m d src ctx (g.list + toW (64 * g.listed)) 64 with
        | .error f => some (d.genFault part ctx 1 f stops s.time)
        | .ok bs =>
          match engineStore m d src ctx (q.slotVa q.widx.toNat) bs none s.time with
          | .error f => some (d.genFault part ctx 1 f stops s.time)
          | .ok d =>
            let d := (d.release src 3).updStream ctx 15 fun q => { q with widx := q.widx + 1 }
            some (d.updGen ctx fun g => { g with
              listed := g.listed + 1, left := g.left - 1, offs := tset g.offs q.widx.toNat (g.timeOf g.k) })) s

/-- Has dispatch passed an index of stream 15? -/
def passed (ridx : BitVec 32) (i : Nat) : Bool :=
  let n := (ridx - BitVec.ofNat 32 i).toNat
  0 < n && n < 2 ^ 31

/-- GEN_HOLD_ADVANCE (R449): every descriptor of the iteration has been dispatched; the hold goes to T(k + 1). -/
def execGenHoldAdvance (part : Nat) (s : State) : Host.Outcome State Fault Refusal :=
  happening (fun s =>
    let d := s.dev
    match d.served part with
    | none => none
    | some (ctx, x) =>
      let g := x.gen
      if !g.run || !g.busy || g.left ≠ 0 || d.genOwes part ctx || !g.offs.all fun (i, _) => passed (x.stream 15).ridx i then
        none
      else
        let d := d.genDeltas part ctx [{ stage := g.hstage, time := g.timeOf (g.k + 1), n := 1 },
                                  { stage := g.hstage, time := g.timeOf g.k, n := -1 }] s.time
        some (d.updGen ctx fun g => { g with k := (g.k + 1) % 2 ^ 48, busy := false, offs := [] })) s

/-- Clear STOP (R447). -/
def resumeGen (d : Dev) (ctx : Nat) : Dev := d.updGen ctx fun g => { g with stop := false }

/-- GEN_RESUME (R447): firmware writes 1 to STOP. -/
def execGenResume (part : Nat) (s : State) : Host.Outcome State Fault Refusal :=
  happening (fun s =>
    match s.dev.served part with
    | some (ctx, x) => if x.gen.stop then some (resumeGen s.dev ctx) else none
    | none => none) s

/-! ## Memory pressure (R455, R456) -/

/-- A write of 1 to SPEC0: while NEED is not 0 it stays (R456). -/
def clearSpec0 (d : Dev) (ctx : Nat) : Dev := d.updGen ctx fun g => if g.need = 0 then { g with spec0 := false } else g

/-- A write of NEED (R456), at the step that a count of steps numbers. -/
def setNeed (d : Dev) (ctx : Nat) (need : BitVec 32) (count : Nat) : Dev :=
  d.updGen ctx fun g =>
    { g with need := need, spec0 := g.spec0 || need ≠ 0, needWas := some (g.need, g.spec0, count + 1) }

/-- GEN_SPEC0_CLEAR (R456). -/
def execGenSpec0Clear (part : Nat) (s : State) : Host.Outcome State Fault Refusal :=
  happening (fun s =>
    match s.dev.served part with
    | some (ctx, x) => if x.gen.spec0 && x.gen.need = 0 then some (clearSpec0 s.dev ctx) else none
    | none => none) s

/-- GEN_RECLAIM (R456): firmware asks for pages. -/
def execGenReclaim (part : Nat) (need : BitVec 32) (s : State) : Host.Outcome State Fault Refusal :=
  happening (fun s =>
    match s.dev.served part with
    | some (ctx, _) => some (setNeed s.dev ctx need s.free)
    | none => none) s

/-- Bits of a page by its size code (R455). -/
def poolBits (code : Nat) : Nat := match code with | 0 => 16 | 1 => 21 | 2 => 29 | _ => 34

/-- Does an entry's page have the class and size it says (R456)? -/
def poolPageOk (m : Memory) (d : Dev) (c : Ctx) (entry : Word) (spec : Bool) : Bool :=
  let va := wfld entry 16 48 * 65536
  if 2 ^ 57 ≤ va then false
  else match walkFrom (readWord m d everyone) (walkBad d) d c va c.ptRoot walkLevels with
    | .ok (leaf, bits) => leaf.getLsbD 6 == spec && bits == poolBits (wfld entry 0 2)
    | .error _ => false

/-- Does a pool hold entries (R455)? -/
def Gen.haveSpec (g : Gen) : Bool := wfld g.spool 0 5 ≠ 0 && g.swr ≠ g.srd
def Gen.haveCom (g : Gen) : Bool := wfld g.cpool 0 5 ≠ 0 && g.cwr ≠ g.crd

/-- Is the next entry to take one of the committed pool, as needed, or of the speculative one (R456)? -/
def Gen.takesCom (g : Gen) : Bool := g.spec0 && !g.haveSpec && g.haveCom && g.need ≠ 0
def Gen.takesSpec (g : Gen) : Bool := g.spec0 && g.haveSpec

/-- Is every iteration selected with a draft complete (R456)? -/
def Gen.draftsDone (m : Memory) (d : Dev) (ctx : Nat) (g : Gen) : Bool :=
  g.drafted = 0 || frontierAt m d ctx g (g.timeOf g.drafted)

/-- The registers that a take at a step finds: where a write of NEED came in the step before and a free bit puts both in
one cycle, the sequencer's decrement takes effect and the write is dropped (R6). -/
def Gen.atTake (g : Gen) (count : Nat) : Gen :=
  match g.needWas with
  | some (need, spec0, at') =>
    let before := { g with need := need, spec0 := spec0, needWas := none }
    if at' = count && (Config.freeWord (4 * count)).getLsbD 0 && need ≠ 0 && (before.takesSpec || before.takesCom) then before
    else g
  | none => g

/-- The address of a pool's next entry (R455). -/
def Gen.poolAt (g : Gen) (spec : Bool) : Word :=
  let pool := if spec then g.spool else g.cpool
  (pool &&& ~~~(0xFFF : Word)) + toW (8 * ((if spec then g.srd else g.crd).toNat % 2 ^ wfld pool 0 5))

/-- The entry at hand is consumed. -/
def Dev.poolNext (d : Dev) (ctx : Nat) (spec : Bool) : Dev :=
  d.updGen ctx fun g => if spec then { g with srd := g.srd + 1 } else { g with crd := g.crd + 1 }

/-- The entry at hand is consumed without counting (R456); one that cannot be read is a bad one. -/
def Dev.poolBad (d : Dev) (part ctx : Nat) (g : Gen) (spec : Bool) (time : Nat) : Dev :=
  (d.bucketBad part ctx g (g.poolAt spec) g.bkt 5 time).poolNext ctx spec

/-- One entry of a pool is taken (R456). -/
def takeEntry (m : Memory) (d : Dev) (part ctx : Nat) (x : Ctx) (g : Gen) (spec : Bool) (time : Nat) : Dev :=
  let src := genEngine part
  match engineWords m d src ctx (g.poolAt spec) 1 with
  | .error f => d.genFault part ctx 2 f (·.poolBad part ctx g spec time) time
  | .ok w =>
    if !poolPageOk m d x (nth w 0 0) spec then d.poolBad part ctx g spec time
    else
      let need : BitVec 32 := if g.need = 0 then 0 else g.need - 1
      let d := (d.updGen ctx fun y => { y with need := need, spec0 := g.spec0, needWas := none }).poolNext ctx spec
      engineAdd m (d.release src 3) src ctx g.rdone 1 time

/-- GEN_POOL_TAKE (R456): one entry is taken, speculative ones first and committed ones only as needed, or the sequencer
asks for the frontier that it waits for. -/
def execGenPoolTake (part : Nat) (s : State) : Host.Outcome State Fault Refusal :=
  happening (fun s =>
    let m := s.mem
    let d := s.dev
    match d.served part with
    | none => none
    | some (ctx, x) =>
      let g := x.gen.atTake s.free
      if d.susp.contains (.gen ctx 2) then none
      else if g.takesCom then some (takeEntry m d part ctx x g false s.time)
      else if !g.takesSpec then none
      else if !g.draftsDone m d ctx then askFrontier m d part ctx g (g.timeOf g.drafted) s.time
      else
        let d := if g.drafted = 0 then d else d.readFrontier m ctx g
        some (takeEntry m d part ctx x g true s.time)) s

/-! ## Sequence slots (R452-R454) -/

/-- Address of a slot's table word, and of the byte of its live bit. -/
def Gen.tagAt (g : Gen) (slot : Nat) : Word := g.gtab + toW (4 * slot)
def Gen.liveAt (g : Gen) (slot : Nat) : Word := g.gtab + toW (0x40000 + slot / 8)

/-- A slot's generation and whether it is live, from the table. -/
def slotState (m : Memory) (d : Dev) (src ctx : Nat) (g : Gen) (slot : Nat) : Eng (BitVec 16 × Bool) :=
  match engineRead m d src ctx (g.tagAt slot) 4, engineRead m d src ctx (g.liveAt slot) 1 with
  | .error x, _ | _, .error x => .error x
  | .ok t, .ok l => .ok (BitVec.ofNat 16 (ofBytes t), (ofBytes l).testBit (slot % 8))

/-- The table after an operation, visible at .pkg (R453): the word and the live bit. -/
def writeSlotTable (m : Memory) (d : Dev) (src ctx : Nat) (g : Gen) (slot : Nat) (gen : BitVec 16) (live : Bool)
    (time : Nat) : Eng Dev :=
  match engineRead m d src ctx (g.liveAt slot) 1 with
  | .error x => .error x
  | .ok l =>
    let bit := 2 ^ (slot % 8)
    let b := ofBytes l % bit + ofBytes l / (2 * bit) * (2 * bit) + (if live then bit else 0)
    match engineStore m d src ctx (g.tagAt slot) (toBytes 4 (slot * 65536 + gen.toNat)) none time with
    | .error x => .error x
    | .ok d => (engineStore m d src ctx (g.liveAt slot) (toBytes 1 b) none time).map fun d => d.release src 3

/-- What a write of SLOTOP comes to before its operation is performed (R453). -/
inductive SlotRes where
  | none
  | bad (reason : Nat)
  | fault (x : EngFault)
  | begin (op : SlotOp)
  | busy
  deriving Repr

/-- Check a write of GEN.SLOTOP by a core (R453). -/
def slotCheck (m : Memory) (d : Dev) (part ctx : Nat) (g : Gen) (v : Word) (core tag : Nat) : SlotRes :=
  let op := wfld v 62 2
  let slot := wfld v 0 16
  if op = 0 then .none
  else if op = 3 then .bad 4
  else if g.slotOp.isSome || d.susp.contains (.gen ctx 3) then .busy
  else if g.nslot ≤ slot then .bad 1
  else match slotState m d (genEngine part) ctx g slot with
    | .error x => .fault x
    | .ok (gen, live) =>
      if op = 1 && !live then .bad 2
      else if op = 2 && live then .bad 3
      else .begin { core := core, tag := tag, slot := slot, retire := op = 1
                    gen := if op = 1 then gen + 1 else gen, todo := if op = 1 then List.range 16 else [] }

/-- GENERATION_UPDATE (R382, R383): a Graver takes a retired slot's new generation. -/
def execGenerationUpdate (stack ctx slot : Nat) (s : State) : Host.Outcome State Fault Refusal :=
  happening (fun s =>
    match s.dev.ctx ctx with
    | none => none
    | some x => match x.gen.slotOp with
      | none => none
      | some q =>
        if q.slot ≠ slot || !q.todo.contains stack then none
        else
          let y := s.dev.grav stack
          let d := s.dev.setGrav stack { y with gens := tset y.gens (65536 * ctx + slot) q.gen }
          some (d.updGen ctx fun g => { g with slotOp := some { q with todo := q.todo.erase stack } })) s

/-- Does a write that waits still wait: a write from outside, or the bundle at which its core stalls? -/
def SlotReq.waits (q : SlotReq) (d : Dev) : Bool :=
  let c := d.core q.core
  q.val.isSome || (c.run = .running && c.issued = q.issued && c.pc = q.pc)

/-- Writes of SLOTOP that wait, in the order of their arrival (R453). -/
def Gen.slotLine (g : Gen) (d : Dev) : List SlotReq := g.slotReqs.filter (·.waits d)

/-- A read or write of the slot table meets a fault: the operation goes on once firmware resolves it (R121). -/
def Dev.slotFault (d : Dev) (part ctx : Nat) (x : EngFault) (time : Nat) : Dev :=
  d.genFault part ctx 3 x (fun d => { d with susp := d.susp ++ [Cmd.gen ctx 3] }) time

/-- Writes from outside a core that are first in the line are performed as far as they can be; a refused one has no core to
raise an event on and is dropped (R453; DEDUCED, log entry 69). -/
def serveSlots (m : Memory) (part ctx time : Nat) : Nat → Dev → Dev
  | 0, d => d
  | n + 1, d => match d.ctx ctx with
    | none => d
    | some x => match x.gen.slotLine d with
      | { core := core, val := some v, .. } :: t =>
        let next (d : Dev) (op : Option SlotOp) : Dev := d.updGen ctx fun g => { g with slotReqs := t, slotOp := op }
        match slotCheck m d part ctx x.gen v core 0 with
        | .begin q => next d (some q)
        | .busy => d
        | .fault f => d.slotFault part ctx f time
        | .none | .bad _ => serveSlots m part ctx time n (next d none)
      | _ => d

/-- A slot operation ends: its result lands, and the next writes in the line are served. -/
def endSlotOp (m : Memory) (d : Dev) (part ctx : Nat) (q : SlotOp) (time : Nat) : Dev :=
  let d := d.updGen ctx fun g => { g with slotOp := none }
  serveSlots m part ctx time 1024 (d.updCore q.core fun c => { c with pend := c.pend.map fun (e : Pend) =>
    (if e.tag = q.tag && q.tag ≠ 0 then { e with ready := true } else e) })

/-- A slot operation is performed and answered (R453). -/
def finishSlotOp (m : Memory) (d : Dev) (part slot : Nat) (retire : Bool) (time : Nat) : Option Dev :=
  match d.served part with
  | none => none
  | some (ctx, x) => match x.gen.slotOp with
    | none => none
    | some q =>
      if q.slot ≠ slot || q.retire != retire || !q.todo.isEmpty || d.susp.contains (.gen ctx 3) then none
      else some (match writeSlotTable m d (genEngine part) ctx x.gen slot q.gen (!retire) time with
        | .ok d =>
          endSlotOp m (d.updGen ctx fun g => { g with slot := slot, slotGen := q.gen, slotLive := !retire }) part ctx q time
        | .error f => d.slotFault part ctx f time)

/-- A slot operation that met a fault goes on, or is given up (R121): one that has begun ends without its table word, and a
write from outside that is first in the line is dropped (DESIGN CHOICE, log entry 33). -/
def resumeSlots (m : Memory) (d : Dev) (ctx time : Nat) (ok : Bool) : Dev :=
  match d.ctx ctx with
  | none => d
  | some x =>
    if ok then serveSlots m x.part ctx time 1024 d
    else match x.gen.slotOp with
      | some q => endSlotOp m d x.part ctx q time
      | none => serveSlots m x.part ctx time 1024 (d.updGen ctx fun g => { g with slotReqs := match g.slotLine d with
          | { val := some _, .. } :: t => t
          | l => l })

/-- GEN_SLOT_RETIRE (R453): every Graver has the new generation; the table is written and the retire completes. -/
def execGenSlotRetire (part slot : Nat) (s : State) : Host.Outcome State Fault Refusal :=
  happening (fun s => finishSlotOp s.mem s.dev part slot true s.time) s

/-- GEN_SLOT_ALLOCATE (R453). -/
def execGenSlotAllocate (part slot : Nat) (s : State) : Host.Outcome State Fault Refusal :=
  happening (fun s => finishSlotOp s.mem s.dev part slot false s.time) s

end Sys2Proof.Machine
end

