-- ==== Sys2Proof/Machine/Trace.lean ====
section
/-!
DEFINITION. The trace unit (R483-R503): trace rings, samples, event-counter pages, breakpoints and watchpoints, and the
five trace forms.
-/

namespace Sys2Proof.Machine

/-! ## Marks, sampling control and stops (R495-R500) -/

/-- TMARK (R499). -/
def execTmark (h : Hdr) (o : ZI) (s : State) : Host.Outcome State Fault Refusal :=
  syllable h (fun s b c =>
    .ok (s.dev.traceCore s.mem b.core c.inBundle b.addr 2 (o.imm.toNat % 256) 0 (c.s o.a.toNat) s.time)) s

/-- TRC.SMP as SMPCTL writes it (R500) (DEDUCED, log entry 70). -/
def Ctx.setSampling (x : Ctx) (sen ten : Bool) (p : Nat) : Ctx :=
  { x with
    sen := sen
    ten := ten
    per := if !sen then x.per else if p = 0 then 65536 else BitVec.ofNat 32 (max p 1024) }

/-- A core applies its context's sampling; its down-counter reloads in the cycle given where SEN became 1 or PER
changed (R490). -/
def Dev.applySampling (d : Dev) (n cycle : Nat) : Dev :=
  match d.ctxAt n with
  | none => d
  | some (_, x) =>
    let load : Option (Nat × Nat) := some (cycle + x.per.toNat, x.per.toNat)
    d.updCore n fun c => { c with
      sample := if !x.sen then none
        else match c.sample with
          | some (due, p) => if p = x.per.toNat then some (due, p) else load
          | none => load }

/-- The other cores of a context's partition (R498, R500). -/
def Dev.othersOf (d : Dev) (n ctx : Nat) : List Nat :=
  (((d.partOfCtx ctx).map Part.cores).getD [] ++ d.genPart.filterMap fun (g, (_, c)) => if c = ctx then some g else none).filter
    (· ≠ n)

/-- Cores that are still to apply a change made at a time; one that waits for an earlier change applies both by that
one's bound. -/
def addTodo (ns : List Nat) (time : Nat) (t : Tab Nat) : Tab Nat :=
  ns.foldl (fun t k => if (tget t k).isSome then t else tset t k time) t

/-- TRC.SMP changes by an act of core n: that core applies it from the cycle given, every other core of the partition
within 1 µs (R500). -/
def Dev.changeSampling (d : Dev) (n ctx cycle time : Nat) (f : Ctx → Ctx) : Dev :=
  let others := d.othersOf n ctx
  (d.updCtx ctx fun x => { f x with smpTodo := addTodo others time x.smpTodo }).applySampling n cycle

/-- SMPCTL (R500): the issuing core applies the change from its next bundle. -/
def execSmpctl (h : Hdr) (o : ZI) (s : State) : Host.Outcome State Fault Refusal :=
  syllable h (fun s b c =>
    match s.dev.ctxOfCore b.core with
    | none => .ok s.dev
    | some ctx =>
      .ok (s.dev.changeSampling b.core ctx (b.cycle + 1) s.time fun x =>
        x.setSampling (o.imm.getLsbD 0) (o.imm.getLsbD 1) (wfld (c.s o.a.toNat) 0 32))) s

/-- SAMPLING_CHANGE_APPLIED (R500): another core applies the setting. -/
def execSamplingChangeApplied (core : Nat) (s : State) : Host.Outcome State Fault Refusal :=
  happening (fun s => some ((s.dev.clearTodo core true).applySampling core (s.dev.core core).ready)) s

/-- BKPT (R499, R501). -/
def execBkpt (h : Hdr) (o : ZI) (s : State) : Host.Outcome State Fault Refusal :=
  ctlSyllable h
    (fun s b _ => if s.dev.debuggable b.core then .ok s.dev else .raise (mkFault 0xD0 (sylWord (.bkpt h o)) 1))
    (fun b => b.withStop (mkStop 0xD1 (toW o.imm.toNat) 1)) s

/-- A change of the context's watchpoints, which the issuing core has from its next bundle, and every other core of the
context within 1 µs (R498). -/
def Dev.setWatch (d : Dev) (n time : Nat) (f : Tab Watch → Tab Watch) : Dev :=
  match d.ctxOfCore n with
  | none => d
  | some ctx =>
    let others := d.othersOf n ctx
    let d := d.updCtx ctx fun x => { x with watch := f x.watch, watchTodo := addTodo others time x.watchTodo }
    d.updCore n fun c => { c with watch := f c.watch }

/-- WPSET (R498, R499). -/
def execWpset (h : Hdr) (o : ZG) (s : State) : Host.Outcome State Fault Refusal :=
  syllable h (fun s b c =>
    if !s.dev.debuggable b.core then .raise (mkFault 0xD0 (sylWord (.wpset h o)) 2)
    else
      let w : Watch := { addr := c.s o.x.toNat, len := min (max (c.s o.y.toNat).toNat 1) (2 ^ 32)
                         kind := o.imm.extractLsb' 2 2 }
      .ok (s.dev.setWatch b.core s.time fun t => tset t (o.imm.toNat % 4) w)) s

/-- WPCLR (R499). -/
def execWpclr (h : Hdr) (o : ZI) (s : State) : Host.Outcome State Fault Refusal :=
  syllable h (fun s b _ =>
    .ok (s.dev.setWatch b.core s.time fun t => if o.imm.getLsbD 2 then [] else tdel t (o.imm.toNat % 4))) s

/-- WATCHPOINT_CHANGE_APPLIED (R498). -/
def execWatchpointChangeApplied (core : Nat) (s : State) : Host.Outcome State Fault Refusal :=
  happening (fun s =>
    let d := s.dev.clearTodo core false
    some (match d.ctxAt core with
      | some (_, x) => d.updCore core fun c => { c with watch := x.watch }
      | none => d)) s

/-! ## Rings (R484-R486, R497) -/

/-- A record of the trace unit's own (R486). -/
def unitRecord (tseq : BitVec 32) (ctx u type : Nat) (payload : Word) (time : Nat) : List Word :=
  plainRecord tseq ctx (traceEngine u) type 0 payload time

/-- Has a ring space for its next record (R485)? -/
def ringSpace (m : Memory) (d : Dev) (ctx : Nat) (r : TraceRing) : Bool := 0 < ringFree m d ctx r

/-- Write one record into the next slot of a context's ring, whose RD is read for it; none where the ring has no space or
the slot cannot be written. -/
def writeRecord (m : Memory) (d : Dev) (u ctx : Nat) (words : List Word) (time : Nat) : Option Dev :=
  match (d.ctx ctx).bind (·.ring u) with
  | none => none
  | some r =>
    if !ringSpace m d ctx r then none
    else match engineStore m (d.readCounter m ctx r.rd) (traceEngine u) ctx (r.base + toW (64 * (r.written % 2 ^ r.log2))) (bytesOfWords words)
        none time with
      | .error _ => none
      | .ok d => some (d.updCtx ctx fun x =>
          { x with rings := tset x.rings u { r with
              written := r.written + 1, owed := r.owed + 1, since := if r.owed = 0 then time else r.since } })

/-- Source unit of a record. -/
def TraceRec.src (r : TraceRec) : Nat := wfld (nth r.words 0 0) 16 10

/-- Place of the next record to write: the first whose ring has space and whose source has no earlier one (R485). -/
def nextRecord (m : Memory) (d : Dev) (u : Nat) : List TraceRec → List Nat → Nat → Option Nat
  | [], _, _ => none
  | r :: t, held, i =>
    let space := match (d.ctx r.ctx).bind (·.ring u) with | some q => ringSpace m d r.ctx q | none => true
    if space && !held.contains r.src then some i else nextRecord m d u t (r.src :: held) (i + 1)

/-- A reset context of which the unit holds no record any more, and whose ring is gone or has space for its
RESET_TRUNCATED record, with the number discarded (R497). -/
def TraceUnit.reported (x : TraceUnit) (m : Memory) (d : Dev) (u : Nat) : Option (Nat × Nat) :=
  x.trunc.find? fun (c, _) => !(x.buf.any fun r => r.ctx = c) &&
    ((d.ctx c).bind (·.ring u)).elim true (ringSpace m d c)

/-- The add to WI of the records written since the last one, a release at .pkg (R485). -/
def Dev.addWritten (m : Memory) (d : Dev) (u ctx time : Nat) : Dev :=
  match (d.ctx ctx).bind (·.ring u) with
  | none => d
  | some r =>
    if r.owed = 0 then d else
    let src := traceEngine u
    (engineAdd m (d.release src 3) src ctx r.wi (toW r.owed) time).updCtx ctx fun x =>
      { x with rings := tset x.rings u { r with owed := 0 } }

/-- A unit's record of its own, or after a drop the LOST record that comes first, into a context's ring; then what the
record's writing leaves of the unit (R485, R497). -/
def writeOwn (m : Memory) (d : Dev) (u ctx : Nat) (rest : TraceUnit) (words : TraceUnit → List Word × TraceUnit)
    (after : Dev → Dev) (time : Nat) : Option Dev :=
  let x := d.unit u
  if x.lost ≠ 0 then
    (writeRecord m d u ctx (unitRecord x.tseq ctx u 5 (toW x.lost) time) time).map fun d =>
      d.setUnit u { x with lost := 0, tseq := x.tseq + 1 }
  else
    let (w, rest) := words rest
    (writeRecord m d u ctx w time).map fun d => after (d.setUnit u rest)

/-- TRACE_RECORD_WRITE (R485, R497): after a drop a LOST record comes first; a record whose ring is gone is discarded; a
reset ends with its RESET_TRUNCATED record and the add to WI. -/
def execTraceRecordWrite (unit : Nat) (s : State) : Host.Outcome State Fault Refusal :=
  happening (fun s =>
    let d := s.dev
    let x := d.unit unit
    let ringGone (ctx : Nat) : Bool := ((d.ctx ctx).bind (·.ring unit)).isNone
    match x.reported s.mem d unit with
    | some (ctx, k) =>
      let rest : TraceUnit := { x with trunc := tdel x.trunc ctx }
      if ringGone ctx then some (d.setUnit unit rest)
      else writeOwn s.mem d unit ctx rest
        (fun y => (unitRecord y.tseq ctx unit 6 (toW k) s.time, { y with tseq := y.tseq + 1 }))
        (fun d => d.addWritten s.mem unit ctx s.time) s.time
    | none => match nextRecord s.mem d unit x.buf [] 0 with
    | none => none
    | some i => match x.buf[i]? with
      | none => none
      | some r =>
        let rest : TraceUnit := { x with buf := x.buf.eraseIdx i }
        if ringGone r.ctx then some (d.setUnit unit rest)
        else writeOwn s.mem d unit r.ctx rest (fun y => (r.words, y)) id s.time) s

/-- TRACE_WI_ADD (R485). -/
def execTraceWiAdd (unit ctx : Nat) (s : State) : Host.Outcome State Fault Refusal :=
  happening (fun s =>
    match (s.dev.ctx ctx).bind (·.ring unit) with
    | some r => if r.owed = 0 then none else some (s.dev.addWritten s.mem unit ctx s.time)
    | none => none) s

/-- A queue-level reset at a trace unit (R497): what the unit holds of the context is still written; records of later
events are discarded until then, each counted for the last reset before it. -/
def truncateTrace (d : Dev) (ctx u : Nat) : Dev :=
  if ((d.ctx ctx).bind (·.ring u)).isNone then d
  else let x := d.unit u
       d.setUnit u { x with trunc := x.trunc ++ [(ctx, 0)] }

/-! ## Samples of a core without a task (R490, R491) -/

/-- The reason of R491 for a core that runs nothing: idle, or halted, as are a general core that sleeps or has stopped
(DEDUCED, log entry 70). -/
def idleReason (c : Core) : Nat := match c.run with | .idle => 12 | _ => 13

/-- SAMPLE (R490): an idle, halted, sleeping or stopped core, for which no bundle comes next, takes the sample of its due
cycle; any other core's is completed when its next bundle issues, stalls or takes an event (Dev.sampleTo). -/
def execSample (core : Nat) (s : State) : Host.Outcome State Fault Refusal :=
  happening (fun s =>
    let c := s.dev.core core
    let waits := match c.run with | .running | .held _ => true | _ => false
    match c.sample with
    | none => none
    | some (due, per) =>
      if waits then none
      else
        let none' : Core := { c with run := match c.run with | .idle => .idle | _ => .halted }
        let d := s.dev.traceCore s.mem core none' 0 1 (idleReason c) (if isGeneral core then 7 else 4) 0 s.time
        some (d.updCore core fun x => { x with
          ready := max c.ready due
          charged := max c.charged (max c.ready due)
          sample := some (max c.ready due + per, per) })) s

/-! ## Event counters and their pages (R492, R493) -/

/-- Address of entry e of a core's block. -/
def blockEntry (x : Ctx) (n e : Nat) : Word := toW (x.cpage + 4096 * n + 64 * e + 64)

/-- Write an entry's COUNT, ENABLED and RUNNING as one whole write. -/
def writeEntry (m : Memory) (d : Dev) (ctx : Nat) (x : Ctx) (n e : Nat) (ws : List Word) (time : Nat) :
    Except EngFault Dev :=
  let src := traceEngine (traceUnitOf n)
  match engineStore m d src ctx (blockEntry x n e + 8) (bytesOfWords ws) none time with
  | .ok d => .ok (d.showAll fun q => q.owner = src)
  | .error f => .error f

/-- Write back the entries given and count the write-back in UPD (R492, R493). -/
def writeBack (m : Memory) (d : Dev) (ctx : Nat) (x : Ctx) (n : Nat) (es : List Nat) (time : Nat) :
    Except EngFault Dev :=
  let src := traceEngine (traceUnitOf n)
  let one (d : Dev) (e : Nat) : Except EngFault Dev :=
    match engineWords m d src ctx (blockEntry x n e + 8) 3 with
    | .error f => .error f
    | .ok w =>
      let v := (d.core n).ev
      let current := v.sels.any fun (k, _) => k = e
      let count := nth w 0 0 + toW (tgetD v.counts e 0)
      let enabled := nth w 1 0 + toW (time - tgetD v.lastBack e time)
      let running := nth w 2 0 + (if current then toW (time - v.since) else 0)
      (writeEntry m d ctx x n e [count, enabled, running] time).map fun d => d.updCore n fun c =>
        { c with ev := { c.ev with counts := tdel c.ev.counts e, lastBack := tset c.ev.lastBack e time } }
  if es.isEmpty then .ok d
  else match es.foldlM one d with
    | .error f => .error f
    | .ok d =>
      let upd := toW (x.cpage + 4096 * n + 16)
      match engineWords m d src ctx upd 1 with
      | .error f => .error f
      | .ok w => (engineStore m d src ctx upd (bytesOfWords [nth w 0 0 + 1]) none time).map fun d =>
          d.showAll fun q => q.owner = src

/-- Make group g current: NEV, ROT and SEL are read, an entry whose event changed starts from 0 (R493), and one listed
anew counts as listed from now on (R492). -/
def makeCurrent (m : Memory) (d : Dev) (ctx : Nat) (x : Ctx) (n g time : Nat) : Except EngFault Dev :=
  let src := traceEngine (traceUnitOf n)
  match engineWords m d src ctx (toW (x.cpage + 4096 * n)) 2 with
  | .error f => .error f
  | .ok hd =>
    let nev := wfld (nth hd 0 0) 0 6
    let rot := wfld (nth hd 1 0) 0 32
    let g := if 16 * g < nev then g else 0
    let es := (List.range 16).filterMap fun i => if 16 * g + i < nev then some (16 * g + i) else none
    let added := (List.range nev).filter fun e => (d.core n).ev.nev ≤ e
    let one (d : Dev) (e : Nat) : Except EngFault Dev :=
      match engineWords m d src ctx (blockEntry x n e) 1 with
      | .error f => .error f
      | .ok w =>
        let sel : BitVec 8 := (nth w 0 0).setWidth 8
        let fresh := tget (d.core n).ev.used e ≠ some sel
        let d := if fresh then writeEntry m d ctx x n e [0, 0, 0] time else .ok d
        d.map fun d => d.updCore n fun c =>
          let v : EvCounters := { c.ev with
            used := tset c.ev.used e sel, sels := tset c.ev.sels e sel
            lastBack := if fresh then tset c.ev.lastBack e time else c.ev.lastBack }
          { c with ev := v }
    let d := d.updCore n fun c =>
      { c with ev := { c.ev with group := g, sels := [], counts := [], since := time, nev := nev,
                                 lastBack := added.foldl (fun t e => tset t e time) c.ev.lastBack
                                 rot := if rot < 10 then 1000 else rot } }
    es.foldlM one d

/-- COUNTER_ROTATE (R492, R493): the current group is written back and the next becomes current.  A block that cannot
be read or written leaves everything as it is (DEDUCED, log entry 80). -/
def execCounterRotate (core : Nat) (s : State) : Host.Outcome State Fault Refusal :=
  happening (fun s =>
    match s.dev.ctxAt core with
    | none => none
    | some (ctx, x) =>
      let v := (s.dev.core core).ev
      let first := v.sels.isEmpty && v.used.isEmpty
      if x.cpage = 0 || (!first && s.time < v.since + 1000 * v.rot) then none
      else
        let r := do
          let d ← writeBack s.mem s.dev ctx x core (v.sels.map Prod.fst) s.time
          makeCurrent s.mem d ctx x core (if first then 0 else v.group + 1) s.time
        match r with
        | .ok d => some d
        | .error _ => none) s

/-- Every group is written back when the context is swapped out (R492). -/
def writeBackAll (m : Memory) (d : Dev) (ctx n time : Nat) : Dev :=
  match d.ctx ctx with
  | none => d
  | some x =>
    if x.cpage = 0 then d else
    let es := ((d.core n).ev.used.map (·.1)).filter fun e => e < (d.core n).ev.nev
    match writeBack m d ctx x n es time with
    | .ok d => d
    | .error _ => d

/-- A core's counters count only while its context is resident (R492): they stop with the current group written back, and
go on with that group. -/
def Core.stopCounters (c : Core) : Core := { c with ev := { c.ev with sels := [], counts := [] } }
def Core.resumeCounters (time : Nat) (c : Core) : Core :=
  let v := c.ev
  { c with ev := { v with
    sels := v.used.filter fun (e, _) => e / 16 = v.group && e < v.nev
    since := time, lastBack := v.lastBack.map fun (e, _) => (e, time) } }

/-- General cores that serve a context (R23). -/
def Dev.generalsOf (d : Dev) (ctx : Nat) : List Nat :=
  d.genPart.filterMap fun (n, (_, c)) => if c = ctx then some n else none

end Sys2Proof.Machine
end

