-- ==== Sys2Proof/Machine/Attest.lean ====
section
/-!
DEFINITION. The attestation report (R508) with the SHA-256 function that it names (FIPS 180-4, log entry 11), and the
AES-256-XTS cipher of a confidential page as the host sees it (R504, R507).
-/

namespace Sys2Proof.Machine

/-! ## SHA-256 -/

def shaInit : List (BitVec 32) :=
  [0x6A09E667, 0xBB67AE85, 0x3C6EF372, 0xA54FF53A, 0x510E527F, 0x9B05688C,
   0x1F83D9AB, 0x5BE0CD19]

def shaK0 : List (BitVec 32) :=
  [0x428A2F98, 0x71374491, 0xB5C0FBCF, 0xE9B5DBA5, 0x3956C25B, 0x59F111F1,
   0x923F82A4, 0xAB1C5ED5, 0xD807AA98, 0x12835B01, 0x243185BE, 0x550C7DC3,
   0x72BE5D74, 0x80DEB1FE, 0x9BDC06A7, 0xC19BF174]

def shaK1 : List (BitVec 32) :=
  [0xE49B69C1, 0xEFBE4786, 0x0FC19DC6, 0x240CA1CC, 0x2DE92C6F, 0x4A7484AA,
   0x5CB0A9DC, 0x76F988DA, 0x983E5152, 0xA831C66D, 0xB00327C8, 0xBF597FC7,
   0xC6E00BF3, 0xD5A79147, 0x06CA6351, 0x14292967]

def shaK2 : List (BitVec 32) :=
  [0x27B70A85, 0x2E1B2138, 0x4D2C6DFC, 0x53380D13, 0x650A7354, 0x766A0ABB,
   0x81C2C92E, 0x92722C85, 0xA2BFE8A1, 0xA81A664B, 0xC24B8B70, 0xC76C51A3,
   0xD192E819, 0xD6990624, 0xF40E3585, 0x106AA070]

def shaK3 : List (BitVec 32) :=
  [0x19A4C116, 0x1E376C08, 0x2748774C, 0x34B0BCB5, 0x391C0CB3, 0x4ED8AA4A,
   0x5B9CCA4F, 0x682E6FF3, 0x748F82EE, 0x78A5636F, 0x84C87814, 0x8CC70208,
   0x90BEFFFA, 0xA4506CEB, 0xBEF9A3F7, 0xC67178F2]

/-- Round constants. -/
def shaK : List (BitVec 32) := shaK0 ++ shaK1 ++ shaK2 ++ shaK3

/-- Number of bytes, highest first. -/
def ofBytesBE (l : List Byte) : Nat := l.foldl (fun a b => 256 * a + b.toNat) 0

/-- n bytes of a number, highest first. -/
def toBytesBE (n v : Nat) : List Byte := (toBytes n v).reverse

/-- A message padded to whole blocks of 64 bytes. -/
def shaPad (l : List Byte) : List Byte :=
  l ++ [0x80] ++ List.replicate ((119 - l.length % 64) % 64) 0 ++ toBytesBE 8 (8 * l.length)

/-- The 16 words of a block. -/
def shaWords : Nat → List Byte → List (BitVec 32)
  | 0, _ => []
  | n + 1, l => BitVec.ofNat 32 (ofBytesBE (l.take 4)) :: shaWords n (l.drop 4)

/-- Extend the schedule, newest word first. -/
def shaSchedule : Nat → List (BitVec 32) → List (BitVec 32)
  | 0, l => l
  | n + 1, l =>
    let x := nth l 14 0
    let y := nth l 1 0
    let s0 := x.rotateRight 7 ^^^ x.rotateRight 18 ^^^ (x >>> (3 : Nat))
    let s1 := y.rotateRight 17 ^^^ y.rotateRight 19 ^^^ (y >>> (10 : Nat))
    shaSchedule n ((nth l 15 0 + s0 + nth l 6 0 + s1) :: l)

/-- One round on the eight working words. -/
def shaRound (v : List (BitVec 32)) (kw : BitVec 32 × BitVec 32) : List (BitVec 32) :=
  let a := nth v 0 0
  let b := nth v 1 0
  let c := nth v 2 0
  let e := nth v 4 0
  let f := nth v 5 0
  let g := nth v 6 0
  let s1 := e.rotateRight 6 ^^^ e.rotateRight 11 ^^^ e.rotateRight 25
  let t1 := nth v 7 0 + s1 + ((e &&& f) ^^^ (~~~e &&& g)) + kw.1 + kw.2
  let s0 := a.rotateRight 2 ^^^ a.rotateRight 13 ^^^ a.rotateRight 22
  let t2 := s0 + ((a &&& b) ^^^ (a &&& c) ^^^ (b &&& c))
  [t1 + t2, a, b, c, nth v 3 0 + t1, e, f, g]

/-- One block. -/
def shaBlock (h : List (BitVec 32)) (block : List Byte) : List (BitVec 32) :=
  let w := (shaSchedule 48 (shaWords 16 block).reverse).reverse
  let v := (shaK.zip w).foldl shaRound h
  (h.zip v).map fun (x, y) => x + y

/-- Blocks of a padded message. -/
def shaBlocks : Nat → List Byte → List (BitVec 32) → List (BitVec 32)
  | 0, _, h => h
  | n + 1, l, h => shaBlocks n (l.drop 64) (shaBlock h (l.take 64))

/-- The SHA-256 digest of a byte list (PRESUMED, log entry 11). -/
def sha256 (l : List Byte) : List Byte :=
  let p := shaPad l
  (shaBlocks (p.length / 64) p shaInit).flatMap fun w => toBytesBE 4 w.toNat

/-! ## The report (R508) -/

/-- Bytes 0 to 159. -/
def reportBody (ctx : Nat) (x : Ctx) (nonce : List Byte) (feat0 : Word) : List Byte :=
  toBytes 4 1 ++ toBytes 4 (ctx + (if x.dbg then 256 else 0) + (if x.conf then 512 else 0)) ++
    (List.range 16).map Config.serialByte ++ (List.range 32).map (Config.measureByte false) ++
    (List.range 32).map (Config.measureByte true) ++ sha256 (bytesOfWords x.block) ++ nonce ++ toBytes 8 feat0.toNat

/-- The 640 bytes, with the signature of one signing. -/
def report (ctx : Nat) (x : Ctx) (nonce : List Byte) (feat0 : Word) (signing : Nat) : List Byte :=
  let b := reportBody ctx x nonce feat0
  b ++ (List.range 384).map (Config.signature signing b) ++ List.replicate 96 0

/-! ## AES-256-XTS (R507; FIPS 197 and IEEE 1619, log entry 10) -/

/-- Multiplication by x in the cipher's field. -/
def aesDouble (b : Byte) : Byte := (b <<< (1 : Nat)) ^^^ (if b.getLsbD 7 then 0x1B else 0)

/-- Product in the cipher's field, over the bits of b from the lowest. -/
def aesMul (a b : Byte) : Byte :=
  ((List.range 8).foldl (fun (x : Byte × Byte) i => (aesDouble x.1, if b.getLsbD i then x.2 ^^^ x.1 else x.2)) (a, 0)).2

/-- b to the power 2^n - 2. -/
def aesPower (b : Byte) : Nat → Byte
  | 0 => 1
  | n + 1 => let y := aesPower b n
             if n = 0 then 1 else let z := aesMul y b
                                  aesMul z z

/-- The substitution: the inverse in the field, then the affine map. -/
def aesSub (b : Byte) : Byte :=
  let y := aesPower b 8
  y ^^^ y.rotateLeft 1 ^^^ y.rotateLeft 2 ^^^ y.rotateLeft 3 ^^^ y.rotateLeft 4 ^^^ 0x63

/-- Byte-wise sum of two lists. -/
def xorBytes (l r : List Byte) : List Byte := (l.zip r).map fun (x, y) => x ^^^ y

/-- The sixty key words of four bytes, newest first: word number, constant, words so far. -/
def aesKeys : Nat → Nat → Byte → List (List Byte) → List (List Byte)
  | 0, _, _, l => l
  | n + 1, i, rc, l =>
    let t := nth l 0 []
    let t := if i % 8 = 0 then xorBytes ((t.drop 1 ++ t.take 1).map aesSub) [rc, 0, 0, 0]
      else if i % 8 = 4 then t.map aesSub else t
    aesKeys n (i + 1) (if i % 8 = 0 then aesDouble rc else rc) (xorBytes (nth l 7 []) t :: l)

/-- Round keys of a key of 32 bytes, 240 bytes in order. -/
def aesSchedule (key : List Byte) : List Byte :=
  (aesKeys 52 8 1 ((List.range 8).map fun i => (key.drop (4 * i)).take 4).reverse).reverse.flatten

/-- The rows shifted; byte 4c + r stands in column c and row r. -/
def aesShift (l : List Byte) : List Byte := (List.range 16).map fun i => nth l (4 * ((i / 4 + i % 4) % 4) + i % 4) 0

/-- The columns mixed. -/
def aesMix (l : List Byte) : List Byte := (List.range 16).map fun i =>
  let at' (k : Nat) : Byte := nth l (4 * (i / 4) + (i + k) % 4) 0
  aesDouble (at' 0) ^^^ (aesDouble (at' 1) ^^^ at' 1) ^^^ at' 2 ^^^ at' 3

/-- One block of 16 bytes enciphered. -/
def aesBlock (sched l : List Byte) : List Byte :=
  let rk (r : Nat) : List Byte := (sched.drop (16 * r)).take 16
  let l := (List.range 13).foldl (fun l r => xorBytes (aesMix (aesShift (l.map aesSub))) (rk (r + 1))) (xorBytes l (rk 0))
  xorBytes (aesShift (l.map aesSub)) (rk 14)

/-- A tweak times x. -/
def xtsDouble (t : List Byte) : List Byte :=
  let v := 2 * ofBytes t
  toBytes 16 (if 2 ^ 128 ≤ v then (v - 2 ^ 128) ^^^ 0x87 else v)

/-- The blocks of a data unit enciphered, each with its tweak. -/
def xtsBlocks (sched : List Byte) : Nat → List Byte → List Byte → List Byte
  | 0, _, _ => []
  | n + 1, t, l => xorBytes (aesBlock sched (xorBytes (l.take 16) t)) t ++ xtsBlocks sched n (xtsDouble t) (l.drop 16)

/-- The ciphertext of a 64-byte unit at a physical address under two keys of 32 bytes: of the data and of the tweak
(R507) (PRESUMED, log entry 10). -/
def xtsUnit (key1 key2 : List Byte) (pa : Nat) (plain : List Byte) : List Byte :=
  xtsBlocks (aesSchedule key1) 4 (aesBlock (aesSchedule key2) (toBytes 16 pa)) plain

/-- A unit as the key pair of a confidential context enciphers it. -/
def cipherUnit (pair pa : Nat) (plain : List Byte) : List Byte :=
  let key (second : Bool) : List Byte := (List.range 32).map (Config.keyByte pair second)
  xtsUnit (key false) (key true) pa plain

/-! ## Encrypted pages as the host sees them (R504, R507) -/

/-- Does a page table from a level on map a physical address by a leaf with ENC = 1? -/
def encWalk (rd : Nat → Word) (pa : Nat) : Nat → List (Nat × Nat × Nat) → Bool
  | _, [] => false
  | base, (_, lo, n) :: t => (List.range (2 ^ n)).any fun i =>
      let e := rd (base + 8 * i)
      let frame := wfld e 16 36 * 65536
      e.getLsbD 0 &&
        (if e.getLsbD 1 then e.getLsbD 7 && !e.getLsbD 5 && frame ≤ pa && pa < frame + 2 ^ lo
         else encWalk rd pa (wfld e 8 44 * 256) t)

/-- The key pair of the confidential context for which the page of an address is encrypted. -/
def keyAt (m : Memory) (d : Dev) (pa : Nat) : Option Nat :=
  (d.ctxs.find? fun (_, x) => x.conf && encWalk (readWord m d everyone) pa x.ptRoot walkLevels).map fun (_, x) => x.key

/-- HBM as the host reads it: ciphertext of an encrypted page. -/
def hostBytes (m : Memory) (d : Dev) (pa n : Nat) : List Byte :=
  (unitPieces pa n).flatMap fun (a, l) =>
    match keyAt m d a with
    | none => readBytes m d 406 a l
    | some k =>
      let u := a / 64 * 64
      ((cipherUnit k u (readBytes m d 406 u 64)).drop (a - u)).take l

/-- A host write (R134, R136, R504): by 64-byte units, dropped on encrypted pages. -/
def hostWrite (m : Memory) (d : Dev) (pa : Nat) (bs : List Byte) (time : Nat) : Dev :=
  (unitPieces pa bs.length).foldl (fun d (a, l) =>
    if hbmTop < a + l || (keyAt m d a).isSome then d
    else d.unitWrite 0 a ((bs.drop (a - pa)).take l) time fun d => d.writeAll 406 a ((bs.drop (a - pa)).take l)) d

end Sys2Proof.Machine
end

