-- ==== Sys2Proof/Machine/System.lean ====
section
/-!
DEFINITION. Firmware's operations (R35, R36, R497, R509, R510), the return from a trap (R185), swaps (R36, R37, R216),
resets, boot, negotiation, monitors (R506-R513), and the host's accesses to HBM and counters (R504, R505).
-/

namespace Sys2Proof.Machine

/-! ## The frame of a privileged operation (R77, R509) -/

/-- The source unit of the system (R188). -/
def systemUnit : Nat := 404

/-- An operation that only firmware on a general core may execute (R77). -/
def firmware (h : Hdr) (w : Word) (f : State → Bundle → Core → Out) (s : State) : Host.Outcome State Fault Refusal :=
  syllable h (fun s b c => if isGeneral b.core && c.seq.priv then f s b c else .raise (mkFault 0x05 w 0)) s

/-- The result of an operation, interlocked. -/
def opAnswer (d : Dev) (b : Bundle) (c : Core) (o : ZG) (v : Word) : Out :=
  .ok (sendLate d b (.s (physSV c.lp o.y.toNat) v) true 0)

/-- A refusal: 2^63 + reason, with no effect. -/
def opRefuse (s : State) (b : Bundle) (c : Core) (o : ZG) (reason : Nat) : Out :=
  opAnswer s.dev b c o (toW (2 ^ 63 + reason))

/-- Context named by an argument register. -/
def ctxArg (d : Dev) (v : Word) : Option (Nat × Ctx) := (d.ctx v.toNat).map fun x => (v.toNat, x)

/-- Partition named by an argument register. -/
def partArg (d : Dev) (v : Word) : Option (Nat × Part) := (tget d.parts v.toNat).map fun x => (v.toNat, x)

/-! ## TRET (R185) -/

/-- TRET (R185). -/
def execTret (h : Hdr) (s : State) : Host.Outcome State Fault Refusal :=
  ctlSyllable h
    (fun s b c => if isGeneral b.core && c.seq.priv then .ok s.dev else .raise (mkFault 0x0C 0 0))
    (fun b => { b with ctl := .tret (match b.ctl with | .sleep => true | _ => false) }) s

/-! ## Partitions (R20, R22, R35, R509) -/

/-- A new partition. -/
def newPart (dies : BitVec 8) (base size share : Nat) (engines : BitVec 16) : Part where
  dies := dies
  hbmBase := base
  hbmSize := size
  share := share
  engines := engines
  resident := none
  preempt := false
  swap := none
  swapAt := 0
  haltAt := 0
  swapLeft := []
  swapBy := (0, 0)
  fqBase := 0
  fqLog2 := 0
  fqCount := 0

/-- Why a partition cannot be formed (R509): the lowest reason (DEDUCED, log entry 75). -/
def formReason (d : Dev) (dies : BitVec 8) (w : List Word) : Option Nat :=
  let base := (nth w 0 0).toNat
  let size := (nth w 1 0).toNat
  let share := (nth w 2 0).toNat
  if dies = 0 || d.parts.any (fun (_, p) => p.dies &&& dies ≠ 0) then some 1
  else if ((List.range 8).all fun i => (tget d.parts i).isSome) then some 2
  else if size = 0 || 2048 < base + size || share = 0 || 16 < share || 65536 ≤ (nth w 3 0).toNat then some 5
  else none

/-- PARTOP form (R509). -/
def execPartopForm (h : Hdr) (o : ZG) (s : State) : Host.Outcome State Fault Refusal :=
  firmware h (sylWord (.partopForm h o)) (fun s b c =>
    readImage s b c true (c.s o.z.toNat) 32 fun bs =>
      let w := wordsOf 4 bs
      let dies : BitVec 8 := (c.s o.x.toNat).setWidth 8
      match formReason s.dev dies w with
      | some r => opRefuse s b c o r
      | none =>
        let k := ((List.range 8).find? fun i => (tget s.dev.parts i).isNone).getD 0
        let p := newPart dies (nth w 0 0).toNat (nth w 1 0).toNat (nth w 2 0).toNat ((nth w 3 0).setWidth 16)
        opAnswer (s.dev.setPart k p) b c o (toW k)) s

/-- PARTOP dissolve (R509). -/
def execPartopDissolve (h : Hdr) (o : ZG) (s : State) : Host.Outcome State Fault Refusal :=
  firmware h (sylWord (.partopDissolve h o)) (fun s b c =>
    match partArg s.dev (c.s o.x.toNat) with
    | none => opRefuse s b c o 1
    | some (k, _) =>
      if s.dev.ctxs.any fun (_, x) => x.part = k then opRefuse s b c o 7
      else opAnswer { s.dev with parts := tdel s.dev.parts k } b c o 0) s

/-- Every core of a partition gets a pending pre-emption (R35). -/
def Dev.preemptPart (d : Dev) (k : Nat) (p : Part) : Dev :=
  p.cores.foldl (fun d n => d.updCore n fun c => { c with preempt := true }) (d.setPart k { p with preempt := true })

/-- PARTOP preempt (R35, R509). -/
def execPartopPreempt (h : Hdr) (o : ZG) (s : State) : Host.Outcome State Fault Refusal :=
  firmware h (sylWord (.partopPreempt h o)) (fun s b c =>
    match partArg s.dev (c.s o.x.toNat) with
    | none => opRefuse s b c o 1
    | some (k, p) => opAnswer (s.dev.preemptPart k p) b c o 0) s

/-! ## Queue-level reset (R510, R497, R400) -/

/-- The queued tasks of a context on a cluster and the deques of its cores complete as cancelled. -/
def resetQueue (m : Memory) (d : Dev) (ctx time g : Nat) : Dev :=
  let gone := (d.cluster g).queue.filter (·.ctx = ctx)
  let d := d.updCluster g fun x => { x with queue := x.queue.filter (·.ctx ≠ ctx) }
  let d := gone.foldl (fun d e => d.endUnstarted m g e 2 time) d
  (coresOfCluster g).foldl (fun d n =>
    let mine := (d.core n).deque.filter (·.ctx = ctx)
    let d := d.updCore n fun c => { c with deque := c.deque.filter (·.ctx ≠ ctx) }
    mine.foldl (fun d e => d.endUnstarted m g e 2 time) d) d

/-- The entries of a spill ring complete as cancelled, oldest first; an unreadable one suspends refilling. -/
def resetSpill (m : Memory) (ctx g time : Nat) : Nat → Dev → Dev
  | 0, d => d
  | k + 1, d =>
    let r := (d.cluster g).ringOf ctx
    if r.swr = r.srd then d
    else match engineWords m d (taskEngine g) ctx (r.entryVa r.srd.toNat) 9 with
      | .error f => d.spillFault g ctx f time
      | .ok ws =>
        let e : QEntry := { words := ws.take 8, id := nth ws 8 0, ctx := ctx }
        resetSpill m ctx g time k ((d.updRing g ctx SpillRing.refilled).endUnstarted m g e 2 time)

/-- The queued and deque tasks of an image, each with its cluster. -/
def Saved.entries (v : Saved) : List (Nat × QEntry) :=
  v.queues.flatMap (fun (g, l) => l.map fun e => (g, e)) ++
    v.cores.flatMap fun (n, c) => c.deque.map fun e => (clusterOf n, e)

/-- An image without them. -/
def Saved.emptied (v : Saved) : Saved :=
  { v with
    queues := v.queues.map fun (g, _) => (g, [])
    cores := v.cores.map fun (n, (c : Core)) => (n, { c with deque := [] }) }

/-- The queued and deque tasks of a saved context complete as cancelled: those of images in HBM, and, while no swap of its
partition runs, those in shadow storage (R510). -/
def resetSaved (m : Memory) (d : Dev) (ctx time : Nat) : Dev :=
  let shadows := ((d.partOfCtx ctx).bind (·.swap)).isNone
  let mine (v : Saved) : Bool := v.ctx = ctx
  let gone := (d.images.map (·.2) ++ (if shadows then d.dies.filterMap fun (_, x) => x.shadow else [])).filter mine
  let emptied (v : Saved) : Saved := if mine v then v.emptied else v
  let d := { d with
    images := d.images.map fun (i, v) => (i, emptied v)
    dies := if shadows then d.dies.map fun (i, (x : Die)) => (i, { x with shadow := x.shadow.map emptied }) else d.dies }
  (gone.flatMap Saved.entries).foldl (fun d (g, e) => d.endUnstarted m g e 2 time) d

/-- The packets of a copy queue not yet taken are discarded, each with its completion add (R400)
(DEDUCED, log entry 77). -/
def discardPackets (m : Memory) (q time : Nat) : Nat → Dev → Dev
  | 0, d => d
  | k + 1, d =>
    let x := d.cpyq q
    let wi := (localCounter m d x.ctx x.wi).getD x.known
    if wi ≤ x.ridx then d
    else match engineWords m d (copyEngine q) x.ctx (x.slotVa x.ridx) 8 with
        | .error _ => d
        | .ok w =>
          if wfld (nth w 0 0) 48 16 ≠ x.lap x.ridx then d
          else
            let p : Packet :=
              { idx := x.ridx, words := w, susp := false, moved := 0, ahead := [], got := [], parking := false, bad := false
                sent := false }
            discardPackets m q time k (endPacket m (passSlot m d q time) q p 2 time)

/-- Queue-level reset of a context (R510): what stands in HBM and in place, and, while no swap runs, in shadow storage
(log entry 77). -/
def queueReset (m : Memory) (d : Dev) (ctx time : Nat) : Dev :=
  let d := d.updCtx ctx fun x =>
    { x with streams := x.streams.map fun (k, (z : Stream)) => (k, { z with stopped := true }) }
  let cl := ((d.partOfCtx ctx).map (·.clusters)).getD []
  let d := cl.foldl (fun d g =>
    let d := d.updCluster g fun x => { x with lastStream := tdel x.lastStream ctx }
    let d := resetQueue m d ctx time g
    let r := (d.cluster g).ringOf ctx
    resetSpill m ctx g time (r.swr - r.srd).toNat d) d
  let d := resetSaved m d ctx time
  let mine := (d.cpyqs.filter fun (_, x) => x.ctx = ctx && x.en).map (·.1)
  let d := mine.foldl (fun d q =>
    let d := discardPackets m q time (2 ^ (d.cpyq q).log2) d
    d.setCpyq q { d.cpyq q with en := false }) d
  (List.range 10).foldl (fun d u => truncateTrace d ctx u) d

/-- PARTOP qreset (R509, R510). -/
def execPartopQreset (h : Hdr) (o : ZG) (s : State) : Host.Outcome State Fault Refusal :=
  firmware h (sylWord (.partopQreset h o)) (fun s b c =>
    match ctxArg s.dev (c.s o.x.toNat) with
    | none => opRefuse s b c o 8
    | some (k, _) => opAnswer (queueReset s.mem s.dev k s.time) b c o 0) s

/-! ## Contexts (R21, R85, R232, R268, R507-R509) -/

/-- A valid or unset format descriptor (R85). -/
def descValid (w : Word) : Bool :=
  let f (lo n : Nat) : Nat := wfld w lo n
  let dist := f 48 16
  let kind := f 32 3
  let scl := f 30 2
  let spec := f 27 2
  let man := f 20 4
  let exp := f 16 4
  let sgn := f 15 1
  let n := sgn + exp + man
  if kind = 7 then w = 0x0000000700000000
  else
    f 35 5 = 0 && f 24 3 = 0 && f 0 15 = 0 && scl ≠ 3 && spec ≠ 3 && man ≤ 8 && exp ≤ 8 &&
    (if kind = 0 then
       2 ≤ n && n ≤ 8 && (exp ≠ 0 || (1 ≤ man && spec = 0)) && (spec ≠ 1 || 1 ≤ exp) && (spec ≠ 2 || 2 ≤ exp)
     else n = 0 && f 40 8 = 0 && spec = 0) &&
    (if scl = 0 then dist = 0 && f 29 1 = 0 else (kind = 0 || kind = 4) && dist ≠ 0)

/-- A valid summary (R267): every coordinate below a reset one is reset. -/
def summaryValid (sum : Nat) : Bool :=
  ([0, 1, 2] : List Nat).all fun k =>
    (([1, 2, 3] : List Nat).all fun j => !(k < j && fld sum (4 * j) 4 = 15) || fld sum (4 * k) 4 = 15)

/-- A closure table that keeps the rules of R268. -/
def closureValid : List Word → Bool
  | [] => true
  | e :: t =>
    wfld e 60 4 = 0 && wfld e 16 20 = 0 && wfld e 48 12 ≠ wfld e 36 12 && summaryValid (wfld e 0 16) &&
      (match t with | [] => true | f :: _ => wfld e 36 24 < wfld f 36 24) && closureValid t

/-- The context that a block describes (R509). -/
def newCtx (k : Nat) (key : Nat) (w : List Word) : Ctx where
  part := k
  fmt := w.take 16
  ptRoot := (nth w 16 0).toNat
  cntBase := (nth w 17 0).toNat
  ncnt := (nth w 18 0).toNat
  stageBase := (nth w 19 0).toNat
  closBase := (nth w 20 0).toNat / 2 ^ 17 * 2 ^ 17
  nclos := wfld (nth w 20 0) 0 17
  ovfBase := (nth w 21 0).toNat
  frBase := (nth w 22 0).toNat / 32 * 32
  frLog2 := wfld (nth w 22 0) 0 5
  frCount := 0
  qbase := wfld (nth w 23 0) 0 10
  qsize := wfld (nth w 23 0) 32 10
  wbase := wfld (nth w 24 0) 0 10
  wlo := wfld (nth w 24 0) 10 3
  wnum := wfld (nth w 24 0) 13 3
  dbg := (nth w 25 0).getLsbD 0
  conf := (nth w 25 0).getLsbD 1
  key := key
  block := w
  streams := []
  rings := []
  ten := false
  sen := false
  per := 65536
  bps := []
  watch := []
  smpTodo := []
  watchTodo := []
  cpage := 0
  root := Root.reset
  gen := Gen.reset
  calv := Calv.reset

/-- Ways of two contexts meet (R232). -/
def waysMeet (x y : Ctx) : Bool := x.wnum ≠ 0 && y.wnum ≠ 0 && x.wlo < y.wlo + y.wnum && y.wlo < x.wlo + x.wnum

/-- Why a context cannot be created (R509): the lowest reason. -/
def createReason (m : Memory) (d : Dev) (k : Nat) (x : Ctx) : Option Nat :=
  let w := x.block
  let table := (List.range (min x.nclos 65536)).map fun i => readWord m d everyone (x.closBase + 8 * i)
  if (tget d.parts k).isNone then some 1
  else if (List.range 64).all fun i => (d.ctx i).isSome then some 2
  else if !x.fmt.all descValid then some 3
  else if 65536 < x.nclos || !closureValid table then some 4
  else if 768 < x.qbase + x.qsize || 7 ≤ x.wnum || 8 < x.wlo + x.wnum ||
      (x.wnum ≠ 0 && (x.wbase < x.qbase || x.qbase + x.qsize < x.wbase + 128 * x.wnum)) ||
      d.ctxs.any (fun (_, y) => y.part = k && waysMeet x y) then some 5
  else if (x.dbg && !d.sys.feata0.getLsbD 3) || (x.conf && !d.sys.feata0.getLsbD 1) || 4 ≤ (nth w 25 0).toNat ||
      (w.drop 26).any (· ≠ 0) || 2 ^ 24 < x.ncnt || !tableOk 0 x.ptRoot then some 8
  else none

/-- The cores of a partition as a context finds them that becomes resident without a saved image (R489, R498): those
that a save left halted are idle (log entry 23). -/
def Dev.freshCores (d : Dev) (p : Part) : Dev :=
  p.cores.foldl (fun d n => d.updCore n fun c =>
    { c with cc := [], ev := EvCounters.reset, sample := none, watch := [], preempt := false
             run := if c.run = .halted then .idle else c.run }) d

/-- CTXOP create (R509).  A partition without a resident context has the new one resident (log entry 23). -/
def execCtxopCreate (h : Hdr) (o : ZG) (s : State) : Host.Outcome State Fault Refusal :=
  firmware h (sylWord (.ctxopCreate h o)) (fun s b c =>
    readImage s b c true (c.s o.z.toNat) 256 fun bs =>
      let k := (c.s o.x.toNat).toNat
      let x := newCtx k s.free (wordsOf 32 bs)
      match createReason s.mem s.dev k x, tget s.dev.parts k with
      | none, some p =>
        let i := ((List.range 64).find? fun i => (s.dev.ctx i).isNone).getD 0
        let d := s.dev.setCtx i x
        let d := if p.resident.isNone && p.swap.isNone then (d.setPart k { p with resident := some i, preempt := false }).freshCores p
          else d
        opAnswer d b c o (toW i)
      | r, _ => opRefuse s b c o (r.getD 1)) s

/-- A context's number holds nothing any more: counters, ways, translations, shadow images and keys (R509, R507). -/
def Dev.eraseCtx (d : Dev) (k : Nat) : Dev :=
  { d with
    ctxs := tdel d.ctxs k
    clusters := d.clusters.map fun (g, (x : Cluster)) => (g, { x with
      tags := x.tags.filter fun (_, e) => e.ctx ≠ k
      tlb := x.tlb.filter fun e => e.ctx ≠ k
      spill := tdel x.spill k
      lastStream := tdel x.lastStream k
      queue := x.queue.filter fun e => e.ctx ≠ k })
    dies := d.dies.map fun (i, (y : Die)) => (i, { y with
      sram := y.sram.filter fun e => e.ctx ≠ k
      moraine := tdel y.moraine k
      tlb := y.tlb.filter fun e => e.ctx ≠ k
      shadow := match y.shadow with | some v => if v.ctx = k then none else some v | none => none })
    images := d.images.filter fun (_, v) => v.ctx ≠ k
    gravs := d.gravs.map fun (i, (g : Grav)) => (i, { g with gens := g.gens.filter fun (q, _) => q / 65536 ≠ k }) }

/-- The 64-byte units of HBM that hold a context's encrypted pages: as its key is erased, only their ciphertext is left
(R507). -/
def Dev.sealUnits (m : Memory) (d : Dev) (x : Ctx) : Dev :=
  if !x.conf then d
  else
    let units : List Nat :=
      ((m.cells.map (fun (c : Host.Cell) => c.1 / 64) ++ d.stores.map fun (e : StoreEnt) => e.gran / 8).filter
        fun u => 64 * u < hbmTop).dedup
    let mine := units.filter fun u => encWalk (readWord m d everyone) (64 * u) x.ptRoot walkLevels
    mine.foldl (fun y u => y.writeAll systemUnit (64 * u) (cipherUnit x.key (64 * u) (readBytes m d everyone (64 * u) 64))) d

/-- Is a context resident, being made resident by a swap, or the context of a general core (R509)? -/
def Dev.inUse (d : Dev) (k : Nat) : Bool :=
  d.parts.any (fun (_, p) => p.resident = some k || p.swap = some (2, k) || p.swap = some (3, k)) ||
    d.genPart.any fun (_, _, q) => q = k

/-- CTXOP destroy (R509). -/
def execCtxopDestroy (h : Hdr) (o : ZG) (s : State) : Host.Outcome State Fault Refusal :=
  firmware h (sylWord (.ctxopDestroy h o)) (fun s b c =>
    match ctxArg s.dev (c.s o.x.toNat) with
    | none => opRefuse s b c o 8
    | some (k, x) =>
      if s.dev.inUse k then opRefuse s b c o 7 else opAnswer ((s.dev.sealUnits s.mem x).eraseCtx k) b c o 0) s

/-- Drop a context's translations of a range; n = 0 drops all.  The stores of ended phases, those under an old translation
among them, are applied first (R119). -/
def Dev.dropTranslations (d : Dev) (ctx va n : Nat) : Dev :=
  let keep (e : TlbEnt) : Bool :=
    let lo := e.va / 2 ^ e.bits * 2 ^ e.bits
    e.ctx ≠ ctx || (n ≠ 0 && (lo + 2 ^ e.bits ≤ va || va + 65536 * n ≤ lo))
  let d := d.applyWrites (fun e => e.ended && !e.applied && e.gran * 8 < hbmTop) allClusters
  { d with
    clusters := d.clusters.map fun (g, (x : Cluster)) => (g, { x with tlb := x.tlb.filter keep })
    dies := d.dies.map fun (i, (y : Die)) => (i, { y with tlb := y.tlb.filter keep }) }

/-- An access of a context that used a translation of a range, and has not completed: a request to another package, or the
fill of a cache window (R119). -/
def Dev.underOld (d : Dev) (ctx va n : Nat) : Bool :=
  d.remote.any (fun q => (q.kind = .load || q.kind = .store) && q.ctx = ctx &&
    (n = 0 || (va ≤ q.ident.toNat && q.ident.toNat < va + 65536 * n))) ||
  d.clusters.any fun (_, x) => x.tags.any fun (_, e) => e.ctx = ctx && !e.filled && e.again.isNone

/-- CTXOP inval (R119, R509): it completes when every access under an old translation has. -/
def execCtxopInval (h : Hdr) (o : ZG) (s : State) : Host.Outcome State Fault Refusal :=
  firmware h (sylWord (.ctxopInval h o)) (fun s b c =>
    match ctxArg s.dev (c.s o.x.toNat) with
    | none => opRefuse s b c o 8
    | some (k, _) =>
      let va := (c.s o.z.toNat).toNat
      let n := fld o.imm.toNat 4 16
      if s.dev.underOld k va n then .stall 11 else opAnswer (s.dev.dropTranslations k va n) b c o 0) s

/-- Does a physical range lie in memory: HBM, a scratchpad or the host window (R109)? -/
def inMemory (pa n : Nat) : Bool :=
  let ok (a : Nat) : Bool := match placeOf a with | .hbm | .spm _ _ | .host => true | _ => false
  (unitPieces pa n).all fun (a, l) => ok a && ok (a + l - 1)

/-- CTXOP attest (R508). -/
def execCtxopAttest (h : Hdr) (o : ZG) (s : State) : Host.Outcome State Fault Refusal :=
  firmware h (sylWord (.ctxopAttest h o)) (fun s b c =>
    let pa := (c.s o.z.toNat).toNat
    match ctxArg s.dev (c.s o.x.toNat) with
    | none => opRefuse s b c o 8
    | some (k, x) =>
      if !inMemory pa 640 then opRefuse s b c o 8
      else
        let bs := report k x (readBytes s.mem s.dev b.core pa 32) s.dev.sys.feata0 s.free
        opAnswer ((s.dev.writeAll systemUnit pa bs).clearGranules pa 640) b c o 0) s

/-! ## Swaps (R36, R37, R216, R279, R492) -/

/-- Does every die of a partition hold an image of a context? -/
def imagesReady (d : Dev) (p : Part) (ctx : Nat) : Bool :=
  p.dieList.all fun i => match (d.die i).shadow with | some v => v.ctx = ctx | none => false

/-- Why a swap operation is refused (R509), code 1 save, 2 restore, 3 exchange: the lowest reason. -/
def swapReason (d : Dev) (p : Part) (code : Nat) (target : Word) : Option Nat :=
  if !(p.cores.all fun n => (d.core n).run = .halted) then some 6
  else if p.swap.isSome || (code = 2 && p.resident.isSome) then some 7
  else if (code ≠ 2 && p.resident.isNone) || (code ≠ 1 && !imagesReady d p target.toNat) then some 8
  else none

/-- The time from which a swap's bound counts: the partition's last halt, or, where its bound has passed already, the
SWAPOP (R36, R515) (DEDUCED, log entry 113). -/
def Part.swapFrom (p : Part) (time : Nat) : Nat := if time ≤ p.haltAt + 5000 then p.haltAt else time

/-- A swap operation begins; its result lands at completion. -/
def swapForm (h : Hdr) (w : Word) (o : ZG) (code : Nat) (s : State) : Host.Outcome State Fault Refusal :=
  firmware h w (fun s b c =>
    match partArg s.dev (c.s o.x.toNat) with
    | none => opRefuse s b c o 1
    | some (k, p) =>
      match swapReason s.dev p code (c.s o.z.toNat) with
      | some r => opRefuse s b c o r
      | none =>
        let tag := (s.dev.core b.core).nextTag
        let d := sendLate s.dev b (.s (physSV c.lp o.y.toNat) 0) false tag
        let d := d.updCore b.core fun c => { c with nextTag := tag + 1 }
        .ok (d.setPart k { p with
          swap := some (code, (c.s o.z.toNat).toNat), swapAt := p.swapFrom s.time, swapLeft := p.dieList, swapBy := (b.core, tag) })) s

/-- SWAPOP save (R36, R509). -/
def execSwapopSave (h : Hdr) (o : ZG) (s : State) : Host.Outcome State Fault Refusal :=
  swapForm h (sylWord (.swapopSave h o)) o 1 s

/-- SWAPOP restore (R36, R509). -/
def execSwapopRestore (h : Hdr) (o : ZG) (s : State) : Host.Outcome State Fault Refusal :=
  swapForm h (sylWord (.swapopRestore h o)) o 2 s

/-- SWAPOP exch (R36, R509). -/
def execSwapopExch (h : Hdr) (o : ZG) (s : State) : Host.Outcome State Fault Refusal :=
  swapForm h (sylWord (.swapopExch h o)) o 3 s

/-- Tensor cores and clusters of a die (R13). -/
def coresOfDie (i : Nat) : List Nat := (List.range 32).map fun k => 32 * i + k
def clustersOfDie (i : Nat) : List Nat := (List.range 4).map fun k => 4 * i + k

/-- The image of a die's part of a context (R36). -/
def Dev.image (d : Dev) (i ctx : Nat) : Saved where
  ctx := ctx
  cores := (coresOfDie i).map fun n => (n, d.core n)
  queues := (clustersOfDie i).map fun g => (g, (d.cluster g).queue)
  spills := (clustersOfDie i).map fun g => (g, (d.cluster g).ringOf ctx)
  groups := (clustersOfDie i).map fun g => (g, (d.cluster g).group)
  joins := (clustersOfDie i).map fun g => (g, (d.cluster g).fe.joins)
  moraine := (d.die i).moraineOf ctx

/-- What saving leaves of a core. -/
def Core.vacated (c : Core) : Core :=
  { c with task := none, deque := [], holds := [], waits := [], attached := false, savedAtt := false, fetched := none,
           seq := { c.seq with region := .none, pass := 0 }, lp := LoopCtx.reset }

/-- What saving leaves of a cluster. -/
def Cluster.vacated (x : Cluster) : Cluster :=
  { x with queue := [], group := none, fe := { FrontEnd.reset with icorr := x.fe.icorr } }

/-- The general cores of a context that leaves its partition: their event counters are written back and stop (R492). -/
def Dev.pauseGenerals (m : Memory) (d : Dev) (ctx time : Nat) : Dev :=
  (d.generalsOf ctx).foldl (fun d n => (writeBackAll m d ctx n time).updCore n Core.stopCounters) d

/-- A die saves the resident context; the event counters have been written back. -/
def saveDie (m : Memory) (d : Dev) (i ctx time : Nat) : Dev :=
  let d := (coresOfDie i).foldl (fun d n => writeBackAll m d ctx n time) d
  let img := d.image i ctx
  let d := (coresOfDie i).foldl (fun d n => d.updCore n Core.vacated) d
  let d := (clustersOfDie i).foldl (fun d g => d.updCluster g Cluster.vacated) d
  d.updDie i fun y =>
    { (y.setMoraine ctx { MoraineCtx.reset with sent := img.moraine.sent, reported := img.moraine.reported }) with
      shadow := some img }

/-- A saved core in its place again, with its control registers (R36, R37): what counts up for the unit, and its clock, go
on; nothing is busy, and b0 to b7 count as just written (R154). -/
def Core.restored (cur old : Core) : Core :=
  { old with
    ready := max cur.ready old.ready
    bWrite := (List.range 8).map fun i => (i, old.issued)
    row := { old.row with busyUntil := 0, touched := [] }
    mat := { old.mat with busyUntil := 0, drainUntil := 0 }
    busyUntil := 0
    tseq := cur.tseq
    phase := max cur.phase old.phase
    nextTag := max cur.nextTag old.nextTag
    charged := max cur.ready old.ready
    gaps := []
    waitEnd := max cur.ready old.ready }

/-- A Moraine's part of an image in its place again (R275, R279): what general cores have entered since follows the batches
saved; what the shared entries do not hold lies in the overflow area. -/
def Die.restoreMoraine (y : Die) (v : Saved) : Die :=
  let q := y.moraineOf v.ctx
  let base : MoraineCtx := { v.moraine with
    sent := q.sent, owed := v.moraine.owed ++ q.owed, reported := q.reported, spilled := v.moraine.spilled + q.spilled }
  let y := y.setMoraine v.ctx ((q.unsent ++ [q.openDeltas]).foldl MoraineCtx.enter base)
  let q := y.moraineOf v.ctx
  y.setMoraine v.ctx { q with spilled := q.spilled + (y.moraineUsed - moraineSize) }

/-- A die restores an image, which is then used up. -/
def restoreDie (d : Dev) (i time : Nat) (v : Saved) : Dev :=
  let d := (coresOfDie i).foldl (fun d n => match tget v.cores n with
    | some old => d.updCore n fun cur =>
        (cur.restored old).resumeCounters time
    | none => d) d
  let d := (clustersOfDie i).foldl (fun d g => d.updCluster g fun x =>
    { x with
      queue := tgetD v.queues g []
      spill := match tget v.spills g with | some r => tset x.spill v.ctx r | none => x.spill
      group := tgetD v.groups g none
      fe := { FrontEnd.reset with icorr := x.fe.icorr, joins := tgetD v.joins g [] } }) d
  d.updDie i fun y => { y.restoreMoraine v with shadow := none }

/-- A restored front end restarts (R216): at the next bundle of the lowest-numbered member whose ATT bit was 1. -/
def restartFront (d : Dev) (g : Nat) : Dev :=
  match (d.cluster g).group with
  | none => d
  | some _ =>
    let mem := (coresOfCluster g).filter fun n => (d.core n).isMember
    let lead := mem.find? fun n => (d.core n).savedAtt
    let at' := lead.map fun n => (d.core n).pc
    let d := mem.foldl (fun d n => d.updCore n fun c =>
      { c with attached := c.savedAtt && some c.pc = at', cons := 0, ibuf := [], fetched := none
               fetchBase := c.ready, fetchK := 0 }) d
    match mem.head? with
    | none => d
    | some n =>
      let t := (d.core n).task
      let k := lead.getD n
      d.updCluster g fun x => { x with fe := { x.fe with
        serving := true
        kern := (t.map Task.ker).getD 0
        epi := (t.map Task.epi).getD 0
        modulo := (match (d.core k).lp.mloop with | some q => q.task | none => false)
        part := (d.core k).seq.region
        pos := at'
        cycle := (d.core k).ready
        notBefore := (d.core k).ready } }

/-- Cores that no launch group serves fetch privately from where they halted. -/
def Core.resumed (c : Core) : Core :=
  let c := { c with preempt := false, run := if c.task.isSome then .running else .idle }
  if c.isMember then c else { c with attached := false, fetched := none, fetchBase := c.ready, fetchK := 0 }

/-- The swap of a partition has completed on its last die (R36, R37, R490, R509).  After a save no context resumes, and
the cores stay halted (DEDUCED, log entries 34 and 37). -/
def endSwap (d : Dev) (k : Nat) (p : Part) (code target time : Nat) : Dev :=
  let d := d.setPart k { p with
    swap := none, swapLeft := [], preempt := code = 1, resident := if code = 1 then none else some target }
  let d := if code = 1 then p.cores.foldl (fun d n => d.updCore n fun c => { c with sample := none }) d
    else
      let d := p.cores.foldl (fun d n => d.updCore n fun c => { c.resumed with sample := none }) d
      let d := p.clusters.foldl restartFront d
      let gens := d.generalsOf target
      let d := gens.foldl (fun d n => d.updCore n fun c => { c.resumeCounters time with sample := none }) d
      let d := (p.cores ++ gens).foldl (fun d n => d.applySampling n (d.core n).ready) d
      let w := ((d.ctx target).map (·.watch)).getD []
      p.cores.foldl (fun d n => d.updCore n fun c => { c with watch := w }) d
  d.answerS p.swapBy.1 p.swapBy.2 0

/-- SWAP_COMPLETE (R36): one die has saved, restored or exchanged; within the bound at any time (R515). -/
def execSwapComplete (die : Nat) (s : State) : Host.Outcome State Fault Refusal :=
  happening (fun s =>
    match s.dev.partOfDie die with
    | none => none
    | some k => match tget s.dev.parts k with
      | none => none
      | some p => match p.swap with
        | none => none
        | some (code, target) =>
          if !p.swapLeft.contains die then none
          else
            let old := (s.dev.die die).shadow
            let d := match p.resident with
              | some c => if code = 2 then s.dev
                else saveDie s.mem (if p.swapLeft = p.dieList then s.dev.pauseGenerals s.mem c s.time else s.dev) die c
                  s.time
              | none => s.dev
            let d := match old with
              | some v => if code = 1 then d
                else (restoreDie d die s.time v).updDie die fun y =>
                  { y with shadow := if code = 3 then (d.die die).shadow else none }
              | none => d
            let p := { p with swapLeft := p.swapLeft.erase die }
            some (if p.swapLeft.isEmpty then endSwap d k p code target s.time else d.setPart k p)) s

/-! ## Images in HBM and general cores (R23, R36) -/

/-- Is a die's partition at a swap? -/
def Dev.swapping (d : Dev) (die : Nat) : Bool :=
  match (d.partOfDie die).bind (tget d.parts) with | some p => p.swap.isSome | none => false

/-- Firmware moves a die's saved image to HBM (R36).  R36 gives neither the image's form and place there nor what the move
leaves: the model keeps it outside addressable memory, the move leaves nothing in shadow storage, and the image goes back
only into the die it came from (DESIGN CHOICE, log entry 118). -/
def Dev.imageOut (d : Dev) (die : Nat) : Option Dev :=
  if d.swapping die then none
  else (d.die die).shadow.map fun v =>
    { d.updDie die (fun y => { y with shadow := none }) with images := d.images ++ [(die, v)] }

/-- Firmware moves a saved image from HBM into the empty shadow storage of its die (R36). -/
def Dev.imageIn (d : Dev) (idx : Nat) : Option Dev :=
  match d.images[idx]? with
  | none => none
  | some (die, v) =>
    if d.swapping die || (d.die die).shadow.isSome then none
    else some { d.updDie die (fun y => { y with shadow := some v }) with images := d.images.eraseIdx idx }

/-- Firmware assigns a general core to a context of a partition, or to none (R23; log entry 20): it takes over that
context's watchpoints and sampling, and begins its event counters (R490, R492, R498). -/
def Dev.assignCore (d : Dev) (n : Nat) (at' : Option (Nat × Nat)) : Option Dev :=
  if !isGeneral n || 288 ≤ n then none
  else match at' with
    | none => some ({ d with genPart := tdel d.genPart n }.updCore n fun c => { c.stopCounters with watch := [], sample := none })
    | some (p, ctx) =>
      match d.ctx ctx with
      | some x =>
        if x.part ≠ p then none else
        let d := { d with genPart := tset d.genPart n (p, ctx) }.updCore n fun c =>
          { c with watch := x.watch, sample := none, ev := { EvCounters.reset with group := 0 } }
        some (d.applySampling n (d.core n).ready)
      | none => none

/-! ## Resets and boot (R506, R510, R513) -/

/-- PACKAGE_RESET (R510) (DESIGN CHOICE, log entry 24). -/
def execPackageReset (s : State) : Host.Outcome State Fault Refusal :=
  .next { s with dev := { s.dev with sys := { s.dev.sys with rst := true } }.actReset, bundle := none }.tick

/-- A core restarts (R510): a general core at SEQ.TVEC in privileged mode, a tensor core idle. -/
def Core.restarted (c : Core) (general : Bool) : Core :=
  if general then
    { c with
      run := .running
      pc := c.seq.tvec
      seq := { c.seq with priv := true }
      lp := LoopCtx.reset
      pend := []
      waits := []
      fetched := none }
  else { c with run := .idle, pend := [], waits := [], fetched := none }

/-- Is a core on an I/O die whose boot has stopped (R18, R506)? -/
def Dev.neverBooted (d : Dev) (n : Nat) : Bool := isGeneral n && d.sys.dead.contains ((n - 256) / 16)

/-- A core reset acts on a core that is stopped. -/
def Dev.resetCore (d : Dev) (n : Nat) : Dev :=
  if 288 ≤ n || d.sys.hot || d.neverBooted n || (d.core n).run ≠ .stopped then d
  else d.updCore n fun c => c.restarted (isGeneral n)

/-- CORE_RESET (R510). -/
def execCoreReset (core : Nat) (s : State) : Host.Outcome State Fault Refusal :=
  happening (fun s => some (s.dev.resetCore core)) s

/-- General cores of an I/O die (R13). -/
def coresOfIod (iod : Nat) : List Nat := (List.range 16).map fun i => 256 + 16 * (iod % 2) + i

/-- The boot of an I/O die stops: the die runs nothing further (R506).  How far a failed self-test stops it is the model's
choice: R18 and R506 do not say whether the other I/O die goes on, nor what SYS.BOOT.STATE shows.  That die's sixteen cores
stop, the other die's go on, and the one SYS.BOOT.STATE shows the state given, also where the other die's boot has made it
2 (DESIGN CHOICE, log entry 119). -/
def Dev.stopBoot (d : Dev) (iod : Nat) (state : BitVec 2) : Dev :=
  let d := (coresOfIod iod).foldl (fun d n => d.updCore n fun c => { c with run := .stopped }) d
  { d with sys := { d.sys with boot := state, dead := iod % 2 :: d.sys.dead } }

/-- BOOT_ROM (R506, R18): the ROM loads, and then the image fails its checks, the self-test fails, or the die runs its
firmware; a boot that a unit's self-test has stopped comes to no later state (DESIGN CHOICE, log entry 119). -/
def execBootRom (iod : Nat) (image selfTest : Bool) (s : State) : Host.Outcome State Fault Refusal :=
  happening (fun s =>
    let y := s.dev.sys
    if y.boot = 3 || y.dead.contains (iod % 2) then none
    else if y.boot = 0 then some { s.dev with sys := { y with boot := 1 } }
    else if !image then some (s.dev.stopBoot iod 3)
    else if !selfTest then
      some ((s.dev.stopBoot iod 1).systemReport systemUnit 0xE0
        (Config.freeWord (2 * s.free)) (Config.freeWord (2 * s.free + 1)) s.time)
    else if !y.dead.isEmpty then none
    else some { s.dev with sys := { y with boot := 2 } }) s

/-- The feature bits offered (R513). -/
def featOffer (word1 : Bool) : Word := if word1 then 0 else 0x1F

/-- The first accepted-feature write locks both registers to the AND of offer and accepted bits (R513)
(DEDUCED, log entry 78). -/
def Sys.accept (y : Sys) (word1 : Bool) (v : Word) : Sys :=
  if y.locked then y
  else if word1 then { y with locked := true, feata1 := featOffer true &&& v, feata0 := featOffer false &&& y.feata0 }
  else { y with locked := true, feata0 := featOffer false &&& v, feata1 := featOffer true &&& y.feata1 }

/-- FEATURE_ACCEPT (R513). -/
def execFeatureAccept (word : Bool) (bits : BitVec 64) (s : State) : Host.Outcome State Fault Refusal :=
  happening (fun s => if s.dev.sys.locked then none else some { s.dev with sys := s.dev.sys.accept word bits }) s

/-! ## The host (R504, R505, R136)

After a refused boot the package answers none of these (R506). -/

/-- HOST_COUNTER_ADD (R505): a release at .pkg after the link's earlier writes (DEDUCED, log entry 76). -/
def execHostCounterAdd (ctx : Nat) (ident val : BitVec 64) (s : State) : Host.Outcome State Fault Refusal :=
  happening (fun s =>
    match s.dev.ctx ctx with
    | none => none
    | some _ =>
      if s.dev.sys.boot = 3 then none
      else match resolveCounter s.dev ctx ident with
      | .error r => some (s.dev.engineReport systemUnit ctx 0x42 .fault 0 ident (toW r) s.time)
      | .ok _ => some (engineAdd s.mem (s.dev.release 406 3) systemUnit ctx ident val s.time)) s

/-- HOST_HBM_WRITE (R136, R504). -/
def execHostHbmWrite (pa : Nat) (bytes : List (BitVec 8)) (s : State) : Host.Outcome State Fault Refusal :=
  happening (fun s => if s.dev.sys.boot = 3 then none else some (hostWrite s.mem s.dev pa bytes s.time)) s

/-- HOST_HBM_READ (R504). -/
def execHostHbmRead (pa len : Nat) (s : State) : Host.Outcome State Fault Refusal :=
  happening (fun s =>
    if hbmTop < pa + len || s.dev.sys.boot = 3 then none
    else some { s.dev with sys := { s.dev.sys with hostBytes := hostBytes s.mem s.dev pa len } }) s

/-! ## Limits (R512) -/

/-- ISSUE_GATING (R512). -/
def execIssueGating (die : Nat) (cause : GateCause) (s : State) : Host.Outcome State Fault Refusal :=
  happening (fun s =>
    if 8 ≤ die then none else
    some (s.dev.updDie die fun y => { y with gate := (cause, s.time) :: y.gate.filter fun (g, _) => g ≠ cause })) s

/-- Nanoseconds for which a cause gates issue at the least, from its last occurrence: 1 µs for the rails, 1 ms for
temperature and power, whose condition must have been clear so long (R512). -/
def gateLeast (g : GateCause) : Nat := if g = .railLow || g = .railCurrent then 1000 else 1000000

/-- GATING_END (R512): every cause that has lasted its time ends. -/
def execGatingEnd (die : Nat) (s : State) : Host.Outcome State Fault Refusal :=
  happening (fun s =>
    let over' (x : GateCause × Nat) : Bool := x.2 + gateLeast x.1 ≤ s.time
    if 8 ≤ die || !((s.dev.die die).gate.any over') then none
    else some (s.dev.updDie die fun y => { y with gate := y.gate.filter fun x => !over' x })) s

/-- THERMAL_STOP (R512): every core stops, and no engine does anything until a package reset (DEDUCED, log entry 79). -/
def execThermalStop (die : Nat) (s : State) : Host.Outcome State Fault Refusal :=
  happening (fun s =>
    let d := s.dev.systemReport systemUnit 0xE3 (toW die) 0 s.time
    let d := (List.range 288).foldl (fun d n => d.updCore n fun c => { c with run := .stopped }) d
    some { d with sys := { d.sys with hot := true } }) s

end Sys2Proof.Machine
end

