-- ==== Sys2Proof/Machine/Csr.lean ====
section
/-!
DEFINITION. Control registers (R5, R6, R63, R77, R175 and the field maps of every chapter): the value of each, what a
read clears, what a write does, the four control-register forms and firmware's and the host's accesses.
-/

namespace Sys2Proof.Machine

/-- What an access is made with: the core whose registers are meant, its cycle, time and a free number. -/
structure CsrAt where
  mem : Memory
  core : Nat
  cycle : Nat
  time : Nat
  free : Nat
  deriving DecidableEq, Repr

/-- One bit at a place. -/
def bitAt (b : Bool) (i : Nat) : Nat := if b then 2 ^ i else 0

/-- Bits of a predicate, from place 0. -/
def bitsWhere (n : Nat) (p : Nat → Bool) : Nat := (List.range n).foldl (fun a i => a + bitAt (p i) i) 0

/-- Bits of v under a mask. -/
def masked (v mask : Word) : Word := v &&& mask

/-- A field of a written word that a set of values admits, else the old one. -/
def fieldOr (v : Word) (lo n old : Nat) (ok : Nat → Bool) : Nat := if ok (wfld v lo n) then wfld v lo n else old

/-- Partition of a core (R20, R22). -/
def Dev.partAt (d : Dev) (n : Nat) : Option Nat :=
  if isGeneral n then (tget d.genPart n).map (·.1) else d.partOfDie (dieOf n)

/-! ## SEQ (R176-R180) -/

/-- SEQ.STATUS (R178). -/
def seqStatus (c : Core) : Nat :=
  let lact := bitsWhere 6 fun l => (c.lp.level l).active
  let tkl := match c.lp.mloop with | some q => q.task | none => false
  let held := match c.run with | .held _ => true | _ => false
  c.lp.kb % 8 * 2 ^ 37 + c.lp.rrb % 32 * 2 ^ 32 + lact * 2 ^ 10 + bitAt c.lp.mloop.isSome 9 + bitAt tkl 8 +
    c.seq.region.code * 2 ^ 6 + bitAt held 5 + bitAt c.seq.priv 4

def seqValue (c : Core) (o : Nat) : Word :=
  match o with
  | 0 => toW (bitAt c.seq.sb 0)
  | 1 => toW (seqStatus c)
  | 2 => toW (if c.seq.region = .pass || c.atBnd then c.seq.pass % 2 ^ 32 else 0)
  | 3 => toW c.seq.seqno.toNat
  | 0x20 => c.seq.tvec
  | 0x21 => c.seq.epc
  | 0x22 => toW (c.seq.cause.toNat * 256 + bitAt c.seq.pie 2 + bitAt c.seq.ie 1 + bitAt c.seq.ppriv 0)
  | _ => if 8 ≤ o && o < 16 then nth c.seq.frec (o - 8) 0
    else if 0x23 ≤ o && o ≤ 0x26 then tgetD c.seq.scr (o - 0x23) 0 else 0

def seqStore (x : CsrAt) (d : Dev) (o : Nat) (v : Word) : Dev :=
  let n := x.core
  let set (f : SeqRegs → SeqRegs) : Dev := d.updCore n fun c => { c with seq := f c.seq }
  match o with
  | 0 => set fun q => { q with sb := v.getLsbD 0 }
  | 0x10 =>
    let cy := Config.freeCycles x.free
    let r := match wfld v 0 2 with
      | 1 => d.replay n cy
      | 2 => d.continueStop x.mem n cy x.time
      | 3 => match (d.core n).run with
        | .held e => if e.kind = EvKind.fault then none else d.unresolved x.mem n x.time
        | _ => none
      | _ => none
    r.getD d
  | 0x20 => set fun q => { q with tvec := bundleAddr v }
  | 0x21 => set fun q => { q with epc := bundleAddr v }
  | 0x22 => set fun q => { q with pie := v.getLsbD 2, ie := v.getLsbD 1, ppriv := v.getLsbD 0 }
  | _ => if 0x23 ≤ o && o ≤ 0x26 then set fun q => { q with scr := tset q.scr (o - 0x23) v } else d

/-! ## CFE (R219-R222) -/

/-- Does the front end wait under R205: its next bundle holds a JOIN while a member runs detached?  While a JOIN is held only
for an attached member that may still detach (log entry 27), HJOIN reads 0 (DESIGN CHOICE, log entry 123). -/
def joinHeld (m : Memory) (d : Dev) (g : Nat) : Bool :=
  match (d.cluster g).fe.redirect, (d.cluster g).fe.pos with
  | some _, _ | _, none => false
  | none, some p => !windowClosed d g && match (streamPort d g).bundle m d p with
    | .ok ws => (decoded ws).any isJoin && (membersOf d g).any (runningDetached d)
    | _ => false

def cfeValue (x : CsrAt) (d : Dev) (o : Nat) : Word :=
  if isGeneral x.core then 0 else
  let g := clusterOf x.core
  let own := (d.cluster g).fe
  let lead := feOf d g
  let f := (d.cluster lead).fe
  let mine (i : Nat) : Core := d.core (8 * g + i)
  match o with
  | 0 =>
    let steer := match steering d lead with
      | some k => bitAt (own.fused && clusterOf k % 2 = 1) 15 + k % 8 * 2 ^ 12
      | none => 0
    toW (f.next % 2 ^ 32 * 2 ^ 32 + bitsWhere 8 (fun i => (mine i).attached) * 2 ^ 24 +
      bitsWhere 8 (fun i => (mine i).isMember) * 2 ^ 16 + steer + bitAt own.fused 11 +
      bitAt (own.fused && g % 2 = 1) 10 + bitAt (joinHeld x.mem d lead) 9 + bitAt f.redirect.isSome 8 +
      bitAt (f.hwin && windowClosed d lead) 7)
  | 1 =>
    let c := d.core x.core
    if c.attached then toW (2 ^ 8 + min (f.next - c.cons) 64) else 0
  | _ => toW own.icorr.toNat

/-! ## SPM (R249-R254, R244, R440) -/

/-- SPM.HSLOTn (R254). -/
def hslot (d : Dev) (n i : Nat) : Nat :=
  let c := d.core n
  let pending := c.pend.any (fun e => match e.res with | .h k _ => k = i | _ => false) ||
    (c.claimDue.any fun q => q.hn = i)
  let addr (a : Nat) : Nat := a % 2 ^ 64 / 64 * 64
  if pending then 1 else
  match c.r.hAt i with
  | .unbound => 0
  | .pending => 1
  | .window set way =>
    let full := match tget (d.cluster (clusterOf n)).tags (tagKey set way) with | some e => e.filled | none => true
    let base := match (d.ctxOfCore n).bind d.ctx with | some x => x.slotOffset set way | none => 0
    addr (apertureBase + base) + (if full then 3 else 2)
  | .ring _ _ _ _ base size nslot j drain => 
    addr (apertureBase + base + j % max nslot 1 * size) + 8 + (if drain then 4 else 2)
  | .fills die es => if fillsEnded d die es then 3 else 2

def spmValue (d : Dev) (n o : Nat) : Word :=
  if isGeneral n && o < 0x40 then 0 else
  let x := (d.residentOn (dieOf n)).bind d.ctx
  match o with
  | 0 => match x with | some x => toW (x.qsize * 2 ^ 32 + x.qbase) | none => 0
  | 1 => match x with | some x => toW (x.wnum * 2 ^ 13 + x.wlo * 2 ^ 10 + x.wbase) | none => 0
  | 2 => toW ((d.core n).miss.toNat * 2 ^ 32 + (d.core n).hit.toNat)
  | 3 => toW (d.cluster (clusterOf n)).spmCorr.toNat
  | _ => toW (hslot d n (o - 0x40))

/-! ## SYN (R281-R286) -/

def synValue (d : Dev) (n o : Nat) : Word :=
  let c := d.core n
  let ctx := d.ctxOfCore n
  let rec' := ctx.bind d.ctx
  match o with
  | 0 => toW c.wanyNext
  | 0x20 => match rec' with | some x => toW x.nclos | none => 0
  | 0x21 => match ctx with
    | some k => if isGeneral n then 0 else
        let q := (d.die (dieOf n)).moraineOf k
        toW (q.sent % 2 ^ 32 * 2 ^ 32 + bitAt (q.spilled ≠ 0) 15 + min (q.entries - q.spilled) 16384)
    | none => 0
  | 0x22 => match rec' with | some x => toW x.root.late.toNat | none => 0
  | 0x23 => if isGeneral n then 0 else toW (d.die (dieOf n)).cmiss.toNat
  | 0x24 => match rec' with | some x => toW (x.ncnt % 2 ^ 24) | none => 0
  | _ =>
    if o < 0x18 then
      let h := c.hold (o - 0x10)
      toW (bitAt h.own 44 + h.stage % 4096 * 2 ^ 32 + h.count % 65536)
    else (c.hold (o - 0x18)).time

def synStore (d : Dev) (n cycle o : Nat) (v : Word) : Dev :=
  if !isGeneral n then d
  else if 0x10 ≤ o && o < 0x14 then d.updCore n fun c =>
    c.writeHold cycle (o - 0x10) { c.hold (o - 0x10) with stage := wfld v 32 12, count := wfld v 0 16 }
  else if 0x18 ≤ o && o < 0x1C then d.updCore n fun c =>
    c.writeHold cycle (o - 0x18) { c.hold (o - 0x18) with time := v }
  else d

/-! ## VEC, ROW and MAT (R311, R312, R338-R342, R369-R373) -/

def rowValue (c : Core) (cycle o : Nat) : Word :=
  let r := c.row
  match o with
  | 0 => toW (r.plen % 8192 * 2 ^ 48 + r.tlen % 8192 * 2 ^ 32 + r.nrow % 8192 * 2 ^ 16 + bitAt r.recurse 2 +
      bitAt r.tvalid 1 + bitAt (cycle < r.busyUntil) 0)
  | 1 => toW (r.rlen % 512)
  | 2 => r.dbase
  | 8 => toW r.exits.toNat
  | _ => tgetD r.thr (o - 4) 0

def rowStore (c : Core) (o : Nat) (v : Word) : Core :=
  let r := c.row
  match o with
  | 1 => { c with row := { r with rlen := wfld v 0 9 } }
  | 2 => { c with row := { r with dbase := masked v 0xFFFFFFFFFFFFFFC0 } }
  | 4 | 5 | 6 | 7 => { c with row := { r with thr := tset r.thr (o - 4) (masked v 0xFF000000FFFFFFFF) } }
  | _ => c

def matValue (c : Core) (o : Nat) (k : Nat) : Word :=
  let t := c.mat
  match o with
  | 0 => toW (t.pushes.length % 256 * 2 ^ 16 + t.wp % 128 * 2 ^ 8 + bitAt t.active1 2 + bitAt t.configured 1 +
      bitAt t.unalloc 0)
  | 1 => if t.configured then
      toW (k * 2 ^ 32 + t.wf % 16 * 2 ^ 12 + t.af % 16 * 2 ^ 8 + t.ak.toNat * 2 ^ 6 + t.nq % 64) else 0
  | 2 => toW (bitAt t.drainSat 22 + t.drainRm.toNat * 2 ^ 20 + t.drainFmt % 16 * 2 ^ 16 + t.drainCidx % 4096)
  | 3 => toW (bitsWhere 32 fun i => (tget t.names i).isSome)
  | 4 => toW (bitsWhere 32 fun i => match (tget t.names i).bind (tget t.slots) with | some q => q.sat | none => false)
  | _ => toW t.corr.toNat

def matStore (c : Core) (o : Nat) (v : Word) : Core :=
  let t := c.mat
  match o with
  | 0 => { c with mat := { t with unalloc := t.unalloc && !v.getLsbD 0 } }
  | 2 => { c with mat := { t with
      drainSat := v.getLsbD 22
      drainRm := if wfld v 20 2 = 3 then t.drainRm else BitVec.ofNat 2 (wfld v 20 2)
      drainFmt := wfld v 16 4
      drainCidx := wfld v 0 12 } }
  | _ => c

/-! ## GRV (R393, R394) -/

def grvValue (d : Dev) (o : Nat) : Word :=
  let s := o / 16
  let g := d.grav s
  let e := g.hist.find? fun r => r.seq = g.sel
  let at' (f : HistRec → Nat) : Word := match e with | some r => toW (f r) | none => 0
  match o % 16 with
  | 0 => toW (g.per.toNat * 2 ^ 32 + bitAt g.en 6 + g.thr % 64)
  | 1 => toW (g.level % 8 * 2 ^ 36 + g.pos % 2 ^ 36)
  | 2 => toW g.stale.toNat
  | 3 => toW (g.eccScrub.toNat * 2 ^ 32 + g.eccAccess.toNat)
  | 4 => toW g.seq.toNat
  | 5 => toW g.sel.toNat
  | 6 => at' fun r => r.seq.toNat * 2 ^ 32 + r.kind % 16 * 2 ^ 28 + pcOf (64 * r.unit) * 2 ^ 22 +
      bankOf (64 * r.unit) * 2 ^ 18 + colOf (64 * r.unit) * 2 ^ 14
  | 7 => at' fun r => r.ctx % 64 * 2 ^ 16 + rowOf (64 * r.unit)
  | 8 => at' fun r => r.time
  | _ => if s % 2 = 1 then 0 else toW (bitsWhere 64 fun i => (tget (d.die (s / 2)).subs i).isSome)

def grvStore (d : Dev) (o : Nat) (v : Word) : Dev :=
  let g := d.grav (o / 16)
  match o % 16 with
  | 0 => d.setGrav (o / 16) { g with
      per := BitVec.ofNat 32 (fieldOr v 32 32 g.per.toNat fun k => k ≠ 0)
      en := v.getLsbD 6
      thr := fieldOr v 0 6 g.thr fun k => 1 ≤ k && k ≤ 32 }
  | 5 => d.setGrav (o / 16) { g with sel := v.setWidth 32 }
  | _ => d

/-! ## CPY (R409) -/

def cpyValue (d : Dev) (o : Nat) : Word :=
  if 0x400 ≤ o then
    let g := o - 0x400
    let slot (i : Nat) : Option HoldSlot := tget (d.cluster g).slots i
    toW (bitsWhere 16 (fun i => match slot i with | some t => !t.parked | none => false) * 2 ^ 16 +
      bitsWhere 16 (fun i => match slot i with | some t => t.parked | none => false))
  else
    let x := d.cpyq (o / 4)
    match o % 4 with
    | 0 => x.base
    | 1 => x.wi
    | 2 => x.rd
    | _ => toW (x.ridx % 2 ^ 32 * 2 ^ 32 + x.ctx % 64 * 2 ^ 24 + x.log2 % 32 * 2 ^ 16 + x.ascp % 8 * 2 ^ 8 +
        bitAt (x.susp || x.packets.any (·.susp)) 2 + bitAt (!x.packets.isEmpty) 1 + bitAt x.en 0)

/-- A write of QCTL that does not open its queue changes nothing (R395; log entry 57). -/
def cpyStore (x : CsrAt) (d : Dev) (o : Nat) (v : Word) : Dev :=
  let m := x.mem
  let far := Config.freeWord (4 * x.free)
  if 0x400 ≤ o then d else
  let q := o / 4
  let x := d.cpyq q
  match o % 4 with
  | 0 => if x.en then d else d.setCpyq q { x with base := masked v 0xFFFFFFFFFFFFFFC0 }
  | 1 => if x.en then d else d.setCpyq q { x with wi := v }
  | 2 => if x.en then d else d.setCpyq q { x with rd := v }
  | _ =>
    if x.en then (if v.getLsbD 0 then d else d.setCpyq q { x with en := false })
    else
      let set := d.setCpyq q { x with
        ctx := wfld v 24 6, log2 := fieldOr v 16 5 x.log2 (fun k => 1 ≤ k && k ≤ 16), ascp := wfld v 8 3 }
      if v.getLsbD 0 then (openQueue m set q far).getD d else set

/-! ## TSK (R431, R432) and FIL (R442) -/

def tskValue (d : Dev) (n o : Nat) : Word :=
  let c := d.core n
  let g := clusterOf n
  let ctx := (d.ctxOfCore n).getD 0
  let ring := (d.cluster g).ringOf ctx
  let strm (k : Nat) : Stream := match d.ctx ctx with | some x => x.stream k | none => Stream.reset
  if 0x20 ≤ o then let q := strm (o - 0x20)
                   toW (q.widx.toNat * 2 ^ 32 + q.ridx.toNat)
  else if 0x10 ≤ o then let q := strm (o - 0x10)
                        q.base + toW q.log2
  else if isGeneral n then 0
  else match o with
    | 0 => match c.task with | some t => t.id | none => 0
    | 1 => toW (c.stolen.toNat * 2 ^ 32 + c.lfsr.toNat * 2 ^ 16 + c.deque.length % 16)
    | 2 => toW ((d.cluster g).queue.length % 64)
    | 3 => ring.base + toW ring.log2
    | _ => toW (ring.swr.toNat * 2 ^ 32 + ring.srd.toNat)

/-- A write of a TSK register (R432): one of RIDX frees a stopped stream (DEDUCED, log entry 73), and grants the ring space
that it frees to the appends that wait for it (R423). -/
def tskStore (m : Memory) (d : Dev) (n o : Nat) (v : Word) (time : Nat) : Dev :=
  match d.ctxOfCore n with
  | none => d
  | some ctx =>
    let stream (k : Nat) (f : Stream → Stream) : Dev := pumpAppends m ctx k time 1024 (d.updStream ctx k f)
    if 0x20 ≤ o then stream (o - 0x20) fun q => { q with ridx := v.setWidth 32, stopped := false, gate := 0 }
    else if 0x10 ≤ o then stream (o - 0x10) fun q =>
      { q with base := masked v 0xFFFFFFFFFFFFFFC0, log2 := fieldOr v 0 5 q.log2 (· ≤ 16) }
    else if o = 3 && !isGeneral n then d.updCluster (clusterOf n) fun x =>
      let r := x.ringOf ctx
      { x with spill := tset x.spill ctx { r with
          base := masked v 0xFFFFFFFFFFFFF000, log2 := fieldOr v 0 5 r.log2 fun k => 5 ≤ k && k ≤ 16 } }
    else d

def filValue (d : Dev) (n o : Nat) : Word :=
  match d.ctxOfCore n with
  | none => 0
  | some ctx =>
    let f := (d.die (d.rootDie ctx)).firn
    match o with
    | 0 => toW (f.fills.length % 512)
    | 1 => toW (f.shared.toNat * 2 ^ 32 + f.started.toNat)
    | _ => toW f.fails.toNat

/-! ## GEN (R459, R460) -/

def genValue (g : Gen) (o : Nat) : Word :=
  match o with
  | 0 => toW (g.hstage % 4096 * 2 ^ 32 + g.trstage % 4096 * 2 ^ 16 + g.ahead % 4 * 2 + bitAt (g.run && !g.halting) 0)
  | 1 => toW (bitAt g.stop 15 + g.reason % 16 * 2 ^ 8 + bitAt g.spec0 7 + g.bkt % 64)
  | 2 => toW (g.k % 2 ^ 48)
  | 3 => g.tbase
  | 4 => g.btab
  | 5 => toW g.occ.toNat
  | 6 => toW g.draft.toNat
  | 7 => g.gtab + toW (g.nslot % 65536)
  | 8 => toW (g.slotGen.toNat * 2 ^ 32 + bitAt g.slotLive 16 + g.slot % 65536)
  | 9 => g.mvbase
  | 10 => g.spool
  | 11 => g.cpool
  | 12 => toW (g.swr.toNat * 2 ^ 48 + g.srd.toNat * 2 ^ 32 + g.cwr.toNat * 2 ^ 16 + g.crd.toNat)
  | 13 => toW g.need.toNat
  | _ => g.rdone

/-- A pool register: LOG2 beyond 16 leaves the field unchanged. -/
def poolWord (old v : Word) : Word :=
  masked v 0xFFFFFFFFFFFFF000 + toW (fieldOr v 0 5 (wfld old 0 5) (· ≤ 16))

/-- A write of a GEN register other than SLOTOP. -/
def genStore (x : CsrAt) (d : Dev) (part ctx : Nat) (o : Nat) (v : Word) : Dev :=
  let set (f : Gen → Gen) : Dev := d.updGen ctx f
  match o with
  | 0 =>
    let d := set fun g => { g with hstage := wfld v 32 12, trstage := wfld v 16 12, ahead := wfld v 1 2 }
    if v.getLsbD 0 then startGen x.mem d part x.time else stopGen d part
  | 1 =>
    let d := if v.getLsbD 15 then resumeGen d ctx else d
    if v.getLsbD 7 then clearSpec0 d ctx else d
  | 2 => set fun g => if g.run then g else { g with k := wfld v 0 48 }
  | 3 => set fun g => { g with tbase := v }
  | 4 => set fun g => { g with btab := masked v 0xFFFFFFFFFFFFFC00 }
  | 5 => set fun g => { g with occ := v.setWidth 16 }
  | 6 => set fun g => { g with draft := v.setWidth 4 }
  | 7 => set fun g => { g with gtab := masked v 0xFFFFFFFFFFF80000, nslot := wfld v 0 16 }
  | 9 => set fun g => { g with mvbase := v }
  | 10 => set fun g => { g with spool := poolWord g.spool v }
  | 11 => set fun g => { g with cpool := poolWord g.cpool v }
  | 12 => (set fun g => { g with swr := BitVec.ofNat 16 (wfld v 48 16), cwr := BitVec.ofNat 16 (wfld v 16 16) }).release
      x.core 3
  | 13 => setNeed d ctx (v.setWidth 32) x.free
  | 14 => set fun g => { g with rdone := v }
  | _ => d

/-! ## FAB (R481, R482) -/

def Dev.fabPort (d : Dev) (p : Nat) : Port := (tget d.fab.ports p).getD Port.reset

def fabValue (d : Dev) (n o : Nat) : Word :=
  let cal := ((d.ctxOfCore n).bind d.ctx).map (·.calv)
  if o < 0x20 then toW ((d.fabPort o).ldown.toNat * 2 ^ 16 + (d.fabPort o).lanef.toNat)
  else if o = 0x20 then toW (d.fab.tmoCol.toNat * 2 ^ 32 + d.fab.tmoAcc.toNat)
  else if o = 0x21 then match cal with
    | some v => toW (min v.pending.length 65535 * 2 ^ 48 + v.mism.toNat * 2 ^ 32 + v.stale.toNat * 2 ^ 16 + v.appl.toNat)
    | none => 0
  else if o = 0x22 then match cal with | some v => v.covf | none => 0
  else if o = 0x23 then toW (d.fab.cols.length % 128)
  else if o < 0x300 then tgetD d.fab.exports (o - 0x100) 0
  else tgetD d.fab.route (o - 0x400) 0

/-- FAB.COVF: LOG2 outside 0 and 6 to 20 leaves the field unchanged. -/
def covfWord (old v : Word) : Word :=
  masked v 0xFFFFFFFFFFFFF000 + toW (fieldOr v 0 5 (wfld old 0 5) fun k => k = 0 || (6 ≤ k && k ≤ 20))

def fabStore (d : Dev) (n o : Nat) (v : Word) : Dev :=
  let y := d.fab
  if o = 0x20 then { d with fab := { y with
      tmoCol := BitVec.ofNat 32 (fieldOr v 32 32 y.tmoCol.toNat fun k => k ≠ 0)
      tmoAcc := BitVec.ofNat 32 (fieldOr v 0 32 y.tmoAcc.toNat fun k => k ≠ 0) } }
  else if o = 0x22 then match d.ctxOfCore n with
    | some ctx => d.updCalv ctx fun q => { q with covf := covfWord q.covf v }
    | none => d
  else if 0x100 ≤ o && o < 0x300 then
    let m : Word := if o % 2 = 0 then 0xFFFFFF80000FFFFF else 0x000FFFFFFFFF0000
    { d with fab := { y with exports := tset y.exports (o - 0x100) (masked v m) } }
  else if 0x400 ≤ o then { d with fab := { y with route := tset y.route (o - 0x400) (masked v 0x3FFFF) } }
  else d

/-! ## TRC (R502, R503, R483) -/

/-- The ring of the core's own trace unit for a context. -/
def ringAt (x : Ctx) (n : Nat) : TraceRing :=
  tgetD x.rings (traceUnitOf n) { base := 0, log2 := 0, wi := 0, rd := 0, written := 0, owed := 0, since := 0 }

/-- An unset breakpoint. -/
def noBreak : Break := { addr := 0, pen := false, en := false, pass := 0 }

def trcValue (d : Dev) (n o : Nat) : Word :=
  let c := d.core n
  match (d.ctxAt n).map (·.2) with
  | none => if o = 1 then 65536
    else if o = 5 then toW (d.unit (traceUnitOf n)).drop.toNat
    else if 8 ≤ o && o ≤ 12 then toW (tgetD c.cc (o - 8) 0) else 0
  | some x =>
    let r := ringAt x n
    let w (i : Nat) : Option Watch := tget x.watch i
    match o with
    | 0 => toW (bitAt x.dbg 0)
    | 1 => toW (bitAt x.ten 33 + bitAt x.sen 32 + x.per.toNat)
    | 2 => r.base + toW r.log2
    | 3 => r.wi
    | 4 => r.rd
    | 5 => toW (d.unit (traceUnitOf n)).drop.toNat
    | 0x10 => toW x.cpage
    | 0x11 => toW (bitAt c.stopReq 0)
    | _ =>
      if o ≤ 12 then toW (tgetD c.cc (o - 8) 0)
      else if o < 0x18 then let q := tgetD x.bps (o - 0x14) noBreak
                            masked q.addr 0x01FFFFFFFFFFFFF8 + toW (bitAt q.pen 1 + bitAt q.en 0)
      else if o < 0x1C then match w (o - 0x18) with | some q => q.addr | none => 0
      else if o < 0x20 then match w (o - 0x1C) with
        | some q => toW (q.kind.toNat * 2 ^ 34 + q.len % 2 ^ 33)
        | none => 0
      else toW (tgetD x.bps (o - 0x20) noBreak).pass.toNat

def trcStore (x : CsrAt) (d : Dev) (o : Nat) (v : Word) : Dev :=
  let n := x.core
  match d.ctxAt n with
  | none => d
  | some (ctx, c) =>
    let ring (f : TraceRing → TraceRing) : Dev := d.updCtx ctx fun c =>
      { c with rings := tset c.rings (traceUnitOf n) (f (ringAt c n)) }
    let brk (i : Nat) (f : Break → Break) : Dev := d.updCtx ctx fun c =>
      { c with bps := tset c.bps i (f (tgetD c.bps i noBreak)) }
    let refuse (k : Nat) : Dev := d.debugRefused n ctx o k x.time
    match o with
    | 1 =>
      d.changeSampling n ctx (x.cycle + 1) x.time fun c => { c with
        ten := v.getLsbD 33, sen := v.getLsbD 32, per := BitVec.ofNat 32 (max (wfld v 0 32) 1024) }
    | 2 => ring fun r => { r with
        base := masked v 0xFFFFFFFFFFFFF000
        log2 := fieldOr v 0 5 r.log2 fun k => k = 0 || (6 ≤ k && k ≤ 20) }
    | 3 => ring fun r => { r with wi := v }
    | 4 => ring fun r => { r with rd := v }
    | 0x10 => if d.accepted 4 then d.updCtx ctx fun c => { c with cpage := wfld v 20 44 * 2 ^ 20 } else d
    | 0x11 => if !c.dbg then refuse 4 else if v.getLsbD 0 then d.requestStop n x.time else d
    | _ =>
      if 0x14 ≤ o && o < 0x18 then
        (if !c.dbg then refuse 3
         else brk (o - 0x14) fun q => { q with
           addr := masked v 0x01FFFFFFFFFFFFF8, pen := v.getLsbD 1, en := v.getLsbD 0 })
      else if 0x20 ≤ o then
        (if !c.dbg then refuse 3 else brk (o - 0x20) fun q => { q with pass := v.setWidth 32 })
      else d

/-! ## SYS (R514) -/

/-- A queue register: BASE and LOG2. -/
def queueWord (base log2 : Nat) : Word := toW (base / 4096 * 4096 + log2 % 32)

def sysValue (x : CsrAt) (d : Dev) (o : Nat) : Word :=
  let y := d.sys
  match o with
  | 0 => toW y.boot.toNat
  | 1 => toW (bitAt y.cw 0)
  | 2 => featOffer false
  | 3 => featOffer true
  | 4 => y.feata0
  | 5 => y.feata1
  | 6 => match (d.partAt x.core).bind (tget d.parts) with | some p => queueWord p.fqBase p.fqLog2 | none => 0
  | 7 => queueWord y.sfpBase y.sfpLog2
  | 8 => toW y.imask.toNat
  | 9 => toW y.plim.toNat
  | 10 | 11 => 0
  | _ => (tgetD d.sys.mon (o - 16) 0).setWidth 64

def sysStore (x : CsrAt) (d : Dev) (o : Nat) (v : Word) : Dev :=
  let y := d.sys
  match o with
  | 1 => { d with sys := { y with cw := v.getLsbD 0 } }
  | 4 => { d with sys := y.accept false v }
  | 5 => { d with sys := y.accept true v }
  | 6 => match d.partAt x.core with
    | some k => d.setQueue k (wfld v 12 52 * 4096) (wfld v 0 5)
    | none => d
  | 7 => d.setSystemPath (wfld v 12 52 * 4096) (wfld v 0 5)
  | 8 => { d with sys := { y with imask := v.setWidth 32 } }
  | 9 => { d with sys := { y with plim := BitVec.ofNat 13 (min (wfld v 0 13) 6000) } }
  | 10 => d.resetCore (wfld v 0 10)
  | 11 => if v.getLsbD 0 then { d with sys := { y with rst := true } } else d
  | _ => d

/-! ## One register (R5, R6, R175) -/

/-- What a read returns (DEDUCED, log entry 50). -/
def csrValue (x : CsrAt) (d : Dev) (csr : Nat) : Word :=
  let o := csr % 4096
  let c := d.core x.core
  match csr / 4096 with
  | 0x0 => seqValue c o
  | 0x1 => cfeValue x d o
  | 0x2 => spmValue d x.core o
  | 0x3 => synValue d x.core o
  | 0x4 => c.r.gen
  | 0x5 => rowValue c x.cycle o
  | 0x6 => matValue c o (match d.matCfg x.core c.mat with | some q => q.k | none => 0)
  | 0x7 => grvValue d o
  | 0x8 => cpyValue d o
  | 0x9 => tskValue d x.core o
  | 0xA => filValue d x.core o
  | 0xB => match (d.partAt x.core).bind d.served with | some (_, k) => genValue k.gen o | none => 0
  | 0xC => fabValue d x.core o
  | 0xD => trcValue d x.core o
  | _ => sysValue x d o

/-- The RC fields of a register are clear after a read (R5). -/
def csrClear (x : CsrAt) (d : Dev) (csr : Nat) : Dev :=
  let n := x.core
  let tensor := !isGeneral n
  match csr with
  | 0x1002 => if tensor then d.updCluster (clusterOf n) fun k => { k with fe := { k.fe with icorr := 0 } } else d
  | 0x2002 => if tensor then d.updCore n fun c => { c with hit := 0, miss := 0 } else d
  | 0x2003 => if tensor then d.updCluster (clusterOf n) fun k => { k with spmCorr := 0 } else d
  | 0x3022 => match d.ctxOfCore n with
    | some ctx => d.updCtx ctx fun k => { k with root := { k.root with late := 0 } }
    | none => d
  | 0x3023 => if tensor then d.updDie (dieOf n) fun y => { y with cmiss := 0 } else d
  | 0x5008 => d.updCore n fun c => { c with row := { c.row with exits := 0 } }
  | 0x6005 => d.updCore n fun c => { c with mat := { c.mat with corr := 0 } }
  | 0x9001 => if tensor then d.updCore n fun c => { c with stolen := 0 } else d
  | 0xA001 => match d.ctxOfCore n with
    | some ctx => d.updFirn (d.rootDie ctx) fun f => { f with shared := 0, started := 0 }
    | none => d
  | 0xA002 => match d.ctxOfCore n with
    | some ctx => d.updFirn (d.rootDie ctx) fun f => { f with fails := 0 }
    | none => d
  | 0xC021 => match d.ctxOfCore n with
    | some ctx => d.updCalv ctx fun v => { v with mism := 0, stale := 0, appl := 0 }
    | none => d
  | 0xD005 => let u := traceUnitOf n
              d.setUnit u { d.unit u with drop := 0 }
  | _ =>
    if csr / 4096 = 7 && csr % 16 = 2 then
      let s := csr % 4096 / 16
      d.setGrav s { d.grav s with stale := 0 }
    else if csr / 4096 = 7 && csr % 16 = 3 then
      let s := csr % 4096 / 16
      d.setGrav s { d.grav s with eccScrub := 0, eccAccess := 0 }
    else if csr / 4096 = 0xC && csr % 4096 < 18 then
      let p := csr % 4096
      { d with fab := { d.fab with ports := tset d.fab.ports p { d.fabPort p with ldown := 0 } } }
    else d

/-- What a write does; SLOTOP's operation is the writing form's own. -/
def csrStore (x : CsrAt) (d : Dev) (csr : Nat) (v : Word) : Dev :=
  let o := csr % 4096
  match csr / 4096 with
  | 0x0 => seqStore x d o v
  | 0x3 => synStore d x.core x.cycle o v
  | 0x5 => d.updCore x.core fun c => rowStore c o v
  | 0x6 => d.updCore x.core fun c => matStore c o v
  | 0x7 => grvStore d o v
  | 0x8 => cpyStore x d o v
  | 0x9 => tskStore x.mem d x.core o v x.time
  | 0xB => match d.partAt x.core with
    | some part => match d.served part with
      | some (ctx, _) => genStore x d part ctx o v
      | none => d
    | none => d
  | 0xC => fabStore d x.core o v
  | 0xD => trcStore x d o v
  | 0xE => sysStore x d o v
  | _ => d

/-- The word that an access form writes (R175). -/
def csrWord (op : CsrOp) (old a : Word) : Option Word :=
  match op with
  | .read => none
  | .write => some a
  | .set => some (old ||| a)
  | .clear => some (old &&& ~~~a)

/-- One indivisible access: what it returns, and the units after it. -/
def csrAccess (x : CsrAt) (d : Dev) (op : CsrOp) (csr : Nat) (a : Word) : Word × Dev :=
  let old := csrValue x d csr
  let d := csrClear x d csr
  (old, match csrWord op old a with | some v => csrStore x d csr v | none => d)

/-! ## The four forms (R175) -/

/-- An operation of GEN.SLOTOP with OP 0b00 has no effect but that SLOT names its slot (R453, R460; DEDUCED, log entry
103). -/
def slotNamed (d : Dev) (ctx : Nat) (v : Word) : Dev := d.updGen ctx fun g => { g with slot := wfld v 0 16 }

/-- A write of GEN.SLOTOP by CSRW (R453): it is refused, begins, or waits for the register actions and the operation
before it, in the order of arrival (DEDUCED, log entry 69). -/
def slotForm (s : State) (b : Bundle) (c : Core) (o : ZC) (w v old : Word) : Out :=
  let slotFault (r : Nat) : Out := .raise (mkFault 0xB9 w (toW (wfld v 0 16 * 2 ^ 48 + r)))
  let done (d : Dev) : Out := .ok (sendLate d b (.s (physSV c.lp o.d.toNat) old) true 0)
  if !(s.dev.core b.core).csrq.isEmpty then .stall 11
  else if wfld v 62 2 = 3 then slotFault 4
  else match s.dev.partAt b.core with
  | none => done s.dev
  | some part => match s.dev.served part with
    | none => done s.dev
    | some (ctx, x) =>
      let k := s.dev.core b.core
      let tag := k.nextTag
      let me : SlotReq := { core := b.core, val := none, issued := k.issued, pc := k.pc }
      let inLine (d : Dev) : Dev := d.updGen ctx fun g =>
        if g.slotReqs.contains me then g else { g with slotReqs := g.slotLine s.dev ++ [me] }
      match slotCheck s.mem s.dev part ctx x.gen v b.core tag with
      | .none => done (slotNamed s.dev ctx v)
      | .bad r => slotFault r
      | .busy => .stallIn (inLine b.base) 11
      | .fault f => .stallIn ((inLine b.base).slotFault part ctx f s.time) 11
      | .begin q =>
        if (x.gen.slotLine s.dev).head?.any fun r => r ≠ me then .stallIn (inLine b.base) 11
        else
          let d := sendLate s.dev b (.s (physSV c.lp o.d.toNat) old) false tag
          .ok ((d.updCore b.core fun c => { c with nextTag := tag + 1 }).updGen ctx fun g =>
            { g with slotOp := some q, slotReqs := g.slotReqs.filter (· ≠ me) })

/-- A control-register action is sent to the register's engine, which performs it in one cycle after the issue, a free
number of cycles later, behind the core's earlier ones (R175, R515; log entry 26). -/
def Core.queueCsr (c : Core) (op : CsrOp) (csr : Nat) (a : Word) (cycle delay : Nat) : Core :=
  let after := (c.csrq.getLast?.map (·.at')).getD 0
  { c with
    nextTag := c.nextTag + 1
    csrq := c.csrq ++ [{ op := op, csr := csr, a := a, tag := c.nextTag, at' := max after (cycle + 1 + delay),
                          val := c.r.gen }] }

/-- A control-register form: assigned numbers only (R63), privileged writes for firmware only (R77); its result is
interlocked. -/
def csrForm (h : Hdr) (o : ZC) (w : Word) (op : CsrOp) (s : State) : Host.Outcome State Fault Refusal :=
  syllable h (fun s b c =>
    let n := o.csr.toNat
    let a := c.s o.a.toNat
    if !csrAssigned (isGeneral b.core) n then .raise (mkFault 0x03 w 0)
    else if op ≠ .read && csrPrivileged n && !(isGeneral b.core && c.seq.priv) then .raise (mkFault 0x05 w 0)
    else if n = 0xB008 && op ≠ .read then
      let x : CsrAt := { mem := s.mem, core := b.core, cycle := b.cycle, time := s.time, free := s.free }
      (if op = .write then slotForm s b c o w a (csrValue x s.dev n)
       else .raise (mkFault 0xB9 w (toW (wfld a 0 16 * 2 ^ 48 + 4))))
    else
      let d := sendLate s.dev b (.s (physSV c.lp o.d.toNat) 0) false (s.dev.core b.core).nextTag
      .ok (d.updCore b.core fun c => c.queueCsr op n a b.cycle (Config.freeCycles s.free))) s

/-- The core's first control-register action is performed in its cycle, and its result lands (R175). -/
def performCsr (s : State) (n : Nat) : State :=
  match (s.dev.core n).csrq with
  | [] => s.tick
  | a :: t =>
    let x : CsrAt := { mem := s.mem, core := n, cycle := a.at', time := s.time, free := s.free }
    let d := s.dev.updCore n fun c =>
      let held := match c.run with | .held _ => a.at' - c.ready | _ => 0
      { c with csrq := t, ready := max c.ready a.at', heldSum := c.heldSum + held }
    let (old, d) := csrAccess x d a.op a.csr a.a
    let old := if a.csr = 0x4000 then a.val else old
    let d := d.updCore n fun c =>
      let c := c.answerS a.tag old
      match c.pend.findIdx? fun e => e.tag = a.tag with
      | some i => c.landAt i
      | none => c
    (({ s with dev := d.actReset }).settle).tick

/-- CSRR (R175) (DEDUCED, log entry 26). -/
def execCsrr (h : Hdr) (o : ZC) (s : State) : Host.Outcome State Fault Refusal :=
  csrForm h o (sylWord (.csrr h o)) .read s

/-- CSRW (R175). -/
def execCsrw (h : Hdr) (o : ZC) (s : State) : Host.Outcome State Fault Refusal :=
  csrForm h o (sylWord (.csrw h o)) .write s

/-- CSRS (R175). -/
def execCsrs (h : Hdr) (o : ZC) (s : State) : Host.Outcome State Fault Refusal :=
  csrForm h o (sylWord (.csrs h o)) .set s

/-- CSRC (R175). -/
def execCsrc (h : Hdr) (o : ZC) (s : State) : Host.Outcome State Fault Refusal :=
  csrForm h o (sylWord (.csrc h o)) .clear s

/-! ## Accesses through the control window (R109, R175, R504) -/

/-- A write of GEN.SLOTOP from outside the core (R453) takes its place in the line; nothing waits for it, so tag 0. -/
def slotFrom (s : State) (core : Nat) (v : Word) : Dev :=
  match s.dev.partAt core with
  | none => s.dev
  | some part => match s.dev.served part with
    | none => s.dev
    | some (ctx, _) =>
      if wfld v 62 2 = 0 then slotNamed s.dev ctx v
      else
        let me : SlotReq := { core := core, val := some v, issued := 0, pc := 0 }
        serveSlots s.mem part ctx s.time 1024 (s.dev.updGen ctx fun g => { g with slotReqs := g.slotLine s.dev ++ [me] })

/-- An access to a core's registers from outside it; set and clear forms begin no SLOTOP operation. -/
def windowAccess (s : State) (core : Nat) (op : CsrOp) (csr : Nat) (v : Word) : Word × Dev :=
  let x : CsrAt :=
    { mem := s.mem, core := core, cycle := (s.dev.core core).ready, time := s.time, free := s.free }
  if csr = 0xB008 then (csrValue x s.dev csr, if op = .write then slotFrom s core v else s.dev)
  else let (old, d) := csrAccess x s.dev op csr v
       (old, d.actReset)

/-- REGISTER_WRITE (R175): firmware's access to another core's registers. -/
def execRegisterWrite (core : Nat) (op : CsrOp) (csr : BitVec 16) (val : BitVec 64) (s : State) :
    Host.Outcome State Fault Refusal :=
  happening (fun s =>
    if 288 ≤ core || !csrAssigned (isGeneral core) csr.toNat then none
    else some (windowAccess s core op csr.toNat val).2) s

/-- HOST_CONTROL_ACCESS (R504): refused unless SYS.HCTL.CW = 1; after a refused boot only SYS.BOOT answers (R506)
(DEDUCED, log entry 74). -/
def execHostControlAccess (core : Nat) (op : CsrOp) (csr : BitVec 16) (val : BitVec 64) (s : State) :
    Host.Outcome State Fault Refusal :=
  happening (fun s =>
    let bootOnly := s.dev.sys.boot = 3
    if 288 ≤ core || !csrAssigned (isGeneral core) csr.toNat then none
    else if bootOnly then
      (if csr = 0xE000 && op = .read then some { s.dev with sys := { s.dev.sys with hostWord := 3 } } else none)
    else if !s.dev.sys.cw then none
    else
      let (v, d) := windowAccess s core op csr.toNat val
      some { d with sys := { d.sys with hostWord := v } }) s

end Sys2Proof.Machine
end

