-- ==== Sys2Proof/Machine/Resume.lean ====
section
/-!
DEFINITION. Firmware's answer to a suspended engine command (R121, R25): it goes on at the access that faulted, or it
ends there as its own chapter defines.
-/

namespace Sys2Proof.Machine

/-- A copy packet goes on, or ends as faulted (R403). -/
def resumePacket (d : Dev) (q idx : Nat) (ok : Bool) : Dev :=
  let d := d.updPacket q idx fun p => { p with susp := false }
  if ok then d else d.spoilPacket q idx

/-- A command at a Graver goes on, or ends as faulted (R377, R385) (DESIGN CHOICE, log entry 33). -/
def resumeSub (d : Dev) (die entry : Nat) (ok : Bool) : Dev :=
  d.updSub die entry fun e => { e with susp := false, bad := e.bad || !ok }

/-- The read of a queue's next packet: made again, or its slot passed over (R396). -/
def resumeTake (m : Memory) (d : Dev) (q time : Nat) (ok : Bool) : Dev :=
  let d := d.setCpyq q { d.cpyq q with susp := false }
  if ok then d else passSlot m d q time

/-- The slot write of an enqueue: made again by CPYQ_ENQUEUE, or given up; the index it claimed is its answer (R401). -/
def resumeEnqueue (d : Dev) (e core tag : Nat) (ok : Bool) : Dev :=
  if ok then d.updReqs e fun l => l.map fun r => (if r.isFrom core tag then { r with susp := false } else r)
  else match (tgetD d.cpyReqs e []).find? fun r => r.isFrom core tag with
    | none => d
    | some r => d.answerReq e r (toW (r.idx.getD 0))

/-- A dispatch: its reads are made again, or its stream stops with reason 5 (R25). -/
def resumeDispatch (m : Memory) (d : Dev) (ctx stream time : Nat) (ok : Bool) : Dev :=
  if ok then d
  else match d.ctx ctx with
    | none => d
    | some c =>
      let q := c.stream stream
      let va := q.slotVa q.ridx.toNat
      let g := match engineWords m d (taskEngine (d.lowCluster ctx)) ctx va 8 with
        | .ok w => launchCluster d ctx w
        | .error _ => d.lowCluster ctx
      d.badLaunch ctx stream g va 5 time

/-- The slot write of the oldest waiting append: made again, or given up with an answer of all ones (R423). -/
def resumeAppend (m : Memory) (d : Dev) (ctx stream time : Nat) (ok : Bool) : Dev :=
  let d := if ok then d else match d.ctx ctx with
    | none => d
    | some c => match (c.stream stream).appends with
      | [] => d
      | a :: t => (d.updStream ctx stream fun q => { q with appends := t }).answerS a.core a.tag (BitVec.allOnes 64)
  pumpAppends m ctx stream time 1024 d

/-- A fill goes on, or ends as failed with reason 1 (R438, R441). -/
def resumeFill (m : Memory) (d : Dev) (die k time : Nat) (ok : Bool) : Dev :=
  match tget (d.die die).firn.fills k with
  | none => d
  | some e => if ok then d.updFill die k fun e => { e with susp := false } else d.failFill m die k e 1 time

/-- A home Firn's operation is tried again, or ends; a probe that ends answers a free count. -/
def resumeFirn (m : Memory) (d : Dev) (die no time : Nat) (ok : Bool) (free : Word) : Dev :=
  if ok then d.updFirn die fun y => y.updOp no fun q => { q with susp := false }
  else
    let y := (d.die die).firn
    match (y.ops ++ y.waiting).find? fun q => q.no = no with
    | none => d
    | some q => d.endOp m die q free time

/-- A suspended notice is applied, or dropped; those behind it follow in arrival order (R470, R473). -/
def resumeNotice (m : Memory) (d : Dev) (ctx time : Nat) (ok : Bool) : Dev :=
  match d.ctx ctx with
  | none => d
  | some c =>
    let v := c.calv
    let drain (d : Dev) : Dev := drainCalving m ctx time d
    match v.arm with
    | some (core, tag, k, list) => match list.head?.bind fun q => tget v.targets q.target with
      | some (w, _) => drain (runArm m ctx core tag w time (if ok then list else list.drop 1) k d)
      | none => d
    | none =>
      drain (d.updCalv ctx fun v => { v with held := if ok then v.held else v.held.drop 1 })

/-- A collective goes on, or ends as faulted at every rank (R476, R480). -/
def resumeCol (d : Dev) (i : Nat) (ok : Bool) : Dev :=
  match tget d.fab.cols i with
  | none => d
  | some x => d.setCol i { x with susp := false, bad := if ok then x.bad else some (0, 0) }

/-- The sequencer's work goes on; else it stops with reason 4 (R447), or passes over the pool entry as a bad one (R456), or
gives a slot operation up. -/
def resumeSequencer (m : Memory) (d : Dev) (ctx act time : Nat) (ok : Bool) : Dev :=
  if act = 3 then resumeSlots m d ctx time ok
  else if ok then d
  else match d.ctx ctx with
    | none => d
    | some c =>
      if act = 2 then d.poolBad c.part ctx c.gen c.gen.haveSpec time else d.genStops c.part ctx c.gen 0 c.gen.bkt 4 time

/-- ENGINE_COMMAND_RESUME (R121, R25): one suspended command, resolved or not. -/
def execEngineCommandResume (idx : Nat) (resolved : Bool) (s : State) : Host.Outcome State Fault Refusal :=
  happening (fun s =>
    match s.dev.susp[idx]? with
    | none => none
    | some cmd =>
      let m := s.mem
      let d := { s.dev with susp := s.dev.susp.eraseIdx idx }
      some (match cmd with
        | .sub die e => resumeSub d die e resolved
        | .copy q i => resumePacket d q i resolved
        | .take q => resumeTake m d q s.time resolved
        | .enqueue e n tag => resumeEnqueue d e n tag resolved
        | .dispatch ctx n => resumeDispatch m d ctx n s.time resolved
        | .append ctx n => resumeAppend m d ctx n s.time resolved
        | .spill g => d.updCluster g fun x => { x with spillStop := false }
        | .fill die k => resumeFill m d die k s.time resolved
        | .firn die no => resumeFirn m d die no s.time resolved (Config.freeWord (4 * s.free))
        | .notice ctx => resumeNotice m d ctx s.time resolved
        | .col i => resumeCol d i resolved
        | .gen ctx act => resumeSequencer m d ctx act s.time resolved)) s

end Sys2Proof.Machine
end

