-- ==== Sys2Proof/Machine/Scalar.lean ====
section
/-!
DEFINITION. The S class (R139-R149): scalar arithmetic, compares, predicate logic, moves and the long immediate.
-/

namespace Sys2Proof.Machine

/-! ## Shared forms -/

/-- A syllable whose one result is a scalar that the core's registers determine. -/
def scalarResult (h : Hdr) (d : BitVec 6) (lat : Nat) (val : Core → Word) (s : State) :
    Host.Outcome State Fault Refusal :=
  syllable h (fun s b c => .ok (sendS s.dev b c d.toNat (val c) lat)) s

/-- SRR: a scalar of two scalars (R140). -/
def scalarRR (h : Hdr) (o : SRR) (lat : Nat) (op : Word → Word → Word) (s : State) :
    Host.Outcome State Fault Refusal :=
  scalarResult h o.d lat (fun c => op (c.s o.a.toNat) (c.s o.b.toNat)) s

/-- SR1: a scalar of one (R141). -/
def scalarR1 (h : Hdr) (o : SR1) (op : Word → Word) (s : State) : Host.Outcome State Fault Refusal :=
  scalarResult h o.d 1 (fun c => op (c.s o.a.toNat)) s

/-- SRI: a scalar and imm26 sign-extended (R139, R143). -/
def scalarRI (h : Hdr) (o : SRI) (lat : Nat) (op : Word → Word → Word) (s : State) :
    Host.Outcome State Fault Refusal :=
  scalarResult h o.d lat (fun c => op (c.s o.a.toNat) (o.imm.signExtend 64)) s

/-- SPR: a predicate from a relation of two scalars (R144). -/
def compareRR (h : Hdr) (o : SPR) (r : Rel) (s : State) : Host.Outcome State Fault Refusal :=
  syllable h (fun s b c => .ok (sendP s.dev b o.pd.toNat (r.holds (c.s o.a.toNat) (c.s o.b.toNat)) 1)) s

/-- SPI: a predicate from a relation of a scalar and an immediate (R144). -/
def compareRI (h : Hdr) (o : SPI) (r : Rel) (s : State) : Host.Outcome State Fault Refusal :=
  syllable h (fun s b c => .ok (sendP s.dev b o.pd.toNat (r.holds (c.s o.a.toNat) (o.imm.signExtend 64)) 1)) s

/-- SPP: predicate logic (R145). -/
def predicateLogic (h : Hdr) (o : SPP) (op : Bool → Bool → Bool) (s : State) : Host.Outcome State Fault Refusal :=
  syllable h (fun s b c => .ok (sendP s.dev b o.pd.toNat (op (c.p o.pa.toNat) (c.p o.pb.toNat)) 1)) s

/-! ## Values (R140-R142) -/

def shlW (x y : Word) : Word := x <<< (y.toNat % 64)
def shrW (x y : Word) : Word := x >>> (y.toNat % 64)
def sraW (x y : Word) : Word := x.sshiftRight (y.toNat % 64)
def rolW (x y : Word) : Word := x.rotateLeft (y.toNat % 64)
/-- High half of the unsigned product. -/
def mulhW (x y : Word) : Word := toW (x.toNat * y.toNat / 2 ^ 64)
/-- High half of the signed product, rounded down. -/
def mulhnW (x y : Word) : Word := BitVec.ofInt 64 (x.toInt * y.toInt / 2 ^ 64)
def minW (x y : Word) : Word := if x.toNat ≤ y.toNat then x else y
def maxW (x y : Word) : Word := if x.toNat ≤ y.toNat then y else x
def minnW (x y : Word) : Word := if x.toInt ≤ y.toInt then x else y
def maxnW (x y : Word) : Word := if x.toInt ≤ y.toInt then y else x
/-- Leading zero bits; 64 for 0. -/
def clzW (x : Word) : Word := toW (((List.range 64).find? fun i => x.getLsbD (63 - i)).getD 64)
/-- Trailing zero bits; 64 for 0. -/
def ctzW (x : Word) : Word := toW (((List.range 64).find? fun i => x.getLsbD i).getD 64)
def popcW (x : Word) : Word := toW (((List.range 64).filter fun i => x.getLsbD i).length)
/-- Bit i of the result is bit 63 - i. -/
def brevW (x : Word) : Word :=
  toW ((List.range 64).foldl (fun a i => if x.getLsbD i then a + 2 ^ (63 - i) else a) 0)
/-- Byte j of the result is byte 7 - j. -/
def bswapW (x : Word) : Word := toW (ofBytes (toBytes 8 x.toNat).reverse)
/-- Length of a bit field: 0 encodes 64 (R142). -/
def fieldLen (l : BitVec 6) : Nat := if l = 0 then 64 else l.toNat
/-- Bits [pos+l-1 : pos], zero-extended. -/
def bextW (x : Word) (pos l : Nat) : Word := toW (fld x.toNat pos l)
/-- The word d with bits [pos+l-1 : pos] replaced by the low bits of x. -/
def binsW (d x : Word) (pos l : Nat) : Word :=
  let m := toW ((2 ^ l - 1) * 2 ^ pos)
  (d &&& ~~~m) ||| ((x <<< pos) &&& m)

/-! ## SRR (R140) -/

/-- ADD (R140). -/
def execAdd (h : Hdr) (o : SRR) (s : State) : Host.Outcome State Fault Refusal := scalarRR h o 1 (· + ·) s
/-- SUB (R140). -/
def execSub (h : Hdr) (o : SRR) (s : State) : Host.Outcome State Fault Refusal := scalarRR h o 1 (· - ·) s
/-- AND (R140). -/
def execAnd (h : Hdr) (o : SRR) (s : State) : Host.Outcome State Fault Refusal := scalarRR h o 1 (· &&& ·) s
/-- OR (R140). -/
def execOr (h : Hdr) (o : SRR) (s : State) : Host.Outcome State Fault Refusal := scalarRR h o 1 (· ||| ·) s
/-- XOR (R140). -/
def execXor (h : Hdr) (o : SRR) (s : State) : Host.Outcome State Fault Refusal := scalarRR h o 1 (· ^^^ ·) s
/-- ANDN (R140). -/
def execAndn (h : Hdr) (o : SRR) (s : State) : Host.Outcome State Fault Refusal :=
  scalarRR h o 1 (fun x y => x &&& ~~~y) s
/-- SHL (R140). -/
def execShl (h : Hdr) (o : SRR) (s : State) : Host.Outcome State Fault Refusal := scalarRR h o 1 shlW s
/-- SHR (R140). -/
def execShr (h : Hdr) (o : SRR) (s : State) : Host.Outcome State Fault Refusal := scalarRR h o 1 shrW s
/-- SRA (R140). -/
def execSra (h : Hdr) (o : SRR) (s : State) : Host.Outcome State Fault Refusal := scalarRR h o 1 sraW s
/-- ROL (R140). -/
def execRol (h : Hdr) (o : SRR) (s : State) : Host.Outcome State Fault Refusal := scalarRR h o 1 rolW s
/-- MUL (R140). -/
def execMul (h : Hdr) (o : SRR) (s : State) : Host.Outcome State Fault Refusal := scalarRR h o 3 (· * ·) s
/-- MULH (R140). -/
def execMulh (h : Hdr) (o : SRR) (s : State) : Host.Outcome State Fault Refusal := scalarRR h o 3 mulhW s
/-- MULHN (R140). -/
def execMulhn (h : Hdr) (o : SRR) (s : State) : Host.Outcome State Fault Refusal := scalarRR h o 3 mulhnW s
/-- MIN (R140). -/
def execMin (h : Hdr) (o : SRR) (s : State) : Host.Outcome State Fault Refusal := scalarRR h o 1 minW s
/-- MAX (R140). -/
def execMax (h : Hdr) (o : SRR) (s : State) : Host.Outcome State Fault Refusal := scalarRR h o 1 maxW s
/-- MINN (R140). -/
def execMinn (h : Hdr) (o : SRR) (s : State) : Host.Outcome State Fault Refusal := scalarRR h o 1 minnW s
/-- MAXN (R140). -/
def execMaxn (h : Hdr) (o : SRR) (s : State) : Host.Outcome State Fault Refusal := scalarRR h o 1 maxnW s

/-! ## SR1, SBF (R141, R142) -/

/-- CLZ (R141). -/
def execClz (h : Hdr) (o : SR1) (s : State) : Host.Outcome State Fault Refusal := scalarR1 h o clzW s
/-- CTZ (R141). -/
def execCtz (h : Hdr) (o : SR1) (s : State) : Host.Outcome State Fault Refusal := scalarR1 h o ctzW s
/-- POPC (R141). -/
def execPopc (h : Hdr) (o : SR1) (s : State) : Host.Outcome State Fault Refusal := scalarR1 h o popcW s
/-- BREV (R141). -/
def execBrev (h : Hdr) (o : SR1) (s : State) : Host.Outcome State Fault Refusal := scalarR1 h o brevW s
/-- BSWAP (R141). -/
def execBswap (h : Hdr) (o : SR1) (s : State) : Host.Outcome State Fault Refusal := scalarR1 h o bswapW s

/-- BEXT (R142). -/
def execBext (h : Hdr) (o : SBF) (s : State) : Host.Outcome State Fault Refusal :=
  scalarResult h o.d 1 (fun c => bextW (c.s o.a.toNat) o.pos.toNat (fieldLen o.len)) s
/-- BINS (R142): d is a third source. -/
def execBins (h : Hdr) (o : SBF) (s : State) : Host.Outcome State Fault Refusal :=
  scalarResult h o.d 1 (fun c => binsW (c.s o.d.toNat) (c.s o.a.toNat) o.pos.toNat (fieldLen o.len)) s

/-! ## SRI (R143) -/

/-- ADDI (R143). -/
def execAddi (h : Hdr) (o : SRI) (s : State) : Host.Outcome State Fault Refusal := scalarRI h o 1 (· + ·) s
/-- ANDI (R143). -/
def execAndi (h : Hdr) (o : SRI) (s : State) : Host.Outcome State Fault Refusal := scalarRI h o 1 (· &&& ·) s
/-- ORI (R143). -/
def execOri (h : Hdr) (o : SRI) (s : State) : Host.Outcome State Fault Refusal := scalarRI h o 1 (· ||| ·) s
/-- XORI (R143). -/
def execXori (h : Hdr) (o : SRI) (s : State) : Host.Outcome State Fault Refusal := scalarRI h o 1 (· ^^^ ·) s
/-- SHLI (R143): by imm26[5:0]. -/
def execShli (h : Hdr) (o : SRI) (s : State) : Host.Outcome State Fault Refusal := scalarRI h o 1 shlW s
/-- SHRI (R143). -/
def execShri (h : Hdr) (o : SRI) (s : State) : Host.Outcome State Fault Refusal := scalarRI h o 1 shrW s
/-- SRAI (R143). -/
def execSrai (h : Hdr) (o : SRI) (s : State) : Host.Outcome State Fault Refusal := scalarRI h o 1 sraW s
/-- MULI (R143). -/
def execMuli (h : Hdr) (o : SRI) (s : State) : Host.Outcome State Fault Refusal := scalarRI h o 3 (· * ·) s

/-! ## Compares and predicate logic (R144, R145) -/

/-- CEQ (R144). -/
def execCeq (h : Hdr) (o : SPR) (s : State) : Host.Outcome State Fault Refusal := compareRR h o .eq s
/-- CNE (R144). -/
def execCne (h : Hdr) (o : SPR) (s : State) : Host.Outcome State Fault Refusal := compareRR h o .ne s
/-- CLT (R144). -/
def execClt (h : Hdr) (o : SPR) (s : State) : Host.Outcome State Fault Refusal := compareRR h o .lt s
/-- CLE (R144). -/
def execCle (h : Hdr) (o : SPR) (s : State) : Host.Outcome State Fault Refusal := compareRR h o .le s
/-- CLTN (R144). -/
def execCltn (h : Hdr) (o : SPR) (s : State) : Host.Outcome State Fault Refusal := compareRR h o .ltn s
/-- CLEN (R144). -/
def execClen (h : Hdr) (o : SPR) (s : State) : Host.Outcome State Fault Refusal := compareRR h o .len s
/-- CEQI (R144). -/
def execCeqi (h : Hdr) (o : SPI) (s : State) : Host.Outcome State Fault Refusal := compareRI h o .eq s
/-- CNEI (R144). -/
def execCnei (h : Hdr) (o : SPI) (s : State) : Host.Outcome State Fault Refusal := compareRI h o .ne s
/-- CLTI (R144). -/
def execClti (h : Hdr) (o : SPI) (s : State) : Host.Outcome State Fault Refusal := compareRI h o .lt s
/-- CLEI (R144). -/
def execClei (h : Hdr) (o : SPI) (s : State) : Host.Outcome State Fault Refusal := compareRI h o .le s
/-- CLTNI (R144). -/
def execCltni (h : Hdr) (o : SPI) (s : State) : Host.Outcome State Fault Refusal := compareRI h o .ltn s
/-- CLENI (R144). -/
def execCleni (h : Hdr) (o : SPI) (s : State) : Host.Outcome State Fault Refusal := compareRI h o .len s
/-- PAND (R145). -/
def execPand (h : Hdr) (o : SPP) (s : State) : Host.Outcome State Fault Refusal := predicateLogic h o (· && ·) s
/-- POR (R145). -/
def execPor (h : Hdr) (o : SPP) (s : State) : Host.Outcome State Fault Refusal := predicateLogic h o (· || ·) s
/-- PXOR (R145). -/
def execPxor (h : Hdr) (o : SPP) (s : State) : Host.Outcome State Fault Refusal := predicateLogic h o xor s
/-- PANDN (R145). -/
def execPandn (h : Hdr) (o : SPP) (s : State) : Host.Outcome State Fault Refusal :=
  predicateLogic h o (fun x y => x && !y) s

/-! ## Select and moves (R146-R149) -/

/-- SEL (R146). -/
def execSel (h : Hdr) (o : SSL) (s : State) : Host.Outcome State Fault Refusal :=
  scalarResult h o.d 1 (fun c => if c.p o.ps.toNat then c.s o.a.toNat else c.s o.b.toNat) s

/-- The register that a selector of R62 reads. -/
def Core.selected (c : Core) (n : Nat) (sel : Nat) : Word :=
  if sel = 0 then toW c.r.lr.toNat
  else if sel = 1 then toW c.r.tcx.toNat
  else if sel = 2 then toW c.r.tcy.toNat
  else if sel = 3 then toW c.r.tcz.toNat
  else if sel = 4 then c.r.tm
  else if sel = 5 then toW c.r.st.toNat
  else if sel = 6 then c.pall
  else if sel = 7 then toW n
  else
    let v := c.lp.level (sel % 8)
    if !v.active then 0 else if sel < 0x18 then toW (v.index.toNat % 2 ^ 32) else toW (v.count.toNat % 2 ^ 32)

/-- MFX (R62, R147). -/
def execMfx (h : Hdr) (o : SXR) (s : State) : Host.Outcome State Fault Refusal :=
  syllable h (fun s b c => .ok (sendS s.dev b c o.d.toNat (c.selected b.core o.sel.toNat) 1)) s

/-- lr as MTX writes it: bits [12:0], clamped to 4096 (R62). -/
def lrOf (x : Word) : BitVec 16 := BitVec.ofNat 16 (min (wfld x 0 13) 4096)

/-- MTX (R62, R147): lr, or p1-p15; the d field names the source. -/
def execMtx (h : Hdr) (o : SXR) (s : State) : Host.Outcome State Fault Refusal :=
  syllable h (fun s b c =>
    let x := c.s o.d.toNat
    .ok (if o.sel = 0 then sendIn s.dev b (.lr (lrOf x)) 1
         else (List.range 15).foldl (fun d i => sendP d b (i + 1) (x.getLsbD (i + 1)) 1) s.dev)) s

/-- MFB (R148). -/
def execMfb (h : Hdr) (o : SXB) (s : State) : Host.Outcome State Fault Refusal :=
  scalarResult h o.d 1 (fun c => c.b o.bt.toNat) s

/-- MTB (R148): the d field names the source. -/
def execMtb (h : Hdr) (o : SXB) (s : State) : Host.Outcome State Fault Refusal :=
  syllable h (fun s b c => .ok (sendB s.dev b c o.bt.toNat (c.s o.d.toNat))) s

/-- LIMMH (R149): the high half, completed by the LIMML of the pair. -/
def execLimmh (h : Hdr) (o : SLI) (s : State) : Host.Outcome State Fault Refusal :=
  scalarResult h o.d 1 (fun _ => toW (o.imm.toNat * 2 ^ 32)) s

/-- LIMML (R149): the pair's one write, of hi:lo. -/
def execLimml (h : Hdr) (o : SLI) (s : State) : Host.Outcome State Fault Refusal :=
  syllable h (fun s b c =>
    let n := physSV c.lp o.d.toNat
    let mine (e : Pend) : Bool := e.prod = b.addr && e.due = some (b.cycle + 1) && e.res.ref = (0, n)
    let half := (s.dev.core b.core).pend.getLast?.filter mine
    let hi : Word := match half.map Pend.res with | some (.s _ v) => v | _ => 0
    let d := if half.isSome then s.dev.updCore b.core fun x => { x with pend := x.pend.dropLast } else s.dev
    .ok (sendS d b c o.d.toNat (hi ||| toW o.imm.toNat) 1)) s

end Sys2Proof.Machine
end

