-- ==== Sys2Proof/Machine/Dispatch.lean ====
section
/-!
DEFINITION. The meaning of every instruction and event of the opcode table: one arm per constructor.
-/

namespace Sys2Proof.Machine

def exec (i : Instr) (s : State) : Host.Outcome State Fault Refusal :=
  match i with
  | .add h o => Sys2Proof.Machine.execAdd h o s
  | .sub h o => Sys2Proof.Machine.execSub h o s
  | .and h o => Sys2Proof.Machine.execAnd h o s
  | .or h o => Sys2Proof.Machine.execOr h o s
  | .xor h o => Sys2Proof.Machine.execXor h o s
  | .andn h o => Sys2Proof.Machine.execAndn h o s
  | .shl h o => Sys2Proof.Machine.execShl h o s
  | .shr h o => Sys2Proof.Machine.execShr h o s
  | .sra h o => Sys2Proof.Machine.execSra h o s
  | .rol h o => Sys2Proof.Machine.execRol h o s
  | .mul h o => Sys2Proof.Machine.execMul h o s
  | .mulh h o => Sys2Proof.Machine.execMulh h o s
  | .mulhn h o => Sys2Proof.Machine.execMulhn h o s
  | .min h o => Sys2Proof.Machine.execMin h o s
  | .max h o => Sys2Proof.Machine.execMax h o s
  | .minn h o => Sys2Proof.Machine.execMinn h o s
  | .maxn h o => Sys2Proof.Machine.execMaxn h o s
  | .clz h o => Sys2Proof.Machine.execClz h o s
  | .ctz h o => Sys2Proof.Machine.execCtz h o s
  | .popc h o => Sys2Proof.Machine.execPopc h o s
  | .brev h o => Sys2Proof.Machine.execBrev h o s
  | .bswap h o => Sys2Proof.Machine.execBswap h o s
  | .bext h o => Sys2Proof.Machine.execBext h o s
  | .bins h o => Sys2Proof.Machine.execBins h o s
  | .addi h o => Sys2Proof.Machine.execAddi h o s
  | .andi h o => Sys2Proof.Machine.execAndi h o s
  | .ori h o => Sys2Proof.Machine.execOri h o s
  | .xori h o => Sys2Proof.Machine.execXori h o s
  | .shli h o => Sys2Proof.Machine.execShli h o s
  | .shri h o => Sys2Proof.Machine.execShri h o s
  | .srai h o => Sys2Proof.Machine.execSrai h o s
  | .muli h o => Sys2Proof.Machine.execMuli h o s
  | .ceq h o => Sys2Proof.Machine.execCeq h o s
  | .cne h o => Sys2Proof.Machine.execCne h o s
  | .clt h o => Sys2Proof.Machine.execClt h o s
  | .cle h o => Sys2Proof.Machine.execCle h o s
  | .cltn h o => Sys2Proof.Machine.execCltn h o s
  | .clen h o => Sys2Proof.Machine.execClen h o s
  | .ceqi h o => Sys2Proof.Machine.execCeqi h o s
  | .cnei h o => Sys2Proof.Machine.execCnei h o s
  | .clti h o => Sys2Proof.Machine.execClti h o s
  | .clei h o => Sys2Proof.Machine.execClei h o s
  | .cltni h o => Sys2Proof.Machine.execCltni h o s
  | .cleni h o => Sys2Proof.Machine.execCleni h o s
  | .pand h o => Sys2Proof.Machine.execPand h o s
  | .por h o => Sys2Proof.Machine.execPor h o s
  | .pxor h o => Sys2Proof.Machine.execPxor h o s
  | .pandn h o => Sys2Proof.Machine.execPandn h o s
  | .sel h o => Sys2Proof.Machine.execSel h o s
  | .mfx h o => Sys2Proof.Machine.execMfx h o s
  | .mtx h o => Sys2Proof.Machine.execMtx h o s
  | .mfb h o => Sys2Proof.Machine.execMfb h o s
  | .mtb h o => Sys2Proof.Machine.execMtb h o s
  | .limmh h o => Sys2Proof.Machine.execLimmh h o s
  | .limml h o => Sys2Proof.Machine.execLimml h o s
  | .nop h => Sys2Proof.Machine.execNop h s
  | .halt h => Sys2Proof.Machine.execHalt h s
  | .exit h => Sys2Proof.Machine.execExit h s
  | .trap h o => Sys2Proof.Machine.execTrap h o s
  | .detach h => Sys2Proof.Machine.execDetach h s
  | .join h o => Sys2Proof.Machine.execJoin h o s
  | .fuse h => Sys2Proof.Machine.execFuse h s
  | .unfuse h => Sys2Proof.Machine.execUnfuse h s
  | .pbt h o => Sys2Proof.Machine.execPbt h o s
  | .brt h o => Sys2Proof.Machine.execBrt h o s
  | .call h o => Sys2Proof.Machine.execCall h o s
  | .ret h o => Sys2Proof.Machine.execRet h o s
  | .loop h o => Sys2Proof.Machine.execLoop h o s
  | .mloop h o => Sys2Proof.Machine.execMloop h o s
  | .lstri h o => Sys2Proof.Machine.execLstri h o s
  | .lstrr h o => Sys2Proof.Machine.execLstrr h o s
  | .lbrk h o => Sys2Proof.Machine.execLbrk h o s
  | .lnext h o => Sys2Proof.Machine.execLnext h o s
  | .vadd h ew o => Sys2Proof.Machine.execVadd h ew o s
  | .vsub h ew o => Sys2Proof.Machine.execVsub h ew o s
  | .vmul h ew o => Sys2Proof.Machine.execVmul h ew o s
  | .vmulh h ew o => Sys2Proof.Machine.execVmulh h ew o s
  | .vmin h ew o => Sys2Proof.Machine.execVmin h ew o s
  | .vmax h ew o => Sys2Proof.Machine.execVmax h ew o s
  | .vminn h ew o => Sys2Proof.Machine.execVminn h ew o s
  | .vmaxn h ew o => Sys2Proof.Machine.execVmaxn h ew o s
  | .vshl h ew o => Sys2Proof.Machine.execVshl h ew o s
  | .vshr h ew o => Sys2Proof.Machine.execVshr h ew o s
  | .vsra h ew o => Sys2Proof.Machine.execVsra h ew o s
  | .vadds h ew o => Sys2Proof.Machine.execVadds h ew o s
  | .vsubs h ew o => Sys2Proof.Machine.execVsubs h ew o s
  | .vpopc h ew o => Sys2Proof.Machine.execVpopc h ew o s
  | .vclz h ew o => Sys2Proof.Machine.execVclz h ew o s
  | .vabs h ew o => Sys2Proof.Machine.execVabs h ew o s
  | .vand h o => Sys2Proof.Machine.execVand h o s
  | .vor h o => Sys2Proof.Machine.execVor h o s
  | .vxor h o => Sys2Proof.Machine.execVxor h o s
  | .vandn h o => Sys2Proof.Machine.execVandn h o s
  | .vmov h o => Sys2Proof.Machine.execVmov h o s
  | .vperm h o => Sys2Proof.Machine.execVperm h o s
  | .vclmull h o => Sys2Proof.Machine.execVclmull h o s
  | .vclmulh h o => Sys2Proof.Machine.execVclmulh h o s
  | .vsel h o => Sys2Proof.Machine.execVsel h o s
  | .mand h o => Sys2Proof.Machine.execMand h o s
  | .mor h o => Sys2Proof.Machine.execMor h o s
  | .mxor h o => Sys2Proof.Machine.execMxor h o s
  | .mnot h o => Sys2Proof.Machine.execMnot h o s
  | .vseed h o => Sys2Proof.Machine.execVseed h o s
  | .vaddi h ew o => Sys2Proof.Machine.execVaddi h ew o s
  | .vshli h ew o => Sys2Proof.Machine.execVshli h ew o s
  | .vshri h ew o => Sys2Proof.Machine.execVshri h ew o s
  | .vmovi h ew o => Sys2Proof.Machine.execVmovi h ew o s
  | .vfadd h o => Sys2Proof.Machine.execVfadd h o s
  | .vfsub h o => Sys2Proof.Machine.execVfsub h o s
  | .vfmul h o => Sys2Proof.Machine.execVfmul h o s
  | .vfma h o => Sys2Proof.Machine.execVfma h o s
  | .vfms h o => Sys2Proof.Machine.execVfms h o s
  | .vfnma h o => Sys2Proof.Machine.execVfnma h o s
  | .vfmin h o => Sys2Proof.Machine.execVfmin h o s
  | .vfmax h o => Sys2Proof.Machine.execVfmax h o s
  | .vfabs h o => Sys2Proof.Machine.execVfabs h o s
  | .vfneg h o => Sys2Proof.Machine.execVfneg h o s
  | .vexp2 h o => Sys2Proof.Machine.execVexp2 h o s
  | .vlog2 h o => Sys2Proof.Machine.execVlog2 h o s
  | .vrcp h o => Sys2Proof.Machine.execVrcp h o s
  | .vrsq h o => Sys2Proof.Machine.execVrsq h o s
  | .vtanh h o => Sys2Proof.Machine.execVtanh h o s
  | .vcvtf h o => Sys2Proof.Machine.execVcvtf h o s
  | .vcvtn h o => Sys2Proof.Machine.execVcvtn h o s
  | .vcvti h o => Sys2Proof.Machine.execVcvti h o s
  | .vcvtif h o => Sys2Proof.Machine.execVcvtif h o s
  | .vcmp h o => Sys2Proof.Machine.execVcmp h o s
  | .vrsum h o => Sys2Proof.Machine.execVrsum h o s
  | .vrmax h o => Sys2Proof.Machine.execVrmax h o s
  | .vrmin h o => Sys2Proof.Machine.execVrmin h o s
  | .vpsum h o => Sys2Proof.Machine.execVpsum h o s
  | .vargmax h o => Sys2Proof.Machine.execVargmax h o s
  | .vtopk h o => Sys2Proof.Machine.execVtopk h o s
  | .vexts h o => Sys2Proof.Machine.execVexts h o s
  | .vinss h o => Sys2Proof.Machine.execVinss h o s
  | .lds8 h o => Sys2Proof.Machine.execLds8 h o s
  | .lds16 h o => Sys2Proof.Machine.execLds16 h o s
  | .lds32 h o => Sys2Proof.Machine.execLds32 h o s
  | .lds64 h o => Sys2Proof.Machine.execLds64 h o s
  | .ldn8 h o => Sys2Proof.Machine.execLdn8 h o s
  | .ldn16 h o => Sys2Proof.Machine.execLdn16 h o s
  | .ldn32 h o => Sys2Proof.Machine.execLdn32 h o s
  | .sts8 h o => Sys2Proof.Machine.execSts8 h o s
  | .sts16 h o => Sys2Proof.Machine.execSts16 h o s
  | .sts32 h o => Sys2Proof.Machine.execSts32 h o s
  | .sts64 h o => Sys2Proof.Machine.execSts64 h o s
  | .ldv h o => Sys2Proof.Machine.execLdv h o s
  | .stv h o => Sys2Proof.Machine.execStv h o s
  | .ldvs h o => Sys2Proof.Machine.execLdvs h o s
  | .stvs h o => Sys2Proof.Machine.execStvs h o s
  | .ldvx h o => Sys2Proof.Machine.execLdvx h o s
  | .stvx h o => Sys2Proof.Machine.execStvx h o s
  | .stz h o => Sys2Proof.Machine.execStz h o s
  | .ldz h o => Sys2Proof.Machine.execLdz h o s
  | .probe h o => Sys2Proof.Machine.execProbe h o s
  | .hclaim h o => Sys2Proof.Machine.execHclaim h o s
  | .hrel h o => Sys2Proof.Machine.execHrel h o s
  | .pref h o => Sys2Proof.Machine.execPref h o s
  | .splds h o => Sys2Proof.Machine.execSplds h o s
  | .spsts h o => Sys2Proof.Machine.execSpsts h o s
  | .spldv h o => Sys2Proof.Machine.execSpldv h o s
  | .spstv h o => Sys2Proof.Machine.execSpstv h o s
  | .beat h o => Sys2Proof.Machine.execBeat h o s
  | .acrel h o => Sys2Proof.Machine.execAcrel h o s
  | .acrela h => Sys2Proof.Machine.execAcrela h s
  | .acgrp h o => Sys2Proof.Machine.execAcgrp h o s
  | .acmov h o => Sys2Proof.Machine.execAcmov h o s
  | .acld h o => Sys2Proof.Machine.execAcld h o s
  | .mcfg h o => Sys2Proof.Machine.execMcfg h o s
  | .wswap h => Sys2Proof.Machine.execWswap h s
  | .wclr h => Sys2Proof.Machine.execWclr h s
  | .mwait h => Sys2Proof.Machine.execMwait h s
  | .rowld h o => Sys2Proof.Machine.execRowld h o s
  | .rowst h o => Sys2Proof.Machine.execRowst h o s
  | .rowupd h o => Sys2Proof.Machine.execRowupd h o s
  | .rowpack h o => Sys2Proof.Machine.execRowpack h o s
  | .rowrestore h o => Sys2Proof.Machine.execRowrestore h o s
  | .rowcnt h o => Sys2Proof.Machine.execRowcnt h o s
  | .rowset h o => Sys2Proof.Machine.execRowset h o s
  | .rowrec h o => Sys2Proof.Machine.execRowrec h o s
  | .rowrdec h o => Sys2Proof.Machine.execRowrdec h o s
  | .rowtrld h o => Sys2Proof.Machine.execRowtrld h o s
  | .rowtrst h o => Sys2Proof.Machine.execRowtrst h o s
  | .rowmask h o => Sys2Proof.Machine.execRowmask h o s
  | .rowseq h o => Sys2Proof.Machine.execRowseq h o s
  | .rowclr h o => Sys2Proof.Machine.execRowclr h o s
  | .cadd h o => Sys2Proof.Machine.execCadd h o s
  | .cwait h o => Sys2Proof.Machine.execCwait h o s
  | .cread h o => Sys2Proof.Machine.execCread h o s
  | .cmax h o => Sys2Proof.Machine.execCmax h o s
  | .cwany h o => Sys2Proof.Machine.execCwany h o s
  | .cbind h o => Sys2Proof.Machine.execCbind h o s
  | .stakeCreate h o => Sys2Proof.Machine.execStakeCreate h o s
  | .stakeRetire h o => Sys2Proof.Machine.execStakeRetire h o s
  | .stakeAdvance h o => Sys2Proof.Machine.execStakeAdvance h o s
  | .phase h o => Sys2Proof.Machine.execPhase h o s
  | .cpyq h o => Sys2Proof.Machine.execCpyq h o s
  | .cpymc h o => Sys2Proof.Machine.execCpymc h o s
  | .hbdrain h o => Sys2Proof.Machine.execHbdrain h o s
  | .gsub h o => Sys2Proof.Machine.execGsub h o s
  | .gunsub h o => Sys2Proof.Machine.execGunsub h o s
  | .gred h o => Sys2Proof.Machine.execGred h o s
  | .tlaunch h o => Sys2Proof.Machine.execTlaunch h o s
  | .tqadd h o => Sys2Proof.Machine.execTqadd h o s
  | .tdqadd h o => Sys2Proof.Machine.execTdqadd h o s
  | .tdqtake h o => Sys2Proof.Machine.execTdqtake h o s
  | .tcancel h o => Sys2Proof.Machine.execTcancel h o s
  | .filreq h o => Sys2Proof.Machine.execFilreq h o s
  | .kvprobe h o => Sys2Proof.Machine.execKvprobe h o s
  | .kvmarkValid h o => Sys2Proof.Machine.execKvmarkValid h o s
  | .kvmarkExit h o => Sys2Proof.Machine.execKvmarkExit h o s
  | .kvmarkClear h o => Sys2Proof.Machine.execKvmarkClear h o s
  | .calve h o => Sys2Proof.Machine.execCalve h o s
  | .calveArm h o => Sys2Proof.Machine.execCalveArm h o s
  | .colred h o => Sys2Proof.Machine.execColred h o s
  | .colbc h o => Sys2Proof.Machine.execColbc h o s
  | .colag h o => Sys2Proof.Machine.execColag h o s
  | .tret h => Sys2Proof.Machine.execTret h s
  | .csrr h o => Sys2Proof.Machine.execCsrr h o s
  | .csrw h o => Sys2Proof.Machine.execCsrw h o s
  | .csrs h o => Sys2Proof.Machine.execCsrs h o s
  | .csrc h o => Sys2Proof.Machine.execCsrc h o s
  | .tmark h o => Sys2Proof.Machine.execTmark h o s
  | .smpctl h o => Sys2Proof.Machine.execSmpctl h o s
  | .bkpt h o => Sys2Proof.Machine.execBkpt h o s
  | .wpset h o => Sys2Proof.Machine.execWpset h o s
  | .wpclr h o => Sys2Proof.Machine.execWpclr h o s
  | .taginv h o => Sys2Proof.Machine.execTaginv h o s
  | .tagflush h => Sys2Proof.Machine.execTagflush h s
  | .partopForm h o => Sys2Proof.Machine.execPartopForm h o s
  | .partopDissolve h o => Sys2Proof.Machine.execPartopDissolve h o s
  | .partopPreempt h o => Sys2Proof.Machine.execPartopPreempt h o s
  | .partopQreset h o => Sys2Proof.Machine.execPartopQreset h o s
  | .ctxopCreate h o => Sys2Proof.Machine.execCtxopCreate h o s
  | .ctxopDestroy h o => Sys2Proof.Machine.execCtxopDestroy h o s
  | .ctxopInval h o => Sys2Proof.Machine.execCtxopInval h o s
  | .ctxopAttest h o => Sys2Proof.Machine.execCtxopAttest h o s
  | .swapopSave h o => Sys2Proof.Machine.execSwapopSave h o s
  | .swapopRestore h o => Sys2Proof.Machine.execSwapopRestore h o s
  | .swapopExch h o => Sys2Proof.Machine.execSwapopExch h o s
  | .illegalOpcode h cls opc w => Sys2Proof.Machine.execIllegalOpcode h cls opc w s
  | .resultLanding core idx => Sys2Proof.Machine.execResultLanding core idx s
  | .pushLanding core => Sys2Proof.Machine.execPushLanding core s
  | .interrupt core => Sys2Proof.Machine.execInterrupt core s
  | .haltWake core => Sys2Proof.Machine.execHaltWake core s
  | .seqResumeReplay core => Sys2Proof.Machine.execSeqResumeReplay core s
  | .seqResumeContinue core => Sys2Proof.Machine.execSeqResumeContinue core s
  | .seqResumeUnresolved core => Sys2Proof.Machine.execSeqResumeUnresolved core s
  | .registerWrite core op csr val => Sys2Proof.Machine.execRegisterWrite core op csr val s
  | .launchDispatch ctx stream => Sys2Proof.Machine.execLaunchDispatch ctx stream s
  | .taskStart core => Sys2Proof.Machine.execTaskStart core s
  | .stealProbe core => Sys2Proof.Machine.execStealProbe core s
  | .spillRefill cluster => Sys2Proof.Machine.execSpillRefill cluster s
  | .passBoundary core => Sys2Proof.Machine.execPassBoundary core s
  | .preemptHalt core => Sys2Proof.Machine.execPreemptHalt core s
  | .iterationOverrun core => Sys2Proof.Machine.execIterationOverrun core s
  | .swapComplete die => Sys2Proof.Machine.execSwapComplete die s
  | .streamDelivery cluster => Sys2Proof.Machine.execStreamDelivery cluster s
  | .privateFetch core => Sys2Proof.Machine.execPrivateFetch core s
  | .icacheFill cluster pa errs corrected => Sys2Proof.Machine.execIcacheFill cluster pa errs corrected s
  | .pageWalk cluster ctx va memErr => Sys2Proof.Machine.execPageWalk cluster ctx va memErr s
  | .engineCommandResume idx resolved => Sys2Proof.Machine.execEngineCommandResume idx resolved s
  | .phaseEndComplete core => Sys2Proof.Machine.execPhaseEndComplete core s
  | .storeVisible idx agent => Sys2Proof.Machine.execStoreVisible idx agent s
  | .tagInvalidation cluster block => Sys2Proof.Machine.execTagInvalidation cluster block s
  | .probeLookup core => Sys2Proof.Machine.execProbeLookup core s
  | .windowFill cluster set way err => Sys2Proof.Machine.execWindowFill cluster set way err s
  | .hclaimGrant core => Sys2Proof.Machine.execHclaimGrant core s
  | .hrelPerform core => Sys2Proof.Machine.execHrelPerform core s
  | .counterOperation ctx ident isMax val => Sys2Proof.Machine.execCounterOperation ctx ident isMax val s
  | .syncAnswer core => Sys2Proof.Machine.execSyncAnswer core s
  | .moraineBatchTimeout die ctx => Sys2Proof.Machine.execMoraineBatchTimeout die ctx s
  | .batchApply ctx die => Sys2Proof.Machine.execBatchApply ctx die s
  | .graverAccept stack unit ctx data tag => Sys2Proof.Machine.execGraverAccept stack unit ctx data tag s
  | .graverCommand stack channel column ready0 ready1 outcome => Sys2Proof.Machine.execGraverCommand stack channel column ready0 ready1 outcome s
  | .generationUpdate stack ctx slot => Sys2Proof.Machine.execGenerationUpdate stack ctx slot s
  | .scrubPassStart stack => Sys2Proof.Machine.execScrubPassStart stack s
  | .scrubRead stack outcome => Sys2Proof.Machine.execScrubRead stack outcome s
  | .scrubLevelCheck stack elapsed => Sys2Proof.Machine.execScrubLevelCheck stack elapsed s
  | .subscriptionTile die entry => Sys2Proof.Machine.execSubscriptionTile die entry s
  | .subscriptionComplete die entry => Sys2Proof.Machine.execSubscriptionComplete die entry s
  | .graverReduction die entry => Sys2Proof.Machine.execGraverReduction die entry s
  | .copyPacketTake q => Sys2Proof.Machine.execCopyPacketTake q s
  | .stampReread q => Sys2Proof.Machine.execStampReread q s
  | .copyPacketComplete q idx remote refusal => Sys2Proof.Machine.execCopyPacketComplete q idx remote refusal s
  | .cpyqEnqueue engine => Sys2Proof.Machine.execCpyqEnqueue engine s
  | .parkClaim cluster slot => Sys2Proof.Machine.execParkClaim cluster slot s
  | .parkComplete cluster slot => Sys2Proof.Machine.execParkComplete cluster slot s
  | .queueOpen q => Sys2Proof.Machine.execQueueOpen q s
  | .queueStop q => Sys2Proof.Machine.execQueueStop q s
  | .firnOperation die => Sys2Proof.Machine.execFirnOperation die s
  | .probeRetry die => Sys2Proof.Machine.execProbeRetry die s
  | .fillEnd die entry => Sys2Proof.Machine.execFillEnd die entry s
  | .calvingNotice ctx target row token cw time => Sys2Proof.Machine.execCalvingNotice ctx target row token cw time s
  | .remoteRequest r => Sys2Proof.Machine.execRemoteRequest r s
  | .remoteAnswer idx reason data => Sys2Proof.Machine.execRemoteAnswer idx reason data s
  | .remoteTimeout idx => Sys2Proof.Machine.execRemoteTimeout idx s
  | .collectiveAssemble idx others => Sys2Proof.Machine.execCollectiveAssemble idx others s
  | .collectiveComplete idx => Sys2Proof.Machine.execCollectiveComplete idx s
  | .collectiveTimeout idx => Sys2Proof.Machine.execCollectiveTimeout idx s
  | .linkDown port lanes => Sys2Proof.Machine.execLinkDown port lanes s
  | .ptpEventMessage port transmit => Sys2Proof.Machine.execPtpEventMessage port transmit s
  | .genStart part => Sys2Proof.Machine.execGenStart part s
  | .genStopRequest part => Sys2Proof.Machine.execGenStopRequest part s
  | .genHalt part => Sys2Proof.Machine.execGenHalt part s
  | .genIterationBegin part => Sys2Proof.Machine.execGenIterationBegin part s
  | .genAppend part => Sys2Proof.Machine.execGenAppend part s
  | .genHoldAdvance part => Sys2Proof.Machine.execGenHoldAdvance part s
  | .genResume part => Sys2Proof.Machine.execGenResume part s
  | .genSpec0Clear part => Sys2Proof.Machine.execGenSpec0Clear part s
  | .genReclaim part need => Sys2Proof.Machine.execGenReclaim part need s
  | .genPoolTake part => Sys2Proof.Machine.execGenPoolTake part s
  | .genSlotRetire part slot => Sys2Proof.Machine.execGenSlotRetire part slot s
  | .genSlotAllocate part slot => Sys2Proof.Machine.execGenSlotAllocate part slot s
  | .traceRecordWrite unit => Sys2Proof.Machine.execTraceRecordWrite unit s
  | .traceWiAdd unit ctx => Sys2Proof.Machine.execTraceWiAdd unit ctx s
  | .sample core => Sys2Proof.Machine.execSample core s
  | .counterRotate core => Sys2Proof.Machine.execCounterRotate core s
  | .boundaryStopRequest core => Sys2Proof.Machine.execBoundaryStopRequest core s
  | .packageReset => Sys2Proof.Machine.execPackageReset s
  | .bootRom iod image selfTest => Sys2Proof.Machine.execBootRom iod image selfTest s
  | .coreReset core => Sys2Proof.Machine.execCoreReset core s
  | .featureAccept word bits => Sys2Proof.Machine.execFeatureAccept word bits s
  | .hostCounterAdd ctx ident val => Sys2Proof.Machine.execHostCounterAdd ctx ident val s
  | .hostHbmWrite pa bytes => Sys2Proof.Machine.execHostHbmWrite pa bytes s
  | .hostHbmRead pa len => Sys2Proof.Machine.execHostHbmRead pa len s
  | .hostControlAccess core op csr val => Sys2Proof.Machine.execHostControlAccess core op csr val s
  | .issueGating die cause => Sys2Proof.Machine.execIssueGating die cause s
  | .gatingEnd die => Sys2Proof.Machine.execGatingEnd die s
  | .thermalStop die => Sys2Proof.Machine.execThermalStop die s
  | .refresh stack channel => Sys2Proof.Machine.execRefresh stack channel s
  | .linkReturn port => Sys2Proof.Machine.execLinkReturn port s
  | .bulkShareWindow port => Sys2Proof.Machine.execBulkShareWindow port s
  | .samplingChangeApplied core => Sys2Proof.Machine.execSamplingChangeApplied core s
  | .watchpointChangeApplied core => Sys2Proof.Machine.execWatchpointChangeApplied core s

end Sys2Proof.Machine
end

