-- ==== Sys2Proof/Machine/Turn.lean ====
section
/-!
DEFINITION. One turn of a core and one step of the package, over the meanings of instructions and events.
-/

namespace Sys2Proof.Machine

/-- Are the cores that a launch group needs idle (R26)? -/
def groupIdle (d : Dev) (g : Nat) (w : List Word) : Bool :=
  (List.range (launchSize w)).all fun i => (d.core (8 * g + i)).run = .idle && (d.core (8 * g + i)).csrq.isEmpty

/-- The stream of which a core's cluster dispatches a launch group, asks for the gate, or refuses the descriptor.  While a
group waits for a core that is busy, the cores that it keeps wait, and the others go on (R418, R419). -/
def launchReady (m : Memory) (d : Dev) (n : Nat) : Option (Nat × Nat) :=
  (d.residentOn (dieOf n)).bind fun ctx =>
    ((List.range 16).find? fun k => match streamHead m d ctx k with
      | .ready g w => g = clusterOf n && firstReady m d ctx k g && groupIdle d g w
      | .ask g .. | .bad g _ => g = clusterOf n
      | .fault .. => d.lowCluster ctx = clusterOf n
      | _ => false).map fun k => (ctx, k)

/-- What an idle core's cluster does next (R26, R417-R422): a launch group, the end of a probe, a task, a refill, or a
probe (DEDUCED, log entry 44). -/
def idleTurn (s : State) (n : Nat) : Host.Outcome State Fault Refusal :=
  let d := s.dev
  let g := clusterOf n
  match launchReady s.mem d n with
  | some (ctx, k) => execLaunchDispatch ctx k s
  | none =>
    if (d.core n).probing then execStealProbe n s
    else if !d.takes s.mem n then .next s.tick
    else if !(d.core n).deque.isEmpty then execTaskStart n s
    else if !(d.cluster g).queue.isEmpty then (if d.queueTaker s.mem g = some n then execTaskStart n s else .next s.tick)
    else if d.spilled g then execSpillRefill g s
    else execStealProbe n s

/-- A wait that can end now ends; otherwise the core waits a cycle more, for a reason of R491, which counts against the
iteration bound (R35, R129, R242). -/
def endWait (s : State) (n why : Nat) (ends : Option Dev) (go : Host.Outcome State Fault Refusal) :
    Host.Outcome State Fault Refusal :=
  if ends.isSome then go else .next ({ s with dev := s.dev.updCore n (Core.waitCycle why) }).tick

/-- A core that waits for its steering core goes on in that core's cycle (R200, R201). -/
def Dev.followLead (d : Dev) (n : Nat) : Dev :=
  match steering d (feOf d (clusterOf n)) with
  | some k => d.updCore n fun c => { c with ready := max c.ready (d.core k).ready }
  | none => d

/-- The stream's next bundle is delivered; a core that still has none waits a cycle more, or for its steering core to
issue the redirect bundle at which the front end holds (R198, R200). -/
def meetDelivery (s : State) (n g : Nat) : Host.Outcome State Fault Refusal :=
  if (s.dev.cluster g).fe.redirect.isSome && steering s.dev g ≠ some n then .next ({ s with dev := s.dev.followLead n }).tick
  else
    let waited : State := { s with dev := s.dev.updCore n (Core.waitCycle (if (s.dev.core n).attached then 3 else 4)) }
    match streamDelivery s.mem s.dev g with
    | some d => execStreamDelivery g (if (d.core n).ibuf.isEmpty then waited else s)
    | none => .next waited.tick

/-- The event that a core needs happens. -/
def Need.meet : Need → State → Host.Outcome State Fault Refusal
  | .taskStart n, s => idleTurn s n
  | .preemptHalt n, s => execPreemptHalt n s
  | .haltWake n, s => execHaltWake n s
  | .phaseEnd n, s =>
    if storesAway s.dev n then .next ({ s with dev := s.dev.updCore n (Core.waitCycle 2) }).tick
    else execPhaseEndComplete n s
  | .answer n, s => execSyncAnswer n s
  | .claim n, s => endWait s n 8 (grantClaim s.mem s.dev n s.time) (execHclaimGrant n s)
  | .release n, s => endWait s n 8 (performRelease s.mem s.dev n) (execHrelPerform n s)
  | .boundary n, s =>
    if s.dev.awaitsSteering n then .next ({ s with dev := s.dev.followLead n }).tick
    else endWait s n 2 (passBoundary s.mem s.dev n s.time) (execPassBoundary n s)
  | .overrun n, s => execIterationOverrun n s
  | .push n, s => execPushLanding n s
  | .delivery n g, s => meetDelivery s n g
  | .fetch n, s => execPrivateFetch n s
  | .line g pa, s => execIcacheFill g pa 0 false s
  | .register n, s => .next (performCsr s n)

/-- A core whose next bundle is not at hand: its wait for another engine counts in cycles (R403, R423, R437, R450); a
member that waits for its steering core goes on in that core's cycle (R201). -/
def idleCycle (s : State) (n : Nat) : State :=
  if s.dev.otherWaits n then { s with dev := s.dev.updCore n (Core.waitCycle 11) }
  else if s.dev.awaitsLead n then { s with dev := s.dev.followLead n }
  else s

/-- The bundle at hand is tried, unless its core's iteration bound runs out first (R35). -/
def tryOrOverrun (ex : Meaning) (s : State) (n : Nat) (x : AtHand) : Host.Outcome State Fault Refusal :=
  let late := { s.dev.core n with ready := x.cycle }
  if late.overrunDue && !isGeneral n then execIterationOverrun n { s with dev := s.dev.setCore n late }
  else tryBundle ex s n x

/-- One turn of core n: the event it waits for, discarded bundles, or its next bundle.  The skipped body of a zero-trip
loop is passed over by fetching its bundles, and one of them that cannot be fetched raises its fetch fault on a core that
fetches for itself (R161; DEDUCED, log entry 104). -/
def turn (ex : Meaning) (s : State) (n : Nat) : Host.Outcome State Fault Refusal :=
  match needOf s.mem s.dev n with
  | some q => q.meet s
  | none =>
    let c := s.dev.core n
    match c.run with
    | .running =>
      if c.discards then
        if s.dev.awaitsLead n then .next (idleCycle s n).tick else
        let d := s.dev.discard n 8
        .next (({ s with dev := if (d.core n).discards then d.updCore n fun c => { c with ready := c.ready + 1 } else d }).tick)
      else match atHand s.dev n with
        | none => .next (idleCycle s n).tick
        | some x =>
          if x.src ≠ 0 && c.lp.skip ≠ 0 && x.f.fault.isNone then
            .next ({ s with dev := s.dev.updCore n fun c =>
              { (c.passBy x.f) with fetched := none, fetchK := c.fetchK + 1 } }).tick
          else if x.src = 1 && x.f.addr ≠ c.pc then
            .next ({ s with dev := s.dev.updCore n fun c => { c with fetched := none } }).tick
          else tryOrOverrun ex s n x
    | _ => .next s.tick

/-! ## The world around the units -/

/-- An error in a granule of a scratchpad (R225): corrected and counted (R253), or uncorrectable from now on. -/
def Dev.spmError (d : Dev) (g gran : Nat) (hard : Bool) : Option Dev :=
  if 32 ≤ g || spmSize ≤ 8 * gran then none
  else some (d.updCluster g fun x =>
    if hard then { x with spmBad := if x.spmBad.contains gran then x.spmBad else gran :: x.spmBad }
    else { x with spmCorr := satInc x.spmCorr })

/-- An error in an entry of an accumulator slot (R364): corrected and counted (R373), or uncorrectable and not yet
found. -/
def Dev.accError (d : Dev) (n slot entry : Nat) (hard : Bool) : Option Dev :=
  if 256 ≤ n || 128 * 128 ≤ entry then none
  else match tget (d.core n).mat.slots slot with
    | none => none
    | some q => some (d.updCore n fun c =>
        { c with mat :=
          if hard then { c.mat with slots := tset c.mat.slots slot { q with bad := (entry :: q.bad).dedup } }
          else { c.mat with corr := satInc c.mat.corr } })

/-- What the world around the units does, where it can happen. -/
def World.act (w : World) (s : State) : Option Dev :=
  match w with
  | .assign n at' => s.dev.assignCore n at'
  | .imageOut die => s.dev.imageOut die
  | .imageIn idx => s.dev.imageIn idx
  | .batchSend die ctx => s.dev.sendBatch die ctx
  | .spmError g gran hard => s.dev.spmError g gran hard
  | .accError n slot entry hard => s.dev.accError n slot entry hard
  | .tileUnit die entry => Sys2Proof.Machine.tileUnit s.mem s.dev die entry s.time
  | .redRead die entry k i => Sys2Proof.Machine.redRead s.mem s.dev die entry k i
  | .redWrite die entry k => Sys2Proof.Machine.redWrite s.mem s.dev die entry k s.time
  | .fillUnit die entry unit => fillAhead s.mem s.dev die entry unit s.time
  | .copyPart q idx key write => Sys2Proof.Machine.copyPart s.mem s.dev q idx key write s.time
  | .registered idx => s.dev.registered s.mem idx s.time
  | .monitor i v => if i < 10 then some { s.dev with sys := { s.dev.sys with mon := tset s.dev.sys.mon i v } } else none

/-- What a bound on the time base makes due happens (R3, R515). -/
def Due.act : Due → State → Host.Outcome State Fault Refusal
  | .remote idx, s => execRemoteTimeout idx s
  | .collective idx, s => execCollectiveTimeout idx s
  | .wiAdd u ctx, s => execTraceWiAdd u ctx s
  | .sampling n, s => execSamplingChangeApplied n s
  | .watch n, s => execWatchpointChangeApplied n s
  | .swap die, s => execSwapComplete die s

/-- One step: what a bound on the time base makes due (R3, R515), the next entry of the agenda, or a turn of the current
core (DESIGN CHOICE, log entry 3). -/
def stepWith (ex : Meaning) (s : State) : Host.Outcome State Fault Refusal :=
  match s.due with
  | some q => q.act s
  | none =>
    match s.agenda with
    | .event i :: t =>
      let s := { s with agenda := t }
      if (hdrOf i).isSome then .next s.tick else ex i s
    | .world w :: t => happening w.act { s with agenda := t }
    | .issue n :: t => turn ex { s with agenda := t, cur := n } n
    | [] => turn ex s s.cur

/-! ## A core that can run a given word (log entry 3) -/

/-- Forms that only general cores run (R77, R185). -/
def generalOnly (i : Instr) : Bool :=
  isPartForm i || (match i with
    | .tret _ => true
    | .csrw _ o | .csrs _ o | .csrc _ o => csrPrivileged o.csr.toNat
    | _ => false)

/-- Context block of the context that core 0 runs in: a local quota from block 0, no counters, no page table. -/
def readyBlock : List Word := List.replicate 23 0 ++ [0x4000000000, 0, 0]

/-- Tensor core 0 in a pass of a task, on a partition of die 0 that runs context 0. -/
def Dev.readyCore (d : Dev) : Dev :=
  let p : Part := { newPart 1 0 0 0 0 with resident := some 0 }
  let t : Task :=
    { words := [0x1000, 0x1000, 0x2000, 0, 0, 0, 0, 0], id := 0, ctx := 0, isMember := false, passes := 1, cancelled := false
      leaving := false }
  ((d.setPart 0 p).setCtx 0 (newCtx 0 0 readyBlock)).updCore 0 fun c =>
    { c with run := .running, waits := [], task := some t, pc := 0x1040, seq := { c.seq with region := .pass } }

end Sys2Proof.Machine
end

