-- ==== Sys2Proof/Machine/Step.lean ====
section
/-!
DEFINITION. One step of the package, and the state in which a given word is the next bundle.
-/

namespace Sys2Proof.Machine

/-- One step: the next entry of the agenda, or a turn of the current core (log entry 3). -/
def step (s : State) : Host.Outcome State Fault Refusal := stepWith exec s

/-- Does a word decode to a form that only general cores run (R77, R172)? -/
def generalWord (w : Word) : Bool :=
  match decodeRaw w.toNat with
  | some i => generalOnly i
  | none => false

/-- The bundle of one syllable that a word makes: E = 1 ends the bundle (R43). -/
def oneBundle (addr : Word) (nbits w : Nat) : Fetched :=
  { addr := addr, words := [toW (w % 2 ^ nbits) ||| toW (2 ^ 60)], fault := none }

/-- The state with a table word as the next bundle of a core that can run it: tensor core 0 in a pass of a task, on a
partition of die 0 with one context; or general core 256, which firmware runs. -/
def State.withFetchWord (s : State) (nbits w : Nat) : State :=
  let f (a : Word) : Fetched := oneBundle a nbits w
  if generalWord (toW (w % 2 ^ nbits)) then
    { s with agenda := [], cur := 256, bundle := none
             dev := s.dev.updCore 256 fun c => { c with run := .running, waits := [], fetched := some (f c.pc) } }
  else
    { s with agenda := [], cur := 0, bundle := none, dev := (s.dev.readyCore).updCore 0 fun c => { c with fetched := some (f c.pc) } }

end Sys2Proof.Machine
end

