-- ==== Sys2Proof/WellFormed.lean ====
section
/-!
DEFINITION. Well-formed instructions: those whose header and operands keep the limits that decode checks (R46, R47).
An event is well formed whatever its arguments.
-/

namespace Sys2Proof

/-- The instruction keeps the limits of R46 item 3. -/
def Instr.WellFormed (i : Instr) : Prop := operandsOk i = true

/-- A syllable, as opposed to an event of the package. -/
def Instr.IsSyllable (i : Instr) : Prop := (hdrOf i).isSome = true

end Sys2Proof
end

