-- ==== Sys2Proof/Safety.lean ====
section
/-!
DEFINITION. The terms that claims use: a syllable in issue, the state that a syllable or an event leaves, what an
agent reads, and the invariants of a state.
-/

namespace Sys2Proof.Machine

/-- Syllable header h is in issue in bundle b, and it executes: its guard holds and its edge is met (R54, R55). -/
def Issuing (s : State) (b : Bundle) (h : Hdr) : Prop :=
  s.bundle = some b ∧ selected (b.base.core b.core) h = true

/-- The core of a bundle as it stood when the bundle issued: what every syllable of it reads (R49). -/
def Bundle.issuer (b : Bundle) : Core := b.base.core b.core

/-- The state after an executed syllable that leaves the units d. -/
def State.after (s : State) (h : Hdr) (d : Dev) : State := { s with dev := d }.closeSyllable h true

/-- The state after an executed syllable that leaves the units d and the bundle b. -/
def State.afterWith (s : State) (h : Hdr) (d : Dev) (b : Bundle) : State :=
  { s with dev := d, bundle := some b }.closeSyllable h true

/-- The state after a syllable of bundle b one of whose accesses fails: its event is taken, with the error-history record
of a poisoned unit (R388), or the bundle waits for a slot that is still filling (R239). -/
def State.missed (s : State) (b : Bundle) (x : Miss) : State :=
  match x with
  | .event e => s.faultBundle b.base e
  | .poison pa e => s.faultBundle (b.base.history 2 ((b.base.ctxOfCore b.core).getD 0) pa s.time) e
  | .filling => s.stallBundle b.base 8

/-- The state after an event that leaves the units d: writes that every agent sees settle, and time passes. -/
def State.happened (s : State) (d : Dev) : State := ({ s with dev := d }.settle).tick

/-- No thermal stop holds the package (R512). -/
def State.Live (s : State) : Prop := s.dev.sys.hot = false

/-- The byte that an agent reads at a physical address (R124, R127). -/
def State.reads (s : State) (agent pa : Nat) : Byte := readByte s.mem s.dev agent pa

/-- Memory keeps its canonical form: addresses strictly rising, no entry equal to what an unlisted address reads. -/
def State.Canonical (s : State) : Prop := s.mem.wf = true

end Sys2Proof.Machine
end

