-- ==== Sys2Proof/Certificates/Slice0/Obligations.lean ====
section
/-!
DEFINITION. The statements about the model: each formalises what a rule of spec/ says that an instruction, an event or
the machine does.
-/

open Sys2Proof Sys2Proof.Machine

/-- For every state with an executing SRR syllable in issue: exec answers the next state in which the result (ADD, SUB,
AND, OR, XOR, ANDN, shifts by b mod 64, products, minima and maxima, read from the registers at issue) is in flight
to sd with latency 1, or 3 for MUL, MULH and MULHN, and nothing else of the units differs; for sd = s0 the landing
discards it. (R140) -/
def Obligations.ScalarTwoSourceResults : Prop :=
  ∀ (s : State) (b : Bundle) (h : Hdr) (o : SRR), Issuing s b h →
  let x := b.issuer.s o.a.toNat
  let y := b.issuer.s o.b.toNat
  ∀ i v lat, (i, v, lat) ∈ [(Instr.add h o, x + y, 1), (.sub h o, x - y, 1), (.and h o, x &&& y, 1), (.or h o, x ||| y, 1),
      (.xor h o, x ^^^ y, 1), (.andn h o, x &&& ~~~y, 1), (.shl h o, x <<< (y.toNat % 64), 1),
      (.shr h o, x >>> (y.toNat % 64), 1), (.sra h o, x.sshiftRight (y.toNat % 64), 1),
      (.rol h o, x.rotateLeft (y.toNat % 64), 1), (.mul h o, x * y, 3),
      (.mulh h o, BitVec.ofNat 64 (x.toNat * y.toNat / 2 ^ 64), 3),
      (.mulhn h o, BitVec.ofInt 64 (x.toInt * y.toInt / 2 ^ 64), 3), (.min h o, if x.toNat ≤ y.toNat then x else y, 1),
      (.max h o, if x.toNat ≤ y.toNat then y else x, 1), (.minn h o, if x.toInt ≤ y.toInt then x else y, 1),
      (.maxn h o, if x.toInt ≤ y.toInt then y else x, 1)] →
    exec i s = .next (s.after h (sendS s.dev b b.issuer o.d.toNat v lat))

/-- For every state with such a syllable in issue and executing: exec answers the next state in which the value of one
source, of a bit field, or of a source and the sign-extended immediate is in flight to sd; BINS reads sd as well;
LIMMH sends its 32 bits as the high half. Also: with the result of LIMMH as the last result in flight of the core,
whatever else is in flight: LIMML takes it back and sends the one value hi:lo with latency 1. (R141, R142, R143,
R149) -/
def Obligations.ScalarOneSourceAndImmediateResults : Prop :=
  (∀ (s : State) (b : Bundle) (h : Hdr), Issuing s b h →
  let c := b.issuer
  let done (d : BitVec 6) (v : Word) (lat : Nat) : Host.Outcome State Fault Refusal :=
    .next (s.after h (sendS s.dev b c d.toNat v lat))
  (∀ o : SR1, let x := c.s o.a.toNat
    exec (.clz h o) s = done o.d (clzW x) 1 ∧ exec (.ctz h o) s = done o.d (ctzW x) 1 ∧
    exec (.popc h o) s = done o.d (popcW x) 1 ∧ exec (.brev h o) s = done o.d (brevW x) 1 ∧
    exec (.bswap h o) s = done o.d (bswapW x) 1) ∧
  (∀ o : SBF, let x := c.s o.a.toNat
    let l := if o.len = 0 then 64 else o.len.toNat
    exec (.bext h o) s = done o.d (toW (fld x.toNat o.pos.toNat l)) 1 ∧
    exec (.bins h o) s = done o.d (binsW (c.s o.d.toNat) x o.pos.toNat l) 1) ∧
  (∀ o : SRI, let x := c.s o.a.toNat
    let y : Word := o.imm.signExtend 64
    exec (.addi h o) s = done o.d (x + y) 1 ∧ exec (.andi h o) s = done o.d (x &&& y) 1 ∧
    exec (.ori h o) s = done o.d (x ||| y) 1 ∧ exec (.xori h o) s = done o.d (x ^^^ y) 1 ∧
    exec (.shli h o) s = done o.d (x <<< (y.toNat % 64)) 1 ∧ exec (.shri h o) s = done o.d (x >>> (y.toNat % 64)) 1 ∧
    exec (.srai h o) s = done o.d (x.sshiftRight (y.toNat % 64)) 1 ∧ exec (.muli h o) s = done o.d (x * y) 3) ∧
  (∀ o : SLI, exec (.limmh h o) s = done o.d (toW (o.imm.toNat * 2 ^ 32)) 1)) ∧
  (∀ (s : State) (b : Bundle) (h : Hdr) (o : SLI) (p : List Pend) (hi : BitVec 32), Issuing s b h →
  let n := physSV b.issuer.lp o.d.toNat
  (s.dev.core b.core).pend = p ++ [b.pend (.s n (toW (hi.toNat * 2 ^ 32))) 1] →
  exec (.limml h o) s = .next (s.after h
    (sendS (s.dev.updCore b.core fun c => { c with pend := p }) b b.issuer o.d.toNat
      (toW (hi.toNat * 2 ^ 32 + o.imm.toNat)) 1)))

/-- For every state with such a syllable in issue and executing, exec answers the next state in which one value is in
flight to sd with latency 1: for CLZ the count of zero bits above the highest one of A (64 for 0), for CTZ of those
below the lowest, for POPC of the ones; bit i of BREV is bit 63-i of A and byte j of BSWAP byte 7-j; BEXT is the
field of L bits at pos, zero-extended; BINS is sd with that field replaced by the low bits of A. (R141, R142) -/
def Obligations.ScalarBitOperations : Prop :=
  ∀ (s : State) (b : Bundle) (h : Hdr), Issuing s b h →
  let sends (i : Instr) (d : BitVec 6) (v : Word) : Prop :=
    exec i s = .next (s.after h (sendS s.dev b b.issuer d.toNat v 1))
  (∀ o : SR1, let x := b.issuer.s o.a.toNat
    (∃ n : Nat, n ≤ 64 ∧ sends (.clz h o) o.d (BitVec.ofNat 64 n) ∧
      (∀ j, j < n → x.getLsbD (63 - j) = false) ∧ (n < 64 → x.getLsbD (63 - n) = true)) ∧
    (∃ n : Nat, n ≤ 64 ∧ sends (.ctz h o) o.d (BitVec.ofNat 64 n) ∧
      (∀ j, j < n → x.getLsbD j = false) ∧ (n < 64 → x.getLsbD n = true)) ∧
    sends (.popc h o) o.d (BitVec.ofNat 64 ((Finset.range 64).filter fun i => x.getLsbD i = true).card) ∧
    (∃ v, sends (.brev h o) o.d v ∧ ∀ i, i < 64 → v.getLsbD i = x.getLsbD (63 - i)) ∧
    (∃ v, sends (.bswap h o) o.d v ∧ ∀ j, j < 8 → v.extractLsb' (8 * j) 8 = x.extractLsb' (8 * (7 - j)) 8)) ∧
  (∀ o : SBF, let x := b.issuer.s o.a.toNat
    let y := b.issuer.s o.d.toNat
    let l := if o.len = 0 then 64 else o.len.toNat
    let p := o.pos.toNat
    p + l ≤ 64 →
    (∃ v, sends (.bext h o) o.d v ∧ ∀ i, v.getLsbD i = (decide (i < l) && x.getLsbD (p + i))) ∧
    (∃ v, sends (.bins h o) o.d v ∧
      ∀ i, i < 64 → v.getLsbD i = if p ≤ i ∧ i < p + l then x.getLsbD (i - p) else y.getLsbD i))

/-- For every state with such a syllable in issue and executing: exec answers the next state in which the relation
(unsigned, or two forms read as two's complement) of two scalars or of a scalar and the sign-extended immediate, or
the logic of two predicates, is in flight to pd with latency 1. A predicate result for p0, and one for p8 to p15
while a modulo loop is active, changes nothing when it lands. (R144, R145) -/
def Obligations.ComparesAndPredicateLogic : Prop :=
  (∀ (s : State) (b : Bundle) (h : Hdr), Issuing s b h →
  let c := b.issuer
  let done (pd : BitVec 4) (v : Bool) : Host.Outcome State Fault Refusal := .next (s.after h (sendP s.dev b pd.toNat v 1))
  (∀ o : SPR, let x := c.s o.a.toNat
    let y := c.s o.b.toNat
    exec (.ceq h o) s = done o.pd (x == y) ∧ exec (.cne h o) s = done o.pd (x != y) ∧
    exec (.clt h o) s = done o.pd (decide (x.toNat < y.toNat)) ∧ exec (.cle h o) s = done o.pd (decide (x.toNat ≤ y.toNat)) ∧
    exec (.cltn h o) s = done o.pd (decide (x.toInt < y.toInt)) ∧
    exec (.clen h o) s = done o.pd (decide (x.toInt ≤ y.toInt))) ∧
  (∀ o : SPI, let x := c.s o.a.toNat
    let y : Word := o.imm.signExtend 64
    exec (.ceqi h o) s = done o.pd (x == y) ∧ exec (.cnei h o) s = done o.pd (x != y) ∧
    exec (.clti h o) s = done o.pd (decide (x.toNat < y.toNat)) ∧
    exec (.clei h o) s = done o.pd (decide (x.toNat ≤ y.toNat)) ∧
    exec (.cltni h o) s = done o.pd (decide (x.toInt < y.toInt)) ∧
    exec (.cleni h o) s = done o.pd (decide (x.toInt ≤ y.toInt))) ∧
  (∀ o : SPP, let x := c.p o.pa.toNat
    let y := c.p o.pb.toNat
    exec (.pand h o) s = done o.pd (x && y) ∧ exec (.por h o) s = done o.pd (x || y) ∧
    exec (.pxor h o) s = done o.pd (xor x y) ∧ exec (.pandn h o) s = done o.pd (x && !y))) ∧
  (∀ (r : Regs) (md v : Bool) (n : Nat), r.land md (.p 0 v) = r ∧ (8 ≤ n → r.land true (.p n v) = r))

/-- For every state with such a syllable in issue and executing: SEL takes a or b by its predicate; MFX reads the
selected register, a loop level's index or count reading 0 where the level is inactive; MTX writes lr, clamped to
4096, or p1 to p15 from the bits of its source; MFB and MTB move a branch target register, MTB clearing bits [63:57]
and [2:0]. (R146, R148) -/
def Obligations.SelectsAndMoves : Prop :=
  ∀ (s : State) (b : Bundle) (h : Hdr), Issuing s b h →
  let c := b.issuer
  (∀ o : SSL, exec (.sel h o) s = .next (s.after h (sendS s.dev b c o.d.toNat
    (if c.p o.ps.toNat = true then c.s o.a.toNat else c.s o.b.toNat) 1))) ∧
  (∀ o : SXR, exec (.mfx h o) s = .next (s.after h (sendS s.dev b c o.d.toNat (c.selected b.core o.sel.toNat) 1))) ∧
  (∀ o : SXR, o.sel = 0 → exec (.mtx h o) s = .next (s.after h
    (sendIn s.dev b (.lr (BitVec.ofNat 16 (min ((c.s o.d.toNat).toNat % 8192) 4096))) 1))) ∧
  (∀ o : SXR, o.sel ≠ 0 → exec (.mtx h o) s = .next (s.after h ((List.range 15).foldl
    (fun d i => sendP d b (i + 1) ((c.s o.d.toNat).getLsbD (i + 1)) 1) s.dev))) ∧
  (∀ o : SXB, exec (.mfb h o) s = .next (s.after h (sendS s.dev b c o.d.toNat (c.b o.bt.toNat) 1))) ∧
  (∀ o : SXB, exec (.mtb h o) s = .next (s.after h (sendB s.dev b c o.bt.toNat (c.s o.d.toNat)))) ∧
  (∀ n sel, sel < 8 → c.selected n sel = [toW c.r.lr.toNat, toW c.r.tcx.toNat, toW c.r.tcy.toNat, toW c.r.tcz.toNat, c.r.tm,
    toW c.r.st.toNat, c.pall, toW n].getD sel 0) ∧
  (∀ n l, l < 6 → (c.lp.level l).active = false → c.selected n (16 + l) = 0 ∧ c.selected n (24 + l) = 0) ∧
  (∀ n l, l < 6 → (c.lp.level l).active = true →
    c.selected n (16 + l) = toW ((c.lp.level l).index.toNat % 2 ^ 32) ∧
    c.selected n (24 + l) = toW ((c.lp.level l).count.toNat % 2 ^ 32)) ∧
  (∀ v : Word, bundleAddr v = v &&& 0x01FFFFFFFFFFFFF8)

/-- For a core whose only result in flight is a scalar result of latency lat issued in cycle k: at every cycle before k
+ lat its registers are unchanged; from cycle k + lat on, register n reads the value, s0 reads 0, and every other
scalar register is unchanged. Also: for every register file, every result and either state of a modulo loop: after
the result has landed, s0 reads 0 and p0 reads 1; and a write of p8 to p15 while a modulo loop is active changes
nothing. (R49, R60, R145) -/
def Obligations.ResultsLandWhenDue : Prop :=
  (∀ (c : Core) (b : Bundle) (n lat t : Nat) (v : Word),
  c.pend = [b.pend (.s n v) lat] →
  (t < b.cycle + lat → c.landBy t = c) ∧
  (b.cycle + lat ≤ t → (c.landBy t).pend = [] ∧ ∀ k, (c.landBy t).r.sAt k = if k = n ∧ n ≠ 0 then v else c.r.sAt k)) ∧
  (∀ (r : Regs) (md : Bool) (x : Result),
  (r.land md x).sAt 0 = 0 ∧ (r.land md x).pAt 0 = true ∧
  (∀ n v, 8 ≤ n → r.land true (.p n v) = r) ∧ (∀ v, r.land md (.s 0 v) = r) ∧ (∀ v, r.land md (.p 0 v) = r))

/-- For every state with such a syllable in issue and executing: NOP leaves the units as they are; PBT sends the
bundle's address plus eight times its displacement to its branch target register; with no loop level active, BRT,
CALL and RET make the bundle branch to the register's address with its preparation penalty, CALL also sending the
address of the next bundle to its link register; with a level active each raises LOOP_BRANCH, naming the innermost
one. A completed bundle that branches goes on at the branch address. (R150, R151, R152, R153, R154, R155, R159) -/
def Obligations.BranchesAndNop : Prop :=
  ∀ (s : State) (b : Bundle) (h : Hdr), Issuing s b h →
  let c := b.issuer
  let goes (d : Dev) (n : Nat) : Host.Outcome State Fault Refusal :=
    .next (s.afterWith h d { b with ctl := .branch (c.b n) (c.penalty n) })
  let traps (i : Instr) (l : Nat) : Host.Outcome State Fault Refusal :=
    .next (s.faultBundle b.base (mkFault 0x0A (sylWord i) (toW l)))
  exec (.nop h) s = .next (s.after h s.dev) ∧
  (∀ o : CT, exec (.pbt h o) s = .next (s.after h
    (sendB s.dev b c o.bt.toNat (b.addr + (o.disp.signExtend 64 <<< (3 : Nat)))))) ∧
  (c.lp.innermost = none →
    (∀ o : CB, exec (.brt h o) s = goes s.dev o.bt.toNat ∧ exec (.ret h o) s = goes s.dev o.bt.toNat) ∧
    (∀ o : CC, exec (.call h o) s = goes (sendB s.dev b c o.bl.toNat b.next) o.bt.toNat)) ∧
  (∀ l, c.lp.innermost = some l →
    (∀ o : CB, exec (.brt h o) s = traps (.brt h o) l ∧ exec (.ret h o) s = traps (.ret h o) l) ∧
    (∀ o : CC, exec (.call h o) s = traps (.call h o) l)) ∧
  (∀ (x : Core) (a : Word) (p : Nat) code, (x.flow { b with ctl := .branch a p } code).pc = a ∧
    b.cycle + 1 + p ≤ (x.flow { b with ctl := .branch a p } code).ready)

/-- For every state with such a syllable in issue and executing: TRAP gives the bundle a stop of cause 0x10 with its
immediate; HALT ends the phase and gives a stop of cause 0x11, or on a privileged general core puts the core to
sleep; EXIT leaves the region of a task, and raises TASK_STATE where none runs or on a general core; DETACH
detaches an attached core, changes nothing on another tensor core, and raises JOIN_MISMATCH reason 7 on a general
core. (R157, R158, R159, R208) -/
def Obligations.StopsAndEnds : Prop :=
  ∀ (s : State) (b : Bundle) (h : Hdr), Issuing s b h →
  let c := b.issuer
  (∀ o : CI, exec (.trap h o) s = .next (s.afterWith h s.dev (b.withStop (mkStop 0x10 (toW o.imm.toNat) 0)))) ∧
  ((isGeneral b.core && c.seq.priv) = true →
    exec (.halt h) s = .next (s.afterWith h s.dev { b with phaseEnd := true, ctl := .sleep })) ∧
  ((isGeneral b.core && c.seq.priv) = false →
    exec (.halt h) s = .next (s.afterWith h s.dev ({ b with phaseEnd := true }.withStop (mkStop 0x11 0 0)))) ∧
  (isGeneral b.core = false → c.seq.region ≠ .none →
    exec (.exit h) s = .next (s.afterWith h s.dev { b with ctl := .exit })) ∧
  ((isGeneral b.core = true ∨ c.seq.region = .none) →
    exec (.exit h) s = .next (s.faultBundle b.base (mkFault 0x0B 0 0))) ∧
  (isGeneral b.core = false → exec (.detach h) s = .next (s.afterWith h s.dev
    (if c.attached = true then { b with ctl := .detach } else b))) ∧
  (isGeneral b.core = true →
    exec (.detach h) s = .next (s.faultBundle b.base (mkFault 0x20 b.addr (toW (7 * 2 ^ 32)))))

/-- For every state with such a syllable in issue and executing: LOOP with a source other than 3, and MLOOP with such a
source or with source 3 where a task loop may stand (R173) and its iterations fit 32 bits, make the bundle open
their level with its trip count and, for MLOOP, its modulo loop; a body that does not nest raises LOOP_NEST, LOOP
source 3 and any other MLOOP source 3 LOOP_STATE, but where the task loop's body itself cannot be fetched the fetch's
own fault is raised (the model's choice, log 92). A completed bundle that opens a level with a non-zero trip count
makes it active at index 0, its body beginning at the next bundle, N + S - 1 iterations for a modulo loop; one with a
trip count of zero passes over the body. LSTRI and LSTRR set a walk stride of a level. LBRK and LNEXT of an active
level that is not the task loop's leave or go on with it, after LBRK no level from it upwards being active; of any
other level they raise LOOP_STATE. (R160, R161, R165, R166, R167, R168, R169, R173) -/
def Obligations.LoopSyllables : Prop :=
  ∀ (s : State) (b : Bundle) (h : Hdr), Issuing s b h →
  let c := b.issuer
  let nestFault (i : Instr) (lv : Nat) := Host.Outcome.next (s.faultBundle b.base (mkFault 0x08 (sylWord i) (toW lv)))
  let stateFault (i : Instr) (lv : Nat) := Host.Outcome.next (s.faultBundle b.base (mkFault 0x09 (sylWord i) (toW lv)))
  (∀ o : CL, let lv := o.lv.toNat
    let len := o.len.toNat + 1
    (o.src ≠ 3 → c.nestBad lv len = false → exec (.loop h o) s = .next (s.afterWith h s.dev (b.withLoop lv
      (c.loopCount o.src o.cnt.toNat (o.cnt.toNat / 2 ^ 14) o.mq) len none 0 (sylWord (.loop h o))))) ∧
    (o.src ≠ 3 → c.nestBad lv len = true → exec (.loop h o) s = nestFault (.loop h o) lv) ∧
    (o.src = 3 → exec (.loop h o) s = stateFault (.loop h o) lv)) ∧
  (∀ o : CM, let lv := o.lv.toNat
    let len := o.len.toNat + 1
    let n := c.loopCount o.src 0 o.a.toNat o.mq
    let fault := taskLoopFault s.mem s.dev b c len
    let stands := fault = none ∧ taskLoopOk s.mem s.dev b c len = true ∧ (n = 0 ∨ n + o.sc.toNat < 2 ^ 32)
    (o.src ≠ 3 ∨ stands → c.nestBad lv len = false → exec (.mloop h o) s = .next (s.afterWith h s.dev (b.withLoop lv n
      len (some { level := lv, n := n, stages := o.sc.toNat + 1, ii := max o.ii.toNat len, task := decide (o.src = 3) })
      (o.dp.toNat + 1) (sylWord (.mloop h o))))) ∧
    (o.src ≠ 3 ∨ stands → c.nestBad lv len = true → exec (.mloop h o) s = nestFault (.mloop h o) lv) ∧
    (o.src = 3 → fault = none → ¬stands → exec (.mloop h o) s = stateFault (.mloop h o) lv) ∧
    (∀ e, o.src = 3 → fault = some e → exec (.mloop h o) s = .next (s.faultBundle b.base e))) ∧
  (∀ (x : Core) lv trips len mo dp w code, trips ≠ 0 →
    let t := (x.flow (b.withLoop lv trips len mo dp w) code).lp.level lv
    t.active = true ∧ t.index = 0 ∧ t.body = b.next ∧ t.len = len ∧
    (mo = none → t.count = BitVec.ofNat 33 trips) ∧
    (∀ q, mo = some q → t.count = BitVec.ofNat 33 (q.n + q.stages - 1))) ∧
  (∀ (x : Core) lv len dp w code, x.flow (b.withLoop lv 0 len none dp w) code = (x.toNext b.next).skipping len) ∧
  (∀ o : CS, exec (.lstri h o) s = .next (s.after h (setStride s.dev b.core o.lv.toNat o.w.toNat o.stride))) ∧
  (∀ o : CW, exec (.lstrr h o) s = .next (s.after h
    (setStride s.dev b.core o.lv.toNat o.w.toNat ((c.s o.a.toNat).setWidth 32)))) ∧
  (∀ o : CV, let lv := o.lv.toNat
    let isTask := ∃ q, c.lp.mloop = some q ∧ q.level = lv ∧ q.task = true
    ((c.lp.level lv).active = true → ¬isTask →
      exec (.lbrk h o) s = .next (s.afterWith h s.dev { b with ctl := .lbrk lv }) ∧
      exec (.lnext h o) s = .next (s.afterWith h s.dev { b with ctl := .lnext lv })) ∧
    ((c.lp.level lv).active = false ∨ isTask →
      exec (.lbrk h o) s = stateFault (.lbrk h o) lv ∧ exec (.lnext h o) s = stateFault (.lnext h o) lv)) ∧
  (∀ (x : Core) lv k code, lv ≤ k → k < 6 →
    ((x.flow { b with ctl := .lbrk lv } code).lp.level k).active = false)

/-- For every state with such a syllable in issue and executing: JOIN of an attached member outside loops with a
non-zero count ends the phase; JOIN of a detached member there, whose point has not passed and has or may get an
entry, stalls without issuing, waiting at its point; a JOIN with a reason against it raises JOIN_MISMATCH. FUSE of the
steering core of an unfused front end, whose partner serves a launch group and whose steering core waits at a FUSE of
the same address, fuses the pair; where it does not wait there yet, the FUSE waits; another attached member's FUSE
waits for the steering core's, and goes on past one already acted. UNFUSE of the steering core of a fused pair unfuses
it; on another member UNFUSE changes nothing. FUSE in the fused state, UNFUSE in the unfused state, either on a
detached core, on a core that is no member and on a general core, and FUSE whose partner serves no launch group raise
FUSE_STATE. (R206, R209, R211, R212) -/
def Obligations.JoinAndFusion : Prop :=
  ∀ (s : State) (b : Bundle) (h : Hdr), Issuing s b h →
  let c := b.issuer
  let d := b.base
  let own := clusterOf b.core
  let fe := (d.cluster own).fe
  (∀ o : CJ, isGeneral b.core = false → c.isMember = true → c.attached = true → c.lp.innermost = none →
    ((c.s o.a.toNat).toNat + o.imm.toNat) % 65536 ≠ 0 →
    exec (.join h o) s = .next (s.afterWith h s.dev { b with phaseEnd := true })) ∧
  (∀ o : CJ, let cnt := ((c.s o.a.toNat).toNat + o.imm.toNat) % 65536
    let g := feOf d own
    let joins := (d.cluster g).fe.joins
    let away := (cnt + 65535 - joinCount (d.cluster g).fe b.addr % 65535) % 65535
    isGeneral b.core = false → c.isMember = true → c.attached = false → c.lp.innermost = none → cnt ≠ 0 →
    (joins.any (fun x => x.1 = b.addr) = true ∨ joins.length < 8) → 0 < away → away < 32768 → attachedOf d g ≠ [] →
    exec (.join h o) s = .next
      (s.stallBundle (d.updCore b.core fun c => { c with joinWait := some (b.addr, cnt) }) 4)) ∧
  (∀ (o : CJ) (r : Nat), let cnt := ((c.s o.a.toNat).toNat + o.imm.toNat) % 65536
    joinReason d b c b.addr cnt = some r → exec (.join h o) s = .next (s.faultBundle d
      (joinMismatch b.addr r (joinCount (d.cluster (feOf d own)).fe b.addr) cnt))) ∧
  (∀ cnt, (isGeneral b.core = true ∨ c.isMember = false ∨ c.lp.innermost ≠ none ∨ cnt = 0 →
    joinReason d b c b.addr cnt ≠ none)) ∧
  (isGeneral b.core = false → c.isMember = true → c.attached = true → fe.acted fe.fuseSeq c.cons = true →
    exec (.fuse h) s = .next (s.after h s.dev)) ∧
  (isGeneral b.core = false → c.isMember = true → c.attached = true → fe.acted fe.fuseSeq c.cons = false →
    (fe.fused = true → exec (.fuse h) s = .next (s.faultBundle d (fuseState (sylWord (.fuse h)) 1))) ∧
    (fe.fused = false → steering d own ≠ some b.core → exec (.fuse h) s = .next (s.stallBundle d 4)) ∧
    (fe.fused = false → steering d own = some b.core →
      let partner := if own % 2 = 0 then own + 1 else own - 1
      ((d.cluster partner).fe.serving = false →
        exec (.fuse h) s = .next (s.faultBundle d (fuseState (sylWord (.fuse h)) 4))) ∧
      ((d.cluster partner).fe.serving = true →
        (∀ p, steering d partner = some p → (d.core p).fuseWait ≠ some b.addr) →
        exec (.fuse h) s = .next
          (s.stallBundle (d.updCore b.core fun c => { c with fuseWait := some b.addr }) 4)))) ∧
  (isGeneral b.core = false → c.isMember = false ∨ c.attached = false →
    exec (.fuse h) s = .next (s.faultBundle d (fuseState (sylWord (.fuse h)) 3)) ∧
    exec (.unfuse h) s = .next (s.faultBundle d (fuseState (sylWord (.unfuse h)) 3))) ∧
  (isGeneral b.core = false → c.isMember = true → c.attached = true → fe.fused = false →
    fe.acted fe.unfuseSeq c.cons = false →
    exec (.unfuse h) s = .next (s.faultBundle d (fuseState (sylWord (.unfuse h)) 2))) ∧
  (∀ p : Nat, isGeneral b.core = false → c.isMember = true → c.attached = true → fe.acted fe.fuseSeq c.cons = false →
    fe.fused = false → steering d own = some b.core →
    let partner := if own % 2 = 0 then own + 1 else own - 1
    (d.cluster partner).fe.serving = true → steering d partner = some p → (d.core p).fuseWait = some b.addr →
    exec (.fuse h) s = .next (s.after h (s.dev.fuse (own - own % 2)
      (if own % 2 = 0 then c.cons else (d.core p).cons) (if own % 2 = 0 then (d.core p).cons else c.cons)))) ∧
  (isGeneral b.core = false → c.isMember = true → c.attached = true → fe.fused = true →
    steering d (feOf d own) ≠ some b.core → exec (.unfuse h) s = .next (s.after h s.dev)) ∧
  (isGeneral b.core = false → c.isMember = true → c.attached = true → fe.fused = true →
    fe.earlier.contains c.cons = false → steering d (feOf d own) = some b.core →
    ∃ t, exec (.unfuse h) s = .next (s.after h t) ∧ (t.cluster (own - own % 2)).fe.unfuseSeq = some c.cons ∧
      (t.cluster (own - own % 2 + 1)).fe.unfuseSeq = some c.cons ∧ t.cores = s.dev.cores) ∧
  (isGeneral b.core = true →
    exec (.fuse h) s = .next (s.faultBundle b.base (fuseState (sylWord (.fuse h)) 5)) ∧
    exec (.unfuse h) s = .next (s.faultBundle b.base (fuseState (sylWord (.unfuse h)) 5)))

/-- For every state with such a syllable in issue and executing: exec answers the next state in which the group of
element results (of elements of a and of the second source, a group under its modifier or a broadcast scalar) is in
flight to the group at vd with its latency; the bits above the last element are not written. (R291, R292, R293,
R294) -/
def Obligations.VectorIntegerResults : Prop :=
  ∀ (s : State) (b : Bundle) (h : Hdr), Issuing s b h →
  let c := b.issuer
  let done (d : BitVec 6) (w lat : Nat) (vals : List Nat) : Host.Outcome State Fault Refusal :=
    .next (s.after h (sendV s.dev b c d.toNat (packGroup w vals) lat))
  (∀ (o : VR) (ew : BitVec 2), let w := widthOf ew
    let n := elemCount o.nq
    let xs := c.elems o.a.toNat n w
    let ys := c.second o.bs o.b o.mdf n w
    (∀ i f lat, (i, f, lat) ∈ [(Instr.vadd h ew o, fun x y => (x + y) % 2 ^ w, 2), (.vsub h ew o, eSub w, 2),
        (.vmul h ew o, fun x y => x * y % 2 ^ w, 3), (.vmulh h ew o, fun x y => x * y / 2 ^ w, 3), (.vmin h ew o, min, 2),
        (.vmax h ew o, max, 2), (.vminn h ew o, eMinn w, 2), (.vmaxn h ew o, eMaxn w, 2),
        (.vshl h ew o, fun x y => x * 2 ^ (y % w) % 2 ^ w, 2), (.vshr h ew o, fun x y => x / 2 ^ (y % w), 2),
        (.vsra h ew o, eSra w, 2), (.vadds h ew o, eAdds w, 2), (.vsubs h ew o, eSubs w, 2)] →
      exec i s = done o.d w lat (List.zipWith f xs ys)) ∧
    exec (.vpopc h ew o) s = done o.d w 3 (xs.map (ePopc w)) ∧ exec (.vclz h ew o) s = done o.d w 3 (xs.map (eClz w)) ∧
    exec (.vabs h ew o) s = done o.d w 2 (xs.map (eAbs w))) ∧
  (∀ o : VR, let n := elemCount o.nq
    let xs (w : Nat) := c.elems o.a.toNat n w
    let ys (w : Nat) := c.second o.bs o.b o.mdf n w
    exec (.vand h o) s = done o.d 32 2 (List.zipWith (· &&& ·) (xs 32) (ys 32)) ∧
    exec (.vor h o) s = done o.d 32 2 (List.zipWith (· ||| ·) (xs 32) (ys 32)) ∧
    exec (.vxor h o) s = done o.d 32 2 (List.zipWith (· ^^^ ·) (xs 32) (ys 32)) ∧
    exec (.vandn h o) s = done o.d 32 2 (List.zipWith (fun x y => x &&& (2 ^ 32 - 1 - y)) (xs 32) (ys 32)) ∧
    exec (.vmov h o) s = done o.d 32 2 (List.zipWith (fun _ y => y) (xs 32) (ys 32)) ∧
    exec (.vclmull h o) s = done o.d 64 3 (List.zipWith (fun x y => clmul x y % 2 ^ 64) (xs 64) (ys 64)) ∧
    exec (.vclmulh h o) s = done o.d 64 3 (List.zipWith (fun x y => clmul x y / 2 ^ 64) (xs 64) (ys 64)) ∧
    exec (.vperm h o) s = done o.d 32 2 ((ys 32).map fun i => if i < n then nth (xs 32) i 0 else 0)) ∧
  (∀ (o : VI) (ew : BitVec 2), let w := widthOf ew
    let xs := c.elems o.a.toNat (elemCount o.nq) w
    exec (.vaddi h ew o) s = done o.d w 2 (xs.map fun (x : Nat) => wrapInt w (x + signedOf 20 o.imm.toNat)) ∧
    exec (.vshli h ew o) s = done o.d w 2 (xs.map fun x => x * 2 ^ (o.imm.toNat % w) % 2 ^ w) ∧
    exec (.vshri h ew o) s = done o.d w 2 (xs.map fun x => x / 2 ^ (o.imm.toNat % w)) ∧
    exec (.vmovi h ew o) s = done o.d w 2 (xs.map fun _ => wrapInt w (signedOf 20 o.imm.toNat)))

/-- For every state with such a syllable in issue and executing: VSEL takes each byte from a where its mask bit is 1 and
from the second source elsewhere; MAND, MOR, MXOR and MNOT are bitwise on masks; VCMP writes to a mask the bytes of
the elements for which its condition holds; VEXTS reads and VINSS writes the element that sb numbers, VEXTS giving 0
and VINSS writing nothing where the group has no such element; VSEED sets the generator. (R295, R296, R297, R298,
R308, R309) -/
def Obligations.MasksSelectionAndSeed : Prop :=
  ∀ (s : State) (b : Bundle) (h : Hdr), Issuing s b h →
  let c := b.issuer
  (∀ o : VM, let n := elemCount o.nq
    let sel := maskBits (c.m o.ms.toNat)
    exec (.vsel h o) s = .next (s.after h (sendV s.dev b c o.d.toNat
      ((List.zipWith (fun x y => (x &&& sel) ||| (y &&& ~~~sel)) (c.group o.a.toNat (groupSize n 32))
        ((packGroup 32 (c.second o.bs o.b 0 n 32)).map (·.1))).zip ((packGroup 32 (List.replicate n 0)).map (·.2))) 2))) ∧
  (∀ o : VMM, let x := c.m o.ma.toNat
    let y := c.m o.mb.toNat
    exec (.mand h o) s = .next (s.after h (sendM s.dev b o.md.toNat (x &&& y) 2)) ∧
    exec (.mor h o) s = .next (s.after h (sendM s.dev b o.md.toNat (x ||| y) 2)) ∧
    exec (.mxor h o) s = .next (s.after h (sendM s.dev b o.md.toNat (x ^^^ y) 2)) ∧
    exec (.mnot h o) s = .next (s.after h (sendM s.dev b o.md.toNat (~~~x) 2))) ∧
  (∀ o : VP, let w := tyWidth o.ty
    let n := elemCount o.nq
    exec (.vcmp h o) s = .next (s.after h (sendM s.dev b o.md.toNat (BitVec.ofNat 256 (packNat (w / 8)
      (List.zipWith (fun x y => if condHolds o.ty o.cnd.toNat x y = true then 2 ^ (w / 8) - 1 else 0)
        (c.elems o.a.toNat n w) (c.second o.bs o.b 0 n w)))) 4))) ∧
  (∀ o : VS, let w := tyWidth o.ty
    let j := (c.s o.b.toNat).toNat % 2 ^ 32
    (j < elemCount o.nq → o.a.toNat + j * w / 2048 ≤ 63 → exec (.vexts h o) s = .next (s.after h
      (sendS s.dev b c o.d.toNat (toW (fld (c.v (o.a.toNat + j * w / 2048)).toNat (j * w % 2048) w)) 6))) ∧
    (elemCount o.nq ≤ j → exec (.vexts h o) s = .next (s.after h (sendS s.dev b c o.d.toNat 0 6))) ∧
    (j < elemCount o.nq → o.d.toNat + j * w / 2048 ≤ 63 → exec (.vinss h o) s = .next (s.after h
      (sendV s.dev b c (o.d.toNat + j * w / 2048)
        [(BitVec.ofNat 2048 ((c.s o.a.toNat).toNat % 2 ^ w * 2 ^ (j * w % 2048)),
          BitVec.ofNat 2048 ((2 ^ w - 1) * 2 ^ (j * w % 2048)))] 2))) ∧
    (elemCount o.nq ≤ j → exec (.vinss h o) s = .next (s.after h s.dev))) ∧
  (∀ o : VX, exec (.vseed h o) s = .next (s.after h (s.dev.updCore b.core fun x =>
    { x with r := { x.r with gen := seedOf (c.s o.a.toNat) } })))

/-- For every state with such a syllable in issue and executing: exec answers the next state in which each element is
the encoding, under RM, of the exact sum, difference, product, fused product, minimum, maximum, absolute value or
negation of the decoded elements, or of the model's 16-bit approximation for VEXP2, VLOG2, VRCP, VRSQ and VTANH (log
entry 9), in flight with latency 4 or 6. (R299, R300, 10_vector_unit.md) -/
def Obligations.VectorFloatResults : Prop :=
  ∀ (s : State) (b : Bundle) (h : Hdr) (o : VF), Issuing s b h →
  let c := b.issuer
  let f := vfFmt o.ty
  let n := elemCount o.nq
  let x := drawIn s.dev b.core o.rm
  let el (d : BitVec 6) (i : Nat) : FVal := f.decode (nth (c.elems d.toNat n f.c) i 0)
  let y (i : Nat) : FVal := f.decode (nth (c.second o.bs o.b 0 n f.c) i 0)
  ∀ i lat (op : FVal → FVal → FVal → FVal), (i, lat, op) ∈ [(Instr.vfadd h o, 4, fun a b _ => a.add b),
      (.vfsub h o, 4, fun a b _ => a.add b.neg), (.vfmul h o, 4, fun a b _ => a.mul b),
      (.vfma h o, 4, fun a b d => (a.mul b).add d), (.vfms h o, 4, fun a b d => (a.mul b).add d.neg),
      (.vfnma h o, 4, fun a b d => (a.mul b).neg.add d), (.vfmin h o, 4, fun a b _ => fMin a b),
      (.vfmax h o, 4, fun a b _ => fMax a b), (.vfabs h o, 4, fun a _ _ => a.abs), (.vfneg h o, 4, fun a _ _ => a.neg),
      (.vexp2 h o, 6, fun a _ _ => round16 (exp2Val a)), (.vlog2 h o, 6, fun a _ _ => round16 (log2Val a)),
      (.vrcp h o, 6, fun a _ _ => round16 (rcpVal a)), (.vrsq h o, 6, fun a _ _ => round16 (rsqVal a)),
      (.vtanh h o, 6, fun a _ _ => round16 (tanhVal a))] →
    exec i s = .next (s.after h (sendV x.1 b c o.d.toNat (packGroup f.c ((List.range n).map fun k =>
      f.encode (roundingOf o.rm o.sat x.2 k) (op (el o.a k) (y k) (el o.d k)))) lat))

/-- For every state with such a syllable in issue and executing: VCVTF and VCVTIF with a valid descriptor of an allowed
kind answer the next state in which each element is the FP32 encoding, under RM and SAT, of the descriptor's element of
a, VCVTN and VCVTI the one in which it is the descriptor's encoding of the FP32 element of a, in flight to vd with
latency 4; each raises FORMAT_UNSET or FORMAT_KIND otherwise. VRSUM and VPSUM send one rounding of the exact sums of their segments, VRMAX and VRMIN the extreme
element, VARGMAX its position and VTOPK the positions of the k first in rank, all ones beyond k. (R50, R289, R302,
R303, R305, R306, R307, R310) -/
def Obligations.ConversionsAndReductions : Prop :=
  ∀ (s : State) (b : Bundle) (h : Hdr), Issuing s b h →
  let c := b.issuer
  (∀ o : VC, let w := formatReg s.dev b.core o.fmt.toNat
    ∀ i int out, (i, int, out) ∈ [(Instr.vcvtf h o, false, false), (.vcvtn h o, false, true), (.vcvti h o, true, true),
      (.vcvtif h o, true, false)] →
    (∀ f, descFmt w = some f → kindAllowed int w = true →
      let src := if out = true then fmtFp32 else f
      let dst := if out = true then f else fmtFp32
      let n := elemCount o.nq
      let x := drawIn s.dev b.core o.rm
      exec i s = .next (s.after h (sendV x.1 b c o.d.toNat (packGroup dst.c ((List.range n).map fun k =>
        dst.encode (roundingOf o.rm o.sat x.2 k) (src.decode (nth (c.elems o.a.toNat n src.c) k 0)))) 4))) ∧
    (descFmt w = none → exec i s = .next (s.faultBundle b.base (mkFault 0x50 (sylWord i) (toW o.fmt.toNat)))) ∧
    ((descFmt w).isSome = true → kindAllowed int w = false → exec i s = .next (s.faultBundle b.base
      (mkFault 0x51 (sylWord i) (toW (descKind w * 256 + o.fmt.toNat)))))) ∧
  (∀ o : VS, let w := tyWidth o.ty
    let x := drawIn s.dev b.core o.rm
    let segs := vsSource c o
    let sums (ts : List (List Nat)) : List Nat :=
      (List.range ts.length).map fun i => sumElems o.ty (roundingOf o.rm 0 x.2 i) (nth ts i [])
    exec (.vrsum h o) s = .next (s.after h
      (sendV x.1 b c o.d.toNat (packGroup w (sums (segs.flatMap fun l => [l]))) 6)) ∧
    exec (.vpsum h o) s = .next (s.after h (sendV x.1 b c o.d.toNat (packGroup w
      (sums (segs.flatMap fun l => (List.range l.length).map fun r => l.take (r + 1)))) 8)) ∧
    exec (.vrmax h o) s = .next (s.after h
      (sendV s.dev b c o.d.toNat (packGroup w (segs.map (pickElem o.ty fMax))) 6)) ∧
    exec (.vrmin h o) s = .next (s.after h
      (sendV s.dev b c o.d.toNat (packGroup w (segs.map (pickElem o.ty fMin))) 6)) ∧
    exec (.vargmax h o) s = .next (s.after h
      (sendV s.dev b c o.d.toNat (packGroup 32 (segs.map fun l => (ranked o.ty l).headD 0)) 8)) ∧
    exec (.vtopk h o) s = .next (s.after h (sendV s.dev b c o.d.toNat (packGroup 32 (segs.flatMap fun l =>
      (List.range l.length).map fun r =>
        if r < (c.s o.b.toNat).toNat then nth (ranked o.ty l) r 0 else 0xFFFFFFFF)) 8)))

/-- For element widths 8, 16, 32 and 64 and every list of elements of that width: the registers that packGroup makes of
the list read back, element by element, as the list. Also: for every list of elements of 8, 16, 32 or 64 bits whose
number a group can have: the mask and the packed elements of its image, expanded as LDZ does, give the elements; the
image has the size that its header tells. (R56, R57, R245, R246, R247) -/
def Obligations.ElementsPackAndUnpack : Prop :=
  (∀ (w : Nat) (vals : List Nat), w ∈ [8, 16, 32, 64] → (∀ v ∈ vals, v < 2 ^ w) →
  elemsOf ((packGroup w vals).map (·.1)) vals.length w = vals) ∧
  (∀ (vals : List Nat) (code : Nat), code < 3 → vals.length ≤ 2048 → (∀ v ∈ vals, v < 2 ^ imageWidth code) →
  let w := imageWidth code
  let n := vals.length
  let img := imageBytes vals w code
  expand (ofBytes ((img.drop 64).take (maskBytes n))) w n 0 (img.drop (64 + maskBytes n)) = vals ∧
  img.length = headerSize (ofBytes (img.take 8)))

/-- For every state with such a syllable in issue and executing: an aligned access whose bytes lie in this package, none
of them accessed by a W syllable that is still busy, answers the next state in which the bytes that the core reads
there, zero- or sign-extended, are in flight to sd, with latency 8 in the aperture and interlocked elsewhere; for a
page of another package the request is sent; bytes of a busy W syllable, and bytes that an earlier request of the core
to its own package is still to reach, are waited for. A misaligned address raises
MISALIGNED, a non-canonical one ADDRESS_NONCANONICAL, one that cannot be accessed leaves what its translation, quota or
error gives. (R107, R227, R224, R229, R319, R50, R127) -/
def Obligations.ScalarLoads : Prop :=
  ∀ (s : State) (b : Bundle) (h : Hdr) (o : LM), Issuing s b h →
  let c := b.issuer
  let ea := c.s o.a.toNat + o.disp.signExtend 64
  ∀ i w signed, (i, w, signed) ∈ [(Instr.lds8 h o, 1, false), (.lds16 h o, 2, false), (.lds32 h o, 4, false),
      (.lds64 h o, 8, false), (.ldn8 h o, 1, true), (.ldn16 h o, 2, true), (.ldn32 h o, 4, true)] →
    let p : Piece := { ea := ea, len := w, elem := 0 }
    let at' := locate s.mem s.dev b.core .read true ((c.scalarAccess o w).covers p) p
    let d := s.dev.updCore b.core fun x => x.count 0x0F 1
    let bundle := b.watched [(ea, w)] false
    (ea.toNat % w ≠ 0 → exec i s = .next (s.faultBundle b.base (mkFault 0x36 ea 0))) ∧
    (ea.toNat % w = 0 → straddles ea w = true →
      exec i s = .next (s.faultBundle b.base (noncanonical ea 0 .read))) ∧
    (ea.toNat % w = 0 → straddles ea w = false →
      (∀ pa, at' = .ok (.here pa) → c.rowBusyAt b.cycle pa w = false → b.base.awayOn b.core [(p, .here pa)] = false →
        let x := ofBytes ((List.range w).map fun k => s.reads b.core (pa + k))
        let v := if signed = true then sextN (8 * w) x else toW x
        (wfld ea 57 7 = 0 ∧ inAperture ea.toNat = true →
          exec i s = .next (s.afterWith h (sendS d b c o.d.toNat v 8) bundle)) ∧
        (¬(wfld ea 57 7 = 0 ∧ inAperture ea.toNat = true) → exec i s = .next (s.afterWith h
          (sendLate d b (.s (physSV c.lp o.d.toNat) v) true 0) bundle))) ∧
      (∀ pa, at' = .ok (.here pa) → c.rowBusyAt b.cycle pa w = true → exec i s = .next (s.stallBundle b.base 9)) ∧
      (∀ pa, at' = .ok (.here pa) → c.rowBusyAt b.cycle pa w = false → b.base.awayOn b.core [(p, .here pa)] = true →
        exec i s = .next (s.stallBundle b.base 11)) ∧
      (∀ pkg pa, at' = .ok (.away pkg pa) → exec i s = .next (s.afterWith h
        (d.loadRemote b (.s (physSV c.lp o.d.toNat) 0) pkg pa w ea 0 signed s.time) bundle)) ∧
      (∀ x, at' = .error x → exec i s = .next (s.missed b x)))

/-- For every state with such a syllable in issue and executing, whose elements are aligned, none of them accessed by a W
syllable that is still busy: with every element in this package exec answers the next state in which the group of the
elements that the core reads is in flight to the group at vd, with latency 8 where every element lies in the aperture,
interlocked elsewhere; with elements of other packages a next state that keeps every register of every core. A
misaligned element raises MISALIGNED, one that cannot be accessed leaves what its translation, quota or error gives,
and bytes of a busy W syllable, and bytes that an earlier request of the core to its own package is still to reach, are
waited for. (R228, R229, R319, R50, R127) -/
def Obligations.VectorLoads : Prop :=
  ∀ (s : State) (b : Bundle) (h : Hdr), Issuing s b h →
  let c := b.issuer
  ∀ i (vd : BitVec 6) (a : Accesses) w, ((∃ o : LM, i = .ldv h o ∧ vd = o.d ∧ a = c.vectorAccess o ∧ w = 4) ∨
      (∃ o : LS, i = .ldvs h o ∧ vd = o.d ∧ a = c.strideAccess o ∧ w = 4) ∨
      (∃ o : LX, i = .ldvx h o ∧ vd = o.d ∧ a = c.indexAccess o ∧ w = 2 ^ o.isz.toNat)) →
    let found := a.locate s.mem s.dev b.core .read true
    (∀ e, a.misaligned = some e → exec i s = .next (s.faultBundle b.base e)) ∧
    (a.misaligned = none →
      (∀ at' : List (Piece × Nat), a.parts ≠ [] → found = .ok (at'.map fun (p, pa) => (p, .here pa)) →
        (∀ x ∈ at', c.rowBusyAt b.cycle x.2 x.1.len = false) →
        b.base.awayOn b.core (at'.map fun (p, pa) => (p, .here pa)) = false →
        let vals := packGroup (8 * w) (at'.map fun (p, pa) =>
          ofBytes ((List.range p.len).map fun k => s.reads b.core (pa + k)))
        let d := s.dev.updCore b.core fun x => x.count 0x0F 1
        (a.local = true → exec i s = .next (s.afterWith h (sendV d b c vd.toNat vals 8) (b.watched a.ranges false))) ∧
        (a.local = false → exec i s = .next (s.afterWith h
          (((List.range vals.length).zip vals).foldl (fun d (q, val, mask) =>
            sendLate d b (.v (physSV c.lp (vd.toNat + q)) val mask) true 0) d)
          (b.watched a.ranges false)))) ∧
      (∀ parts, found = .ok parts → c.rowBusyOn b.cycle parts = false → b.base.awayOn b.core parts = false →
        ∃ d, exec i s = .next (s.afterWith h d (b.watched a.ranges false)) ∧
          (∀ n, (d.core n).r = (s.dev.core n).r) ∧ d.stores = s.dev.stores) ∧
      (∀ parts, found = .ok parts → c.rowBusyOn b.cycle parts = true → exec i s = .next (s.stallBundle b.base 9)) ∧
      (∀ parts, found = .ok parts → c.rowBusyOn b.cycle parts = false → b.base.awayOn b.core parts = true →
        exec i s = .next (s.stallBundle b.base 11)) ∧
      (∀ x, found = .error x → exec i s = .next (s.missed b x)))

/-- For every state with such a syllable in issue and executing, for an aligned canonical address, its bytes accessed by no
W syllable that is still busy: where they lie in this package in a unit without an uncorrectable error, exec answers
a next state whose units read, for the core, the low w bytes of sd at the address stored to, little-endian, and at
every other address what they read before; in a poisoned unit nothing is stored, and on a page of another package the
write is sent; in each of the first two no other agent reads anything new, and every register of every core is as
before, and so is every result in flight. A misaligned address raises MISALIGNED, an address that cannot be
accessed leaves what its translation, quota or error gives, and bytes of a busy W syllable, and bytes that an earlier
request of the core to its own package is still to reach, are waited for. (R107, R227, R126, R127, R224, R229, R319,
R388) -/
def Obligations.ScalarStores : Prop :=
  ∀ (s : State) (b : Bundle) (h : Hdr) (o : LM), Issuing s b h →
  let c := b.issuer
  let ea := c.s o.a.toNat + o.disp.signExtend 64
  ∀ i w, (i, w) ∈ [(Instr.sts8 h o, 1), (.sts16 h o, 2), (.sts32 h o, 4), (.sts64 h o, 8)] →
    let p : Piece := { ea := ea, len := w, elem := 0 }
    let at' := locate s.mem s.dev b.core .write false ((c.scalarAccess o w).covers p) p
    let bundle := b.watched [(ea, w)] true
    (ea.toNat % w ≠ 0 → exec i s = .next (s.faultBundle b.base (mkFault 0x36 ea 0))) ∧
    (ea.toNat % w = 0 → straddles ea w = true →
      exec i s = .next (s.faultBundle b.base (noncanonical ea 0 .write))) ∧
    (ea.toNat % w = 0 → straddles ea w = false →
      (∀ x, at' = .error x → exec i s = .next (s.missed b x)) ∧
      (∀ pa, at' = .ok (.here pa) → c.rowBusyAt b.cycle pa w = true → exec i s = .next (s.stallBundle b.base 9)) ∧
      (∀ pa, at' = .ok (.here pa) → c.rowBusyAt b.cycle pa w = false → b.base.awayOn b.core [(p, .here pa)] = true →
        exec i s = .next (s.stallBundle b.base 11)) ∧
      (∀ pkg pa, at' = .ok (.away pkg pa) → exec i s = .next (s.afterWith h
        ((s.dev.updCore b.core fun x => x.count 0x10 1).sendRemote b.core pkg .store ea pa
          (toBytes w (c.s o.d.toNat).toNat) 0 0 s.time) bundle)) ∧
      (∀ pa, at' = .ok (.here pa) → c.rowBusyAt b.cycle pa w = false → b.base.awayOn b.core [(p, .here pa)] = false →
        ∃ d, exec i s = .next (s.afterWith h d bundle) ∧
          (∀ k, k < w → readByte s.mem d b.core (pa + k) =
            if s.dev.poisoned pa = true then s.reads b.core (pa + k)
            else BitVec.ofNat 8 ((c.s o.d.toNat).toNat / 2 ^ (8 * k))) ∧
          (∀ a, ¬(pa ≤ a ∧ a < pa + w) → readByte s.mem d b.core a = s.reads b.core a) ∧
          (∀ n a, n ≠ b.core → readByte s.mem d n a = s.reads n a) ∧
          (∀ n, (d.core n).r = (s.dev.core n).r ∧ (d.core n).pend = (s.dev.core n).pend ∧
            (d.core n).seq = (s.dev.core n).seq)))

/-- For every state with such a syllable in issue and executing, whose elements are aligned, none of them accessed by a W
syllable that is still busy: where all lie in this package in units without an uncorrectable error, exec answers a
next state whose units read, for the core, at each byte of an element the byte of the highest-numbered element that
covers it, and at every other address what they read before; no other agent reads anything new; the registers of every
core are as before. In every other case in which the elements can be accessed it answers a next state too. A
misaligned element raises MISALIGNED, one that cannot be accessed leaves what its translation, quota or error gives,
and bytes of a busy W syllable, and bytes that an earlier request of the core to its own package is still to reach, are
waited for. (R228, R126, R127, R229, R319) -/
def Obligations.VectorStores : Prop :=
  ∀ (s : State) (b : Bundle) (h : Hdr), Issuing s b h →
  let c := b.issuer
  ∀ i (a : Accesses) (vals : List Nat),
    ((∃ o : LM, i = .stv h o ∧ a = c.vectorAccess o ∧ vals = c.elems o.d.toNat (elemCount o.nq) 32) ∨
      (∃ o : LS, i = .stvs h o ∧ a = c.strideAccess o ∧ vals = c.elems o.d.toNat (elemCount o.nq) 32) ∨
      (∃ o : LX, i = .stvx h o ∧ a = c.indexAccess o ∧
        vals = c.elems o.d.toNat (elemCount o.nq) (8 * 2 ^ o.isz.toNat))) →
    let found := a.locate s.mem s.dev b.core .write false
    (∀ e, a.misaligned = some e → exec i s = .next (s.faultBundle b.base e)) ∧
    (a.misaligned = none →
      (∀ at' : List (Piece × Nat), found = .ok (at'.map fun (p, pa) => (p, .here pa)) →
        (∀ x ∈ at', c.rowBusyAt b.cycle x.2 x.1.len = false) → (∀ x ∈ at', s.dev.poisoned x.2 = false) →
        b.base.awayOn b.core (at'.map fun (p, pa) => (p, .here pa)) = false →
        ∃ d, exec i s = .next (s.afterWith h d (b.watched a.ranges true)) ∧
          (∀ x, readByte s.mem d b.core x =
            match (at'.zip vals).reverse.find? fun ((p, pa), _) => decide (pa ≤ x ∧ x < pa + p.len) with
            | some ((_, pa), v) => BitVec.ofNat 8 (v / 2 ^ (8 * (x - pa)))
            | none => s.reads b.core x) ∧
          (∀ n x, n ≠ b.core → readByte s.mem d n x = s.reads n x) ∧
          (∀ n, (d.core n).r = (s.dev.core n).r ∧ (d.core n).pend = (s.dev.core n).pend)) ∧
      (∀ parts, found = .ok parts → c.rowBusyOn b.cycle parts = false → b.base.awayOn b.core parts = false →
        ∃ d, exec i s = .next (s.afterWith h d (b.watched a.ranges true)) ∧
          ∀ n, (d.core n).r = (s.dev.core n).r ∧ (d.core n).pend = (s.dev.core n).pend) ∧
      (∀ parts, found = .ok parts → c.rowBusyOn b.cycle parts = true → exec i s = .next (s.stallBundle b.base 9)) ∧
      (∀ parts, found = .ok parts → c.rowBusyOn b.cycle parts = false → b.base.awayOn b.core parts = true →
        exec i s = .next (s.stallBundle b.base 11)) ∧
      (∀ x, found = .error x → exec i s = .next (s.missed b x)))

/-- For every state with such a syllable in issue and executing, for an address that is a multiple of 64 and an image
whose bytes no busy W syllable accesses and no earlier request of the core to its own package is still to reach: STZ with a width code of R245 and room answers a next state in which its
parts are stored; LDZ of an image whose header and mask are those of the group answers the next state in which the
expanded elements are in flight, with latency 8 in the aperture and interlocked elsewhere. A misaligned address raises
MISALIGNED; STZ's width code 3 and an image larger than the capacity, and for LDZ a header or mask that is not the
group's or an image larger than the capacity, raise SPARSE_OVERRUN. (R245, R246, R247, R248) -/
def Obligations.CompressedImages : Prop :=
  ∀ (s : State) (b : Bundle) (h : Hdr) (o : LS), Issuing s b h →
  let c := b.issuer
  let a := c.s o.a.toNat
  let ob := c.s o.b.toNat
  let cap := wfld ob 0 32
  let code := wfld ob 48 2
  let n := elemCount o.nq
  let img := imageBytes (c.elems o.d.toNat n (imageWidth code)) (imageWidth code) code
  (a.toNat % 64 ≠ 0 → exec (.stz h o) s = .next (s.faultBundle b.base (mkFault 0x36 a 0)) ∧
    exec (.ldz h o) s = .next (s.faultBundle b.base (mkFault 0x36 a 0))) ∧
  (a.toNat % 64 = 0 → code = 3 → exec (.stz h o) s = .next (s.faultBundle b.base (sparseFault a 2 0 cap))) ∧
  (a.toNat % 64 = 0 → code ≠ 3 → cap < img.length →
    exec (.stz h o) s = .next (s.faultBundle b.base (sparseFault a 1 img.length cap))) ∧
  (∀ parts, a.toNat % 64 = 0 → code ≠ 3 → img.length ≤ cap →
    (imageAccess a img.length).locate s.mem s.dev b.core .write false = .ok parts →
    c.rowBusyOn b.cycle parts = false → b.base.awayOn b.core parts = false →
    exec (.stz h o) s = .next (s.afterWith h (storeParts s.time b (imageAccess a img.length) parts
      ((imageAccess a img.length).parts.map fun p => (img.drop (p.ea.toNat - a.toNat)).take p.len)
      (s.dev.updCore b.core fun x => x.count 0x10 1)) (b.watched [(a, img.length)] true))) ∧
  (∀ (head : Nat), a.toNat % 64 = 0 → head < 2 ^ 64 → (∀ f, readImage s b c false a 8 f = f (toBytes 8 head)) →
    let t := headerSize head
    let good := head < 2 ^ 34 ∧ fld head 32 2 ≠ 3 ∧ fld head 16 16 = n ∧ fld head 32 2 = code
    (¬good → exec (.ldz h o) s = .next (s.faultBundle b.base (sparseFault a 3 t cap))) ∧
    (good → cap < t → exec (.ldz h o) s = .next (s.faultBundle b.base (sparseFault a 1 t cap))) ∧
    (∀ body : List Byte, good → t ≤ cap → (∀ f, readImage s b c false (a + 64) (t - 64) f = f body) →
      let bits := ofBytes (body.take (maskBytes n))
      let fits := ((List.range n).filter fun k => bits.testBit k).length = fld head 0 16 ∧ bits < 2 ^ n
      let vals := packGroup (imageWidth code) (expand bits (imageWidth code) n 0 (body.drop (maskBytes n)))
      let d := s.dev.updCore b.core fun x => x.count 0x0F 1
      let bundle := b.watched [(a, ldzExtent s b c a)] false
      (¬fits → exec (.ldz h o) s = .next (s.faultBundle b.base (sparseFault a 3 t cap))) ∧
      (fits → inAperture a.toNat = true →
        exec (.ldz h o) s = .next (s.afterWith h (sendV d b c o.d.toNat vals 8) bundle)) ∧
      (fits → inAperture a.toNat = false → exec (.ldz h o) s = .next (s.afterWith h
        (((List.range vals.length).zip vals).foldl (fun d (q, val, mask) =>
          sendLate d b (.v (physSV c.lp (o.d.toNat + q)) val mask) true 0) d) bundle))))

/-- For every state with such a syllable in issue and executing: a store leaves the bytes of its register at its offset
of the core's spill memory, every other byte of it as it was, and every other core and all of memory unchanged; a
load sends the bytes there to its register with latency 1. (R174, R230) -/
def Obligations.SpillMemory : Prop :=
  ∀ (s : State) (b : Bundle) (h : Hdr) (o : LK), Issuing s b h →
  let c := b.issuer
  let off := o.off.toNat
  let got (k : Nat) : Nat := ofBytes ((List.range k).map fun j => c.spill.read (off + j))
  let counted := s.dev.updCore b.core fun x => x.count 0x0F 1
  exec (.splds h o) s = .next (s.after h (sendS counted b c o.d.toNat (toW (got 8)) 1)) ∧
  exec (.spldv h o) s = .next (s.after h
    (sendV counted b c o.d.toNat [(BitVec.ofNat 2048 (got 256), BitVec.allOnes 2048)] 1)) ∧
  (∀ i k (v : Nat), (i, k, v) ∈ [(Instr.spsts h o, 8, (c.s o.d.toNat).toNat), (.spstv h o, 256, (c.v o.d.toNat).toNat)] →
    ∃ d, exec i s = .next (s.after h d) ∧
      (∀ x, (d.core b.core).spill.read x = if off ≤ x ∧ x < off + k then BitVec.ofNat 8 (v / 2 ^ (8 * (x - off)))
        else (s.dev.core b.core).spill.read x) ∧
      (∀ m, m ≠ b.core → d.core m = s.dev.core m) ∧ d.stores = s.dev.stores ∧
      (d.core b.core).r = (s.dev.core b.core).r)

/-- For every state with such a syllable in issue and executing: a PROBE of an unbound handle whose block is found pins
its entry, one that misses tags the way it takes, starts the fill and, outside loops on a core that is not attached,
branches, and one that finds no way waits; the handle is bound by an interlocked result; a bound or pending handle
raises HANDLE_STATE, and an address that cannot be probed its own event. PREF of a block not found starts its fill and
has no other effect, and else has none. HREL of a window handle unpins its entry and unbinds the handle, of a ring
handle waits for its turn, of fills waits until they have ended; a handle unbound or pending raises HANDLE_STATE, and on
a general core it raises SPM_QUOTA. HCLAIM of a valid ring leaves its handle pending and waits for the grant; with its
handle bound or pending it raises HANDLE_STATE, on a general core SPM_QUOTA, and a descriptor address that is no
multiple of 64 raises MISALIGNED. (R231, R236, R242, R243, R244, R440) -/
def Obligations.WindowSyllables : Prop :=
  ∀ (s : State) (b : Bundle) (h : Hdr), Issuing s b h →
  let c := b.issuer
  let g := clusterOf b.core
  let ctx := (s.dev.ctxOfCore b.core).getD noContext
  (∀ o : LP, let hn := o.h.toNat
    let va := c.s o.a.toNat
    let bw := b.watched [(va, 1)] false
    (c.h hn ≠ .unbound → exec (.probe h o) s = .next (s.faultBundle b.base (handleFault 0 hn 1))) ∧
    (∀ e, c.h hn = .unbound → probeFor s.mem s.dev b.core hn va .probe = .fault e →
      exec (.probe h o) s = .next (s.faultBundle b.base e)) ∧
    (c.h hn = .unbound → probeFor s.mem s.dev b.core hn va .probe = .full →
      exec (.probe h o) s = .next (s.stallBundle b.base 8)) ∧
    (∀ k block, c.h hn = .unbound → probeFor s.mem s.dev b.core hn va .probe = .hit k block →
      exec (.probe h o) s = .next (s.afterWith h (sendLate ((s.dev.updCluster g fun x => x.pin k b.core).updCore b.core
        fun x => { (x.count 0x09 1) with hit := satInc x.hit }) b (.h hn (.window (k / 8) (k % 8))) false 0) bw)) ∧
    (∀ set way block, c.h hn = .unbound → probeFor s.mem s.dev b.core hn va .probe = .miss set way block →
      exec (.probe h o) s = .next (s.afterWith h (sendLate ((s.dev.fillWay s.mem b.core ctx block set way 1).updCore b.core fun x => { (x.count 0x0A 1) with miss := satInc x.miss })
        b (.h hn (.window set way)) false 0)
        (if c.attached = false ∧ c.lp.innermost = none then
          { bw with ctl := .branch (c.b o.bt.toNat) (c.penalty o.bt.toNat) } else bw)))) ∧
  (∀ o : LM, let va := c.s o.a.toNat + o.disp.signExtend 64
    let bw := b.watched [(va, 1)] false
    (∀ set way block, probeFor s.mem s.dev b.core 0 va .read = .miss set way block →
      exec (.pref h o) s = .next (s.afterWith h (s.dev.fillWay s.mem b.core ctx block set way 0) bw)) ∧
    ((∀ set way block, probeFor s.mem s.dev b.core 0 va .read ≠ .miss set way block) →
      exec (.pref h o) s = .next (s.afterWith h s.dev bw))) ∧
  (∀ o : LH, let hn := o.h.toNat
    let gone := s.dev.updCore b.core fun x => { x with r := { x.r with h := tdel x.r.h hn } }
    (isGeneral b.core = false → (c.h hn = .unbound ∨ c.h hn = .pending) →
      exec (.hrel h o) s = .next (s.faultBundle b.base (handleFault 0 hn 1))) ∧
    (∀ set way, isGeneral b.core = false → c.h hn = .window set way → exec (.hrel h o) s = .next
      (s.after h (gone.updCluster g fun x => x.unpin (tagKey set way) b.core))) ∧
    (∀ cf f cd dr base size nslot j drain, isGeneral b.core = false →
      c.h hn = .ring cf f cd dr base size nslot j drain → exec (.hrel h o) s = .next (s.after h
        (s.dev.updCore b.core fun x => { x with waits := x.waits ++ [Wait.release hn] }))) ∧
    (∀ die es, isGeneral b.core = false → c.h hn = .fills die es →
      (fillsEnded s.dev die es = true →
        exec (.hrel h o) s = .next (s.afterWith h gone { b with phaseEnd := true })) ∧
      (fillsEnded s.dev die es = false → exec (.hrel h o) s = .next (s.stallBundle b.base 8))) ∧
    (isGeneral b.core = true → exec (.hrel h o) s = .next (s.faultBundle b.base (quotaFault 0 3)))) ∧
  (∀ o : LH, let hn := o.h.toNat
    let a := c.s o.a.toNat &&& ~~~(1 : Word)
    (c.h hn ≠ .unbound → exec (.hclaim h o) s = .next (s.faultBundle b.base (handleFault 0 hn 1))) ∧
    (c.h hn = .unbound → isGeneral b.core = true → exec (.hclaim h o) s = .next (s.faultBundle b.base (quotaFault a 3))) ∧
    (c.h hn = .unbound → isGeneral b.core = false → a.toNat % 64 ≠ 0 →
      exec (.hclaim h o) s = .next (s.faultBundle b.base (mkFault 0x36 a 0)))) ∧
  (∀ (o : LH) (at' : List (Piece × Nat)) (x : Ctx) (r : RingDesc), let sa := c.s o.a.toNat
    let a := sa &&& ~~~(1 : Word)
    isGeneral b.core = false → c.h o.h.toNat = .unbound → a.toNat % 64 = 0 → wfld a 57 7 = 0 →
    inAperture a.toNat = true →
    (imageAccess a 64).locate s.mem s.dev b.core .read true = .ok (at'.map fun (p, pa) => (p, .here pa)) →
    (∀ q ∈ at', c.rowBusyAt b.cycle q.2 q.1.len = false) →
    b.base.awayOn b.core (at'.map fun (p, pa) => (p, .here pa)) = false →
    s.dev.ctx ctx = some x → ringOf x (wordsOf 8 (at'.flatMap fun (p, pa) => partBytes s b.core p pa)) = some r →
    ringCounterFault s.dev ctx r = none →
    exec (.hclaim h o) s = .next (s.after h (s.dev.updCore b.core fun y => { y with
      waits := y.waits ++ [Wait.claim o.h.toNat r.cf r.f r.cd r.dr r.base r.size r.nslot (sa.getLsbD 0) b.addr b.idx]
      r := { y.r with h := tset y.r.h o.h.toNat .pending } })))

/-- For a tensor core with a context and a part of an access in the aperture outside the context's window: within the
quota, in a granule without an uncorrectable error, it lies at that offset of the core's own cluster's scratchpad;
below or above the quota it raises SPM_QUOTA, reason 2 at 48 MiB and above, else reason 1; on a general core every
aperture access raises SPM_QUOTA reason 3. (R107, R224, R225) -/
def Obligations.LocalAddresses : Prop :=
  ∀ (m : Memory) (d : Dev) (n : Nat) (acc : Access) (slots whole : Bool) (p : Piece),
  let off := p.ea.toNat - apertureBase
  wfld p.ea 57 7 = 0 → inAperture p.ea.toNat = true →
  (isGeneral n = true → locate m d n acc slots whole p = .error (.event (quotaFault p.ea 3))) ∧
  (∀ x, isGeneral n = false → (d.ctxOfCore n).bind d.ctx = some x →
    (off < x.qbase * 65536 ∨ (x.qbase + x.qsize) * 65536 ≤ off →
      locate m d n acc slots whole p = .error (.event (quotaFault p.ea (if 0x3000000 ≤ off then 2 else 1)))) ∧
    (x.qbase * 65536 ≤ off → off < (x.qbase + x.qsize) * 65536 → x.slotAt off = none →
      ((d.cluster (clusterOf n)).spmBad.contains (off / 8) = false →
        locate m d n acc slots whole p = .ok (.here (0x10000000000 + n / 8 * 0x4000000 + off))) ∧
      ((d.cluster (clusterOf n)).spmBad.contains (off / 8) = true → acc = .read →
        locate m d n acc slots whole p =
          .error (.event (mkFault 0x39 (toW (p.ea.toNat / 8 * 8)) (toW (p.elem % 1024 * 65536)))))))

/-- For every state with such a syllable in issue and executing, with the row engine free and no fault of R336 on its
operands: ROWLD sets NROW and the words to those at s[a] and clears the trace; ROWST stores the words, every other
byte reading as before; ROWSET sets its rows' words and keeps the others; ROWCLR clears the trace and keeps words
and NROW; each keeps the engine busy for the cycles of R318 from where it starts, its issue or the end of a drain of
its bundle, and leaves the registers of R60 and what is in flight as they are. Out of range, ROWLD raises
TRACE_RANGE reason 1 and ROWSET reason 5. While the engine is busy every W syllable waits at issue. (R314, R318, R321,
R322, R333, R336) -/
def Obligations.RowWords : Prop :=
  ∀ (s : State) (b : Bundle) (h : Hdr), Issuing s b h →
  let c := b.issuer
  let start := max b.cycle (s.dev.core b.core).row.busyUntil
  (∀ (o : WR) (q : WI), b.cycle < c.row.busyUntil → ∀ i ∈ [Instr.rowld h o, .rowst h o, .rowset h q, .rowupd h o,
      .rowrec h q, .rowrdec h o, .rowpack h o, .rowcnt h o, .rowrestore h o, .rowtrld h o, .rowtrst h o, .rowmask h o,
      .rowseq h o, .rowclr h o], exec i s = .next (s.stallBundle b.base 9)) ∧
  (c.row.busyUntil ≤ b.cycle →
  let row (d : Dev) : RowState := (d.core b.core).row
  let kept (d : Dev) : Prop := ∀ n, (d.core n).r = (s.dev.core n).r ∧ (d.core n).pend = (s.dev.core n).pend
  (∀ o : WR, let a := c.s o.a.toNat
    let n := (c.s o.b.toNat).toNat
    (n = 0 ∨ 4096 < n → exec (.rowld h o) s =
      .next (s.faultBundle b.base (traceRange (sylWord (.rowld h o)) n 1 c.row))) ∧
    (1 ≤ n → n ≤ 4096 → rangeFault s.dev b.core a (4 * n) 4 .read = none → rangeBad s.dev b.core a (4 * n) = none →
    ∃ d, exec (.rowld h o) s = .next (s.after h d) ∧ (row d).nrow = n ∧
      (∀ k, k < n → (row d).word k = BitVec.ofNat 32
        (ofBytes ((List.range 4).map fun j => s.reads b.core (spmOf b.core a + 4 * k + j)))) ∧
      (row d).tvalid = false ∧ (row d).tlen = 0 ∧ (row d).plen = 0 ∧ (∀ k, (row d).isLive k = false) ∧
      (row d).busyUntil = start + 4 + (4 * n + 255) / 256 ∧ d.stores = s.dev.stores ∧ kept d)) ∧
  (∀ o : WR, let a := c.s o.a.toNat
    let n := c.row.nrow
    rangeFault s.dev b.core a (4 * n) 4 .write = none →
    ∃ d, exec (.rowst h o) s = .next (s.after h d) ∧
      (∀ x, readByte s.mem d b.core x =
        if spmOf b.core a ≤ x ∧ x < spmOf b.core a + 4 * n then
          BitVec.ofNat 8 ((c.row.word ((x - spmOf b.core a) / 4)).toNat / 2 ^ (8 * ((x - spmOf b.core a) % 4)))
        else s.reads b.core x) ∧
      (row d).busyUntil = start + 4 + (4 * n + 255) / 256 ∧
      (row d).cwa = (s.dev.core b.core).row.cwa ∧ kept d) ∧
  (∀ o : WI, let first := (c.s o.a.toNat).toNat
    (c.row.nrow < first + o.imm.toNat → exec (.rowset h o) s =
      .next (s.faultBundle b.base (traceRange (sylWord (.rowset h o)) first 5 c.row))) ∧
    (first + o.imm.toNat ≤ c.row.nrow →
    ∃ d, exec (.rowset h o) s = .next (s.after h d) ∧
      (∀ k, (row d).word k = if first ≤ k ∧ k < first + o.imm.toNat then (c.s o.d.toNat).setWidth 32
        else c.row.word k) ∧ (row d).busyUntil = start + 4 ∧ d.stores = s.dev.stores ∧ kept d)) ∧
  (∀ o : WR, ∃ d, exec (.rowclr h o) s = .next (s.after h d) ∧ (row d).tvalid = false ∧ (row d).tlen = 0 ∧
    (row d).plen = 0 ∧ (∀ k, (row d).isLive k = false ∧ (row d).word k = c.row.word k) ∧ (row d).nrow = c.row.nrow ∧
    (row d).busyUntil = start + 4 ∧ d.stores = s.dev.stores ∧ kept d))

/-- For every state with such a syllable in issue and executing, with the row engine free: ROWUPD with a valid trace
gives each live row of its tile with ACT 0 the word of the first rule that fires for its score, keeps every other
word and sends the number of exits; ROWREC sets or resets the rows with ACT 3 of its range; ROWRDEC counts down the
live rows with ACT 3 and sends the number of rows below NROW that then have ACT 3, REM at least 1 and the block of a
row counted down; without a valid trace ROWUPD and ROWRDEC raise ROW_SEQUENCE. (R323, R324, R325, R330, R336) -/
def Obligations.RowUpdates : Prop :=
  ∀ (s : State) (b : Bundle) (h : Hdr), Issuing s b h →
  let c := b.issuer
  let r := c.row
  let now := s.dev.core b.core
  let late := max b.cycle now.row.busyUntil - b.cycle
  r.busyUntil ≤ b.cycle →
  let row (d : Dev) : RowState := (d.core b.core).row
  (∀ o : WR, let n := tileRows o.mq
    let first := (c.s o.b.toNat).toNat
    let score (k : Nat) : Nat := nth (c.elems o.a.toNat n 32) (k - first) 0
    let hit (k : Nat) : Bool := decide (first ≤ k ∧ k < first + n ∧ k < r.nrow) && r.isLive k && cwAct (r.word k) == 0
    (r.tvalid = true → ∃ d x, exec (.rowupd h o) s = .next (s.after h d) ∧
      (∀ k, (row d).word k = if hit k = true then (updateRow r (r.word k) o.blk.toNat (score k)).1 else r.word k) ∧
      x = ((List.range r.nrow).filter fun k => hit k && (updateRow r (r.word k) o.blk.toNat (score k)).2).length ∧
      (row d).exits = satAdd r.exits x ∧
      (d.core b.core).pend = now.pend ++ [b.pend (.s (physSV c.lp o.d.toNat) (toW x)) (4 + late)]) ∧
    (r.tvalid = false → exec (.rowupd h o) s = .next (s.faultBundle b.base (mkFault 0x61 (sylWord (.rowupd h o)) 0)))) ∧
  (∀ o : WI, let first := (c.s o.a.toNat).toNat
    let n := o.imm.toNat
    let v (k : Nat) : Nat := min (nth (c.elems o.d.toNat n 32) (k - first) 0) 15
    (r.nrow < first + n → exec (.rowrec h o) s =
      .next (s.faultBundle b.base (traceRange (sylWord (.rowrec h o)) first 5 r))) ∧
    (first + n ≤ r.nrow → ∃ d, exec (.rowrec h o) s = .next (s.after h d) ∧
      (∀ k, (row d).word k = if first ≤ k ∧ k < first + n ∧ cwAct (r.word k) = 3 then
          (if v k = 0 then cwWith (r.word k) 0 0 0 else cwWith (r.word k) (cwBlk (r.word k)) (v k) 3)
        else r.word k) ∧ (d.core b.core).r = now.r)) ∧
  (∀ o : WR, let hit (k : Nat) : Bool := decide (k < r.nrow) && r.isLive k && cwAct (r.word k) == 3
    let shared (v : Nat) : Prop := ∃ k, hit k = true ∧ cwBlk (r.word k) = v
    (r.tvalid = true → ∃ d x, exec (.rowrdec h o) s = .next (s.after h d) ∧
      (∀ k, (row d).word k = if hit k = true then
          (if cwRem (r.word k) ≤ 1 then cwWith (r.word k) 0 0 0
           else cwWith (r.word k) (cwBlk (r.word k)) (cwRem (r.word k) - 1) 3)
        else r.word k) ∧
      (∃ rows : List Nat, rows.Nodup ∧ rows.length = x ∧ ∀ k, k ∈ rows ↔ k < r.nrow ∧ cwAct ((row d).word k) = 3 ∧
        shared (cwBlk ((row d).word k)) ∧ 1 ≤ cwRem ((row d).word k)) ∧
      (d.core b.core).pend = now.pend ++ [b.pend (.s (physSV c.lp o.d.toNat) (toW x)) (4 + late)]) ∧
    (r.tvalid = false → exec (.rowrdec h o) s =
      .next (s.faultBundle b.base (mkFault 0x61 (sylWord (.rowrdec h o)) 0))))

/-- For every state with such a syllable in issue and executing, with the row engine free: a row in a recursion
state that does not fit raises RECURSION_STATE in ROWCNT; without one ROWCNT sends the number of selected rows to lr; ROWPACK traces the selected rows in ascending
order, makes them live, rewrites words as R316 says and, where it moves rows and their ranges are free of faults,
moves each to its place and zeroes the padding; ROWRESTORE with a valid trace moves each traced row back to its own
place. (R316, R326, R327, R319) -/
def Obligations.RowSelections : Prop :=
  ∀ (s : State) (b : Bundle) (h : Hdr), Issuing s b h →
  let c := b.issuer
  let r := c.row
  let n := b.core
  let late := max b.cycle (s.dev.core n).row.busyUntil - b.cycle
  r.busyUntil ≤ b.cycle →
  let row (d : Dev) : RowState := (d.core n).row
  let pick := 4 + (r.nrow + 255) / 256
  let lr (d : Dev) : List Pend := (d.core n).pend
  (∀ (o : WR) k, r.badRow o.blk.toNat (o.d = 1) = some k → exec (.rowcnt h o) s =
    .next (s.faultBundle b.base (recursionState (sylWord (.rowcnt h o)) r k))) ∧
  (∀ o : WR, r.badRow o.blk.toNat (o.d = 1) = none → ∃ d, exec (.rowcnt h o) s = .next (s.after h d) ∧
    lr d = lr (sendLr s.dev b (r.selected o.blk.toNat (o.d = 1)).length (b.cycle + late + pick)) ∧
    (row d).cwa = (s.dev.core n).row.cwa ∧ d.stores = s.dev.stores) ∧
  (∀ o : WR, let live := r.selected o.blk.toNat (o.d = 1)
    let rb := 64 * r.rlen
    let src := c.s o.a.toNat
    let dst := c.s o.b.toNat
    let rows := tileRows o.mq
    let plen := rows * ((live.length + rows - 1) / rows)
    r.badRow o.blk.toNat (o.d = 1) = none →
    (o.a ≠ 0 → r.rlen ≠ 0 ∧ r.rlen ≤ 256 ∧ rangeFault s.dev n src 0 64 .read = none ∧
      (∀ i ∈ live, rangeFault s.dev n (src + toW (i * rb)) rb 64 .read = none) ∧
      rangeFault s.dev n dst (plen * rb) 64 .write = none) →
    ∃ d, exec (.rowpack h o) s = .next (s.after h d) ∧
      (row d).tlen = live.length ∧ (row d).plen = plen ∧ (row d).tvalid = true ∧ (row d).recurse = decide (o.d = 1) ∧
      (∀ k, k < live.length → k < 4096 → (row d).trace k = BitVec.ofNat 16 (nth live k 0)) ∧
      (∀ k, (row d).isLive k = true ↔ k ∈ live) ∧ (row d).nrow = r.nrow ∧
      lr d = lr (sendLr s.dev b live.length (b.cycle + late + pick)) ∧
      (o.a = 0 → d.stores = s.dev.stores) ∧
      (o.a ≠ 0 →
        let moves := ((List.range live.length).zip live).map fun (k, i) => (src + toW (i * rb), dst + toW (k * rb))
        let moved := moveRows s.mem s.dev n rb moves s.dev
        (live.length = plen → d.stores = moved.stores) ∧
        (live.length < plen → d.stores = (spmWrite moved n
          (dst + toW (live.length * rb)) (List.replicate ((plen - live.length) * rb) 0)).stores))) ∧
  (∀ o : WR, let rb := 64 * r.rlen
    let src := c.s o.a.toNat
    let dst := c.s o.b.toNat
    let moves := (List.range r.tlen).map fun i => (src + toW (i * rb), dst + toW ((r.trace i).toNat * rb))
    (r.tvalid = false → exec (.rowrestore h o) s =
      .next (s.faultBundle b.base (mkFault 0x61 (sylWord (.rowrestore h o)) 0))) ∧
    (r.tvalid = true → r.rlen ≠ 0 → r.rlen ≤ 256 → rangeFault s.dev n src (r.tlen * rb) 64 .read = none →
      rangeFault s.dev n dst 0 64 .write = none → (∀ x ∈ moves, rangeFault s.dev n x.2 rb 64 .write = none) →
      ∃ d, exec (.rowrestore h o) s = .next (s.after h d) ∧ d.stores = (moveRows s.mem s.dev n rb moves s.dev).stores ∧
        lr d = lr (sendLr s.dev b r.tlen (b.cycle + late + 4)) ∧ (row d).cwa = (s.dev.core n).row.cwa))

/-- For moves of len bytes whose destinations do not overlap: afterwards the core reads at each destination what it read
at its source before any was written, and at every other address what it read before; other agents read nothing new.
(R319, R326, R327) -/
def Obligations.MovedRows : Prop :=
  ∀ (m : Memory) (d : Dev) (n len : Nat) (moves : List (Word × Word)),
  moves.Pairwise (fun x y => spmOf n x.2 + len ≤ spmOf n y.2 ∨ spmOf n y.2 + len ≤ spmOf n x.2) →
  let d' := moveRows m d n len moves d
  (∀ x ∈ moves, ∀ j, j < len → readByte m d' n (spmOf n x.2 + j) = readByte m d n (spmOf n x.1 + j)) ∧
  (∀ a, (∀ x ∈ moves, ¬(spmOf n x.2 ≤ a ∧ a < spmOf n x.2 + len)) → readByte m d' n a = readByte m d n a) ∧
  (∀ k a, k ≠ n → readByte m d' k a = readByte m d k a)

/-- For every state with such a syllable in issue and executing, with the row engine free: ROWTRLD of a valid image
makes it the trace and its rows live; ROWTRST of a valid trace stores PLEN entries of 16 bits and sends PLEN;
ROWMASK sends four ones for each live row of 64 below NROW; ROWSEQ of a valid trace sends the sequence numbers of
the traced rows, all ones for null entries. (R331, R332, R336) -/
def Obligations.RowTracesAndMasks : Prop :=
  ∀ (s : State) (b : Bundle) (h : Hdr), Issuing s b h →
  let c := b.issuer
  let r := c.row
  let n := b.core
  let now := s.dev.core n
  let late := max b.cycle now.row.busyUntil - b.cycle
  r.busyUntil ≤ b.cycle →
  let row (d : Dev) : RowState := (d.core n).row
  (∀ o : WR, let a := c.s o.a.toNat
    let k := (c.s o.b.toNat).toNat
    let entry (i : Nat) : Nat := ofBytes ((List.range 2).map fun j => s.reads n (spmOf n a + 2 * i + j))
    let es := (List.range k).map entry
    k ≤ 4096 → rangeFault s.dev n a (2 * k) 2 .read = none → rangeBad s.dev n a (2 * k) = none →
    badEntry r.nrow es [] = none →
    ∃ d, exec (.rowtrld h o) s = .next (s.after h d) ∧ (∀ i, i < k → (row d).trace i = BitVec.ofNat 16 (entry i)) ∧
      (row d).plen = k ∧ (row d).tlen = (es.filter (· ≠ 0xFFFF)).length ∧ (row d).tvalid = true ∧
      (∀ i, (row d).isLive i = true ↔ i ∈ es ∧ i ≠ 0xFFFF) ∧ (row d).cwa = r.cwa) ∧
  (∀ o : WR, let a := c.s o.a.toNat
    r.tvalid = true → rangeFault s.dev n a (2 * r.plen) 2 .write = none →
    ∃ d, exec (.rowtrst h o) s = .next (s.after h d) ∧
      (∀ x, readByte s.mem d n x = if spmOf n a ≤ x ∧ x < spmOf n a + 2 * r.plen then
          BitVec.ofNat 8 ((r.trace ((x - spmOf n a) / 2)).toNat / 2 ^ (8 * ((x - spmOf n a) % 2)))
        else s.reads n x) ∧
      (d.core n).pend = now.pend ++ [b.pend (.s (physSV c.lp o.d.toNat) (toW r.plen)) (4 + late)]) ∧
  (∀ o : WR, let first := (c.s o.a.toNat).toNat
    ∃ (d : Dev) (v : MWord), exec (.rowmask h o) s = .next (s.after h d) ∧
      (d.core n).pend = ((sendM s.dev b o.d.toNat v (4 + late)).core n).pend ∧
      (∀ i, i < 256 → v.getLsbD i = (decide (first + i / 4 < r.nrow) && r.isLive (first + i / 4))) ∧
      d.stores = s.dev.stores) ∧
  (∀ o : WR, let first := (c.s o.a.toNat).toNat
    r.tvalid = true → ∃ d, exec (.rowseq h o) s = .next (s.after h d) ∧ d.stores = s.dev.stores ∧
      (d.core n).pend = ((sendV s.dev b c o.d.toNat (packGroup 32 ((List.range (tileRows o.mq)).map fun i =>
        if r.trace (first + i) = 0xFFFF then 0xFFFFFFFF else cwSeq (r.word (r.trace (first + i)).toNat))) (4 + late)).core n).pend)

/-- For every state with such a syllable in issue and executing: MCFG of a format pair that R99 allows sets the
configuration, and one of another raises FORMAT_PAIR; ACREL with no push to its name in flight unbinds it, ACRELA
with none at all unbinds every name, and both wait otherwise;
ACGRP of a band that meets no other group's binds the name and declares it, and raises DRAIN_BAND reason 2
otherwise; WSWAP makes the shadow plane active and WCLR clears it, both with the shift position at 0; MWAIT with
nothing in flight changes nothing and waits otherwise; an unbound name is bound to the lowest free slot. (R346, R355,
R356, R357, R359, R361, R99) -/
def Obligations.MatrixConfigurationAndNames : Prop :=
  ∀ (s : State) (b : Bundle) (h : Hdr), Issuing s b h →
  let c := b.issuer
  let n := b.core
  let t := (s.dev.core n).mat
  let put (x : MatState) : Host.Outcome State Fault Refusal :=
    .next (s.after h (s.dev.updCore n fun y => { y with mat := x }))
  (∀ o : MC, let reason := pairReason (formatReg s.dev n o.wf.toNat) (formatReg s.dev n o.af.toNat) o.ak
    (reason = 0 → exec (.mcfg h o) s =
      put { t with configured := true, nq := o.nq.toNat, wf := o.wf.toNat, af := o.af.toNat, ak := o.ak }) ∧
    (reason ≠ 0 → ∃ v, exec (.mcfg h o) s = .next (s.faultBundle b.base (mkFault 0x72 (sylWord (.mcfg h o)) v)))) ∧
  (∀ o : MA, c.mat.waits o.acc.toNat none = false → exec (.acrel h o) s = put (t.unbind o.acc.toNat)) ∧
  (∀ o : MA, c.mat.waits o.acc.toNat none = true → exec (.acrel h o) s = .next (s.stallBundle b.base 10)) ∧
  (c.mat.pushes ≠ [] → exec (.acrela h) s = .next (s.stallBundle b.base 10)) ∧
  (c.mat.pushes = [] → exec (.acrela h) s = put { t with names := [], slots := [] }) ∧
  (∀ o : MG, let a := o.acc.toNat
    let bands := ((c.mat.slotOf a).map (·.bands)).getD []
    let meets := bands.any fun (k, v) => decide (k ≠ o.grp.toNat ∧ o.lo.toNat ≤ v.hi ∧ v.lo ≤ o.hi.toNat)
    (meets = false → exec (.acgrp h o) s = put ((c.mat.bind a).updSlot a fun q =>
      { q with bands := tset q.bands o.grp.toNat { lo := o.lo.toNat, hi := o.hi.toNat } })) ∧
    (meets = true → exec (.acgrp h o) s = .next (s.faultBundle b.base
      (mkFault 0x71 (sylWord (.acgrp h o)) (toW (a * 65536 + o.lo.toNat * 256 + 2)))))) ∧
  exec (.wswap h) s = put { t with active1 := !t.active1, wp := 0 } ∧
  exec (.wclr h) s = put (if t.active1 = true then { t with plane0 := [], wp := 0 } else { t with plane1 := [], wp := 0 }) ∧
  (c.mat.pushes = [] → c.mat.drainUntil ≤ b.cycle → exec (.mwait h) s = .next (s.after h s.dev)) ∧
  (c.mat.pushes ≠ [] ∨ b.cycle < c.mat.drainUntil → exec (.mwait h) s = .next (s.stallBundle b.base 10)) ∧
  (∀ x : MatState, ∀ a, tget x.names a = none → ∀ k, k < 32 → (∀ y ∈ x.names, y.2 ≠ k) →
    ∃ j, j ≤ k ∧ tget (x.bind a).names a = some j ∧ (∀ y ∈ x.names, y.2 ≠ j))

/-- For every state with an executing BEAT in issue: without push, shift and drain it changes nothing; a drain waits for
pushes to its row and, through the row engine, for that engine; unconfigured the beat raises MATRIX_UNCONFIGURED; it
waits for slots that are still filling and bytes of a busy W syllable, and a check of R363 that fails gives its event;
else exec answers the next state in which the push is in flight with the values of R350, formed with the plane active
before the beat, due 136 cycles after issue, the shift has written the shadow plane at the shift position and moved it
on, and the drain of R354 is delivered: to a vector pair with latency 6, or through the row engine, as the row's first N
entries converted to the drain format, then zeros, in the bytes of its destination row, in none where it is discarded.
(R319, R328, R347, R349, R350, R351, R352, R354, R355, R363) -/
def Obligations.BeatsPushShiftAndDrain : Prop :=
  ∀ (s : State) (b : Bundle) (h : Hdr) (o : MB), Issuing s b h →
  let c := b.issuer
  let n := b.core
  let t := c.mat
  let beat := exec (.beat h o) s
  let rowA := c.s (4 + o.aw.toNat)
  let rowW := c.s (6 + o.ww.toNat)
  let rowD := (o.drb.toNat + c.beatRow o.m) % 128
  (o.aop = 0 → o.wop = 0 → o.dop = 0 → beat = .next (s.after h s.dev)) ∧
  (o.dop ≠ 0 → t.waits o.ds.toNat (some rowD) = true → beat = .next (s.stallBundle b.base 10)) ∧
  (o.dop = 2 → t.waits o.ds.toNat (some rowD) = false → b.cycle < c.row.busyUntil →
    beat = .next (s.stallBundle b.base 9)) ∧
  (¬(o.aop = 0 ∧ o.wop = 0 ∧ o.dop = 0) → (o.dop ≠ 0 → t.waits o.ds.toNat (some rowD) = false) →
    (o.dop = 2 → c.row.busyUntil ≤ b.cycle) → s.dev.matCfg n t = none →
    beat = .next (s.faultBundle b.base (mkFault 0x73 (sylWord (.beat h o)) 0))) ∧
  (∀ q, ¬(o.aop = 0 ∧ o.wop = 0 ∧ o.dop = 0) → (o.dop ≠ 0 → t.waits o.ds.toNat (some rowD) = false) →
    (o.dop = 2 → c.row.busyUntil ≤ b.cycle) → s.dev.matCfg n t = some q →
    let checks := firstOf (beatChecks s b c o (sylWord (.beat h o)) q)
    let fillA := o.aop ≠ 0 ∧ beatFilling s.dev c n rowA q.aLen = true
    let fillW := o.wop ≠ 0 ∧ beatFilling s.dev c n rowW (q.wLen t.wp) = true
    let busyA := o.aop ≠ 0 ∧ c.rowBusyAt b.cycle (spmOf n rowA) q.aLen = true
    let busyW := o.wop ≠ 0 ∧ c.rowBusyAt b.cycle (spmOf n rowW) (q.wLen t.wp) = true
    (fillA ∨ fillW → beat = .next (s.stallBundle b.base 8)) ∧
    (¬fillA → ¬fillW → busyA ∨ busyW → beat = .next (s.stallBundle b.base 9)) ∧
    (∀ x, ¬fillA → ¬fillW → ¬busyA → ¬busyW → checks = some x → beat = .next (s.faultBundle b.base x)) ∧
    (¬fillA → ¬fillW → ¬busyA → ¬busyW → checks = none →
    let e := (drainPart b c o q s.dev).core n
    beat = .next (s.after h ((drainPart b c o q s.dev).setMat n (shiftPart s b c o q (pushPart s b c o q e.mat)))) ∧
    (∀ x : MatState, o.aop ≠ 0 → (pushPart s b c o q x).pushes = x.pushes ++
      [{ slot := tgetD (x.bind o.aslot.toNat).names o.aslot.toNat 0, row := (o.arb.toNat + c.beatRow o.m) % 128
         acc := decide (o.aop = 2), ak := (x.bind o.aslot.toNat).ak
         vals := q.pushValues t.active (spmRead s.mem s.dev n rowA q.aLen) (x.bind o.aslot.toNat).ak
         due := b.cycle + 136 }]) ∧
    (∀ x : MatState, o.wop = 1 → (shiftPart s b c o q x).active1 = x.active1 ∧
      (shiftPart s b c o q x).wp = (x.wp + 1) % 128 ∧ (shiftPart s b c o q x).active = x.active ∧
      (planeRow (shiftPart s b c o q x).shadow x.wp).bytes = (spmRead s.mem s.dev n rowW (q.wLen x.wp)).take q.wb) ∧
    (∀ x : MatState, o.wop = 2 → (shiftPart s b c o q x).active1 = !x.active1 ∧ (shiftPart s b c o q x).wp = 0) ∧
    (∀ d : Dev, o.dop = 1 → ∃ k, (drainPart b c o q d).core n = ((sendV k b c (32 + 2 * o.dv.toNat)
      (packGroup 32 (t.rowEntries o.ds.toNat rowD)) 6).core n) ∧
      (k.core n).r = (d.core n).r ∧ (k.core n).pend = (d.core n).pend) ∧
    (∀ d : Dev, o.dop = 2 → c.row.drainTo (t.drainCidx + rowD) = none → (drainPart b c o q d).stores = d.stores) ∧
    (∀ (d : Dev) a fm, o.dop = 2 → c.row.drainTo (t.drainCidx + rowD) = some a →
      descFmt (formatReg s.dev n t.drainFmt) = some fm → d.parts = s.dev.parts → d.ctxs = s.dev.ctxs →
      (∀ k, (d.core k).task = (s.dev.core k).task) → d.genPart = s.dev.genPart →
      let round : Rounding := { rm := t.drainRm, sat := t.drainSat, u := 0 }
      let bs := containerBytes fm (((t.rowEntries o.ds.toNat rowD).take q.n).map fun v =>
        fm.encode round (entryValue t.ak v)) c.row.rowBytes
      bs.length = c.row.rowBytes ∧ (drainPart b c o q d).stores = (d.coreStore n (spmOf n a) bs).stores)))

/-- For unscaled 8-bit two's complement formats: value j of a push is the sum over k of the activation byte k times
weight (k, j) of the plane, exactly. (R100, R102, R344, R350) -/
def Obligations.IntegerBeatIsDotProduct : Prop :=
  ∀ (q : MatCfg) (plane : Tab PlaneRow) (row : List Byte) (ak : BitVec 2) (j : Nat),
  q.wf = fmtInt 8 → q.af = fmtInt 8 → q.ba = 0 → q.bw = 0 → q.k = 256 → ak ≠ 0 → j < q.n →
  nth (q.pushValues plane row ak) j 0 = ((List.range 256).map fun k =>
    (nth row k 0).toInt * (nth (planeRow plane (k / 2)).bytes (k % 2 * q.n + j) 0).toInt).sum

/-- For every state with such a syllable in issue and executing, no push to the name in flight: configured, with a valid
format descriptor, its bytes accessed by no busy W syllable and no failed check of R363, exec answers the next state
in which ACMOV has stored the converted entries of its rows, an unbound name reading +0 and setting UNALLOC, or ACLD
has written them; the engine is busy for the cycles of R360; unconfigured each raises MATRIX_UNCONFIGURED, with an
unset format FORMAT_UNSET. Each waits for the pushes to its name and for the bytes of a busy W syllable. (R319, R355,
R358, R360, R363) -/
def Obligations.AccumulatorMoves : Prop :=
  ∀ (s : State) (b : Bundle) (h : Hdr) (o : MV), Issuing s b h →
  let c := b.issuer
  let n := b.core
  let rows := o.cnt.toNat + 1
  let fm := descFmt (formatReg s.dev n o.fmt.toNat)
  (∀ i, i ∈ [Instr.acmov h o, .acld h o] → c.mat.waits o.acc.toNat none = true →
    exec i s = .next (s.stallBundle b.base 10)) ∧
  (c.mat.waits o.acc.toNat none = false →
  (∀ i, i ∈ [Instr.acmov h o, .acld h o] →
    (s.dev.matCfg n c.mat = none → exec i s = .next (s.faultBundle b.base (mkFault 0x73 (sylWord i) 0))) ∧
    (∀ q, s.dev.matCfg n c.mat = some q → fm = none →
      exec i s = .next (s.faultBundle b.base (mkFault 0x50 (sylWord i) (toW o.fmt.toNat))))) ∧
  (∀ q f, s.dev.matCfg n c.mat = some q → fm = some f →
    let rs := 64 * ((q.n * f.c + 511) / 512)
    let busy := b.cycle + 4 + (rows * rs + 255) / 256
    let x := (drawIn s.dev n o.rm).2
    let held := c.rowBusyAt b.cycle (spmOf n (c.s o.a.toNat)) (rows * rs)
    (∀ i, i ∈ [Instr.acmov h o, .acld h o] → held = true → exec i s = .next (s.stallBundle b.base 9)) ∧
    (held = false → firstOf (moveChecks s.dev n c o (sylWord (.acmov h o)) false q f) = none →
      ∃ d, exec (.acmov h o) s = .next (s.after h d) ∧ (d.core n).mat.busyUntil = busy ∧
        (d.core n).mat.unalloc = ((s.dev.core n).mat.unalloc || (c.mat.slotOf o.acc.toNat).isNone) ∧
        d.stores = (s.dev.coreStore n (spmOf n (c.s o.a.toNat)) ((List.range rows).flatMap fun r =>
          containerBytes f ((List.range (min q.n 128)).map fun j => f.encode (roundingOf o.rm o.sat x (128 * r + j))
            (entryValue c.mat.ak (nth (c.mat.rowEntries o.acc.toNat (o.row.toNat + r)) j 0))) rs)).stores) ∧
    (held = false → firstOf (moveChecks s.dev n c o (sylWord (.acld h o)) true q f) = none →
      ∃ d, exec (.acld h o) s = .next (s.after h d) ∧ (d.core n).mat.busyUntil = busy ∧ d.stores = s.dev.stores ∧
        (∃ k, tget (d.core n).mat.names o.acc.toNat = some k ∧
          (tget (s.dev.core n).mat.names o.acc.toNat).all (· = k) = true) ∧
        (∀ r j, r < rows → j < q.n → q.n ≤ 128 →
          ((d.core n).mat.slotOf o.acc.toNat).map (fun t => t.entry (o.row.toNat + r) j) =
            some (BitVec.ofNat 32 ((if c.mat.ak = 0 then fmtFp32 else fmtInt 32).encode
              (roundingOf o.rm o.sat x (128 * r + j)) (f.decode (field
                (((spmRead s.mem s.dev n (c.s o.a.toNat) (rows * rs)).drop (r * rs)).take rs) f.c j))))))))

/-- For every state with such a syllable in issue and executing: an unbound handle raises COUNTER_UNBOUND, an identifier
out of range COUNTER_RANGE; for a counter of this package, after the release that ORD asks for, CADD adds, or raises
COUNTER_OVERFLOW where the sum would pass 2^64 - 1, CMAX raises to the maximum, CREAD reads into sa, and each waits
for the sync engine's answer; CWAIT completes where the counter is at least v and stalls otherwise, waiting on the
counter; an operation on another package's counter completes once that package has answered without a failure; CBIND
binds a valid identifier. Also: for every state with such a syllable in issue and executing: PHASE makes the bundle end the
core's phase, with the release that ORD asks for; CWANY whose conditions raise no fault and one of which holds sends
the number of the first that holds, counted round from the one after the last found, and stalls where none holds. (R255, R256, R260, R261, R262, R280, R125, R133, R263, R265) -/
def Obligations.CounterSyllables : Prop :=
  (∀ (s : State) (b : Bundle) (h : Hdr) (o : YK), Issuing s b h →
  let c := b.issuer
  let n := b.core
  let ctx := (s.dev.ctxOfCore n).getD noContext
  let v := c.s o.a.toNat + o.imm.setWidth 64
  let bo := b.ordered o.ord
  let shown (x : Dev) : Dev := if o.ord.getLsbD 1 = true then x.release n o.scp.toNat else x
  let waits (x : Dev) : Dev := x.updCore n fun y => { (y.count 0x12 1) with waits := y.waits ++ [Wait.answer] }
  (∀ i, i ∈ [Instr.cadd h o, .cmax h o, .cread h o, .cwait h o] →
    (c.k o.k.toNat = none → exec i s = .next (s.faultBundle b.base
      (mkFault 0x41 (sylWord i) (toW (o.k.toNat * 16 + physK c.lp o.k.toNat))))) ∧
    (∀ id r, c.k o.k.toNat = some id → resolveCounter s.dev ctx id = .error r →
      exec i s = .next (s.faultBundle b.base (mkFault 0x42 id (toW r))))) ∧
  (∀ id k j, c.k o.k.toNat = some id → resolveCounter s.dev ctx id = .ok (.here k j) →
    let d := shown s.dev
    let old := counterGet s.mem d ctx k j
    let put (x : Word) : Dev := counterSet d ctx k j x
    (old.toNat + v.toNat < 2 ^ 64 → exec (.cadd h o) s = .next (s.afterWith h (waits (put (old + v))) bo)) ∧
    (2 ^ 64 ≤ old.toNat + v.toNat → exec (.cadd h o) s = .next
      (s.faultBundle (counterOp s.mem (shown b.base) ctx k j .read).1 (mkFault 0x40 id v))) ∧
    exec (.cmax h o) s = .next (s.afterWith h (waits (put (if old.toNat < v.toNat then v else old))) bo) ∧
    exec (.cread h o) s = .next (s.afterWith h
      (waits (sendLate (put old) b (.s (physSV c.lp o.a.toNat) old) true 0)) bo) ∧
    (v.toNat ≤ old.toNat → exec (.cwait h o) s = .next (s.afterWith h
      (counterSet (d.updCore n fun y => y.count 0x12 1) ctx k j old) bo)) ∧
    (old.toNat < v.toNat → exec (.cwait h o) s =
      .next (s.stallBundle (waitOn s.mem (shown b.base) n ctx k j) 7))) ∧
  (∀ id pkg w, c.k o.k.toNat = some id → resolveCounter s.dev ctx id = .ok (.remote pkg) →
    let done (x : Dev) : Dev := (shown x).updCore n fun y => y.count 0x12 1
    let answered (kind : RemoteKind) (val : Word) : Prop :=
      ((c.remOps.find? fun q => q.kind = kind && q.ident = id && q.val = val).bind (·.answer)) = some (0, w)
    (answered .counterAdd v → exec (.cadd h o) s = .next (s.afterWith h (done s.dev) bo)) ∧
    (answered .counterMax v → exec (.cmax h o) s = .next (s.afterWith h (done s.dev) bo)) ∧
    (answered .counterRead v → exec (.cwait h o) s = .next (s.afterWith h (done s.dev) bo)) ∧
    (answered .counterRead 0 → exec (.cread h o) s = .next (s.afterWith h
      ((sendLate (shown s.dev) b (.s (physSV c.lp o.a.toNat) w) true 0).updCore n fun y => y.count 0x12 1) bo))) ∧
  (∀ q, resolveCounter s.dev ctx v = .ok q → exec (.cbind h o) s = .next (s.after h (s.dev.updCore n fun x =>
    { x with r := { x.r with k := tset x.r.k (physK c.lp o.k.toNat) (some v) } }))) ∧
  (∀ r, resolveCounter s.dev ctx v = .error r →
    exec (.cbind h o) s = .next (s.faultBundle b.base (mkFault 0x42 v (toW r))))) ∧
  (∀ (s : State) (b : Bundle) (h : Hdr), Issuing s b h →
  let c := b.issuer
  let n := b.core
  (∀ o : YN, exec (.phase h o) s = .next (s.afterWith h
    (if o.ord.getLsbD 1 = true then s.dev.release n o.scp.toNat else s.dev) { b with phaseEnd := true })) ∧
  (∀ o : YW, let st := (c.conds o).map fun q => (q, c.cond s.mem s.dev n (sylWord (.cwany h o)) q)
    let holds (i : Nat) : Prop := ∃ q, (q, CondState.holds) ∈ st ∧ q.i = i
    (∀ x ∈ st, ∀ e, x.2 ≠ .fault e) →
    (∀ k, k < 8 → holds ((c.wanyNext + k) % 8) → (∀ j, j < k → ¬holds ((c.wanyNext + j) % 8)) →
      let i := (c.wanyNext + k) % 8
      exec (.cwany h o) s = .next (s.afterWith h (sendLate ((c.touchConds s.mem (s.dev.releaseFor n o.ord o.scp)
          ((s.dev.ctxOfCore n).getD noContext) (c.conds o)).updCore n fun x =>
        { (x.count 0x12 1) with wanyNext := (i + 1) % 8 }) b (.s (physSV c.lp o.d.toNat) (toW i)) true 0)
        (b.ordered o.ord))) ∧
    ((∀ x ∈ st, ∀ e, x.2 ≠ .fault e ∧ x.2 ≠ .holds) → ∃ d, exec (.cwany h o) s = .next (s.stallBundle d 7))))

/-- For every state with such a syllable in issue and executing, naming a valid stage: creation with CNT 0 has no effect
but its order; otherwise it adds to the hold of the stage at the same time, or takes the lowest free one, and enters
the delta +CNT; with a hold of another time, a count past 65535 or no free hold it raises STAKE_NEGATIVE reason 3.
Retirement takes CNT from the hold and enters -CNT; an advance to a later time moves the hold and enters both deltas,
to the same time none; both end the phase. A retirement without enough stakes raises reason 1, of the task's own last
stake reason 4; an advance without a hold or to an earlier time reason 2. Deltas without room in the Moraine stall the
core, with the record of R274. A stage of 4096 or above raises STAGE_RANGE reason 1, another one that is not in use
reason 2. A register write to a hold in the cycle of the syllable gives way to the fields that the syllable updates.
(R6, R266, R271, R272, R274, R280) -/
def Obligations.StakeSyllables : Prop :=
  ∀ (s : State) (b : Bundle) (h : Hdr) (o : YP), Issuing s b h →
  let c := b.issuer
  let n := b.core
  let stage := (c.s o.a.toNat).toNat
  let t := c.s o.b.toNat
  let k := o.cnt.toNat
  let ctx := (s.dev.ctxOfCore n).getD noContext
  let die := moraineDie s.dev n ctx
  let now := (s.dev.core n).holdsBefore b.cycle
  let d := s.dev.releaseFor n o.ord o.scp
  let shown := stakeRelease s n stage d
  let bo := b.ordered o.ord
  let ended : Bundle := { b with phaseEnd := true }
  let hold (d : Dev) (i : Nat) (f : Hold → Hold) : Dev := d.updCore n fun x => { x with holds := tset x.holds i (f (x.hold i)) }
  let enters (x : Dev) (e : Bundle) (ds : List Delta) : Host.Outcome State Fault Refusal :=
    if moraineRoom s.dev die ctx ds = true then .next (s.afterWith h (enterDeltas x n die ctx ds s.time) e)
    else .next (s.stallBundle (b.base.reportFull die ctx s.time) 7)
  let neg (r j : Nat) : Host.Outcome State Fault Refusal :=
    .next (s.faultBundle b.base (mkFault 0x44 t (toW (stage * 2 ^ 32 + r * 2 ^ 16 + j))))
  let create := exec (.stakeCreate h o) s
  let retire := exec (.stakeRetire h o) s
  let advance := exec (.stakeAdvance h o) s
  let invalid (r : Nat) : Host.Outcome State Fault Refusal :=
    .next (s.faultBundle b.base (mkFault 0x43 (c.s o.a.toNat) (toW r)))
  (4096 ≤ stage → create = invalid 1 ∧ retire = invalid 1 ∧ advance = invalid 1) ∧
  (stage < 4096 → stageOk s.mem s.dev ctx stage = false → create = invalid 2 ∧ retire = invalid 2 ∧ advance = invalid 2) ∧
  (stage < 4096 → stageOk s.mem s.dev ctx stage = true →
    (k = 0 → create = .next (s.afterWith h d bo)) ∧
    (∀ i, 0 < k → now.holdOf stage = some i →
      ((now.hold i).time = t → (now.hold i).count + k ≤ 65535 →
        create = enters (hold d i fun v => { v with count := (now.hold i).count + k }) bo
          [{ stage := stage, time := t, n := k }]) ∧
      ((now.hold i).time ≠ t ∨ 65535 < (now.hold i).count + k → create = neg 3 k)) ∧
    (∀ i, 0 < k → now.holdOf stage = none → now.freeHold = some i →
      create = enters (hold d i fun _ => { own := false, stage := stage, time := t, count := k }) bo
        [{ stage := stage, time := t, n := k }]) ∧
    (0 < k → now.holdOf stage = none → now.freeHold = none → create = neg 3 k) ∧
    (now.holdOf stage = none → retire = neg 1 k ∧ advance = neg 2 0) ∧
    (∀ i, now.holdOf stage = some i → let v := now.hold i
      (v.time ≠ t ∨ v.count < k → retire = neg 1 k) ∧
      (v.time = t → k ≤ v.count → v.own = true → v.count = k → retire = neg 4 k) ∧
      (v.time = t → k ≤ v.count → (v.own = true → k < v.count) →
        retire = enters (hold shown i fun w => { w with count := v.count - k }) ended
          [{ stage := stage, time := t, n := -(k : Int) }]) ∧
      (t.toNat < v.time.toNat → advance = neg 2 0) ∧
      (v.time = t → advance = .next (s.afterWith h (hold shown i fun w => { w with time := t }) ended)) ∧
      (v.time.toNat < t.toNat → advance = enters (hold shown i fun w => { w with time := t }) ended
        [{ stage := stage, time := t, n := v.count }, { stage := stage, time := v.time, n := -(v.count : Int) }])))

/-- For every state with such a syllable in issue and executing: CPYQ sends its packet to the copy engine, its result
answered under a new tag; CPYMC on a tensor core with a readable, valid descriptor parks into a free slot at once
and keeps the core busy, or waits for its turn, and at issue for the bytes of a busy W syllable; HBDRAIN of a parked slot of the core's context waits
while another core drains it, then stores the slot's bytes and takes one drain from it, or, with the last one, frees it,
releases and adds 1 to its counter; on a general core both raise HOLDING_BUFFER reason 6. (R401, R403, R404) -/
def Obligations.CopySyllables : Prop :=
  ∀ (s : State) (b : Bundle) (h : Hdr) (o : YG), Issuing s b h →
  let c := b.issuer
  let n := b.core
  let ctx := (s.dev.ctxOfCore n).getD noContext
  let a := c.s o.x.toNat
  (∃ d, exec (.cpyq h o) s = .next (s.afterWith h d (b.ordered o.ord)) ∧
    (let e := a.toNat / 16 % 16
     let tag := (s.dev.core n).nextTag
     let r : CpyReq :=
       { ctx := ctx, core := n, tag := tag, q := a, words := wordsOf 8 (toBytes 64 (c.v o.z.toNat).toNat), idx := none
         susp := false }
     d.cpyReqs = tset s.dev.cpyReqs e (tgetD s.dev.cpyReqs e [] ++ [r]) ∧
     (d.core n).nextTag = tag + 1 ∧
     (d.core n).pend = ((sendLate (s.dev.releaseFor n o.ord o.scp) b (.s (physSV c.lp o.y.toNat) 0) false tag).core n).pend)) ∧
  (isGeneral n = true → exec (.cpymc h o) s = .next (s.faultBundle b.base (holdingFault (sylWord (.cpymc h o)) 0 0 6))) ∧
  (let w := spmWords s.mem s.dev n a
   let src := nth w 1 0
   let len := pktLen w
   let slot := wfld (nth w 2 0) 0 4
   let g := clusterOf n
   let t := parkSlot w ctx (spmRead s.mem s.dev n src len) none
   isGeneral n = false → rangeFault s.dev n a 64 64 .read = none → rangeBad s.dev n a 64 = none →
   rangeFault s.dev n src len 64 .read = none → (len ≠ 0 → rangeBad s.dev n src len = none) →
   (∀ k, k = 6 ∨ k = 7 → ∃ q, resolveCounter s.dev ctx (nth w k 0) = .ok q) → badPark w = false →
   (c.rowBusyAt b.cycle (spmOf n src) len = true → exec (.cpymc h o) s = .next (s.stallBundle b.base 9)) ∧
   (c.rowBusyAt b.cycle (spmOf n src) len = false →
   (tget (s.dev.cluster g).slots slot = none → (s.dev.cluster g).nextPark slot = none →
     exec (.cpymc h o) s = .next (s.after h ((s.dev.updCluster g fun x =>
       { x with slots := tset x.slots slot t }).updCore n fun x => { x with busyUntil := b.cycle + holdCycles len }))) ∧
   (tget (s.dev.cluster g).slots slot ≠ none ∨ (s.dev.cluster g).nextPark slot ≠ none →
     exec (.cpymc h o) s = .next (s.after h ((s.dev.updCluster g fun x =>
       { x with parks := x.parks ++ [{ slot := slot, src := n, hold := t }] }).updCore n fun x =>
         { x with waits := x.waits ++ [Wait.room slot] }))))) ∧
  (∀ t : HoldSlot, let y := c.s o.y.toNat
   let slot := wfld y 0 4
   let g := 4 * dieOf n + wfld y 8 2
   let until' := b.cycle + holdCycles t.bytes.length
   isGeneral n = false → wfld y 4 4 = 0 → wfld y 10 54 = 0 → tget (s.dev.cluster g).slots slot = some t →
   t.parked = true → t.ctx = ctx → rangeFault s.dev n a t.bytes.length 64 .write = none →
   let drained := ∃ k x, t.busy = some (k, x) ∧ k ≠ n ∧ s.dev.drains k x = true
   (drained → exec (.hbdrain h o) s = .next (s.stallBundle b.base 11)) ∧
   (¬drained → 1 < t.rem → exec (.hbdrain h o) s = .next (s.after h (((spmWrite s.dev n a t.bytes).updCore n fun x =>
     { x with busyUntil := until' }).updCluster g fun x =>
       { x with slots := tset x.slots slot { t with rem := t.rem - 1, busy := some (n, until') } }))) ∧
   (¬drained → t.rem ≤ 1 → exec (.hbdrain h o) s = .next (s.after h (engineAdd s.mem
     ((((spmWrite s.dev n a t.bytes).updCore n fun x => { x with busyUntil := until' }).updCluster g fun x =>
       { x with slots := tdel x.slots slot }).release (288 + g) t.rscp) (288 + g) t.ctx t.free 1 s.time))))

/-- For every state with such a syllable in issue and executing. GSUB completes where its descriptor and its ring's can
be read, break no rule of their fields, name counters in range and an engine address, and an entry is free: the entry
is filled and its identifier sent to sy. GRED completes where its descriptor can be read, breaks no rule of its fields,
names formats that are set, a counter in range and engine addresses, and an entry is free: the entry is filled. GUNSUB
always completes: it marks a subscription of the core's context with tiles left cancelled; of an identifier of 512 or
more, of an entry that is free, of another context or of a reduction, and of a subscription whose tiles are done it has
no effect but its order; the registers of every core are as before. A bad descriptor raises SUBSCRIPTION_BAD or
REDUCTION_BAD with its reason, and without a free entry GSUB and GRED wait. (R379, R380, R381, R385) -/
def Obligations.SubscriptionSyllables : Prop :=
  ∀ (s : State) (b : Bundle) (h : Hdr) (o : YG), Issuing s b h →
  let c := b.issuer
  let n := b.core
  let ctx := (s.dev.ctxOfCore n).getD noContext
  let a := c.s o.x.toNat
  let d := s.dev.releaseFor n o.ord o.scp
  let bo := b.ordered o.ord
  let w := spmWords s.mem s.dev n a
  let ring := spmWords s.mem s.dev n (nth w 2 0)
  let put (e : Nat) (x : SubEnt) : Dev := d.updDie (dieOf n) fun y => { y with subs := tset y.subs e x }
  let fresh (red : Bool) : SubEnt :=
    { ctx := ctx, cluster := clusterOf n, isRed := red, dva := a, words := w, ring := if red then [] else ring
      next := 0, flight := [], cancelled := false, susp := false, bad := false }
  let inRange (id : Word) : Prop := ∃ r, resolveCounter s.dev ctx id = .ok r
  let readable (va : Word) : Prop := rangeFault s.dev n va 64 64 .read = none ∧ rangeBad s.dev n va 64 = none
  let w3 := nth w 3 0
  let w5 := nth w 5 0
  let tileB := wfld w5 32 32
  (∀ x q e, s.dev.ctx ctx = some x → readable a → readable (nth w 2 0) → (s.dev.die (dieOf n)).freeSub = some e →
    wfld (nth w 0 0) 0 6 = 0 → wfld (nth w 1 0) 32 32 % 64 = 0 → wfld (nth w 1 0) 0 32 ≠ 0 → tileB ≠ 0 →
    tileB % 64 = 0 → wfld w5 12 20 = 0 → wfld w5 1 2 = 0 → wfld w5 8 3 ≤ 4 → wfld w5 4 3 ≤ 4 → nth w 6 0 = 0 →
    nth w 7 0 = 0 → (w5.getLsbD 11 = true → wfld (nth w 4 0) 0 2 = 0) → ringOf x ring = some q → tileB ≤ q.size →
    (∀ id ∈ [nth w 3 0, q.cf, q.f, q.cd, q.dr], inRange id) → engineVa (nth w 0 0) = true →
    exec (.gsub h o) s = .next (s.afterWith h (sendLate (put e (fresh false)) b
      (.s (physSV c.lp o.y.toNat) (toW (dieOf n * 64 + e))) true 0) bo)) ∧
  (∀ x e, s.dev.ctx ctx = some x → readable a → (s.dev.die (dieOf n)).freeSub = some e →
    wfld (nth w 0 0) 0 6 = 0 → wfld (nth w 1 0) 0 6 = 0 → wfld (nth w 2 0) 0 6 = 0 → wfld w3 32 32 ≠ 0 →
    wfld w3 24 8 = 0 → wfld w3 8 4 = 0 → wfld w3 0 3 = 0 → wfld w5 11 53 = 0 → wfld w5 0 3 = 0 → wfld w5 8 3 ≤ 4 →
    wfld w5 4 3 ≤ 4 → nth w 6 0 = 0 → nth w 7 0 = 0 → wfld w3 6 2 ≠ 3 → wfld w3 4 2 ≠ 3 →
    reduceFmt (x.format (wfld w3 12 4)) = true → inRange (nth w 4 0) → engineVa (nth w 0 0) = true →
    (∀ i, i ≤ wfld w3 16 8 → engineVa (nth w 1 0 + toW i * nth w 2 0) = true) →
    exec (.gred h o) s = .next (s.afterWith h (put e (fresh true)) bo)) ∧
  (∃ t : Dev, exec (.gunsub h o) s = .next (s.afterWith h t bo) ∧ ∀ k, (t.core k).r = (s.dev.core k).r) ∧
  (∀ x, s.dev.ctx ctx = some x → rangeFault s.dev n a 64 64 .read = none → rangeBad s.dev n a 64 = none →
    (rangeFault s.dev n (nth w 2 0) 64 64 .read = none → rangeBad s.dev n (nth w 2 0) 64 = none →
      (∀ r, subReason s.dev ctx x w ring = some r →
        exec (.gsub h o) s = .next (s.faultBundle b.base (mkFault 0x80 a (toW r)))) ∧
      (∀ e, subReason s.dev ctx x w ring = none → (s.dev.die (dieOf n)).freeSub = some e →
        exec (.gsub h o) s = .next (s.afterWith h (sendLate (put e (fresh false)) b
          (.s (physSV c.lp o.y.toNat) (toW (dieOf n * 64 + e))) true 0) bo)) ∧
      (subReason s.dev ctx x w ring = none → (s.dev.die (dieOf n)).freeSub = none →
        exec (.gsub h o) s = .next (s.stallBundle b.base 11))) ∧
    (∀ r, redReason s.dev ctx x w = some r →
      exec (.gred h o) s = .next (s.faultBundle b.base (mkFault 0x82 a (toW r)))) ∧
    (∀ e, redReason s.dev ctx x w = none → (s.dev.die (dieOf n)).freeSub = some e →
      exec (.gred h o) s = .next (s.afterWith h (put e (fresh true)) bo)) ∧
    (redReason s.dev ctx x w = none → (s.dev.die (dieOf n)).freeSub = none →
      exec (.gred h o) s = .next (s.stallBundle b.base 11))) ∧
  (∀ e, a.toNat < 512 → tget (d.die (a.toNat / 64)).subs (a.toNat % 64) = some e → e.isRed = false → e.ctx = ctx →
    e.tilesDone = false → exec (.gunsub h o) s = .next (s.afterWith h (d.updDie (a.toNat / 64) fun y =>
      { y with subs := tset y.subs (a.toNat % 64) { e with cancelled := true } }) bo)) ∧
  (512 ≤ a.toNat ∨ tget (d.die (a.toNat / 64)).subs (a.toNat % 64) = none ∨
      (∃ e, tget (d.die (a.toNat / 64)).subs (a.toNat % 64) = some e ∧
        (e.isRed = true ∨ e.ctx ≠ ctx ∨ e.tilesDone = true)) →
    exec (.gunsub h o) s = .next (s.afterWith h d bo))

/-- For every state with such a syllable in issue and executing, whose record or descriptor can be read: TQADD places the
new task in the queue of the cluster that it names, TDQADD on the core's deque below eight entries, else in its
cluster's queue. For both, a record with a stage or parent counter out of range raises its fault; a full spill ring
raises SPILL_RING_FULL; with room in the Moraine the stake is entered and the new identifier sent, and without it the
core stalls. A cluster queue takes a record below 32 entries with an empty spill ring; else the ring does, while it has
an entry free and spilling is not suspended, and is full otherwise. TDQTAKE takes the newest entry of the deque, stores
its record and completes it as cancelled, or answers 0; TCANCEL answers what R427 says; TLAUNCH of a configured stream
appends its descriptor in turn and is answered under a new tag, of another raises DEQUE_STATE reason 4. On a general
core TDQADD and TDQTAKE raise DEQUE_STATE reason 1. (R274, R414, R416, R417, R423, R425, R426, R427, R429) -/
def Obligations.TaskSyllables : Prop :=
  ∀ (s : State) (b : Bundle) (h : Hdr) (o : YG), Issuing s b h →
  let c := b.issuer
  let n := b.core
  let ctx := (s.dev.ctxOfCore n).getD noContext
  let a := c.s o.x.toNat
  let bo := b.ordered o.ord
  let now := s.dev.releaseFor n o.ord o.scp
  let die := moraineDie s.dev n ctx
  let send (d : Dev) (v : Word) : Dev := sendLate d b (.s (physSV c.lp o.y.toNat) v) true 0
  let reads (w : List Word) : Prop := w.length = 8 ∧
    ((isGeneral n = false ∧ rangeFault s.dev n a 64 64 .read = none ∧ rangeBad s.dev n a 64 = none ∧
        w = spmWords s.mem s.dev n a) ∨
      (isGeneral n = true ∧ a.toNat % 64 = 0 ∧ ∀ f, readImage s b c true a 64 f = f (bytesOfWords w)))
  (isGeneral n = true →
    exec (.tdqadd h o) s = .next (s.faultBundle b.base (mkFault 0xA3 (sylWord (.tdqadd h o)) 1)) ∧
    exec (.tdqtake h o) s = .next (s.faultBundle b.base (mkFault 0xA3 (sylWord (.tdqtake h o)) 1))) ∧
  (∀ w g, reads w →
    let made := newId now g
    let e : QEntry := { words := w, id := made.1, ctx := ctx }
    let x := made.2.cluster g
    let ring := x.ringOf ctx
    let tail := appendQueue s.mem made.2 g e s.time
    let push : Placed := if (made.2.core n).deque.length < 8 then
      .ok (made.2.updCore n fun y => { y with deque := y.deque ++ [e] }) else tail
    (∀ i p,
      (i = Instr.tqadd h o ∧ p = tail ∧ (o.imm.getLsbD 5 = false → isGeneral n = false ∧ g = clusterOf n) ∧
        (o.imm.getLsbD 5 = true → (((s.dev.partOfCtx ctx).map (·.clusters)).getD [])[o.imm.toNat % 32]? = some g)) ∨
      (i = Instr.tdqadd h o ∧ p = push ∧ isGeneral n = false ∧ g = clusterOf n) →
      (∀ f, recRange s.mem s.dev ctx w = some f → exec i s = .next (s.faultBundle b.base f)) ∧
      (recRange s.mem s.dev ctx w = none →
        (∀ d, p = .ok d → moraineRoom s.dev die ctx [recDelta w 1] = true → exec i s = .next (s.afterWith h
          (send (enterDeltas d n die ctx [recDelta w 1] s.time) e.id) bo)) ∧
        (∀ d, p = .ok d → moraineRoom s.dev die ctx [recDelta w 1] = false →
          exec i s = .next (s.stallBundle (b.base.reportFull die ctx s.time) 7)) ∧
        (∀ k, p = .full k → exec i s = .next (s.faultBundle (b.base.releaseFor n o.ord o.scp)
          (mkFault 0xA2 a (toW (g * 2 ^ 32 + k))))) ∧
        (p = .wait → exec i s = .next (s.stallBundle b.base 11)) ∧
        (∀ f, p = .fault f → exec i s = .next (s.stallBundle (b.base.spillFault g ctx f s.time) 11)))) ∧
    (∀ q, made.2.queueOf g ctx = some q → let direct := ring.swr = ring.srd ∧ q.length < 32
      (direct → tail = .ok (made.2.updQueue g ctx fun l => l ++ [e])) ∧
      (¬direct → 2 ^ ring.log2 ≤ (ring.swr - ring.srd).toNat → tail = .full ring.log2) ∧
      (¬direct → (ring.swr - ring.srd).toNat < 2 ^ ring.log2 →
        (x.spillStop = true → tail = .wait) ∧
        (∀ d, x.spillStop = false → engineStore s.mem made.2 (taskEngine g) ctx (ring.entryVa ring.swr.toNat)
            (spillEntry e false) none s.time = .ok d →
          tail = .ok (d.updRing g ctx fun r => { r with swr := r.swr + 1, ids := r.ids ++ [e.id] })))) ∧
    (made.2.residentOn (g / 4) = some ctx → made.2.queueOf g ctx = some x.queue ∧
      (made.2.updQueue g ctx fun l => l ++ [e]) = made.2.updCluster g fun y => { y with queue := y.queue ++ [e] })) ∧
  (isGeneral n = false → rangeFault s.dev n a 64 64 .write = none →
    ((s.dev.core n).deque = [] → exec (.tdqtake h o) s = .next (s.after h (send s.dev 0))) ∧
    (∀ l q, (s.dev.core n).deque = l ++ [q] → moraineRoom s.dev (dieOf n) q.ctx [recDelta q.words (-1)] = true →
      exec (.tdqtake h o) s = .next (s.after h (send ((spmWrite (s.dev.updCore n fun x => { x with deque := l }) n a
        (bytesOfWords q.words)).endUnstarted s.mem (clusterOf n) q 2 s.time) q.id))) ∧
    (∀ l q, (s.dev.core n).deque = l ++ [q] → moraineRoom s.dev (dieOf n) q.ctx [recDelta q.words (-1)] = false →
      exec (.tdqtake h o) s = .next (s.stallBundle (b.base.reportFull (dieOf n) q.ctx s.time) 7))) ∧
  (∀ d v, cancelTask s.mem now ctx a s.time = .done d v →
    exec (.tcancel h o) s = .next (s.afterWith h (send d (toW v)) bo)) ∧
  (∀ x k, s.dev.ctx ctx = some x → k = o.imm.toNat % 16 →
    ((x.stream k).log2 = 0 →
      exec (.tlaunch h o) s = .next (s.faultBundle b.base (mkFault 0xA3 (sylWord (.tlaunch h o)) 4))) ∧
    (∀ w, (x.stream k).log2 ≠ 0 → reads w →
    let tag := (s.dev.core n).nextTag
    exec (.tlaunch h o) s = .next (s.afterWith h (pumpAppends s.mem ctx k s.time 1024
      (((sendLate now b (.s (physSV c.lp o.y.toNat) 0) false tag).updCore n fun x =>
        { x with nextTag := tag + 1 }).updStream ctx k fun q =>
          { q with appends := q.appends ++ [{ core := n, tag := tag, words := w }] })) bo)))

/-- For every state with such a syllable in issue and executing, whose descriptor at a multiple of its alignment can be
read and has no reason to be refused: the first five send their operation with the range to the home Firn, FILREQ
and KVPROBE with a result, and KVPROBE a handle, answered under a new tag; for each of them a misaligned descriptor
raises MISALIGNED and one with a reason KV_PAGE_BAD, and KVPROBE of a bound or pending handle HANDLE_STATE. CALVE of a
target of a valid package sends a notice where its word is an exit and else has only its order. CALVE_ARM waits while
an arm is not complete or a notice is held; else it installs the target and its time, drops the target's pending notices
of earlier times, counting them, and applies those of that time in arrival order; a misaligned descriptor raises
MISALIGNED, a bad one REMOTE_FAULT, and a counter out of range COUNTER_RANGE. (R436, R437, R439, R440, R470, R471,
R472, R473) -/
def Obligations.FillAndCalvingSyllables : Prop :=
  ∀ (s : State) (b : Bundle) (h : Hdr) (o : YG), Issuing s b h →
  let c := b.issuer
  let n := b.core
  let ctx := (s.dev.ctxOfCore n).getD noContext
  let a := c.s o.x.toNat
  let z := c.s o.z.toNat
  let tag := (s.dev.core n).nextTag
  let d := s.dev.releaseFor n o.ord o.scp
  let late (d : Dev) : Dev := sendLate d b (.s (physSV c.lp o.y.toNat) 0) false tag
  let free (hn : Nat) : Prop := c.h hn = .unbound ∧
    (c.pend.any fun e => match e.res with | .h k _ => k = hn | _ => false) = false
  let marks : List Instr := [.kvmarkValid h o, .kvmarkExit h o, .kvmarkClear h o]
  (¬free (o.imm.toNat % 64) →
    exec (.kvprobe h o) s = .next (s.faultBundle b.base (handleFault 0 (o.imm.toNat % 64) 1))) ∧
  (a.toNat % 64 ≠ 0 →
    (∀ i ∈ Instr.filreq h o :: marks, exec i s = .next (s.faultBundle b.base (mkFault 0x36 a 0))) ∧
    (free (o.imm.toNat % 64) → exec (.kvprobe h o) s = .next (s.faultBundle b.base (mkFault 0x36 a 0)))) ∧
  (∀ w : List Word, a.toNat % 64 = 0 → (∀ f, readImage s b c true a 64 f = f (bytesOfWords w)) → w.length = 8 →
    let q (kind : Nat) : FirnOp :=
      { ctx := ctx, core := n, kind := kind, dva := a, words := w, t0 := wfld z 0 32, n := wfld z 32 16
        b := wfld z 48 10, tag := tag, task := c.task.map (·.id), no := 0, susp := false }
    let op (kind : Nat) (d : Dev) : Dev :=
      let d := d.updCore n fun x => { x with nextTag := tag + 1 }
      d.sendFirn (d.rootDie ctx) (q kind)
    (∀ r, kvReason s.dev ctx w z false = some r →
      exec (.filreq h o) s = .next (s.faultBundle b.base (mkFault 0xB0 a (toW r))) ∧
      (free (o.imm.toNat % 64) → exec (.kvprobe h o) s = .next (s.faultBundle b.base (mkFault 0xB0 a (toW r))))) ∧
    (∀ r, kvReason s.dev ctx w z true = some r →
      ∀ i ∈ marks, exec i s = .next (s.faultBundle b.base (mkFault 0xB0 a (toW r)))) ∧
    (kvReason s.dev ctx w z false = none → exec (.filreq h o) s = .next (s.after h (op 0 (late d))) ∧
      (∀ hn, hn = o.imm.toNat % 64 → free hn →
        exec (.kvprobe h o) s = .next (s.after h (op 1 (sendLate (late d) b (.h hn .pending) false tag))))) ∧
    (kvReason s.dev ctx w z true = none →
      exec (.kvmarkValid h o) s = .next (s.afterWith h (op 2 d) (b.ordered o.ord)) ∧
      exec (.kvmarkExit h o) s = .next (s.afterWith h (op 3 d) (b.ordered o.ord)) ∧
      exec (.kvmarkClear h o) s = .next (s.afterWith h (op 4 d) (b.ordered o.ord)))) ∧
  (let y := c.s o.y.toNat
   (a.getLsbD 63 = true ∧ 383 < wfld a 54 9 → exec (.calve h o) s = .next (s.faultBundle b.base
     (mkFault 0xC1 a (toW (wfld a 54 9 * 2 ^ 32 + 7))))) ∧
   (¬(a.getLsbD 63 = true ∧ 383 < wfld a 54 9) →
     (wfld y 32 2 ≠ 2 → exec (.calve h o) s = .next (s.afterWith h d (b.ordered o.ord))) ∧
     (wfld y 32 2 = 2 → let pkg := if a.getLsbD 63 = true then wfld a 54 9 else Config.packageNumber
       exec (.calve h o) s = .next (s.afterWith h { d with remote := d.remote ++
       [{ src := n, ctx := (d.ctxOfCore n).getD noContext, pkg := pkg, kind := .notice, ident := a
          pa := y.toNat, data := [], val := z, tag := 0, phase := 0, start := s.time
          port := d.portFor d.remote pkg }] } (b.ordered o.ord))))) ∧
  (a.toNat % 32 ≠ 0 → exec (.calveArm h o) s = .next (s.faultBundle b.base (mkFault 0x36 a 0))) ∧
  (∀ (w : List Word), a.toNat % 32 = 0 → (∀ f, readImage s b c true a 32 f = f (bytesOfWords w)) → w.length = 4 →
    let w3 := nth w 3 0
    let i := wfld w3 16 6
    let good := wfld w3 22 42 = 0 ∧ wfld w3 13 3 = 0 ∧ 1 ≤ wfld w3 0 13 ∧ wfld w3 0 13 ≤ 4096 ∧
      (nth w 0 0).toNat % 4 = 0 ∧ (nth w 1 0).toNat % 64 = 0
    (¬good → exec (.calveArm h o) s = .next (s.faultBundle b.base (mkFault 0xC1 a (targetFault i).2))) ∧
    (∀ r, good → resolveCounter s.dev ctx (nth w 2 0) = .error r →
      exec (.calveArm h o) s = .next (s.faultBundle b.base (mkFault 0x42 (nth w 2 0) (toW r)))) ∧
    (∀ (x : Ctx) q, good → resolveCounter s.dev ctx (nth w 2 0) = .ok q → s.dev.ctx ctx = some x →
      (x.calv.arm ≠ none ∨ x.calv.held ≠ [] → exec (.calveArm h o) s = .next (s.stallBundle b.base 11)) ∧
      (x.calv.arm = none → x.calv.held = [] →
        let tcur := match tget x.calv.targets i with
          | some (_, t) => if t.toNat < z.toNat then z else t
          | none => z
        let mine (q : Notice) : Bool := q.target = i && decide (q.time.toNat ≤ tcur.toNat)
        exec (.calveArm h o) s = .next (s.after h (runArm s.mem ctx n tag w s.time
          (x.calv.pending.filter fun q => mine q && decide (q.time = tcur)) 0
          (((late s.dev).updCore n fun y => { y with nextTag := tag + 1 }).updCalv ctx fun v => { v with
            targets := tset v.targets i (w, tcur)
            pending := v.pending.filter fun q => !mine q
            stale := sat16 v.stale (x.calv.pending.filter fun q => mine q && decide (q.time ≠ tcur)).length }))))))

/-- For every state with such a syllable in issue and executing: with a readable descriptor whose fields and own rank
are valid, whose group names this package at that rank and whose counter is in range, the rank joins its collective;
a descriptor that cannot be read raises the fault of its range, one with bad fields COLLECTIVE_MISMATCH reason 1, a
rank that the group does not have reason 2. (R474, R475, R479) -/
def Obligations.CollectiveSyllables : Prop :=
  ∀ (s : State) (b : Bundle) (h : Hdr) (o : YG), Issuing s b h →
  let c := b.issuer
  let n := b.core
  let ctx := (s.dev.ctxOfCore n).getD noContext
  let a := c.s o.x.toNat
  let w := spmWords s.mem s.dev n a
  ∀ i form, (i, form) ∈ [(Instr.colred h o, 0), (.colbc h o, 1), (.colag h o, 2)] →
    (∀ e, rangeFault s.dev n a 64 64 .read = some e → exec i s = .next (s.faultBundle b.base e)) ∧
    (rangeFault s.dev n a 64 64 .read = none → rangeBad s.dev n a 64 = none →
      (colBad s.dev ctx form w = true → exec i s = .next (s.faultBundle b.base (colMismatch a w 1))) ∧
      (colBad s.dev ctx form w = false → colNrank w ≤ colRankNo w →
        exec i s = .next (s.faultBundle b.base (colMismatch a w 2))) ∧
      (∀ bs q d, colBad s.dev ctx form w = false → colRankNo w < colNrank w →
        (∀ f, readImage s b c true (nth w 2 0 + toW (2 * colRankNo w)) 2 f = f bs) →
        ofBytes bs = Config.packageNumber → resolveCounter s.dev ctx (nth w 4 0) = .ok q →
        joinCol (s.dev.releaseFor n o.ord o.scp) form (((s.dev.ctx ctx).map (·.part)).getD 0) s.time
          { core := n, ctx := ctx, dva := a, words := w } = some d →
        exec i s = .next (s.afterWith h d (b.ordered o.ord))))

/-- For every state with such a syllable in issue and executing: a number that the core does not have raises
ILLEGAL_SYLLABLE; a writing form of a privileged register off a privileged general core raises PRIVILEGE_VIOLATION;
CSRS and CSRC of GEN.SLOTOP, and a write of it with OP 3, raise SLOT_INVALID reason 4; otherwise, but for a write of GEN.SLOTOP, sd awaits the old
value under a new tag and the action is queued behind the core's earlier ones, for a cycle after the issue. The first
queued action, performed in its cycle, is one indivisible access whose old value reaches sd: it returns the register,
VEC.GEN as it was when the syllable issued, clears the counts that a read clears, and the three writing forms store the
operand, the union, and the register less the operand's bits. The number of cycles before an action is the model's free
value (log entry 26). (R63, R77, R175, R312, R453, R5) -/
def Obligations.ControlRegisterForms : Prop :=
  (∀ (s : State) (b : Bundle) (h : Hdr) (o : ZC), Issuing s b h →
  let c := b.issuer
  let n := o.csr.toNat
  let a := c.s o.a.toNat
  let priv := isGeneral b.core && c.seq.priv
  let y := s.dev.core b.core
  ∀ i wr op, (i, wr, op) ∈ [(Instr.csrr h o, false, CsrOp.read), (.csrw h o, true, .write), (.csrs h o, true, .set),
      (.csrc h o, true, .clear)] →
    (csrAssigned (isGeneral b.core) n = false → exec i s = .next (s.faultBundle b.base (mkFault 0x03 (sylWord i) 0))) ∧
    (csrAssigned (isGeneral b.core) n = true → wr = true → csrPrivileged n = true → priv = false →
      exec i s = .next (s.faultBundle b.base (mkFault 0x05 (sylWord i) 0))) ∧
    (n = 0xB008 → csrAssigned (isGeneral b.core) n = true → op = .set ∨ op = .clear →
      (csrPrivileged n = true → priv = true) →
      exec i s = .next (s.faultBundle b.base (mkFault 0xB9 (sylWord i) (toW (wfld a 0 16 * 2 ^ 48 + 4))))) ∧
    (n = 0xB008 → csrAssigned (isGeneral b.core) n = true → op = .write → (csrPrivileged n = true → priv = true) →
      y.csrq ≠ [] → exec i s = .next (s.stallBundle b.base 11)) ∧
    (n = 0xB008 → csrAssigned (isGeneral b.core) n = true → op = .write → (csrPrivileged n = true → priv = true) →
      y.csrq = [] → wfld a 62 2 = 3 →
      exec i s = .next (s.faultBundle b.base (mkFault 0xB9 (sylWord i) (toW (wfld a 0 16 * 2 ^ 48 + 4))))) ∧
    (csrAssigned (isGeneral b.core) n = true → (wr = true → csrPrivileged n = true → priv = true) →
      (wr = true → n ≠ 0xB008) →
      ∃ at', b.cycle < at' ∧ (∀ e ∈ y.csrq.getLast?, e.at' ≤ at') ∧
      exec i s = .next (s.after h ((sendLate s.dev b (.s (physSV c.lp o.d.toNat) 0) false y.nextTag).updCore b.core
        fun y => { y with
          nextTag := y.nextTag + 1
          csrq := y.csrq ++ [{ op := op, csr := n, a := a, tag := y.nextTag, at' := at', val := y.r.gen }] })))) ∧
  (∀ (x : CsrAt) (d : Dev) (n : Nat) (a : Word),
    let old := csrValue x d n
    let read := csrClear x d n
    csrAccess x d .read n a = (old, read) ∧ csrAccess x d .write n a = (old, csrStore x read n a) ∧
    csrAccess x d .set n a = (old, csrStore x read n (old ||| a)) ∧
    csrAccess x d .clear n a = (old, csrStore x read n (old &&& ~~~a))) ∧
  ∀ (s : State) (n : Nat) (e : CsrAct) (t : List CsrAct) (q : Pend) (i : Nat), (s.dev.core n).csrq = e :: t →
    let x : CsrAt := { mem := s.mem, core := n, cycle := e.at', time := s.time, free := s.free }
    let d := s.dev.updCore n fun c => { c with
      csrq := t, ready := max c.ready e.at'
      heldSum := c.heldSum + match c.run with | .held _ => e.at' - c.ready | _ => 0 }
    let after := (csrAccess x d e.op e.csr e.a).2
    let old := if e.csr = 0x4000 then e.val else (csrAccess x d e.op e.csr e.a).1
    e.tag ≠ 0 → (after.core n).pend.findIdx? (fun r => r.tag = e.tag) = some i → (after.core n).pend[i]? = some q →
    q.ready = false → (∃ r v, q.res = .s r v) →
    needOf s.mem s.dev n = some (.register n) → ∀ ex, turn ex s n = .next (({ s with dev :=
      (after.updCore n fun c => ((c.answerS e.tag old).landAt i)).actReset }).settle.tick)

/-- For every state and value written: SEQ.SB keeps bit 0; TVEC and EPC keep a bundle address; SCR0 to SCR3 keep the
word; ESTAT keeps its three mode bits and CAUSE; ROW.RLEN keeps bits 8 to 0, ROW.DBASE a multiple of 64, the
thresholds their fields; MAT.DRAIN its fields, with RM 3 leaving RM; and VEC.GEN reads the generator. A read of a
register that the write did not name returns what it returned before, for these registers. (R176, R180, R312, R339,
R340, R370) -/
def Obligations.SpecialRegistersReadBack : Prop :=
  ∀ (x : CsrAt) (d : Dev) (v : Word),
  let regs : List (Nat × Word) :=
    [(0x0000, v &&& 1), (0x0020, bundleAddr v), (0x0021, bundleAddr v),
     (0x0022, (v &&& 7) ||| (csrValue x d 0x0022 &&& 0xFF00)), (0x0023, v), (0x0024, v), (0x0025, v), (0x0026, v),
     (0x5001, v &&& 0x1FF), (0x5002, v &&& ~~~(63 : Word)), (0x5004, v &&& 0xFF000000FFFFFFFF),
     (0x5005, v &&& 0xFF000000FFFFFFFF), (0x5006, v &&& 0xFF000000FFFFFFFF), (0x5007, v &&& 0xFF000000FFFFFFFF),
     (0x6002, if (v >>> (20 : Nat)) &&& 3 = 3 then (v &&& 0x4F0FFF) ||| (csrValue x d 0x6002 &&& 0x300000)
       else v &&& 0x7F0FFF)]
  (∀ q ∈ regs, csrValue x (csrStore x d q.1 v) q.1 = q.2) ∧
  (∀ q ∈ regs, ∀ k ∈ regs, q.1 ≠ k.1 → csrValue x (csrStore x d q.1 v) k.1 = csrValue x d k.1) ∧
  csrValue x d 0x4000 = (d.core x.core).r.gen

/-- For every state with such a syllable in issue and executing: TMARK appends its mark to the core's trace; SMPCTL sets
the context's sampling, which the core applies from its next bundle and the other cores of the partition are to apply
within 1 µs; BKPT in a debuggable context gives the bundle a
stop with its immediate, WPSET sets and WPCLR clears watchpoints of the context and the core; BKPT and WPSET in
another context raise DEBUG_REFUSED; TAGINV makes the entries of the block that its address translates to stale,
TAGFLUSH those of the context, and on a general core neither has an effect. (R234, R495, R498, R499, R500) -/
def Obligations.TraceAndDebugSyllables : Prop :=
  ∀ (s : State) (b : Bundle) (h : Hdr), Issuing s b h →
  let c := b.issuer
  let n := b.core
  let debuggable := s.dev.debuggable n
  let g := clusterOf n
  let ctx := (s.dev.ctxOfCore n).getD noContext
  (∀ o : ZI, exec (.tmark h o) s = .next (s.after h
    (s.dev.traceCore s.mem n c.inBundle b.addr 2 (o.imm.toNat % 256) 0 (c.s o.a.toNat) s.time))) ∧
  (∀ o : ZI, (∀ k, s.dev.ctxOfCore n = some k → exec (.smpctl h o) s = .next (s.after h ((s.dev.updCtx k fun x =>
      { (x.setSampling (o.imm.getLsbD 0) (o.imm.getLsbD 1) ((c.s o.a.toNat).toNat % 2 ^ 32)) with
        smpTodo := addTodo (s.dev.othersOf n k) s.time x.smpTodo }).applySampling n (b.cycle + 1)))) ∧
    (s.dev.ctxOfCore n = none → exec (.smpctl h o) s = .next (s.after h s.dev))) ∧
  (∀ o : ZI, (debuggable = true → exec (.bkpt h o) s = .next (s.afterWith h s.dev
      (b.withStop (mkStop 0xD1 (toW o.imm.toNat) 1)))) ∧
    (debuggable = false → exec (.bkpt h o) s =
      .next (s.faultBundle b.base (mkFault 0xD0 (sylWord (.bkpt h o)) 1)))) ∧
  (∀ o : ZG, (debuggable = true → exec (.wpset h o) s = .next (s.after h (s.dev.setWatch n s.time fun t =>
      tset t (o.imm.toNat % 4) { addr := c.s o.x.toNat, len := min (max (c.s o.y.toNat).toNat 1) (2 ^ 32),
                                 kind := o.imm.extractLsb' 2 2 }))) ∧
    (debuggable = false → exec (.wpset h o) s =
      .next (s.faultBundle b.base (mkFault 0xD0 (sylWord (.wpset h o)) 2)))) ∧
  (∀ o : ZI, exec (.wpclr h o) s = .next (s.after h (s.dev.setWatch n s.time fun t =>
    if o.imm.getLsbD 2 = true then [] else tdel t (o.imm.toNat % 4)))) ∧
  (∀ o : ZG, let va := c.s o.x.toNat
    (isGeneral n = true → exec (.taginv h o) s = .next (s.after h s.dev)) ∧
    (∀ t, isGeneral n = false → wfld va 57 7 = 0 → inAperture va.toNat = false →
      translate s.mem s.dev (walkBad s.dev) ctx (some g) va .read = .ok t → t.remote = none →
      exec (.taginv h o) s = .next (s.after h (s.dev.updCluster g fun x =>
        x.makeStale (s.dev.inPhase g) fun e => decide (e.ctx = ctx ∧ e.block = t.pa / 4096))))) ∧
  (isGeneral n = true → exec (.tagflush h) s = .next (s.after h s.dev)) ∧
  (isGeneral n = false → exec (.tagflush h) s = .next (s.after h (s.dev.updCluster g fun x =>
    x.makeStale (s.dev.inPhase g) fun e => decide (e.ctx = ctx))))

/-- For every state with such a syllable in issue and executing on a privileged general core: each operation with no
reason to be refused has its effect and answers its number or 0 in sb: form makes the partition, dissolve removes
one without contexts and is refused with reason 7 otherwise, preempt asks every core of it to halt, queue reset empties
the context's queues, create makes the context, resident where its partition has none and no swap runs, destroy removes
one that is not resident or in use and is refused with reason 7 otherwise, inval drops its translations once no access is
under way with one of them, attest writes its report to memory and is refused with reason 8 at any other physical
address; save, restore and exchange begin a swap answered under a new tag; each with a reason answers 2^63 plus the
reason and has no other effect. (R509, R510, R508, R35, R36) -/
def Obligations.FirmwareOperations : Prop :=
  ∀ (s : State) (b : Bundle) (h : Hdr) (o : ZG), Issuing s b h →
  let c := b.issuer
  let n := b.core
  let x := c.s o.x.toNat
  let z := c.s o.z.toNat
  let tells (d : Dev) (v : Word) : Host.Outcome State Fault Refusal :=
    .next (s.after h (sendLate d b (.s (physSV c.lp o.y.toNat) v) true 0))
  let refuses (r : Nat) : Host.Outcome State Fault Refusal := tells s.dev (toW (2 ^ 63 + r))
  isGeneral n = true → c.seq.priv = true →
  (∀ w : List Word, w.length = 4 → (∀ f, readImage s b c true z 32 f = f (bytesOfWords w)) →
    let dies : BitVec 8 := x.setWidth 8
    (∀ r, formReason s.dev dies w = some r → exec (.partopForm h o) s = refuses r) ∧
    (∀ k, formReason s.dev dies w = none → ((List.range 8).find? fun i => (tget s.dev.parts i).isNone) = some k →
      exec (.partopForm h o) s = tells (s.dev.setPart k (newPart dies (nth w 0 0).toNat (nth w 1 0).toNat
        (nth w 2 0).toNat ((nth w 3 0).setWidth 16))) (toW k))) ∧
  (tget s.dev.parts x.toNat = none → ∀ i, i ∈ [Instr.partopDissolve h o, .partopPreempt h o, .swapopSave h o,
    .swapopRestore h o, .swapopExch h o] → exec i s = refuses 1) ∧
  (∀ p, tget s.dev.parts x.toNat = some p →
    (s.dev.ctxs.any (fun (_, y) => y.part = x.toNat) = false →
      exec (.partopDissolve h o) s = tells { s.dev with parts := tdel s.dev.parts x.toNat } 0) ∧
    (s.dev.ctxs.any (fun (_, y) => y.part = x.toNat) = true → exec (.partopDissolve h o) s = refuses 7) ∧
    exec (.partopPreempt h o) s = tells (s.dev.preemptPart x.toNat p) 0 ∧
    (∀ i code, (i, code) ∈ [(Instr.swapopSave h o, 1), (.swapopRestore h o, 2), (.swapopExch h o, 3)] →
      (∀ r, swapReason s.dev p code z = some r → exec i s = refuses r) ∧
      (swapReason s.dev p code z = none → let tag := (s.dev.core n).nextTag
        exec i s = .next (s.after h (((sendLate s.dev b (.s (physSV c.lp o.y.toNat) 0) false tag).updCore n
          fun y => { y with nextTag := tag + 1 }).setPart x.toNat
            { p with swap := some (code, z.toNat), swapAt := (p.swapFrom s.time), swapLeft := p.dieList,
                     swapBy := (n, tag) }))))) ∧
  (s.dev.ctx x.toNat = none → ∀ i, i ∈ [Instr.partopQreset h o, .ctxopDestroy h o, .ctxopInval h o, .ctxopAttest h o] →
    exec i s = refuses 8) ∧
  (∀ k, s.dev.ctx x.toNat = some k →
    exec (.partopQreset h o) s = tells (queueReset s.mem s.dev x.toNat s.time) 0 ∧
    (let used := (∃ p ∈ s.dev.parts, p.2.resident = some x.toNat ∨ p.2.swap = some (2, x.toNat) ∨
        p.2.swap = some (3, x.toNat)) ∨ ∃ q ∈ s.dev.genPart, q.2.2 = x.toNat
     (used → exec (.ctxopDestroy h o) s = refuses 7) ∧
     (¬used → exec (.ctxopDestroy h o) s = tells ((s.dev.sealUnits s.mem k).eraseCtx x.toNat) 0)) ∧
    (let size := o.imm.toNat / 16
     exec (.ctxopInval h o) s = if s.dev.underOld x.toNat z.toNat size then .next (s.stallBundle b.base 11)
       else tells (s.dev.dropTranslations x.toNat z.toNat size) 0) ∧
    (inMemory z.toNat 640 = true → exec (.ctxopAttest h o) s = tells ((s.dev.writeAll systemUnit z.toNat
      (report x.toNat k (readBytes s.mem s.dev n z.toNat 32) s.dev.sys.feata0 s.free)).clearGranules z.toNat 640) 0) ∧
    (inMemory z.toNat 640 = false → exec (.ctxopAttest h o) s = refuses 8)) ∧
  (∀ w : List Word, w.length = 32 → (∀ f, readImage s b c true z 256 f = f (bytesOfWords w)) →
    let k := newCtx x.toNat s.free w
    (∀ r, createReason s.mem s.dev x.toNat k = some r → exec (.ctxopCreate h o) s = refuses r) ∧
    (∀ p i, createReason s.mem s.dev x.toNat k = none → tget s.dev.parts x.toNat = some p →
      p.resident ≠ none ∨ p.swap ≠ none →
      ((List.range 64).find? fun i => (s.dev.ctx i).isNone) = some i →
      exec (.ctxopCreate h o) s = tells (s.dev.setCtx i k) (toW i)) ∧
    (∀ p i, createReason s.mem s.dev x.toNat k = none → tget s.dev.parts x.toNat = some p → p.resident = none →
      p.swap = none → ((List.range 64).find? fun i => (s.dev.ctx i).isNone) = some i →
      exec (.ctxopCreate h o) s = tells (((s.dev.setCtx i k).setPart x.toNat
        { p with resident := some i, preempt := false }).freshCores p) (toW i)))

/-- For every state with such a syllable in issue and executing on a tensor core, or on a general core in user mode: the
bundle takes the fault, with the syllable as INFO0, and has no effect. (R77) -/
def Obligations.PrivilegedForms : Prop :=
  ∀ (s : State) (b : Bundle) (h : Hdr) (o : ZG), Issuing s b h →
  (isGeneral b.core = false ∨ b.issuer.seq.priv = false) →
  (∀ i, i ∈ [Instr.partopForm h o, .partopDissolve h o, .partopPreempt h o, .partopQreset h o, .ctxopCreate h o,
      .ctxopDestroy h o, .ctxopInval h o, .ctxopAttest h o, .swapopSave h o, .swapopRestore h o, .swapopExch h o] →
    exec i s = .next (s.faultBundle b.base (mkFault 0x05 (sylWord i) 0))) ∧
  (∀ q : ZC, csrAssigned (isGeneral b.core) q.csr.toNat = true → csrPrivileged q.csr.toNat = true →
    ∀ i, i ∈ [Instr.csrw h q, .csrs h q, .csrc h q] →
    exec i s = .next (s.faultBundle b.base (mkFault 0x05 (sylWord i) 0))) ∧
  exec (.tret h) s = .next (s.faultBundle b.base (mkFault 0x0C 0 0))

/-- For every core, event, record and addresses: after trap entry EPC is the address of the next bundle for a stop and
of the bundle otherwise, ESTAT holds the old mode and interrupt enable and the cause, interrupts are off, the record
and its number stand in FREC and SEQNO, the loop state is set aside and no level is active, the core is privileged and
goes on at TVEC; its registers, predicates and results in flight are unchanged. On a general core in user mode taking
an event is this entry, with the core's next record number; in privileged mode the core stops. (R184, R186) -/
def Obligations.TrapEntry : Prop :=
  (∀ (c : Core) (e : Event) (baddr next : Word) (no : BitVec 32) (words : List Word),
  let t := c.trapEntry e baddr next no words
  t.seq.epc = bundleAddr (if e.kind = EvKind.stop then next else baddr) ∧ t.seq.ppriv = c.seq.priv ∧
  t.seq.pie = c.seq.ie ∧ t.seq.ie = false ∧ t.seq.cause = e.cause ∧ t.seq.frec = words ∧ t.seq.seqno = no ∧
  t.lpSaved = c.lp ∧
  (∀ l, (t.lp.level l).active = false ∧ (t.lp.level l).stride0 = 0) ∧ t.lp.rrb = 0 ∧ t.lp.kb = 0 ∧
  t.seq.priv = true ∧ t.pc = c.seq.tvec ∧ t.ready = c.ready + 1 ∧ t.r = c.r ∧ t.pend = c.pend ∧
  t.seq.tvec = c.seq.tvec ∧ t.seq.scr = c.seq.scr ∧ t.seq.sb = c.seq.sb) ∧
(∀ (m : Memory) (d : Dev) (n : Nat) (b : Core) (baddr next : Word) (e : Event) (time : Nat), isGeneral n = true →
  let t := d.takeEvent m n b baddr next e time
  ((d.core n).seq.priv = false → ∃ words, t.core n = (d.core n).trapEntry e baddr next (d.seqnoOf n) words) ∧
  ((d.core n).seq.priv = true → (t.core n).run = .stopped ∧ (t.core n).pc = (d.core n).pc) ∧
  (∀ k, k ≠ n → t.core k = d.core k))

/-- For every state with TRET in issue and executing on a privileged general core: the bundle completes with a return;
on any other core it raises TRET's fault; and a core after the return goes on at EPC, with PRIV and IE as saved, the
rotation, modulo loop, buffer and levels that trap entry set aside, and every register and other sequencer register
unchanged. A return after trap entry restores mode and interrupt enable. (R185) -/
def Obligations.ReturnFromEvent : Prop :=
  (∀ (s : State) (b : Bundle) (h : Hdr), Issuing s b h → isGeneral b.core = true → b.issuer.seq.priv = true →
  exec (.tret h) s = .next (s.afterWith h s.dev { b with ctl := .tret (decide (b.ctl = .sleep)) })) ∧
(∀ (s : State) (b : Bundle) (h : Hdr), Issuing s b h → ¬(isGeneral b.core = true ∧ b.issuer.seq.priv = true) →
  exec (.tret h) s = .next (s.faultBundle b.base (mkFault 0x0C 0 0))) ∧
(∀ (c : Core) (b : Bundle) (sleeps : Bool) (code : Word → Option Word), b.ctl = .tret sleeps →
  let t := c.flow b code
  t.pc = c.seq.epc ∧ t.seq.priv = c.seq.ppriv ∧ t.seq.ie = c.seq.pie ∧ t.seq.epc = c.seq.epc ∧
  t.seq.tvec = c.seq.tvec ∧ t.lp.rrb = c.lpSaved.rrb ∧ t.lp.kb = c.lpSaved.kb ∧ t.lp.mloop = c.lpSaved.mloop ∧
  t.lp.buffer = c.lpSaved.buffer ∧ t.lp.depth = c.lpSaved.depth ∧
  (∀ l, (t.lp.level l).active = (c.lpSaved.level l).active ∧ (t.lp.level l).index = (c.lpSaved.level l).index ∧
    (t.lp.level l).count = (c.lpSaved.level l).count ∧ (t.lp.level l).body = (c.lpSaved.level l).body ∧
    (t.lp.level l).len = (c.lpSaved.level l).len ∧ (t.lp.level l).stride0 = (c.lpSaved.level l).stride0 ∧
    (t.lp.level l).stride1 = (c.lpSaved.level l).stride1 ∧ (t.lp.level l).stride2 = (c.lpSaved.level l).stride2 ∧
    (t.lp.level l).stride3 = (c.lpSaved.level l).stride3) ∧
  t.r = c.r ∧ t.pend = c.pend ∧ t.run = (if sleeps = true then .asleep else c.run)) ∧
(∀ (c : Core) (e : Event) (baddr next : Word) (no : BitVec 32) (words : List Word) (code : Word → Option Word),
  let t := (c.trapEntry e baddr next no words).returnFromEvent code
  t.seq.priv = c.seq.priv ∧ t.seq.ie = c.seq.ie ∧
    t.pc = bundleAddr (if e.kind = EvKind.stop then next else baddr) ∧ t.r = c.r)

/-- For every tensor core: taking an event counts its record, under whose number it stands in SEQNO and FREC; a replayable fault or a stop leaves
the core held with its registers, pc and task as they are; a fault ends the task: the core then runs no task and is
idle, or halted where a pre-emption is pending, and while stores of the core to another package are under way it waits
for them with its task before that end (log entry 106). ILLEGAL_OPCODE in issue takes its fault whether its guard holds or
not, UNIT_ABSENT for an M or W syllable of a general core. (R131, R181, R183, R46, 06_core_sequencer.md) -/
def Obligations.TensorCoreEvents : Prop :=
  (∀ (m : Memory) (d : Dev) (n : Nat) (b : Core) (baddr next : Word) (e : Event) (time : Nat), isGeneral n = false →
  let c := d.core n
  let t := (d.takeEvent m n b baddr next e time).core n
  (e.kind ≠ EvKind.fault ∨ c.remFails = [] → t.seq.seqno = d.seqnoOf n) ∧ t.seq.frec.length = 8 ∧
  (e.kind ≠ EvKind.fault → (d.takeEvent m n b baddr next e time).seqnos = tset d.seqnos n (d.seqnoOf n + 1) ∧
    t.run = .held e ∧ t.r = c.r ∧ t.pc = c.pc ∧ t.task = c.task ∧ t.pend = c.pend) ∧
  (e.kind = EvKind.fault → c.task.isSome = true → (∀ r ∈ d.remote, r.src = n → r.kind ≠ .store) →
    t.task = none ∧ t.run = if c.preempt = true then .halted else .idle) ∧
  (e.kind = EvKind.fault → c.task.isSome = true → (∃ r ∈ d.remote, r.src = n ∧ r.kind = .store) →
    t.task = c.task ∧ t.r = c.r ∧ t.run = .running ∧ Wait.ending 3 ∈ t.waits)) ∧
(∀ (s : State) (b : Bundle) (h : Hdr) cls opc w, s.bundle = some b →
  exec (.illegalOpcode h cls opc w) s = .next (s.faultBundle b.base
    (mkFault (if isGeneral b.core = true ∧ (cls = 4 ∨ cls = 5) then 0x04 else 0x02)
      (sylWord (.illegalOpcode h cls opc w)) 0)))

/-- For every state with a bundle in issue: after a fault of one of its syllables no bundle is in issue, and the units
are those before the bundle with the event taken; whatever its earlier syllables had done is gone, so the state is
the same for every state of the units in between. A syllable whose guard or edge is not met only counts as one of
its bundle. (02_execution_model.md, R39, R54, R55) -/
def Obligations.FaultedBundleHasNoEffect : Prop :=
  (∀ (s t : State) (b b' : Bundle) (e : Event), s.bundle = some b → t.bundle = some b' → b'.core = b.core →
  b'.addr = b.addr → b'.words = b.words → b'.cycle = b.cycle → b'.next = b.next → b'.base = b.base → b'.idx = b.idx →
  t.mem = s.mem → t.time = s.time →
  t.free = s.free → t.agenda = s.agenda → t.cur = s.cur →
  t.faultBundle b'.base e = s.faultBundle b.base e ∧ (s.faultBundle b.base e).bundle = none) ∧
  (∀ (s : State) (b : Bundle) (i : Instr) (h : Hdr), s.bundle = some b → hdrOf i = some h → selected b.issuer h = false →
    (∀ h c o x, i ≠ .illegalOpcode h c o x) → exec i s = .next (s.closeSyllable h false))

/-- For every state without a thermal stop: an answered result and the oldest due push land; a phase end completes with
no store under way to another package, after a number of cycles that the model leaves free (log entry 5), or the task
that waited for those stores ends, and an answer arrives; a pre-emption halts a core at a boundary; a general core in user mode with interrupts on takes a pending
interrupt as a trap, a sleeping one wakes; a core held for a replayable fault replays with the same registers, for a
stop it continues or takes its EXIT, unresolved its task ends; at a boundary with everything answered the next part
begins with everything landed, and a level left active is LOOP_NEST; an overrun ends the task; an idle core takes, in its turn, the
newest task of its deque, or probes a victim and, unless it drops the probe, steals the older half of its tasks; a stop
can be asked for in a debuggable context and a stopped core reset.
(R30, R35, R129, R156, R181, R184, R187, R192, R350, R418, R420, R510) -/
def Obligations.CoreEvents : Prop :=
  ∀ (s : State) (n : Nat), s.Live →
  let c := s.dev.core n
  let tensor := isGeneral n = false
  let sent := s.dev.sys.irq.contains (n - 256) = true
  let away := ∃ r ∈ s.dev.remote, r.src = n ∧ r.kind = .store
  let awake : Dev := { s.dev with sys := { s.dev.sys with irq := s.dev.sys.irq.erase (n - 256) } }
  (∀ k e, c.pend[k]? = some e → e.due = none → e.ready = true → e.after ≤ c.ready →
    exec (.resultLanding n k) s = .next (s.happened (s.dev.setCore n (c.landAt k)))) ∧
  (∀ k e x, c.pend[k]? = some e → e.due = some x → x ≤ c.ready →
    exec (.resultLanding n k) s = .next (s.happened (s.dev.setCore n (c.landBy x)))) ∧
  (∀ p t q, c.mat.pushes = p :: t → p.due ≤ c.ready → tget c.mat.slots p.slot = some q → ∃ d,
    exec (.pushLanding n) s = .next (s.happened d) ∧ (d.core n).mat.pushes = t ∧ (d.core n).r = c.r ∧
    tget (d.core n).mat.slots p.slot = some (q.land p fun j => Config.freeAcc (128 * s.free + j))) ∧
  (∀ k e x y, c.pend.findIdx? (fun e => e.due.isNone && !e.ready && e.tag = 0 &&
      (match e.res with | .h _ (.window _ _) => true | _ => false)) = some k → c.pend[k]? = some e →
    e.res = .h x y → exec (.probeLookup n) s = .next (s.happened (s.dev.setCore n
      { c with r := c.r.land c.lp.mloop.isSome (.h x y), pend := c.pend.eraseIdx k }))) ∧
  (∀ k, Wait.phase k ∈ c.waits → ¬away →
    ∃ cycles, exec (.phaseEndComplete n) s = .next (s.happened ((s.dev.beginPhase n).updCore n fun y =>
      { y with ready := y.ready + cycles }.gap 2 y.charged (y.ready + cycles))) ∧
    (∀ k, Wait.phase k ∉ ((s.dev.beginPhase n).core n).waits) ∧ ((s.dev.beginPhase n).core n).r = c.r) ∧
  (∀ k, Wait.ending k ∈ c.waits → (∀ j, Wait.phase j ∉ c.waits) → ¬away → ∃ o, Wait.ending o ∈ c.waits ∧
    exec (.phaseEndComplete n) s = .next (s.happened (s.dev.taskEnd s.mem n o s.time)) ∧
    ((s.dev.taskEnd s.mem n o s.time).core n).task = none) ∧
  (Wait.answer ∈ c.waits → exec (.syncAnswer n) s = .next (s.happened
    (s.dev.setCore n { c with waits := c.waits.filter (· ≠ .answer) }))) ∧
  (tensor → c.preempt = true → c.csrq = [] → (c.run = .idle ∨ (c.run = .running ∧ c.atBnd = true ∧ c.waits = [] ∧
      c.boundaryDue = false ∧ ∀ t ∈ c.task, t.leaving = false)) → c.mat.pushes = [] →
    ∃ d, exec (.preemptHalt n) s = .next (s.happened d) ∧ (d.core n).run = .halted ∧ (d.core n).r = c.r ∧
      (d.core n).task = c.task ∧ (d.core n).pc = c.pc ∧ (d.core n).savedAtt = c.attached ∧
      c.row.busyUntil ≤ (d.core n).ready ∧ c.mat.busyUntil ≤ (d.core n).ready) ∧
  (∀ t, tensor → c.preempt = true → c.run = .running → c.task = some t → wfld (nth t.words 7 0) 32 32 < c.spanCycles →
    (∀ k, Wait.ending k ∉ c.waits) → ∃ d, exec (.iterationOverrun n) s = .next (s.happened d) ∧
    (¬away → (d.core n).task = none ∧ (d.core n).run = .halted) ∧
    (away → (d.core n).task = some t ∧ Wait.ending 3 ∈ (d.core n).waits)) ∧
  (¬tensor → c.run = .running → c.seq.priv = false → c.seq.ie = true → sent →
    ∃ d words, exec (.interrupt n) s = .next (s.happened d) ∧ d.sys.irq = s.dev.sys.irq.erase (n - 256) ∧
      d.core n = c.trapEntry (mkStop 0xE2 0 0) c.pc c.pc (s.dev.seqnoOf n) words) ∧
  (¬tensor → c.run = .asleep → sent →
    exec (.haltWake n) s = .next (s.happened (awake.updCore n fun x => { x with run := .running }))) ∧
  (∀ e, c.run = .held e →
    (e.kind = EvKind.replayable → ∃ d, exec (.seqResumeReplay n) s = .next (s.happened d) ∧
      (d.core n).run = .running ∧ (d.core n).r = c.r ∧ (d.core n).pc = c.pc ∧ (d.core n).task = c.task) ∧
    (e.kind = EvKind.stop → c.exitDue = false → ∃ d, exec (.seqResumeContinue n) s = .next (s.happened d) ∧
      (d.core n).run = .running ∧ (d.core n).r = c.r ∧ (d.core n).pc = c.pc) ∧
    (e.kind = EvKind.stop → c.exitDue = true → c.seq.region = .epilogue → c.task.isSome = true → ¬away →
      ∃ d, exec (.seqResumeContinue n) s = .next (s.happened d) ∧ (d.core n).task = none) ∧
    exec (.seqResumeUnresolved n) s = .next (s.happened (s.dev.taskEnd s.mem n 3 s.time)) ∧
    (¬away → (s.dev.taskEnd s.mem n 3 s.time |>.core n).task = none)) ∧
  (∀ t, c.task = some t → c.run = .running → c.boundaryDue = true → (∀ w ∈ c.waits, w = .boundary) →
    (∀ e ∈ c.pend, e.due.isSome = true ∨ e.ready = true) → c.attached = false →
    (∀ l, c.strayLevel = some l → c.stopReq = false ∨ c.mat.pushes = [] → let succ := (({ c.landAll with waits := [] } : Core).nextPart t).pc
      exec (.passBoundary n) s = .next (s.happened ((s.dev.setCore n { c.landAll with waits := [] }).takeEvent s.mem n
        { c.landAll with waits := [] } succ succ (mkFault 0x08 (c.lp.level l).syl (toW l)) s.time))) ∧
    (c.strayLevel = none → c.stopReq = false → ∃ d, exec (.passBoundary n) s = .next (s.happened d) ∧
      let y := d.core n
      y.atBnd = true ∧ y.waits = [] ∧ (∀ e ∈ y.pend, c.lostResult e = true) ∧ y.mat.plane0 = [] ∧ y.mat.plane1 = [] ∧
      (t.cancelled = false → y.r = c.landAll.r) ∧
      (c.seq.region = .prologue → t.cancelled = false → let k := c.landAll.tripCount t.words
        (k = 0 ∨ t.ker = t.epi → y.pc = t.epi ∧ y.seq.region = .epilogue) ∧
        (k ≠ 0 → t.ker ≠ t.epi → y.pc = t.ker ∧ y.seq.region = .pass ∧ y.seq.pass = 0 ∧
          y.task = some { t with passes := k })) ∧
      (c.seq.region = .pass → c.atBnd = false → c.lp.inTaskLoop = false → t.cancelled = false →
        (c.seq.pass + 1 < t.passes → y.pc = t.ker ∧ y.seq.region = .pass ∧ y.seq.pass = c.seq.pass + 1) ∧
        (t.passes ≤ c.seq.pass + 1 → y.pc = t.epi ∧ y.seq.region = .epilogue)))) ∧
  (∀ l e, s.dev.takes s.mem n = true → c.deque = l ++ [e] → exec (.taskStart n) s = .next (s.happened
    ((s.dev.updCore n fun x => { x with deque := l }).startTask s.mem n e false s.time))) ∧
  (∀ ctx x, tensor → s.dev.ctxAt n = some (ctx, x) →
    (x.dbg = true → exec (.boundaryStopRequest n) s =
      .next (s.happened (s.dev.updCore n fun x => { x with stopReq := true }))) ∧
    (x.dbg = false → exec (.boundaryStopRequest n) s = .next (s.happened (s.dev.engineReport
      (traceEngine (traceUnitOf n)) ctx 0xD0 .fault 0 0xD011 4 s.time)))) ∧
  (exec (.coreReset n) s = .next (s.happened (s.dev.resetCore n)) ∧
    (n < 288 → s.dev.neverBooted n = false → c.run = .stopped →
      s.dev.resetCore n = s.dev.updCore n fun x => x.restarted (isGeneral n))) ∧
  (let nothing := s.dev.takes s.mem n = true ∧ c.deque = [] ∧ (s.dev.cluster (clusterOf n)).queue = []
   (nothing → c.probing = false → s.dev.spilled (clusterOf n) = false →
     exec (.stealProbe n) s = .next (s.happened (s.dev.updCore n fun x =>
       { x with lfsr := lfsrStep x.lfsr, ready := x.ready + 8, probing := true }.count 0x0B 1))) ∧
   (¬nothing → c.probing = true →
     exec (.stealProbe n) s = .next (s.happened (s.dev.updCore n fun x => { x with probing := false }))) ∧
   (s.dev.takes s.mem n = true → registerDue s.dev n = false → s.dev.recordWaits n = false →
     launchReady s.mem s.dev n = none → c.probing = false →
     (c.deque ≠ [] → turn exec s n = exec (.taskStart n) s) ∧
     (nothing → s.dev.spilled (clusterOf n) = false → turn exec s n = exec (.stealProbe n) s)) ∧
   (nothing → c.probing = true → c.localFails < 7 →
    let v := stealVictim n c.lfsr.toNat false
    let k := ((s.dev.core v).deque.length + 1) / 2
    let taken := (s.dev.core v).deque.take k
    let d := s.dev.updCore n fun x => { x with
      probing := false, localFails := if (s.dev.core v).deque = [] then x.localFails + 1 else 0,
      stolen := satAdd x.stolen taken.length, deque := taken.drop 1 }.count 0x0C taken.length
    ((s.dev.core v).deque = [] → exec (.stealProbe n) s = .next (s.happened d)) ∧
    ∀ e t, (s.dev.core v).deque = e :: t → exec (.stealProbe n) s = .next (s.happened
      ((d.updCore v fun x => { x with deque := (e :: t).drop k }).startTask s.mem n e false s.time))))

/-- For every state without a thermal stop: a front end delivers its next bundle; a core that fetches alone gets its
bundle or its fetch fault; a line enters the instruction cache; a walk enters its translation in both caches; a
store of an ended phase becomes visible to the agents named, the tag invalidation of a block reaches a cluster; a
window fill lands the block in its slot; a ring use is claimed and released in turn; an access of the host writes
and reads memory. (R115, R118, R126, R134, R196, R203, R215, R237, R242, R243, R504, R505) -/
def Obligations.FetchAndMemoryEvents : Prop :=
  ∀ s : State, s.Live →
  (∀ g d, streamDelivery s.mem s.dev g = some d → exec (.streamDelivery g) s = .next (s.happened d)) ∧
  (∀ g p ws, let fe := (s.dev.cluster g).fe
    fe.serving = true → fe.redirect = none → fe.fused = false → fe.pos = some p →
    (∀ n ∈ attachedOf s.dev g, (s.dev.core n).ibuf = [] ∧ (s.dev.core n).cons ≤ fe.next ∧ fe.next < (s.dev.core n).cons + 64) →
    (streamPort s.dev g).bundle s.mem s.dev p = .ok ws → (decoded ws).any isJoin = false → attachedOf s.dev g ≠ [] →
    ∃ d, exec (.streamDelivery g) s = .next (s.happened d) ∧ ∀ n ∈ attachedOf s.dev g, (d.core n).ibuf =
      [{ seq := fe.next, f := { addr := p, words := ws, fault := none }, cycle := max (fe.cycle + 1) fe.notBefore }]) ∧
  (∀ n, (s.dev.core n).fetchesAlone = true →
    (∀ ws, (corePort s.dev n).bundle s.mem s.dev (s.dev.core n).pc = .ok ws →
      ∃ wait, (isGeneral n = false → wait = 0) ∧ exec (.privateFetch n) s = .next (s.happened
        (((corePort s.dev n).use s.mem s.dev (s.dev.core n).pc).updCore n fun c =>
          { c with fetched := some { addr := (s.dev.core n).pc, words := ws, fault := none }, ready := c.ready + wait }.gap 3
            c.charged (if wait = 0 then 0 else c.ready + wait)))) ∧
    (∀ e, (corePort s.dev n).bundle s.mem s.dev (s.dev.core n).pc = .fault e → ∃ d,
      exec (.privateFetch n) s = .next (s.happened d) ∧
      (d.core n).fetched = some { addr := (s.dev.core n).pc, words := [], fault := some e })) ∧
  (∀ g pa errs corr, (s.dev.cluster g).line pa = none ∨ errs ≠ 0 → ∃ d, exec (.icacheFill g pa errs corr) s = .next (s.happened d) ∧
    (d.cluster g).icache.head? = some { line := lineBase pa, bytes := lineBytes s.mem s.dev pa, bad := decide (2 ≤ errs) } ∧
    d.stores = s.dev.stores) ∧
  (∀ g ctx (va : BitVec 64) x leaf bits, g < 32 → s.dev.ctx ctx = some x → wfld va 57 7 = 0 → inAperture va.toNat = false →
    walkFrom (readWord s.mem s.dev everyone) (walkBad s.dev) s.dev x va.toNat x.ptRoot walkLevels = .ok (leaf, bits) →
    let e : TlbEnt := { ctx := ctx, va := va.toNat, bits := bits, leaf := leaf }
    exec (.pageWalk g ctx va false) s = .next (s.happened
      ((s.dev.updCluster g fun y => { y with tlb := addTlb y.tlb e 2048 }).updDie (g / 4) fun y =>
        { y with tlb := addTlb y.tlb e 32768 })) ∧
    ∀ l n, 0 < n → tlbFind (addTlb l e n) ctx va.toNat = some e) ∧
  (∀ k e, s.dev.stores[k]? = some e → e.ended = true → (e.owner < 288 → (s.dev.core e.owner).phase ≠ e.phase) →
    exec (.storeVisible k none) s = .next (s.happened (s.dev.showAll fun x => decide (x = e))) ∧
    ∀ a, exec (.storeVisible k (some a)) s = .next (s.happened (s.dev.showTo (fun x => decide (x = e)) [a]))) ∧
  (∀ g block e, e ∈ s.dev.stores → e.ended = true → e.gran / 512 = block → e.gran * 8 < 2 ^ 40 → g ∉ e.inval →
    exec (.tagInvalidation g block) s = .next (s.happened (s.dev.applyWrites
      (fun x => x.ended && decide (x.gran / 512 = block) && decide (x.gran * 8 < 2 ^ 40)) [g]))) ∧
  (∀ g set way e x, tget (s.dev.cluster g).tags (tagKey set way) = some e → s.dev.ctx e.ctx = some x → e.filled = false →
    e.st = .filling → e.again = none → (∀ i, i < 64 → s.dev.poisoned (e.block * 4096 + 64 * i) = false) → ∃ d,
    exec (.windowFill g set way false) s = .next (s.happened d) ∧ d.poison = s.dev.poison ∧
      tget (d.cluster g).tags (tagKey set way) = some { e with filled := true, poisoned := false, st := .full }) ∧
  (∀ n ctx q k i cf f cd dr, (s.dev.core n).claimDue = some q → s.dev.ctxOfCore n = some ctx →
    ringCounter s.mem s.dev ctx q.r.cf = some cf → ringCounter s.mem s.dev ctx q.r.f = some f →
    ringCounter s.mem s.dev ctx q.r.cd = some cd → ringCounter s.mem s.dev ctx q.r.dr = some dr →
    let j := if q.drain = true then cd else cf
    (if q.drain = true then cd.toNat < f.toNat else cf.toNat < dr.toNat + q.r.nslot) → j.toNat + 1 < 2 ^ 64 →
    resolveCounter s.dev ctx (if q.drain = true then q.r.cd else q.r.cf) = .ok (.here k i) →
    counterGet s.mem (s.dev.readCounter s.mem ctx (if q.drain = true then q.r.f else q.r.dr)) ctx k i = j →
    ∃ d, exec (.hclaimGrant n) s = .next (s.happened d) ∧ (d.core n).claimDue = none ∧ tget (d.core n).r.h q.hn =
      some (.ring q.r.cf q.r.f q.r.cd q.r.dr q.r.base q.r.size q.r.nslot j.toNat q.drain) ∧
    (d.core n).phase = (s.dev.core n).phase + 1) ∧
  (∀ n ctx hn cf f cd dr base size nslot j drain k i, (s.dev.core n).releaseDue = some hn → s.dev.ctxOfCore n = some ctx →
    (s.dev.core n).h hn = .ring cf f cd dr base size nslot j drain →
    (∀ r ∈ s.dev.remote, r.src = n → r.kind ≠ .store ∧ r.kind ≠ .load) →
    resolveCounter s.dev ctx (if drain = true then dr else f) = .ok (.here k i) →
    (counterGet s.mem ((s.dev.endPhase n).release n 3) ctx k i).toNat = j → j + 1 < 2 ^ 64 →
    ∃ d, exec (.hrelPerform n) s = .next (s.happened d) ∧ tget (d.core n).r.h hn = none ∧
      (d.core n).releaseDue = none ∧ (d.core n).phase = (s.dev.core n).phase + 1) ∧
  (∀ pa bs, s.dev.sys.boot ≠ 3 →
    exec (.hostHbmWrite pa bs) s = .next (s.happened (hostWrite s.mem s.dev pa bs s.time))) ∧
  (∀ pa len, s.dev.sys.boot = 3 →
    (∀ bs, exec (.hostHbmWrite pa bs) s = .next s) ∧ exec (.hostHbmRead pa len) s = .next s) ∧
  (∀ pa len, s.dev.sys.boot ≠ 3 → pa + len ≤ 2 ^ 40 → exec (.hostHbmRead pa len) s = .next (s.happened
    { s.dev with sys := { s.dev.sys with hostBytes := hostBytes s.mem s.dev pa len } }))

/-- For every state without a thermal stop: an add that does not overflow, and a raise, reach their counter, one that
does overflow leaves it and is recorded; an open batch closes and the root applies the next one in sequence, its
deltas added to the net counts; a Graver accepts a request into a queue with room, drops a stale tagged write,
performs its commands, refreshes and scrubs, each scrubbed unit counted as its check bits say; a subscription claims
and moves a tile, a reduction a block, and each completes with its counter add. (R255, R262, R274, R275,
R375, R377, R382, R389, R390, R384, R386, R387) -/
def Obligations.SyncAndGraverEvents : Prop :=
  ∀ s : State, s.Live →
  (∀ ctx id mx v k j, resolveCounter s.dev ctx id = .ok (.here k j) →
    let old := counterGet s.mem s.dev ctx k j
    (mx = false → old.toNat + v.toNat < 2 ^ 64 → exec (.counterOperation ctx id mx v) s =
      .next (s.happened (counterSet s.dev ctx k j (old + v)))) ∧
    (mx = false → 2 ^ 64 ≤ old.toNat + v.toNat → let d := counterSet s.dev ctx k j old
      exec (.counterOperation ctx id mx v) s = .next (s.happened
        (d.engineReport (352 + d.dieOfCtx ctx k) ctx 0x40 .fault 0 id v s.time))) ∧
    (mx = true → exec (.counterOperation ctx id mx v) s =
      .next (s.happened (counterSet s.dev ctx k j (if old.toNat < v.toNat then v else old))))) ∧
  (∀ die ctx, let q := (s.dev.die die).moraineOf ctx
    q.openDeltas ≠ [] → exec (.moraineBatchTimeout die ctx) s = .next (s.happened
      (s.dev.updDie die fun x => x.setMoraine ctx
        { q with openDeltas := [], unsent := q.unsent ++ [q.openDeltas] }))) ∧
  (∀ ctx die x b, s.dev.ctx ctx = some x → x.root.frozen = false →
    (x.root.arriving.find? fun q => decide (q.die = die) && decide (q.seq = tgetD x.root.applied die 0 + 1)) = some b →
    let t := applyBatch s.mem s.dev ctx x b s.time
    let net := b.deltas.foldl addNet x.root.net
    exec (.batchApply ctx die) s = .next (s.happened t) ∧
    ((∀ e ∈ net, -((2 : Int) ^ 47) ≤ e.2.2 ∧ e.2.2 < (2 : Int) ^ 47) → ∃ y, t.ctx ctx = some y ∧
      tget y.root.applied die = some b.seq ∧ y.root.net = net.filter fun e => decide (e.2.2 ≠ 0))) ∧
  (∀ st unit ctx (data : Option (BitVec 512 × BitVec 64)) tag, let g := s.dev.grav st
    let q := tgetD g.queues (unit % 64) []
    let pa := stackAddress st (64 * unit)
    st < 16 → unit < 2 ^ 30 → q.length < 32 →
    ((data.isSome && s.dev.staleTag ctx pa tag.toNat) = false → exec (.graverAccept st unit ctx data tag) s =
      .next (s.happened ((s.dev.setGrav st { g with
        queues := tset g.queues (unit % 64) (q ++ [{ unit := unit, ctx := ctx, data := data }]) }).entryWrite st
          { unit := unit, ctx := ctx, data := data } s.time))) ∧
    ((data.isSome && s.dev.staleTag ctx pa tag.toNat) = true → exec (.graverAccept st unit ctx data tag) s =
      .next (s.happened (s.dev.setGrav st { g with stale := satInc g.stale })))) ∧
  (∀ st ch col r0 r1 ecc, st < 16 → ch < 32 → ∀ u, let k := 2 * ch + (if col = true then 1 else 0)
    let last := tgetD (s.dev.grav st).runs k (false, 0)
    busUser last.1 last.2 r0 r1 = some u → let p := 2 * ch + (if u = true then 1 else 0)
    let used (d : Dev) : Dev := d.setGrav st { (d.grav st) with
      runs := tset (d.grav st).runs k (u, if u = last.1 then last.2 + 1 else 1) }
    (col = false → (s.dev.grav st).idle p ≠ [] ∨ (s.dev.grav st).blocked p ≠ none →
      ∃ pick g, (s.dev.grav st).rowCommand p pick = some g ∧ exec (.graverCommand st ch col r0 r1 ecc) s =
        .next (s.happened (used (s.dev.setGrav st g)))) ∧
    (col = true → (s.dev.grav st).columnPlaces p ≠ [] → ∃ pick d, columnCommand s.dev st p pick ecc s.time = some d ∧
      exec (.graverCommand st ch col r0 r1 ecc) s = .next (s.happened (used d)))) ∧
  (∀ st ch, st < 16 → ch < 32 → exec (.refresh st ch) s = .next (s.happened (s.dev.setGrav st { s.dev.grav st with
    rows := (s.dev.grav st).rows.filter fun q => decide (q.1 / 32 ≠ ch) }))) ∧
  (∀ st, st < 16 → let g := s.dev.grav st
    g.en = true →
    (g.passing = false → exec (.scrubPassStart st) s =
      .next (s.happened (s.dev.setGrav st { g with passing := true, pos := 0, level := 0 }))) ∧
    (g.passing = true → exec (.scrubPassStart st) s =
      .next (s.happened (s.dev.setGrav st (g.record 5 0 (g.pos / 64) s.time)))) ∧
    (∀ t, exec (.scrubLevelCheck st t) s = .next (s.happened (s.dev.setGrav st { g with level := g.nextLevel t }))) ∧
    (g.mayScrub = true → g.queued (g.pos / 64) = false → s.dev.poisoned (stackAddress st g.pos) = false → g.pos + 64 < 2 ^ 36 →
      exec (.scrubRead st .clean) s = .next (s.happened (s.dev.setGrav st { g with pos := g.pos + 64 })) ∧
      exec (.scrubRead st .corrected) s = .next (s.happened (s.dev.setGrav st
        { (g.record 3 0 (g.pos / 64) s.time) with eccScrub := satInc g.eccScrub, pos := g.pos + 64 })) ∧
      (∃ d, exec (.scrubRead st .uncorrectable) s = .next (s.happened d) ∧
        d.poison = stackAddress st g.pos / 64 :: s.dev.poison))) ∧
  (∀ die k e r d, tget (s.dev.die die).subs k = some e → e.isRed = false → e.susp = false → e.bad = false →
    (s.dev.ctx e.ctx).bind (fun c => ringOf c e.ring) = some r →
    (subClaim s.mem s.dev die k e r = some d → ∃ d' e', exec (.subscriptionTile die k) s = .next (s.happened d') ∧
      tget (d'.die die).subs k = some e' ∧ e'.next = e.next + 1) ∧
    (e.cancelled = true ∨ wfld (nth e.words 1 0) 0 32 ≤ e.next ∨ 4 ≤ e.flight.length →
      subMove s.mem s.dev die k e r s.time = some d → exec (.subscriptionTile die k) s = .next (s.happened d))) ∧
  (∀ die k e f, tget (s.dev.die die).subs k = some e → e.dfmt s.dev = some f → e.isRed = true → e.susp = false →
    e.bad = false → e.next < redBlocks e.words f.c →
    exec (.graverReduction die k) s = .next (s.happened (redBlock s.mem s.dev die k e f s.time))) ∧
  (∀ die k e out, tget (s.dev.die die).subs k = some e → e.outcome s.dev = some out →
    let d := s.dev.updDie die fun y => { y with subs := tdel y.subs k }
    let movers := if e.isRed = true then (List.range 16).map (336 + ·) else [homeGraver die]
    exec (.subscriptionComplete die k) s = .next (s.happened (engineAdd s.mem
      (if (nth e.words 5 0).getLsbD 7 = true then
        movers.foldl (fun d a => d.release a (wfld (nth e.words 5 0) 8 3)) d else d)
      (homeGraver die) e.ctx (nth e.words (if e.isRed = true then 4 else 3) 0) (outcomeValue out) s.time)))

/-- For every state without a thermal stop: a queue with valid registers opens; the queue whose turn it is takes its next
packet, reads a slot again where its stamp did not match, and completes packets; a request of CPYQ claims its slot
and is written, or is refused; parks claim their slot and complete; a launch stream dispatches its ready group; a
spilled task comes back; a Firn performs its operations, retries a probe and begins and ends fills; a suspended command goes on where firmware resolves it. (R395, R396,
R399, R401, R402, R25, R26, R417, R437, R438, R121) -/
def Obligations.CopyTaskAndFillEvents : Prop :=
  ∀ s : State, s.Live →
  (∀ q p k i k' i', let x := s.dev.cpyq q
    q < 256 → x.en = false → s.dev.partOfCtx x.ctx = some p → p.engines.getLsbD (q / 16) = true →
    x.base.toNat % (64 * x.nslot) = 0 → resolveCounter s.dev x.ctx x.wi = .ok (.here k i) →
    resolveCounter s.dev x.ctx x.rd = .ok (.here k' i') → exec (.queueOpen q) s = .next (s.happened (s.dev.setCpyq q
      { x with en := true, ridx := (counterGet s.mem s.dev x.ctx k' i').toNat, reread := false, susp := false, known := 0 }))) ∧
  (∀ q, (s.dev.cpyq q).en = true →
    exec (.queueStop q) s = .next (s.happened (s.dev.setCpyq q { s.dev.cpyq q with en := false }))) ∧
  (∀ q w, let x := s.dev.cpyq q
    let d := s.dev.readCounter s.mem x.ctx x.wi
    d.queueReady s.mem q = true → inFlight s.dev (q / 16) < 8 →
    engineWords s.mem d (copyEngine q) x.ctx (x.slotVa x.ridx) 8 = .ok w → wfld (nth w 0 0) 48 16 = x.lap x.ridx →
    pktReason d x.ctx w = none →
    let takes (i : Instr) : Prop := ∃ d, exec i s = .next (s.happened d) ∧ (d.cpyq q).ridx = x.ridx + 1 ∧
      tget d.cpyLast (q / 16) = some (q % 16) ∧
      (d.cpyq q).packets = x.packets ++ [{ idx := x.ridx, words := w, susp := false, moved := 0, ahead := [], got := [],
                                           parking := false, bad := false, sent := false }]
    (s.dev.nextQueue s.mem (q / 16) = some q → takes (.copyPacketTake q)) ∧
    (x.reread = true → takes (.stampReread q))) ∧
  (∀ q d, s.dev.nextQueue s.mem (q / 16) ≠ some q → askIndex s.dev q s.time = some d →
    exec (.copyPacketTake q) s = .next (s.happened d)) ∧
  (∀ q p far r, (s.dev.cpyq q).packets.find? (fun x => decide (x.idx = p.idx)) = some p → p.susp = false →
    p.parking = false →
    ((nth p.words 0 0).getLsbD 19 = true → ∀ y ∈ (s.dev.cpyq q).packets, p.idx ≤ y.idx) →
    (p.bad = true ∨ p.sent = true → ∀ y ∈ s.dev.remote, y.ofPacket q p.idx = false) →
    (p.bad = false → p.sent = true → exec (.copyPacketComplete q p.idx far r) s =
      .next (s.happened (endPacket s.mem s.dev q p 1 s.time))) ∧
    (p.bad = true → exec (.copyPacketComplete q p.idx far r) s =
      .next (s.happened (endPacket s.mem s.dev q p 3 s.time))) ∧
    (p.bad = false → p.sent = false → (∀ y ∈ s.dev.remote, y.reads q p.idx = false) →
      let here := s.dev.updPacket q p.idx fun _ => p
      exec (.copyPacketComplete q p.idx far r) s = .next (s.happened (movePacket s.mem s.dev q p s.time)) ∧
      (∀ d p' rest, pktOp p.words = 0 ∨ pktOp p.words = 1 →
        moveChunks s.mem q s.time ((copyChunks p.words).drop p.moved) here p p.got = (d, p', rest, none) →
        (∀ y ∈ d.remote, y.ofPacket q p.idx = false) →
        movePacket s.mem s.dev q p s.time = endPacket s.mem d q p 1 s.time) ∧
      (pktOp p.words = 2 → movePacket s.mem s.dev q p s.time = parkPacket s.mem here q p
        (rowChunks (nth p.words 1 0) (nth p.words 1 0) (pktLen p.words)) s.time)) ∧
    (∀ i y d, p.bad = false → p.sent = false → (s.dev.remote.findIdx? fun y => y.reads q p.idx) = some i →
      s.dev.remote[i]? = some y → answerRead s.mem s.dev q p i y far r s.time = some d →
      exec (.copyPacketComplete q p.idx far r) s = .next (s.happened d))) ∧
  (∀ e r, (tgetD s.dev.cpyReqs e []).find? (fun x => !x.susp) = some r →
    let q := wfld r.q 0 8
    let x := s.dev.cpyq q
    (∀ w, r.idx = some w → exec (.cpyqEnqueue e) s = .next (s.happened (writeSlot s.mem s.dev e r w s.time))) ∧
    (r.idx = none → x.en = false ∨ wfld r.q 8 56 ≠ 0 ∨ x.ctx ≠ r.ctx → exec (.cpyqEnqueue e) s = .next (s.happened
      ((s.dev.packetBad q r.ctx 0 0 5 s.time).answerReq e r (BitVec.allOnes 64)))) ∧
    (∀ k i k' i', r.idx = none → wfld r.q 8 56 = 0 → x.en = true → x.ctx = r.ctx →
      resolveCounter s.dev x.ctx x.wi = .ok (.here k i) → resolveCounter s.dev x.ctx x.rd = .ok (.here k' i') →
      let wi := counterGet s.mem s.dev x.ctx k i
      let d := s.dev.readCounter s.mem x.ctx x.rd
      wi.toNat < (counterGet s.mem s.dev x.ctx k' i').toNat + x.nslot → counterGet s.mem d x.ctx k i = wi →
      (wi.toNat + 1 < 2 ^ 64 → exec (.cpyqEnqueue e) s = .next (s.happened
        (writeSlot s.mem (counterSet d x.ctx k i (wi + 1)) e r wi.toNat s.time))) ∧
      (wi.toNat + 1 = 2 ^ 64 → exec (.cpyqEnqueue e) s = .next (s.happened (writeSlot s.mem
        ((counterSet d x.ctx k i wi).engineReport (320 + e) x.ctx 0x40 .fault 0 x.wi 1 s.time) e r wi.toNat s.time))))) ∧
  (∀ g k r, (s.dev.cluster g).nextPark k = some r → tget (s.dev.cluster g).slots k = none → ∃ d,
    exec (.parkClaim g k) s = .next (s.happened d) ∧ tget (d.cluster g).slots k = some r.hold) ∧
  (∀ g k t, tget (s.dev.cluster g).slots k = some t → t.parked = false → t.packet = none →
    let d := s.dev.updCluster g fun x => { x with slots := tset x.slots k { t with parked := true } }
    exec (.parkComplete g k) s = .next (s.happened (engineAdd s.mem
      (if t.rel = true then d.release (288 + g) t.rscp else d) (288 + g) t.ctx t.done 1 s.time))) ∧
  (∀ ctx n g w t, streamHead s.mem s.dev ctx n = .ready g w → s.dev.residentOn (g / 4) = some ctx →
    firstReady s.mem s.dev ctx n g = true →
    (∀ k, k < launchSize w → (s.dev.core (8 * g + k)).preempt = false ∧ (s.dev.core (8 * g + k)).run = .idle ∧
      (s.dev.core (8 * g + k)).csrq = []) →
    let d := if (nth w 5 0).getLsbD 0 = true then s.dev.readCounter s.mem ctx (nth w 3 0) else s.dev
    engineWords s.mem d (taskEngine g) ctx (nth w 0 0) 8 = .ok t →
    moraineRoom d (g / 4) ctx [groupDelta d ctx n w t] = true →
    exec (.launchDispatch ctx n) s = .next (s.happened (dispatchGroup s.mem d ctx n g w t s.time))) ∧
  (∀ g ctx bs, let x := s.dev.cluster g
    let r := x.ringOf ctx
    s.dev.residentOn (g / 4) = some ctx → r.swr ≠ r.srd → x.spillStop = false → x.queue.length < 32 →
    s.dev.owes (taskEngine g) (g / 4) ctx = false →
    engineRead s.mem s.dev (taskEngine g) ctx (r.entryVa r.srd.toNat) 128 = .ok bs →
    (nth (wordsOf 10 bs) 9 0).getLsbD 0 = false → ∃ d, exec (.spillRefill g) s = .next (s.happened d) ∧
      (d.cluster g).queue = x.queue ++ [{ words := (wordsOf 10 bs).take 8, id := nth (wordsOf 10 bs) 8 0, ctx := ctx }]) ∧
  (∀ die q, let y := (s.dev.die die).firn
    y.ops.find? (fun x => !x.susp) = some q →
    let rest := s.dev.updFirn die fun y => y.dropOp q.no
    let noRetry := ∀ free, firnRetry s.mem s.dev die free s.time = none
    (∀ gaps, q.kind < 2 → y.waiting = [] → kvGaps s.mem s.dev (firnEngine die) q.ctx q.words q.b q.tokens = .ok gaps →
      (y.fits q gaps = true → ∃ free, exec (.firnOperation die) s =
        .next (s.happened (performProbe s.mem rest die q gaps free s.time))) ∧
      (y.fits q gaps = false → exec (.firnOperation die) s = .next (s.happened (rest.updFirn die fun y =>
        { y with waiting := y.waiting ++ [q] })))) ∧
    (q.kind < 2 → y.waiting ≠ [] → noRetry → exec (.firnOperation die) s = .next (s.happened (rest.updFirn die fun y =>
      { y with waiting := y.waiting ++ [q] }))) ∧
    (∀ d, 2 ≤ q.kind → q.core ≠ calvingUnit → noRetry → performMark s.mem s.dev die q s.time = .ok d →
      exec (.firnOperation die) s = .next (s.happened (d.updFirn die fun y => y.dropOp q.no)))) ∧
  (∀ die q gaps, let y := (s.dev.die die).firn
    y.waiting.find? (fun x => !x.susp) = some q →
    kvGaps s.mem s.dev (firnEngine die) q.ctx q.words q.b q.tokens = .ok gaps → y.fits q gaps = true →
    ∃ free, ∀ i, i = Instr.probeRetry die ∨ i = .firnOperation die ∨ (∃ k, i = .fillEnd die k) →
      exec i s = .next (s.happened (performProbe s.mem
        (s.dev.updFirn die fun y => y.dropOp q.no) die q gaps free s.time))) ∧
  (∀ die k e, tget (s.dev.die die).firn.fills k = some e → e.cleared = false → e.susp = false →
    (∀ free, firnRetry s.mem s.dev die free s.time = none) →
    (e.begun = false → ∃ free, exec (.fillEnd die k) s = .next (s.happened (beginFill s.mem s.dev die k free s.time))) ∧
    (∀ d, e.begun = true → kvRepeat e.words = true → copyFill s.mem s.dev die k e s.time = (d, none) →
      exec (.fillEnd die k) s = .next (s.happened (d.endFill s.mem die k e (some (outcomeValue 1)) s.time)))) ∧
  (∀ i g, s.dev.susp[i]? = some (Cmd.spill g) → exec (.engineCommandResume i true) s = .next (s.happened
    (({ s.dev with susp := s.dev.susp.eraseIdx i }).updCluster g fun x => { x with spillStop := false })))

/-- For every state without a thermal stop: a request of another package is served, an answer, or a timeout after its
microseconds, reaches the one that asked; a link of the package fails, with the requests on their way by it, and
returns, its share's window restarts after a microsecond, its messages are stamped; a notice of the calving unit
arrives; a collective whose ranks are present assembles, completes and times out; the generation sequencer starts, halts, begins an
iteration, appends, advances its hold, resumes, takes from its pools, and its slot operations reach every Graver and
end. (R465, R466, R468, R475, R476, R477, R443, R445, R446, R449, R451, R453) -/
def Obligations.FabricAndSequencerEvents : Prop :=
  ∀ s : State, s.Live →
  (∀ r, s.dev.accepted 2 = true → (prioritised r.kind = true → ∀ x ∈ s.dev.fab.refused, x.spkg ≠ r.spkg) →
    r.kind ≠ .counterRead → r.kind ≠ .notice → ∃ d k v, serveRemote s.mem s.dev fabricPort r.spkg r.sctx r.kind r.pa
      r.len (fun ctx d => (d.writeBytes fabricPort ctx r.pa (toBytes r.len r.val.toNat) s.time).showAll
        fun e => e.owner == fabricPort && e.ended) r.ident r.val r.rowWord
      (fun i => Config.freeWord (4 * s.free + i)) s.time = .answer d k v ∧
    exec (.remoteRequest r) s = .next (s.happened { d with fab := { d.fab with refused := d.fab.refused.erase r } })) ∧
  (∀ i q r v, s.dev.remote[i]? = some q → q.kind ≠ .notice →
    let d := { s.dev with remote := s.dev.remote.eraseIdx i }
    let free := Config.freeWord (4 * s.free)
    (q.pkg ≠ Config.packageNumber → q.lost = false → q.overdue s.dev s.time = false → behindLane s.dev.remote i q = false →
      (q.port = none → ∀ e, s.dev.enterPort i q = some e → exec (.remoteAnswer i r v) s = .next (s.happened e)) ∧
      (q.port ≠ none → q.kind ≠ .load → q.kind ≠ .store → exec (.remoteAnswer i r v) s =
        .next (s.happened (answerTo d q r v free s.time))) ∧
      (q.port ≠ none → q.kind = .store ∨ (q.kind = .load ∧ q.src < 320) → ∀ e,
        d.admitBulk q.ctx q.pkg q.data.length = some e →
        exec (.remoteAnswer i r v) s = .next (s.happened (answerTo e q r v free s.time)))) ∧
    (q.overdue s.dev s.time = true →
      (q.pkg ≠ Config.packageNumber → exec (.remoteAnswer i r v) s = .next s) ∧
      exec (.remoteTimeout i) s = .next (s.happened (answerTo d q 0x80 0 free s.time)))) ∧
  (∀ i q r v d k x, s.dev.remote[i]? = some q → q.kind ≠ .notice → q.pkg = Config.packageNumber → q.lost = false →
    q.overdue s.dev s.time = false →
    behindLane s.dev.remote i q = false → serveRemote s.mem { s.dev with remote := s.dev.remote.eraseIdx i } q.src q.pkg
      q.ctx q.kind q.pa q.data.length (fun ctx d => d.ownStore q ctx s.time) q.ident q.val (toW q.pa)
      (fun i => Config.freeWord (4 * s.free + i)) s.time = .answer d k x →
    exec (.remoteAnswer i r v) s = .next (s.happened (answerTo
      (if q.kind = .load ∧ 320 ≤ q.src ∧ k = 0 then d.copyGot s.mem q else d) q k x (Config.freeWord (4 * s.free)) s.time))) ∧
  (∀ ctx tgt row tok cw t i q x, (s.dev.remote.findIdx fun q => decide (q.kind = .notice) && !q.ident.getLsbD 63) = i →
    s.dev.remote[i]? = some q → behindLane s.dev.remote i q = false →
    let n : Notice := { target := tgt, row := row, token := tok, cw := cw, time := t, spilled := false }
    let e : Dev := { s.dev with remote := s.dev.remote.eraseIdx i }
    let words (i : Nat) : Word := Config.freeWord (4 * s.free + i)
    q.ctx = ctx → noticeOf q.ident (toW q.pa) q.val = n → s.dev.ctx ctx = some x →
    (∀ d n', x.calv.held ≠ [] ∨ x.calv.arm ≠ none → noticeRoom s.mem e ctx n words s.time = some (d, n') →
      exec (.calvingNotice ctx tgt row tok cw t) s =
        .next (s.happened (d.updCalv ctx fun v => { v with held := v.held ++ [n'] }))) ∧
    (∀ d n', x.calv.held = [] → x.calv.arm = none → x.calv.defers n = true →
      noticeRoom s.mem e ctx n words s.time = some (d, n') → exec (.calvingNotice ctx tgt row tok cw t) s =
        .next (s.happened (handleNotice s.mem d ctx n' s.time))) ∧
    (∀ w cur d b, x.calv.held = [] → x.calv.arm = none → tget x.calv.targets tgt = some (w, cur) → t.toNat ≤ cur.toNat →
      applyNotice s.mem e ctx w cur n s.time = .done d b → exec (.calvingNotice ctx tgt row tok cw t) s =
        .next (s.happened d))) ∧
  (∀ p (lanes : BitVec 4), p < 18 → (lanes ≠ 0 → ∃ d x, exec (.linkDown p lanes) s = .next (s.happened d) ∧
      tget d.fab.ports p = some x ∧ x.up = false ∧
      (∀ q ∈ d.remote, q.port = some p → q.acked = false → q.lost = true) ∧
      ∀ i y, (i, y) ∈ s.dev.fab.cols → y.uses s.mem s.dev p = true → (i, { y with lost := true }) ∈ d.fab.cols) ∧
    exec (.linkReturn p) s = .next (s.happened (s.dev.updPort p fun x => { x with up := true, lanef := 0 })) ∧
    (∀ b, exec (.ptpEventMessage p b) s = .next (s.happened
      (s.dev.updPort p fun x => { x with stamps := x.stamps ++ [(b, s.time)] }))) ∧
    ((tgetD s.dev.fab.ports p Port.reset).since + 1000 ≤ s.time → exec (.bulkShareWindow p) s =
      .next (s.happened (s.dev.updPort p fun x => { x with since := s.time, window := [] })))) ∧
  (∀ i x, tget s.dev.fab.cols i = some x →
    (x.overdue s.dev s.time = true → exec (.collectiveTimeout i) s =
        .next (s.happened (s.dev.setCol i { x with bad := some (0xC2, 2) })) ∧
      ∀ others, exec (.collectiveAssemble i others) s = .next s) ∧
    (∀ others gs, x.susp = false → x.lost = false → x.gathered = none → x.bad = none → x.overdue s.dev s.time = false →
      let o := x.others.getD others
      let y : Col := { x with others := some o }
      let d := s.dev.setCol i y
      colNrank ((x.ranks.head?.map (·.words)).getD []) ≤ x.ranks.length + o.length →
      (x.ranks.mapM fun r => r.readGroup s.mem d) = .ok gs →
      (∀ r, colReason gs y o = some r → exec (.collectiveAssemble i others) s =
        .next (s.happened (d.setCol i { y with bad := some (0xC3, r) }))) ∧
      (∀ d' moved, colReason gs y o = none → let group := gs.headD []
        (∀ q ∈ o, s.dev.reaches (nth group q.rank 0).toNat = true) →
        moveCol d ((x.ranks.head?.map (·.ctx)).getD 0) (y.flits s.mem d group o)
          ((o.map fun q => (nth group q.rank 0).toNat).dedup) x.moved = (d', moved, true) →
        ∀ bs, colResult s.mem d' { y with moved := moved } o = .ok bs → exec (.collectiveAssemble i others) s =
          .next (s.happened (d'.setCol i { y with moved := moved, gathered := some bs }))))) ∧
  (∀ i x r t c k, tget s.dev.fab.cols i = some x → x.ranks = r :: t → x.bad = some (c, k) →
    exec (.collectiveComplete i) s =
      .next (s.happened ((s.dev.colRecord r c k s.time).rankDone s.mem i x r 3 s.time))) ∧
  (∀ i x r t bs d, tget s.dev.fab.cols i = some x → x.ranks = r :: t → x.bad = none → x.gathered = some bs →
    x.susp = false →
    engineStore s.mem s.dev fabricPort r.ctx (nth r.words 1 0) (rankBytes s.mem s.dev x r bs) none s.time = .ok d →
    exec (.collectiveComplete i) s = .next (s.happened (d.rankDone s.mem i x r 1 s.time))) ∧
  (∀ p ctx x, s.dev.served p = some (ctx, x) → let g := x.gen
    (g.run = false → exec (.genStart p) s = .next (s.happened (startGen s.mem s.dev p s.time))) ∧
    (g.run = true → g.halting = false → exec (.genStopRequest p) s = .next (s.happened (stopGen s.dev p))) ∧
    (g.run = true → g.halting = true → g.left = 0 → s.dev.genOwes p ctx = false → exec (.genHalt p) s = .next (s.happened
      ((s.dev.genDeltas p ctx [{ stage := g.hstage, time := g.timeOf g.k, n := -1 }] s.time).updGen ctx fun y =>
        { y with run := false, halting := false, busy := false, k := if y.busy = true then (y.k + 1) % 2 ^ 48 else y.k }))) ∧
    (∀ b nl list, g.run = true → g.stop = false → g.busy = false → g.halting = false → Cmd.gen ctx 0 ∉ s.dev.susp →
      s.dev.genOwes p ctx = false → beginDue s.mem s.dev ctx g = true →
      let d := if g.k < g.ahead + 1 then s.dev else s.dev.readFrontier s.mem ctx g
      (pickBucket s.mem d (genEngine p) ctx g 64 0 = .bucket b nl list →
        exec (.genIterationBegin p) s = .next (s.happened (d.updGen ctx fun y =>
          { y with bkt := b, list := list, left := nl, listed := 0, busy := true,
                   drafted := if 0 < y.drafts then y.k + 1 else y.drafted }))) ∧
      (pickBucket s.mem d (genEngine p) ctx g 64 0 = .bad b → exec (.genIterationBegin p) s =
        .next (s.happened (d.genStops p ctx g (g.btab + toW (16 * b)) b 1 s.time)))) ∧
    (∀ d, g.run = true → g.stop = false → g.busy = false → g.halting = false → Cmd.gen ctx 0 ∉ s.dev.susp →
      s.dev.genOwes p ctx = false → beginDue s.mem s.dev ctx g = false →
      askFrontier s.mem s.dev p ctx g g.beginAt s.time = some d →
      exec (.genIterationBegin p) s = .next (s.happened d)) ∧
    (∀ bs d, let q := x.stream 15
      g.run = true → g.stop = false → g.left ≠ 0 → Cmd.gen ctx 1 ∉ s.dev.susp → s.dev.genOwes p ctx = false → q.appends = [] → q.granted 0 = true →
      engineRead s.mem s.dev (genEngine p) ctx (g.list + toW (64 * g.listed)) 64 = .ok bs →
      engineStore s.mem s.dev (genEngine p) ctx (q.slotVa q.widx.toNat) bs none s.time = .ok d →
      exec (.genAppend p) s = .next (s.happened (((d.release (genEngine p) 3).updStream ctx 15 fun q =>
        { q with widx := q.widx + 1 }).updGen ctx fun y =>
          { y with listed := y.listed + 1, left := y.left - 1, offs := tset y.offs q.widx.toNat (y.timeOf y.k) }))) ∧
    (g.run = true → g.busy = true → g.left = 0 → s.dev.genOwes p ctx = false → (g.offs.all fun q => passed (x.stream 15).ridx q.1) = true →
      exec (.genHoldAdvance p) s = .next (s.happened ((s.dev.genDeltas p ctx
        [{ stage := g.hstage, time := g.timeOf (g.k + 1), n := 1 }, { stage := g.hstage, time := g.timeOf g.k, n := -1 }]
          s.time).updGen ctx fun y => { y with k := (y.k + 1) % 2 ^ 48, busy := false, offs := [] }))) ∧
    (g.stop = true → exec (.genResume p) s = .next (s.happened (resumeGen s.dev ctx))) ∧
    (g.spec0 = true → g.need = 0 → exec (.genSpec0Clear p) s = .next (s.happened (clearSpec0 s.dev ctx))) ∧
    (∀ v, exec (.genReclaim p v) s = .next (s.happened (setNeed s.dev ctx v s.free))) ∧
    (∀ w, let g := x.gen.atTake s.free
      g.spec0 = true → Cmd.gen ctx 2 ∉ s.dev.susp → wfld g.spool 0 5 ≠ 0 → g.swr ≠ g.srd → g.drafted = 0 →
      engineWords s.mem s.dev (genEngine p) ctx
        ((g.spool &&& ~~~(0xFFF : Word)) + toW (8 * (g.srd.toNat % 2 ^ wfld g.spool 0 5))) 1 = .ok w →
      poolPageOk s.mem s.dev x (nth w 0 0) true = true → ∃ d y, exec (.genPoolTake p) s = .next (s.happened d) ∧
        d.ctx ctx = some y ∧ y.gen.srd = g.srd + 1 ∧ y.gen.need = if g.need = 0 then 0 else g.need - 1)) ∧
  (∀ st ctx slot x q, s.dev.ctx ctx = some x → x.gen.slotOp = some q → q.slot = slot → st ∈ q.todo →
    exec (.generationUpdate st ctx slot) s = .next (s.happened ((s.dev.setGrav st { s.dev.grav st with
      gens := tset (s.dev.grav st).gens (65536 * ctx + slot) q.gen }).updGen ctx fun g =>
        { g with slotOp := some { q with todo := q.todo.erase st } }))) ∧
  (∀ p ctx x q d, s.dev.served p = some (ctx, x) → x.gen.slotOp = some q → q.todo = [] → Cmd.gen ctx 3 ∉ s.dev.susp →
    writeSlotTable s.mem s.dev (genEngine p) ctx x.gen q.slot q.gen (!q.retire) s.time = .ok d →
    let told := d.updGen ctx fun g => { g with slot := q.slot, slotGen := q.gen, slotLive := !q.retire }
    exec (if q.retire = true then .genSlotRetire p q.slot else .genSlotAllocate p q.slot) s =
      .next (s.happened (endSlotOp s.mem told p ctx q s.time)) ∧
    (x.gen.slotReqs = [] → endSlotOp s.mem told p ctx q s.time =
      (told.updGen ctx fun g => { g with slotOp := none }).updCore
        q.core fun c => { c with pend := c.pend.map fun (e : Pend) =>
          (if e.tag = q.tag && q.tag ≠ 0 then { e with ready := true } else e) }))

/-- For every state (without a thermal stop, but for a package reset): a trace unit writes its next record and its owed
add; a core without a bundle at hand is sampled, its counters rotate when their interval has passed, it applies changes of
sampling and watchpoints; a die of a swap finishes it, the last one with the new residency; boot loads, proceeds, fails its self-test or is refused; the host adds to
counters and reads registers; gates close, and open once their time is over; a thermal stop stops every core, after which no event happens; a
package reset gives every unit its reset value and keeps memory. (R485, R486, R490, R492, R498, R36, R504, R506,
R507, R510, R512) -/
def Obligations.TraceAndSystemEvents : Prop :=
  (∀ s : State, s.Live →
  (∀ u i r ctx ring, let x := s.dev.unit u
    x.reported s.mem s.dev u = none → nextRecord s.mem s.dev u x.buf [] 0 = some i → x.buf[i]? = some r → r.ctx = ctx →
    (s.dev.ctx ctx).bind (fun y => y.ring u) = some ring → ringSpace s.mem s.dev ctx ring = true →
    let stores (words : List Word) (d : Dev) : Prop := engineStore s.mem (s.dev.readCounter s.mem ctx ring.rd) (traceEngine u)
      ctx (ring.base + toW (64 * (ring.written % 2 ^ ring.log2))) (bytesOfWords words) none s.time = .ok d
    let written (d : Dev) (x : TraceUnit) : Dev := (d.updCtx ctx fun y => { y with
      rings := tset y.rings u { ring with written := ring.written + 1, owed := ring.owed + 1,
                                          since := if ring.owed = 0 then s.time else ring.since } }).setUnit u x
    (∀ d, x.lost = 0 → stores r.words d → exec (.traceRecordWrite u) s =
      .next (s.happened (written d { x with buf := x.buf.eraseIdx i }))) ∧
    (∀ d, x.lost ≠ 0 → stores (unitRecord x.tseq ctx u 5 (toW x.lost) s.time) d → exec (.traceRecordWrite u) s =
      .next (s.happened (written d { x with lost := 0, tseq := x.tseq + 1 })))) ∧
  (∀ u ctx r, (s.dev.ctx ctx).bind (fun x => x.ring u) = some r → r.owed ≠ 0 →
    exec (.traceWiAdd u ctx) s = .next (s.happened (s.dev.addWritten s.mem u ctx s.time))) ∧
  (∀ n due per, (s.dev.core n).sample = some (due, per) → (s.dev.core n).run ≠ .running →
    (∀ e, (s.dev.core n).run ≠ .held e) →
    ∃ d, exec (.sample n) s = .next (s.happened d) ∧
      (d.core n).sample = some (max (s.dev.core n).ready due + per, per)) ∧
  (∀ n ctx x d, let v := (s.dev.core n).ev
    let first := v.sels.isEmpty && v.used.isEmpty
    s.dev.ctxAt n = some (ctx, x) → x.cpage ≠ 0 → first = true ∨ v.since + 1000 * v.rot ≤ s.time →
    ((writeBack s.mem s.dev ctx x n (v.sels.map Prod.fst) s.time).bind fun d =>
      makeCurrent s.mem d ctx x n (if first then 0 else v.group + 1) s.time) = .ok d →
    exec (.counterRotate n) s = .next (s.happened d)) ∧
  (∀ n, exec (.samplingChangeApplied n) s = .next (s.happened
    ((s.dev.clearTodo n true).applySampling n (s.dev.core n).ready))) ∧
  (∀ n ctx x, s.dev.ctxAt n = some (ctx, x) → exec (.watchpointChangeApplied n) s =
    .next (s.happened ((s.dev.clearTodo n false).updCore n fun c => { c with watch := x.watch }))) ∧
  (∀ die k p code target, s.dev.partOfDie die = some k → tget s.dev.parts k = some p → p.swap = some (code, target) →
    die ∈ p.swapLeft → ∃ d p', exec (.swapComplete die) s = .next (s.happened d) ∧ tget d.parts k = some p' ∧
      (p.swapLeft.erase die ≠ [] → p' = { p with swapLeft := p.swapLeft.erase die }) ∧
      (p.swapLeft.erase die = [] → p'.swap = none ∧ p'.resident = if code = 1 then none else some target)) ∧
  (∀ iod i t, s.dev.sys.boot = 0 → iod % 2 ∉ s.dev.sys.dead →
    exec (.bootRom iod i t) s = .next (s.happened { s.dev with sys := { s.dev.sys with boot := 1 } })) ∧
  (∀ iod, s.dev.sys.boot ≠ 3 → s.dev.sys.boot ≠ 0 → iod % 2 ∉ s.dev.sys.dead →
    (s.dev.sys.dead = [] →
      exec (.bootRom iod true true) s = .next (s.happened { s.dev with sys := { s.dev.sys with boot := 2 } })) ∧
    (∀ t, ∃ d, exec (.bootRom iod false t) s = .next (s.happened d) ∧ d.sys.boot = 3 ∧
      ∀ n ∈ coresOfIod iod, (d.core n).run = .stopped) ∧
    (∃ d, exec (.bootRom iod true false) s = .next (s.happened d) ∧ d.sys.boot = 1 ∧
      ∀ n ∈ coresOfIod iod, (d.core n).run = .stopped)) ∧
  (∀ w bits, s.dev.sys.locked = false → exec (.featureAccept w bits) s =
    .next (s.happened { s.dev with sys := s.dev.sys.accept w bits })) ∧
  (∀ ctx x id v q, s.dev.ctx ctx = some x → s.dev.sys.boot ≠ 3 → resolveCounter s.dev ctx id = .ok q →
    exec (.hostCounterAdd ctx id v) s =
    .next (s.happened (engineAdd s.mem (s.dev.release 406 3) systemUnit ctx id v s.time))) ∧
  (∀ n op csr v, n < 288 → csrAssigned (isGeneral n) csr.toNat = true →
    exec (.registerWrite n op csr v) s = .next (s.happened (windowAccess s n op csr.toNat v).2) ∧
    (s.dev.sys.boot ≠ 3 → s.dev.sys.cw = true → exec (.hostControlAccess n op csr v) s = .next (s.happened
      { (windowAccess s n op csr.toNat v).2 with sys := { (windowAccess s n op csr.toNat v).2.sys with
        hostWord := (windowAccess s n op csr.toNat v).1 } })) ∧
    (s.dev.sys.boot ≠ 3 → s.dev.sys.cw = false → exec (.hostControlAccess n op csr v) s = .next s)) ∧
  (∀ die cause, die < 8 → ∃ d, exec (.issueGating die cause) s = .next (s.happened d) ∧ (cause, s.time) ∈ (d.die die).gate) ∧
  (∀ die, die < 8 → (∃ x ∈ (s.dev.die die).gate, x.2 + gateLeast x.1 ≤ s.time) → exec (.gatingEnd die) s =
    .next (s.happened (s.dev.updDie die fun y =>
      { y with gate := y.gate.filter fun x => decide (s.time < x.2 + gateLeast x.1) }))) ∧
  (∀ die, ∃ d, exec (.thermalStop die) s = .next (s.happened d) ∧ d.sys.hot = true ∧
    ∀ n, n < 288 → (d.core n).run = .stopped)) ∧
(∀ s : State, ¬s.Live → ∀ f, happening f s = .next s) ∧
(∀ s : State, ∃ t, exec .packageReset s = .next t ∧ t.mem = s.mem ∧
  t.dev = { Dev.reset with poison := s.dev.poison } ∧ t.bundle = none)

/-- Every well-formed syllable that has a word decodes from it to itself with every operand; every 64-bit word that
decodes is the word of the instruction it decodes to, which is well formed; every syllable has a word; and a word
decodes to the vacant-opcode row exactly where its class and OPC are listed in R75. (R43, R46, R64, R75) -/
def Obligations.DecodeOfEncode : Prop :=
  (∀ i w, i.WellFormed → (∀ h c o x, i ≠ .illegalOpcode h c o x) → encode i = some w → decodeWord w = .ok i) ∧
  (∀ w i, w < 2 ^ 64 → decodeWord w = .ok i → encode i = some w ∧ i.WellFormed ∧ i.IsSyllable) ∧
  (∀ i, i.IsSyllable → ∃ w, w < 2 ^ 64 ∧ encode i = some w) ∧
  (∀ w, w < 2 ^ 64 →
    let o := fld w 38 8
    ((∃ h c o x, decodeWord w = .ok (.illegalOpcode h c o x)) ↔ (match fld w 61 3 with
      | 0 => (0x35 ≤ o ∧ o ≤ 0x3D) ∨ 0x40 ≤ o
      | 1 => (0x0C ≤ o ∧ o ≤ 0x0F) ∨ 0x16 ≤ o
      | 2 => o = 0x4E ∨ o = 0x4F ∨ o = 0x6F ∨ (0x75 ≤ o ∧ o ≤ 0x77) ∨ 0x80 ≤ o
      | 3 => o = 0x07 ∨ 0x1C ≤ o
      | 4 => 0x0A ≤ o
      | 5 => 0x0E ≤ o
      | 6 => o = 0x0E ∨ o = 0x0F ∨ (0x15 ≤ o ∧ o ≤ 0x17) ∨ 0x1F ≤ o
      | _ => (0x0C ≤ o ∧ o ≤ 0x0F) ∨ 0x13 ≤ o)))

/-- The words of one syllable of each class, put together from the opcode map and the operand families, among them both
syllables of the spec's encoded bundle, decode to that syllable; a non-zero reserved field, a reserved TY, a shift
immediate above 63 and a reserved EDGE are refused. (03_bundles_and_opcodes.md, R64, R66, R143) -/
def Obligations.EncodedWords : Prop :=
  let h : Hdr := { e := true, wait := 0, gn := false, gp := 0, edge := 0, elvl := 0 }
  let first : Hdr := { e := false, wait := 2, gn := false, gp := 3, edge := 1, elvl := 1 }
  decodeWord 0x1000060313FFFFFF = .ok (.addi h { d := 3, a := 4, imm := 0x3FFFFFF }) ∧
  decodeWord 0x1000090804200000 = .ok (.cltn h { pd := 2, a := 1, b := 2 }) ∧
  decodeWord 0x3000041000700064 = .ok (.loop h { lv := 2, src := 0, mq := 0, len := 7, cnt := 100 }) ∧
  decodeWord 0x421A58C414610000 =
    .ok (.vfma first { d := 4, a := 5, b := 6, nq := 4, rm := 0, sat := 0, bs := 0, ty := 0 }) ∧
  decodeWord 0x700000C824000010 = .ok (.lds64 h { d := 8, a := 9, nq := 0, disp := 16 }) ∧
  decodeWord 0x9000018412000000 = .ok (.mcfg h { nq := 4, wf := 1, af := 2, ak := 0 }) ∧
  decodeWord 0xB000018518000021 = .ok (.rowset h { d := 5, a := 6, imm := 33 }) ∧
  decodeWord 0xD000002320000001 = .ok (.cadd h { ord := 2, scp := 1, k := 9, a := 0, imm := 1 }) ∧
  decodeWord 0xF000015400000007 = .ok (.tmark h { a := 20, imm := 7 }) ∧
  (∀ w ∈ [0x1000000000000001, 0x500018C414610300, 0x1000070000000040, 0x1006000000000000],
    decodeWord w = .error .illegalSyllable)

/-- Where the current core runs, nothing else must happen first, its iteration bound has not run out, its next bundle is
at hand and passes the checks of R46, R51, R53 and R467, a step opens the bundle and runs the meanings of its syllables in
address order, until one ends the bundle; a bundle of one syllable runs exactly that syllable. (A bundle that only stalls
is run with the reason of its stall set beside it, R491.) A bundle that is not at hand is fetched first;
a general core fetches the word that memory holds at its pc. A register action that is due is performed, what a bound on the
time base makes due happens first of all, and an event at the head of the agenda is run. (The agenda and the
choice of the core are the model's own: log entry 3.) (R38, R39, R44, R46, R49) -/
def Obligations.StepRunsDecodedBundle : Prop :=
  (∀ (s : State) (x : AtHand),
    let c := s.dev.core s.cur
    let t := s.begin s.cur x
    let c' := t.dev.core s.cur
    let is := decoded x.f.words
    let u := t.translating s.cur is
    s.due = none → s.agenda = [] → needOf s.mem s.dev s.cur = none → c.run = .running → c.discards = false →
    ({ c with ready := x.cycle } : Core).overrunDue = false ∨ isGeneral s.cur = true → atHand s.dev s.cur = some x →
    c.lp.skip = 0 → (x.src = 1 → x.f.addr = c.pc) → x.f.fault = none →
    decodeFault (isGeneral s.cur) c'.seq.priv x.f.words = none → c'.remoteFailure x.f.words is = none →
    c'.pushDue x.cycle = false → c'.mat.busyUntil ≤ x.cycle → c'.busyUntil ≤ x.cycle →
    c'.engineWaits x.f.words is x.cycle = false →
    (storesAway t.dev s.cur = true → (x.f.words.zip is).any (fun (w, i) => endsPhase c' w i) = false) →
    (∀ i ∈ is, stallsOn c' i = false) → scoreboard c' is x.cycle = none →
    (∀ v, runSyllables exec is u = .next v → step s = if onlyStalled u v s.cur = true then
      runSyllables exec is (u.hinted exec s.cur is) else runSyllables exec is u) ∧
    (∀ w i v, x.f.words = [w] → decodeWord w.toNat = .ok i → exec i u = .next v →
      step s = exec i (if onlyStalled u v s.cur = true then u.hinted exec s.cur [i] else u))) ∧
  (∀ (i : Instr) (is : List Instr) (s : State), runSyllables exec (i :: is) s = match exec i s with
    | .next s' => if s'.bundle = none then .next s' else runSyllables exec is s'
    | o => o) ∧
  (∀ (s : State) (n : Nat), s.due = none → s.agenda = [] →
    (needOf s.mem s.dev s.cur = some (.fetch n) → step s = execPrivateFetch n s) ∧
    (needOf s.mem s.dev s.cur = some (.register n) → step s = .next (performCsr s n))) ∧
  (∀ (s : State) (q : Due), s.due = some q → step s = q.act s) ∧
  (∀ (m : Memory) (d : Dev) (n pa : Nat) (va : Word), isGeneral n = true → (corePort d n).address m d va = .ok pa →
    (readWord m d everyone pa).getLsbD 60 = true →
    (corePort d n).bundle m d va = .ok [readWord m d everyone pa]) ∧
  (∀ (s : State) (i : Instr) (t : List Sched), s.due = none → s.agenda = .event i :: t → ¬ i.IsSyllable →
    step s = exec i { s with agenda := t }) ∧
  (∀ (s : State) (w : World) (t : List Sched), s.due = none → s.agenda = .world w :: t →
    step s = happening w.act { s with agenda := t })

/-- For every state whose memory has its canonical form (addresses strictly rising, no entry equal to what an unlisted
address reads), every step and every instruction answers a next state: none stops the machine; in that state memory
has the canonical form again, and the time base has not run back. (R2, R3, R124, 04_number_formats.md) -/
def Obligations.StepKeepsMemoryCanonical : Prop :=
  (∀ s : State, s.Canonical → ∃ t, step s = .next t ∧ t.Canonical ∧ s.time ≤ t.time) ∧
  (∀ (i : Instr) (s : State), s.Canonical → ∃ t, exec i s = .next t ∧ t.Canonical ∧ s.time ≤ t.time)

/-- In the state after reset, as the spec gives it: every tensor core is idle without a task, unprivileged, and every
general core is privileged; the scoreboard is off, no loop level is active, the generators hold 0x0123456789ABCDEF,
the steal unit of core n holds 0xACE1 xor n; the row engine holds R314's values, GRV, CPY, FAB and SYS registers the
values of their tables. The model's own choices, each in its log entry: unlisted memory reads 0 (1), registers
without a reset value read 0 (6), general core 256 runs first, from TVEC = 0 (3, 7). (R7, R52, R97, R178, R179,
R314, R394, R409, R421, R482, 20_host_and_system.md) -/
def Obligations.ResetState : Prop :=
  let d := State.reset.dev
  (∀ i, tgetD d.sys.mon i 0 = 0) ∧ State.reset.Canonical ∧ (∀ a, State.reset.mem.read a = 0) ∧ (∀ a pa, State.reset.reads a pa = 0) ∧
  (∀ n, n < 256 → (d.core n).run = .idle ∧ (d.core n).task = none ∧ (d.core n).seq.priv = false) ∧
  (∀ n, 256 ≤ n → n < 288 → (d.core n).run = .running ∧ (d.core n).seq.priv = true ∧ (d.core n).seq.ie = false ∧
    (d.core n).seq.pie = false ∧ (d.core n).seq.ppriv = true ∧ (d.core n).seq.cause = 0 ∧ (d.core n).pc = 0) ∧
  (∀ n, let c := d.core n
    c.seq.sb = false ∧ c.r.gen = 0x0123456789ABCDEF ∧ c.lfsr = 0xACE1 ^^^ BitVec.ofNat 16 n ∧ c.pend = [] ∧
    (∀ l, (c.lp.level l).active = false) ∧ c.lp.mloop = none ∧ c.lp.rrb = 0 ∧ c.lp.kb = 0 ∧
    (∀ k, c.s k = 0 ∧ c.v k = 0 ∧ c.m k = 0 ∧ c.b k = 0 ∧ c.p k = (k == 0)) ∧ c.r.lr = 0 ∧
    c.row.nrow = 0 ∧ (∀ i, c.row.word i = 0 ∧ c.row.isLive i = false ∧ c.row.trace i = 0xFFFF) ∧ c.row.tlen = 0 ∧
    c.row.plen = 0 ∧ c.row.tvalid = false ∧ c.row.recurse = false ∧ c.mat.configured = false ∧ c.mat.wp = 0) ∧
  (∀ q, (d.grav q).per = 86400 ∧ (d.grav q).en = true ∧ (d.grav q).thr = 4 ∧ (d.grav q).level = 0 ∧
    (d.grav q).pos = 0 ∧ (d.grav q).seq = 0) ∧
  (∀ q, (d.cpyq q).base = 0 ∧ (d.cpyq q).log2 = 1 ∧ (d.cpyq q).ascp = 3 ∧ (d.cpyq q).en = false ∧ (d.cpyq q).ridx = 0) ∧
  d.fab.tmoCol = 10000 ∧ d.fab.tmoAcc = 100 ∧ d.sys.plim = 6000 ∧ d.sys.feata0 = 0 ∧ d.sys.feata1 = 0 ∧
  State.reset.cur = 256 ∧ State.reset.agenda = [] ∧ State.reset.bundle = none

/-- For every well-formed executing syllable of class S or V other than the four conversions: exec answers a next state;
the only results it sends go to the registers that R45 names as its destinations; every register, loop, sequencer,
matrix, row and spill state of its core (but the generator, which a stochastic rounding and VSEED advance), every
other core, every other unit, and every byte that any agent reads are unchanged. (R45, R97, 06_core_sequencer.md,
10_vector_unit.md) -/
def Obligations.RegisterOnlyFrame : Prop :=
  ∀ (i : Instr) (s : State) (b : Bundle) (h : Hdr), i.WellFormed → hdrOf i = some h → Issuing s b h →
  (∃ cls opc ops, encParts i = some (cls, opc, h, ops) ∧ (cls = 0 ∨ cls = 2)) →
  (∀ h c o x, i ≠ .illegalOpcode h c o x) →
  (∀ h o, i ≠ .vcvtf h o ∧ i ≠ .vcvtn h o ∧ i ≠ .vcvti h o ∧ i ≠ .vcvtif h o) →
  ∃ d : Dev, exec i s = .next (s.after h d) ∧
    (h.e = false → (s.after h d).dev = d ∧ (s.after h d).mem = s.mem) ∧
    (∀ n, n ≠ b.core → d.core n = s.dev.core n) ∧
    { d with cores := s.dev.cores } = s.dev ∧
    (let c := s.dev.core b.core
     let c' := d.core b.core
     { c' with pend := c.pend, bWrite := c.bWrite, r := { c'.r with gen := c.r.gen } } = c ∧
     ∀ e ∈ c'.pend, e ∈ c.pend ∨
       (e.prod = b.addr ∧ e.res.ref ∈ (destsOf i).map (physRef b.issuer.lp))) ∧
    ∀ agent pa, readByte s.mem d agent pa = readByte s.mem s.dev agent pa
end

