-- ==== Sys2Proof/Laws/Exec.lean ====
section
/-!
SUPPORT. Each arm of exec: an instruction runs its own meaning.
-/

namespace Sys2Proof.Machine

theorem exec_add (h : Hdr) (o : SRR) (s : State) : exec (.add h o) s = execAdd h o s := rfl
theorem exec_sub (h : Hdr) (o : SRR) (s : State) : exec (.sub h o) s = execSub h o s := rfl
theorem exec_and (h : Hdr) (o : SRR) (s : State) : exec (.and h o) s = execAnd h o s := rfl
theorem exec_or (h : Hdr) (o : SRR) (s : State) : exec (.or h o) s = execOr h o s := rfl
theorem exec_xor (h : Hdr) (o : SRR) (s : State) : exec (.xor h o) s = execXor h o s := rfl
theorem exec_andn (h : Hdr) (o : SRR) (s : State) : exec (.andn h o) s = execAndn h o s := rfl
theorem exec_shl (h : Hdr) (o : SRR) (s : State) : exec (.shl h o) s = execShl h o s := rfl
theorem exec_shr (h : Hdr) (o : SRR) (s : State) : exec (.shr h o) s = execShr h o s := rfl
theorem exec_sra (h : Hdr) (o : SRR) (s : State) : exec (.sra h o) s = execSra h o s := rfl
theorem exec_rol (h : Hdr) (o : SRR) (s : State) : exec (.rol h o) s = execRol h o s := rfl
theorem exec_mul (h : Hdr) (o : SRR) (s : State) : exec (.mul h o) s = execMul h o s := rfl
theorem exec_mulh (h : Hdr) (o : SRR) (s : State) : exec (.mulh h o) s = execMulh h o s := rfl
theorem exec_mulhn (h : Hdr) (o : SRR) (s : State) : exec (.mulhn h o) s = execMulhn h o s := rfl
theorem exec_min (h : Hdr) (o : SRR) (s : State) : exec (.min h o) s = execMin h o s := rfl
theorem exec_max (h : Hdr) (o : SRR) (s : State) : exec (.max h o) s = execMax h o s := rfl
theorem exec_minn (h : Hdr) (o : SRR) (s : State) : exec (.minn h o) s = execMinn h o s := rfl
theorem exec_maxn (h : Hdr) (o : SRR) (s : State) : exec (.maxn h o) s = execMaxn h o s := rfl
theorem exec_clz (h : Hdr) (o : SR1) (s : State) : exec (.clz h o) s = execClz h o s := rfl
theorem exec_ctz (h : Hdr) (o : SR1) (s : State) : exec (.ctz h o) s = execCtz h o s := rfl
theorem exec_popc (h : Hdr) (o : SR1) (s : State) : exec (.popc h o) s = execPopc h o s := rfl
theorem exec_brev (h : Hdr) (o : SR1) (s : State) : exec (.brev h o) s = execBrev h o s := rfl
theorem exec_bswap (h : Hdr) (o : SR1) (s : State) : exec (.bswap h o) s = execBswap h o s := rfl
theorem exec_bext (h : Hdr) (o : SBF) (s : State) : exec (.bext h o) s = execBext h o s := rfl
theorem exec_bins (h : Hdr) (o : SBF) (s : State) : exec (.bins h o) s = execBins h o s := rfl
theorem exec_addi (h : Hdr) (o : SRI) (s : State) : exec (.addi h o) s = execAddi h o s := rfl
theorem exec_andi (h : Hdr) (o : SRI) (s : State) : exec (.andi h o) s = execAndi h o s := rfl
theorem exec_ori (h : Hdr) (o : SRI) (s : State) : exec (.ori h o) s = execOri h o s := rfl
theorem exec_xori (h : Hdr) (o : SRI) (s : State) : exec (.xori h o) s = execXori h o s := rfl
theorem exec_shli (h : Hdr) (o : SRI) (s : State) : exec (.shli h o) s = execShli h o s := rfl
theorem exec_shri (h : Hdr) (o : SRI) (s : State) : exec (.shri h o) s = execShri h o s := rfl
theorem exec_srai (h : Hdr) (o : SRI) (s : State) : exec (.srai h o) s = execSrai h o s := rfl
theorem exec_muli (h : Hdr) (o : SRI) (s : State) : exec (.muli h o) s = execMuli h o s := rfl
theorem exec_ceq (h : Hdr) (o : SPR) (s : State) : exec (.ceq h o) s = execCeq h o s := rfl
theorem exec_cne (h : Hdr) (o : SPR) (s : State) : exec (.cne h o) s = execCne h o s := rfl
theorem exec_clt (h : Hdr) (o : SPR) (s : State) : exec (.clt h o) s = execClt h o s := rfl
theorem exec_cle (h : Hdr) (o : SPR) (s : State) : exec (.cle h o) s = execCle h o s := rfl
theorem exec_cltn (h : Hdr) (o : SPR) (s : State) : exec (.cltn h o) s = execCltn h o s := rfl
theorem exec_clen (h : Hdr) (o : SPR) (s : State) : exec (.clen h o) s = execClen h o s := rfl
theorem exec_ceqi (h : Hdr) (o : SPI) (s : State) : exec (.ceqi h o) s = execCeqi h o s := rfl
theorem exec_cnei (h : Hdr) (o : SPI) (s : State) : exec (.cnei h o) s = execCnei h o s := rfl
theorem exec_clti (h : Hdr) (o : SPI) (s : State) : exec (.clti h o) s = execClti h o s := rfl
theorem exec_clei (h : Hdr) (o : SPI) (s : State) : exec (.clei h o) s = execClei h o s := rfl
theorem exec_cltni (h : Hdr) (o : SPI) (s : State) : exec (.cltni h o) s = execCltni h o s := rfl
theorem exec_cleni (h : Hdr) (o : SPI) (s : State) : exec (.cleni h o) s = execCleni h o s := rfl
theorem exec_pand (h : Hdr) (o : SPP) (s : State) : exec (.pand h o) s = execPand h o s := rfl
theorem exec_por (h : Hdr) (o : SPP) (s : State) : exec (.por h o) s = execPor h o s := rfl
theorem exec_pxor (h : Hdr) (o : SPP) (s : State) : exec (.pxor h o) s = execPxor h o s := rfl
theorem exec_pandn (h : Hdr) (o : SPP) (s : State) : exec (.pandn h o) s = execPandn h o s := rfl
theorem exec_sel (h : Hdr) (o : SSL) (s : State) : exec (.sel h o) s = execSel h o s := rfl
theorem exec_mfx (h : Hdr) (o : SXR) (s : State) : exec (.mfx h o) s = execMfx h o s := rfl
theorem exec_mtx (h : Hdr) (o : SXR) (s : State) : exec (.mtx h o) s = execMtx h o s := rfl
theorem exec_mfb (h : Hdr) (o : SXB) (s : State) : exec (.mfb h o) s = execMfb h o s := rfl
theorem exec_mtb (h : Hdr) (o : SXB) (s : State) : exec (.mtb h o) s = execMtb h o s := rfl
theorem exec_limmh (h : Hdr) (o : SLI) (s : State) : exec (.limmh h o) s = execLimmh h o s := rfl
theorem exec_limml (h : Hdr) (o : SLI) (s : State) : exec (.limml h o) s = execLimml h o s := rfl
theorem exec_nop (h : Hdr) (s : State) : exec (.nop h) s = execNop h s := rfl
theorem exec_halt (h : Hdr) (s : State) : exec (.halt h) s = execHalt h s := rfl
theorem exec_exit (h : Hdr) (s : State) : exec (.exit h) s = execExit h s := rfl
theorem exec_trap (h : Hdr) (o : CI) (s : State) : exec (.trap h o) s = execTrap h o s := rfl
theorem exec_detach (h : Hdr) (s : State) : exec (.detach h) s = execDetach h s := rfl
theorem exec_join (h : Hdr) (o : CJ) (s : State) : exec (.join h o) s = execJoin h o s := rfl
theorem exec_fuse (h : Hdr) (s : State) : exec (.fuse h) s = execFuse h s := rfl
theorem exec_unfuse (h : Hdr) (s : State) : exec (.unfuse h) s = execUnfuse h s := rfl
theorem exec_pbt (h : Hdr) (o : CT) (s : State) : exec (.pbt h o) s = execPbt h o s := rfl
theorem exec_brt (h : Hdr) (o : CB) (s : State) : exec (.brt h o) s = execBrt h o s := rfl
theorem exec_call (h : Hdr) (o : CC) (s : State) : exec (.call h o) s = execCall h o s := rfl
theorem exec_ret (h : Hdr) (o : CB) (s : State) : exec (.ret h o) s = execRet h o s := rfl
theorem exec_loop (h : Hdr) (o : CL) (s : State) : exec (.loop h o) s = execLoop h o s := rfl
theorem exec_mloop (h : Hdr) (o : CM) (s : State) : exec (.mloop h o) s = execMloop h o s := rfl
theorem exec_lstri (h : Hdr) (o : CS) (s : State) : exec (.lstri h o) s = execLstri h o s := rfl
theorem exec_lstrr (h : Hdr) (o : CW) (s : State) : exec (.lstrr h o) s = execLstrr h o s := rfl
theorem exec_lbrk (h : Hdr) (o : CV) (s : State) : exec (.lbrk h o) s = execLbrk h o s := rfl
theorem exec_lnext (h : Hdr) (o : CV) (s : State) : exec (.lnext h o) s = execLnext h o s := rfl
theorem exec_vadd (h : Hdr) (ew : BitVec 2) (o : VR) (s : State) : exec (.vadd h ew o) s = execVadd h ew o s := rfl
theorem exec_vsub (h : Hdr) (ew : BitVec 2) (o : VR) (s : State) : exec (.vsub h ew o) s = execVsub h ew o s := rfl
theorem exec_vmul (h : Hdr) (ew : BitVec 2) (o : VR) (s : State) : exec (.vmul h ew o) s = execVmul h ew o s := rfl
theorem exec_vmulh (h : Hdr) (ew : BitVec 2) (o : VR) (s : State) : exec (.vmulh h ew o) s = execVmulh h ew o s := rfl
theorem exec_vmin (h : Hdr) (ew : BitVec 2) (o : VR) (s : State) : exec (.vmin h ew o) s = execVmin h ew o s := rfl
theorem exec_vmax (h : Hdr) (ew : BitVec 2) (o : VR) (s : State) : exec (.vmax h ew o) s = execVmax h ew o s := rfl
theorem exec_vminn (h : Hdr) (ew : BitVec 2) (o : VR) (s : State) : exec (.vminn h ew o) s = execVminn h ew o s := rfl
theorem exec_vmaxn (h : Hdr) (ew : BitVec 2) (o : VR) (s : State) : exec (.vmaxn h ew o) s = execVmaxn h ew o s := rfl
theorem exec_vshl (h : Hdr) (ew : BitVec 2) (o : VR) (s : State) : exec (.vshl h ew o) s = execVshl h ew o s := rfl
theorem exec_vshr (h : Hdr) (ew : BitVec 2) (o : VR) (s : State) : exec (.vshr h ew o) s = execVshr h ew o s := rfl
theorem exec_vsra (h : Hdr) (ew : BitVec 2) (o : VR) (s : State) : exec (.vsra h ew o) s = execVsra h ew o s := rfl
theorem exec_vadds (h : Hdr) (ew : BitVec 2) (o : VR) (s : State) : exec (.vadds h ew o) s = execVadds h ew o s := rfl
theorem exec_vsubs (h : Hdr) (ew : BitVec 2) (o : VR) (s : State) : exec (.vsubs h ew o) s = execVsubs h ew o s := rfl
theorem exec_vpopc (h : Hdr) (ew : BitVec 2) (o : VR) (s : State) : exec (.vpopc h ew o) s = execVpopc h ew o s := rfl
theorem exec_vclz (h : Hdr) (ew : BitVec 2) (o : VR) (s : State) : exec (.vclz h ew o) s = execVclz h ew o s := rfl
theorem exec_vabs (h : Hdr) (ew : BitVec 2) (o : VR) (s : State) : exec (.vabs h ew o) s = execVabs h ew o s := rfl
theorem exec_vand (h : Hdr) (o : VR) (s : State) : exec (.vand h o) s = execVand h o s := rfl
theorem exec_vor (h : Hdr) (o : VR) (s : State) : exec (.vor h o) s = execVor h o s := rfl
theorem exec_vxor (h : Hdr) (o : VR) (s : State) : exec (.vxor h o) s = execVxor h o s := rfl
theorem exec_vandn (h : Hdr) (o : VR) (s : State) : exec (.vandn h o) s = execVandn h o s := rfl
theorem exec_vmov (h : Hdr) (o : VR) (s : State) : exec (.vmov h o) s = execVmov h o s := rfl
theorem exec_vperm (h : Hdr) (o : VR) (s : State) : exec (.vperm h o) s = execVperm h o s := rfl
theorem exec_vclmull (h : Hdr) (o : VR) (s : State) : exec (.vclmull h o) s = execVclmull h o s := rfl
theorem exec_vclmulh (h : Hdr) (o : VR) (s : State) : exec (.vclmulh h o) s = execVclmulh h o s := rfl
theorem exec_vsel (h : Hdr) (o : VM) (s : State) : exec (.vsel h o) s = execVsel h o s := rfl
theorem exec_mand (h : Hdr) (o : VMM) (s : State) : exec (.mand h o) s = execMand h o s := rfl
theorem exec_mor (h : Hdr) (o : VMM) (s : State) : exec (.mor h o) s = execMor h o s := rfl
theorem exec_mxor (h : Hdr) (o : VMM) (s : State) : exec (.mxor h o) s = execMxor h o s := rfl
theorem exec_mnot (h : Hdr) (o : VMM) (s : State) : exec (.mnot h o) s = execMnot h o s := rfl
theorem exec_vseed (h : Hdr) (o : VX) (s : State) : exec (.vseed h o) s = execVseed h o s := rfl
theorem exec_vaddi (h : Hdr) (ew : BitVec 2) (o : VI) (s : State) : exec (.vaddi h ew o) s = execVaddi h ew o s := rfl
theorem exec_vshli (h : Hdr) (ew : BitVec 2) (o : VI) (s : State) : exec (.vshli h ew o) s = execVshli h ew o s := rfl
theorem exec_vshri (h : Hdr) (ew : BitVec 2) (o : VI) (s : State) : exec (.vshri h ew o) s = execVshri h ew o s := rfl
theorem exec_vmovi (h : Hdr) (ew : BitVec 2) (o : VI) (s : State) : exec (.vmovi h ew o) s = execVmovi h ew o s := rfl
theorem exec_vfadd (h : Hdr) (o : VF) (s : State) : exec (.vfadd h o) s = execVfadd h o s := rfl
theorem exec_vfsub (h : Hdr) (o : VF) (s : State) : exec (.vfsub h o) s = execVfsub h o s := rfl
theorem exec_vfmul (h : Hdr) (o : VF) (s : State) : exec (.vfmul h o) s = execVfmul h o s := rfl
theorem exec_vfma (h : Hdr) (o : VF) (s : State) : exec (.vfma h o) s = execVfma h o s := rfl
theorem exec_vfms (h : Hdr) (o : VF) (s : State) : exec (.vfms h o) s = execVfms h o s := rfl
theorem exec_vfnma (h : Hdr) (o : VF) (s : State) : exec (.vfnma h o) s = execVfnma h o s := rfl
theorem exec_vfmin (h : Hdr) (o : VF) (s : State) : exec (.vfmin h o) s = execVfmin h o s := rfl
theorem exec_vfmax (h : Hdr) (o : VF) (s : State) : exec (.vfmax h o) s = execVfmax h o s := rfl
theorem exec_vfabs (h : Hdr) (o : VF) (s : State) : exec (.vfabs h o) s = execVfabs h o s := rfl
theorem exec_vfneg (h : Hdr) (o : VF) (s : State) : exec (.vfneg h o) s = execVfneg h o s := rfl
theorem exec_vexp2 (h : Hdr) (o : VF) (s : State) : exec (.vexp2 h o) s = execVexp2 h o s := rfl
theorem exec_vlog2 (h : Hdr) (o : VF) (s : State) : exec (.vlog2 h o) s = execVlog2 h o s := rfl
theorem exec_vrcp (h : Hdr) (o : VF) (s : State) : exec (.vrcp h o) s = execVrcp h o s := rfl
theorem exec_vrsq (h : Hdr) (o : VF) (s : State) : exec (.vrsq h o) s = execVrsq h o s := rfl
theorem exec_vtanh (h : Hdr) (o : VF) (s : State) : exec (.vtanh h o) s = execVtanh h o s := rfl
theorem exec_vcvtf (h : Hdr) (o : VC) (s : State) : exec (.vcvtf h o) s = execVcvtf h o s := rfl
theorem exec_vcvtn (h : Hdr) (o : VC) (s : State) : exec (.vcvtn h o) s = execVcvtn h o s := rfl
theorem exec_vcvti (h : Hdr) (o : VC) (s : State) : exec (.vcvti h o) s = execVcvti h o s := rfl
theorem exec_vcvtif (h : Hdr) (o : VC) (s : State) : exec (.vcvtif h o) s = execVcvtif h o s := rfl
theorem exec_vcmp (h : Hdr) (o : VP) (s : State) : exec (.vcmp h o) s = execVcmp h o s := rfl
theorem exec_vrsum (h : Hdr) (o : VS) (s : State) : exec (.vrsum h o) s = execVrsum h o s := rfl
theorem exec_vrmax (h : Hdr) (o : VS) (s : State) : exec (.vrmax h o) s = execVrmax h o s := rfl
theorem exec_vrmin (h : Hdr) (o : VS) (s : State) : exec (.vrmin h o) s = execVrmin h o s := rfl
theorem exec_vpsum (h : Hdr) (o : VS) (s : State) : exec (.vpsum h o) s = execVpsum h o s := rfl
theorem exec_vargmax (h : Hdr) (o : VS) (s : State) : exec (.vargmax h o) s = execVargmax h o s := rfl
theorem exec_vtopk (h : Hdr) (o : VS) (s : State) : exec (.vtopk h o) s = execVtopk h o s := rfl
theorem exec_vexts (h : Hdr) (o : VS) (s : State) : exec (.vexts h o) s = execVexts h o s := rfl
theorem exec_vinss (h : Hdr) (o : VS) (s : State) : exec (.vinss h o) s = execVinss h o s := rfl
theorem exec_lds8 (h : Hdr) (o : LM) (s : State) : exec (.lds8 h o) s = execLds8 h o s := rfl
theorem exec_lds16 (h : Hdr) (o : LM) (s : State) : exec (.lds16 h o) s = execLds16 h o s := rfl
theorem exec_lds32 (h : Hdr) (o : LM) (s : State) : exec (.lds32 h o) s = execLds32 h o s := rfl
theorem exec_lds64 (h : Hdr) (o : LM) (s : State) : exec (.lds64 h o) s = execLds64 h o s := rfl
theorem exec_ldn8 (h : Hdr) (o : LM) (s : State) : exec (.ldn8 h o) s = execLdn8 h o s := rfl
theorem exec_ldn16 (h : Hdr) (o : LM) (s : State) : exec (.ldn16 h o) s = execLdn16 h o s := rfl
theorem exec_ldn32 (h : Hdr) (o : LM) (s : State) : exec (.ldn32 h o) s = execLdn32 h o s := rfl
theorem exec_sts8 (h : Hdr) (o : LM) (s : State) : exec (.sts8 h o) s = execSts8 h o s := rfl
theorem exec_sts16 (h : Hdr) (o : LM) (s : State) : exec (.sts16 h o) s = execSts16 h o s := rfl
theorem exec_sts32 (h : Hdr) (o : LM) (s : State) : exec (.sts32 h o) s = execSts32 h o s := rfl
theorem exec_sts64 (h : Hdr) (o : LM) (s : State) : exec (.sts64 h o) s = execSts64 h o s := rfl
theorem exec_ldv (h : Hdr) (o : LM) (s : State) : exec (.ldv h o) s = execLdv h o s := rfl
theorem exec_stv (h : Hdr) (o : LM) (s : State) : exec (.stv h o) s = execStv h o s := rfl
theorem exec_ldvs (h : Hdr) (o : LS) (s : State) : exec (.ldvs h o) s = execLdvs h o s := rfl
theorem exec_stvs (h : Hdr) (o : LS) (s : State) : exec (.stvs h o) s = execStvs h o s := rfl
theorem exec_ldvx (h : Hdr) (o : LX) (s : State) : exec (.ldvx h o) s = execLdvx h o s := rfl
theorem exec_stvx (h : Hdr) (o : LX) (s : State) : exec (.stvx h o) s = execStvx h o s := rfl
theorem exec_stz (h : Hdr) (o : LS) (s : State) : exec (.stz h o) s = execStz h o s := rfl
theorem exec_ldz (h : Hdr) (o : LS) (s : State) : exec (.ldz h o) s = execLdz h o s := rfl
theorem exec_probe (h : Hdr) (o : LP) (s : State) : exec (.probe h o) s = execProbe h o s := rfl
theorem exec_hclaim (h : Hdr) (o : LH) (s : State) : exec (.hclaim h o) s = execHclaim h o s := rfl
theorem exec_hrel (h : Hdr) (o : LH) (s : State) : exec (.hrel h o) s = execHrel h o s := rfl
theorem exec_pref (h : Hdr) (o : LM) (s : State) : exec (.pref h o) s = execPref h o s := rfl
theorem exec_splds (h : Hdr) (o : LK) (s : State) : exec (.splds h o) s = execSplds h o s := rfl
theorem exec_spsts (h : Hdr) (o : LK) (s : State) : exec (.spsts h o) s = execSpsts h o s := rfl
theorem exec_spldv (h : Hdr) (o : LK) (s : State) : exec (.spldv h o) s = execSpldv h o s := rfl
theorem exec_spstv (h : Hdr) (o : LK) (s : State) : exec (.spstv h o) s = execSpstv h o s := rfl
theorem exec_beat (h : Hdr) (o : MB) (s : State) : exec (.beat h o) s = execBeat h o s := rfl
theorem exec_acrel (h : Hdr) (o : MA) (s : State) : exec (.acrel h o) s = execAcrel h o s := rfl
theorem exec_acrela (h : Hdr) (s : State) : exec (.acrela h) s = execAcrela h s := rfl
theorem exec_acgrp (h : Hdr) (o : MG) (s : State) : exec (.acgrp h o) s = execAcgrp h o s := rfl
theorem exec_acmov (h : Hdr) (o : MV) (s : State) : exec (.acmov h o) s = execAcmov h o s := rfl
theorem exec_acld (h : Hdr) (o : MV) (s : State) : exec (.acld h o) s = execAcld h o s := rfl
theorem exec_mcfg (h : Hdr) (o : MC) (s : State) : exec (.mcfg h o) s = execMcfg h o s := rfl
theorem exec_wswap (h : Hdr) (s : State) : exec (.wswap h) s = execWswap h s := rfl
theorem exec_wclr (h : Hdr) (s : State) : exec (.wclr h) s = execWclr h s := rfl
theorem exec_mwait (h : Hdr) (s : State) : exec (.mwait h) s = execMwait h s := rfl
theorem exec_rowld (h : Hdr) (o : WR) (s : State) : exec (.rowld h o) s = execRowld h o s := rfl
theorem exec_rowst (h : Hdr) (o : WR) (s : State) : exec (.rowst h o) s = execRowst h o s := rfl
theorem exec_rowupd (h : Hdr) (o : WR) (s : State) : exec (.rowupd h o) s = execRowupd h o s := rfl
theorem exec_rowpack (h : Hdr) (o : WR) (s : State) : exec (.rowpack h o) s = execRowpack h o s := rfl
theorem exec_rowrestore (h : Hdr) (o : WR) (s : State) : exec (.rowrestore h o) s = execRowrestore h o s := rfl
theorem exec_rowcnt (h : Hdr) (o : WR) (s : State) : exec (.rowcnt h o) s = execRowcnt h o s := rfl
theorem exec_rowset (h : Hdr) (o : WI) (s : State) : exec (.rowset h o) s = execRowset h o s := rfl
theorem exec_rowrec (h : Hdr) (o : WI) (s : State) : exec (.rowrec h o) s = execRowrec h o s := rfl
theorem exec_rowrdec (h : Hdr) (o : WR) (s : State) : exec (.rowrdec h o) s = execRowrdec h o s := rfl
theorem exec_rowtrld (h : Hdr) (o : WR) (s : State) : exec (.rowtrld h o) s = execRowtrld h o s := rfl
theorem exec_rowtrst (h : Hdr) (o : WR) (s : State) : exec (.rowtrst h o) s = execRowtrst h o s := rfl
theorem exec_rowmask (h : Hdr) (o : WR) (s : State) : exec (.rowmask h o) s = execRowmask h o s := rfl
theorem exec_rowseq (h : Hdr) (o : WR) (s : State) : exec (.rowseq h o) s = execRowseq h o s := rfl
theorem exec_rowclr (h : Hdr) (o : WR) (s : State) : exec (.rowclr h o) s = execRowclr h o s := rfl
theorem exec_cadd (h : Hdr) (o : YK) (s : State) : exec (.cadd h o) s = execCadd h o s := rfl
theorem exec_cwait (h : Hdr) (o : YK) (s : State) : exec (.cwait h o) s = execCwait h o s := rfl
theorem exec_cread (h : Hdr) (o : YK) (s : State) : exec (.cread h o) s = execCread h o s := rfl
theorem exec_cmax (h : Hdr) (o : YK) (s : State) : exec (.cmax h o) s = execCmax h o s := rfl
theorem exec_cwany (h : Hdr) (o : YW) (s : State) : exec (.cwany h o) s = execCwany h o s := rfl
theorem exec_cbind (h : Hdr) (o : YK) (s : State) : exec (.cbind h o) s = execCbind h o s := rfl
theorem exec_stakeCreate (h : Hdr) (o : YP) (s : State) : exec (.stakeCreate h o) s = execStakeCreate h o s := rfl
theorem exec_stakeRetire (h : Hdr) (o : YP) (s : State) : exec (.stakeRetire h o) s = execStakeRetire h o s := rfl
theorem exec_stakeAdvance (h : Hdr) (o : YP) (s : State) : exec (.stakeAdvance h o) s = execStakeAdvance h o s := rfl
theorem exec_phase (h : Hdr) (o : YN) (s : State) : exec (.phase h o) s = execPhase h o s := rfl
theorem exec_cpyq (h : Hdr) (o : YG) (s : State) : exec (.cpyq h o) s = execCpyq h o s := rfl
theorem exec_cpymc (h : Hdr) (o : YG) (s : State) : exec (.cpymc h o) s = execCpymc h o s := rfl
theorem exec_hbdrain (h : Hdr) (o : YG) (s : State) : exec (.hbdrain h o) s = execHbdrain h o s := rfl
theorem exec_gsub (h : Hdr) (o : YG) (s : State) : exec (.gsub h o) s = execGsub h o s := rfl
theorem exec_gunsub (h : Hdr) (o : YG) (s : State) : exec (.gunsub h o) s = execGunsub h o s := rfl
theorem exec_gred (h : Hdr) (o : YG) (s : State) : exec (.gred h o) s = execGred h o s := rfl
theorem exec_tlaunch (h : Hdr) (o : YG) (s : State) : exec (.tlaunch h o) s = execTlaunch h o s := rfl
theorem exec_tqadd (h : Hdr) (o : YG) (s : State) : exec (.tqadd h o) s = execTqadd h o s := rfl
theorem exec_tdqadd (h : Hdr) (o : YG) (s : State) : exec (.tdqadd h o) s = execTdqadd h o s := rfl
theorem exec_tdqtake (h : Hdr) (o : YG) (s : State) : exec (.tdqtake h o) s = execTdqtake h o s := rfl
theorem exec_tcancel (h : Hdr) (o : YG) (s : State) : exec (.tcancel h o) s = execTcancel h o s := rfl
theorem exec_filreq (h : Hdr) (o : YG) (s : State) : exec (.filreq h o) s = execFilreq h o s := rfl
theorem exec_kvprobe (h : Hdr) (o : YG) (s : State) : exec (.kvprobe h o) s = execKvprobe h o s := rfl
theorem exec_kvmarkValid (h : Hdr) (o : YG) (s : State) : exec (.kvmarkValid h o) s = execKvmarkValid h o s := rfl
theorem exec_kvmarkExit (h : Hdr) (o : YG) (s : State) : exec (.kvmarkExit h o) s = execKvmarkExit h o s := rfl
theorem exec_kvmarkClear (h : Hdr) (o : YG) (s : State) : exec (.kvmarkClear h o) s = execKvmarkClear h o s := rfl
theorem exec_calve (h : Hdr) (o : YG) (s : State) : exec (.calve h o) s = execCalve h o s := rfl
theorem exec_calveArm (h : Hdr) (o : YG) (s : State) : exec (.calveArm h o) s = execCalveArm h o s := rfl
theorem exec_colred (h : Hdr) (o : YG) (s : State) : exec (.colred h o) s = execColred h o s := rfl
theorem exec_colbc (h : Hdr) (o : YG) (s : State) : exec (.colbc h o) s = execColbc h o s := rfl
theorem exec_colag (h : Hdr) (o : YG) (s : State) : exec (.colag h o) s = execColag h o s := rfl
theorem exec_tret (h : Hdr) (s : State) : exec (.tret h) s = execTret h s := rfl
theorem exec_csrr (h : Hdr) (o : ZC) (s : State) : exec (.csrr h o) s = execCsrr h o s := rfl
theorem exec_csrw (h : Hdr) (o : ZC) (s : State) : exec (.csrw h o) s = execCsrw h o s := rfl
theorem exec_csrs (h : Hdr) (o : ZC) (s : State) : exec (.csrs h o) s = execCsrs h o s := rfl
theorem exec_csrc (h : Hdr) (o : ZC) (s : State) : exec (.csrc h o) s = execCsrc h o s := rfl
theorem exec_tmark (h : Hdr) (o : ZI) (s : State) : exec (.tmark h o) s = execTmark h o s := rfl
theorem exec_smpctl (h : Hdr) (o : ZI) (s : State) : exec (.smpctl h o) s = execSmpctl h o s := rfl
theorem exec_bkpt (h : Hdr) (o : ZI) (s : State) : exec (.bkpt h o) s = execBkpt h o s := rfl
theorem exec_wpset (h : Hdr) (o : ZG) (s : State) : exec (.wpset h o) s = execWpset h o s := rfl
theorem exec_wpclr (h : Hdr) (o : ZI) (s : State) : exec (.wpclr h o) s = execWpclr h o s := rfl
theorem exec_taginv (h : Hdr) (o : ZG) (s : State) : exec (.taginv h o) s = execTaginv h o s := rfl
theorem exec_tagflush (h : Hdr) (s : State) : exec (.tagflush h) s = execTagflush h s := rfl
theorem exec_partopForm (h : Hdr) (o : ZG) (s : State) : exec (.partopForm h o) s = execPartopForm h o s := rfl
theorem exec_partopDissolve (h : Hdr) (o : ZG) (s : State) : exec (.partopDissolve h o) s = execPartopDissolve h o s := rfl
theorem exec_partopPreempt (h : Hdr) (o : ZG) (s : State) : exec (.partopPreempt h o) s = execPartopPreempt h o s := rfl
theorem exec_partopQreset (h : Hdr) (o : ZG) (s : State) : exec (.partopQreset h o) s = execPartopQreset h o s := rfl
theorem exec_ctxopCreate (h : Hdr) (o : ZG) (s : State) : exec (.ctxopCreate h o) s = execCtxopCreate h o s := rfl
theorem exec_ctxopDestroy (h : Hdr) (o : ZG) (s : State) : exec (.ctxopDestroy h o) s = execCtxopDestroy h o s := rfl
theorem exec_ctxopInval (h : Hdr) (o : ZG) (s : State) : exec (.ctxopInval h o) s = execCtxopInval h o s := rfl
theorem exec_ctxopAttest (h : Hdr) (o : ZG) (s : State) : exec (.ctxopAttest h o) s = execCtxopAttest h o s := rfl
theorem exec_swapopSave (h : Hdr) (o : ZG) (s : State) : exec (.swapopSave h o) s = execSwapopSave h o s := rfl
theorem exec_swapopRestore (h : Hdr) (o : ZG) (s : State) : exec (.swapopRestore h o) s = execSwapopRestore h o s := rfl
theorem exec_swapopExch (h : Hdr) (o : ZG) (s : State) : exec (.swapopExch h o) s = execSwapopExch h o s := rfl
theorem exec_illegalOpcode (h : Hdr) (cls : BitVec 3) (opc : BitVec 8) (w : BitVec 38) (s : State) : exec (.illegalOpcode h cls opc w) s = execIllegalOpcode h cls opc w s := rfl
theorem exec_resultLanding (core idx : Nat) (s : State) : exec (.resultLanding core idx) s = execResultLanding core idx s := rfl
theorem exec_pushLanding (core : Nat) (s : State) : exec (.pushLanding core) s = execPushLanding core s := rfl
theorem exec_interrupt (core : Nat) (s : State) : exec (.interrupt core) s = execInterrupt core s := rfl
theorem exec_haltWake (core : Nat) (s : State) : exec (.haltWake core) s = execHaltWake core s := rfl
theorem exec_seqResumeReplay (core : Nat) (s : State) : exec (.seqResumeReplay core) s = execSeqResumeReplay core s := rfl
theorem exec_seqResumeContinue (core : Nat) (s : State) : exec (.seqResumeContinue core) s = execSeqResumeContinue core s := rfl
theorem exec_seqResumeUnresolved (core : Nat) (s : State) : exec (.seqResumeUnresolved core) s = execSeqResumeUnresolved core s := rfl
theorem exec_registerWrite (core : Nat) (op : CsrOp) (csr : BitVec 16) (val : BitVec 64) (s : State) : exec (.registerWrite core op csr val) s = execRegisterWrite core op csr val s := rfl
theorem exec_launchDispatch (ctx stream : Nat) (s : State) : exec (.launchDispatch ctx stream) s = execLaunchDispatch ctx stream s := rfl
theorem exec_taskStart (core : Nat) (s : State) : exec (.taskStart core) s = execTaskStart core s := rfl
theorem exec_stealProbe (core : Nat) (s : State) : exec (.stealProbe core) s = execStealProbe core s := rfl
theorem exec_spillRefill (cluster : Nat) (s : State) : exec (.spillRefill cluster) s = execSpillRefill cluster s := rfl
theorem exec_passBoundary (core : Nat) (s : State) : exec (.passBoundary core) s = execPassBoundary core s := rfl
theorem exec_preemptHalt (core : Nat) (s : State) : exec (.preemptHalt core) s = execPreemptHalt core s := rfl
theorem exec_iterationOverrun (core : Nat) (s : State) : exec (.iterationOverrun core) s = execIterationOverrun core s := rfl
theorem exec_swapComplete (die : Nat) (s : State) : exec (.swapComplete die) s = execSwapComplete die s := rfl
theorem exec_streamDelivery (cluster : Nat) (s : State) : exec (.streamDelivery cluster) s = execStreamDelivery cluster s := rfl
theorem exec_privateFetch (core : Nat) (s : State) : exec (.privateFetch core) s = execPrivateFetch core s := rfl
theorem exec_icacheFill (cluster pa errs : Nat) (corrected : Bool) (s : State) : exec (.icacheFill cluster pa errs corrected) s = execIcacheFill cluster pa errs corrected s := rfl
theorem exec_pageWalk (cluster ctx : Nat) (va : BitVec 64) (memErr : Bool) (s : State) : exec (.pageWalk cluster ctx va memErr) s = execPageWalk cluster ctx va memErr s := rfl
theorem exec_engineCommandResume (idx : Nat) (resolved : Bool) (s : State) : exec (.engineCommandResume idx resolved) s = execEngineCommandResume idx resolved s := rfl
theorem exec_phaseEndComplete (core : Nat) (s : State) : exec (.phaseEndComplete core) s = execPhaseEndComplete core s := rfl
theorem exec_storeVisible (idx : Nat) (agent : Option Nat) (s : State) : exec (.storeVisible idx agent) s = execStoreVisible idx agent s := rfl
theorem exec_tagInvalidation (cluster block : Nat) (s : State) : exec (.tagInvalidation cluster block) s = execTagInvalidation cluster block s := rfl
theorem exec_probeLookup (core : Nat) (s : State) : exec (.probeLookup core) s = execProbeLookup core s := rfl
theorem exec_windowFill (cluster set way : Nat) (err : Bool) (s : State) : exec (.windowFill cluster set way err) s = execWindowFill cluster set way err s := rfl
theorem exec_hclaimGrant (core : Nat) (s : State) : exec (.hclaimGrant core) s = execHclaimGrant core s := rfl
theorem exec_hrelPerform (core : Nat) (s : State) : exec (.hrelPerform core) s = execHrelPerform core s := rfl
theorem exec_counterOperation (ctx : Nat) (ident : BitVec 64) (isMax : Bool) (val : BitVec 64) (s : State) : exec (.counterOperation ctx ident isMax val) s = execCounterOperation ctx ident isMax val s := rfl
theorem exec_syncAnswer (core : Nat) (s : State) : exec (.syncAnswer core) s = execSyncAnswer core s := rfl
theorem exec_moraineBatchTimeout (die ctx : Nat) (s : State) : exec (.moraineBatchTimeout die ctx) s = execMoraineBatchTimeout die ctx s := rfl
theorem exec_batchApply (ctx die : Nat) (s : State) : exec (.batchApply ctx die) s = execBatchApply ctx die s := rfl
theorem exec_graverAccept (stack unit ctx : Nat) (data : Option (BitVec 512 × BitVec 64)) (tag : BitVec 32) (s : State) : exec (.graverAccept stack unit ctx data tag) s = execGraverAccept stack unit ctx data tag s := rfl
theorem exec_graverCommand (stack channel : Nat) (column ready0 ready1 : Bool) (outcome : EccOutcome) (s : State) : exec (.graverCommand stack channel column ready0 ready1 outcome) s = execGraverCommand stack channel column ready0 ready1 outcome s := rfl
theorem exec_generationUpdate (stack ctx slot : Nat) (s : State) : exec (.generationUpdate stack ctx slot) s = execGenerationUpdate stack ctx slot s := rfl
theorem exec_scrubPassStart (stack : Nat) (s : State) : exec (.scrubPassStart stack) s = execScrubPassStart stack s := rfl
theorem exec_scrubRead (stack : Nat) (outcome : EccOutcome) (s : State) : exec (.scrubRead stack outcome) s = execScrubRead stack outcome s := rfl
theorem exec_scrubLevelCheck (stack elapsed : Nat) (s : State) : exec (.scrubLevelCheck stack elapsed) s = execScrubLevelCheck stack elapsed s := rfl
theorem exec_subscriptionTile (die entry : Nat) (s : State) : exec (.subscriptionTile die entry) s = execSubscriptionTile die entry s := rfl
theorem exec_subscriptionComplete (die entry : Nat) (s : State) : exec (.subscriptionComplete die entry) s = execSubscriptionComplete die entry s := rfl
theorem exec_graverReduction (die entry : Nat) (s : State) : exec (.graverReduction die entry) s = execGraverReduction die entry s := rfl
theorem exec_copyPacketTake (q : Nat) (s : State) : exec (.copyPacketTake q) s = execCopyPacketTake q s := rfl
theorem exec_stampReread (q : Nat) (s : State) : exec (.stampReread q) s = execStampReread q s := rfl
theorem exec_copyPacketComplete (q idx : Nat) (remote : List (BitVec 8)) (refusal : Nat) (s : State) : exec (.copyPacketComplete q idx remote refusal) s = execCopyPacketComplete q idx remote refusal s := rfl
theorem exec_cpyqEnqueue (engine : Nat) (s : State) : exec (.cpyqEnqueue engine) s = execCpyqEnqueue engine s := rfl
theorem exec_parkClaim (cluster slot : Nat) (s : State) : exec (.parkClaim cluster slot) s = execParkClaim cluster slot s := rfl
theorem exec_parkComplete (cluster slot : Nat) (s : State) : exec (.parkComplete cluster slot) s = execParkComplete cluster slot s := rfl
theorem exec_queueOpen (q : Nat) (s : State) : exec (.queueOpen q) s = execQueueOpen q s := rfl
theorem exec_queueStop (q : Nat) (s : State) : exec (.queueStop q) s = execQueueStop q s := rfl
theorem exec_firnOperation (die : Nat) (s : State) : exec (.firnOperation die) s = execFirnOperation die s := rfl
theorem exec_probeRetry (die : Nat) (s : State) : exec (.probeRetry die) s = execProbeRetry die s := rfl
theorem exec_fillEnd (die entry : Nat) (s : State) : exec (.fillEnd die entry) s = execFillEnd die entry s := rfl
theorem exec_calvingNotice (ctx target row token : Nat) (cw : BitVec 32) (time : BitVec 64) (s : State) : exec (.calvingNotice ctx target row token cw time) s = execCalvingNotice ctx target row token cw time s := rfl
theorem exec_remoteRequest (r : RemoteReq) (s : State) : exec (.remoteRequest r) s = execRemoteRequest r s := rfl
theorem exec_remoteAnswer (idx reason : Nat) (data : BitVec 64) (s : State) : exec (.remoteAnswer idx reason data) s = execRemoteAnswer idx reason data s := rfl
theorem exec_remoteTimeout (idx : Nat) (s : State) : exec (.remoteTimeout idx) s = execRemoteTimeout idx s := rfl
theorem exec_collectiveAssemble (idx : Nat) (others : List RankDesc) (s : State) : exec (.collectiveAssemble idx others) s = execCollectiveAssemble idx others s := rfl
theorem exec_collectiveComplete (idx : Nat) (s : State) : exec (.collectiveComplete idx) s = execCollectiveComplete idx s := rfl
theorem exec_collectiveTimeout (idx : Nat) (s : State) : exec (.collectiveTimeout idx) s = execCollectiveTimeout idx s := rfl
theorem exec_linkDown (port : Nat) (lanes : BitVec 4) (s : State) : exec (.linkDown port lanes) s = execLinkDown port lanes s := rfl
theorem exec_ptpEventMessage (port : Nat) (transmit : Bool) (s : State) : exec (.ptpEventMessage port transmit) s = execPtpEventMessage port transmit s := rfl
theorem exec_genStart (part : Nat) (s : State) : exec (.genStart part) s = execGenStart part s := rfl
theorem exec_genStopRequest (part : Nat) (s : State) : exec (.genStopRequest part) s = execGenStopRequest part s := rfl
theorem exec_genHalt (part : Nat) (s : State) : exec (.genHalt part) s = execGenHalt part s := rfl
theorem exec_genIterationBegin (part : Nat) (s : State) : exec (.genIterationBegin part) s = execGenIterationBegin part s := rfl
theorem exec_genAppend (part : Nat) (s : State) : exec (.genAppend part) s = execGenAppend part s := rfl
theorem exec_genHoldAdvance (part : Nat) (s : State) : exec (.genHoldAdvance part) s = execGenHoldAdvance part s := rfl
theorem exec_genResume (part : Nat) (s : State) : exec (.genResume part) s = execGenResume part s := rfl
theorem exec_genSpec0Clear (part : Nat) (s : State) : exec (.genSpec0Clear part) s = execGenSpec0Clear part s := rfl
theorem exec_genReclaim (part : Nat) (need : BitVec 32) (s : State) : exec (.genReclaim part need) s = execGenReclaim part need s := rfl
theorem exec_genPoolTake (part : Nat) (s : State) : exec (.genPoolTake part) s = execGenPoolTake part s := rfl
theorem exec_genSlotRetire (part slot : Nat) (s : State) : exec (.genSlotRetire part slot) s = execGenSlotRetire part slot s := rfl
theorem exec_genSlotAllocate (part slot : Nat) (s : State) : exec (.genSlotAllocate part slot) s = execGenSlotAllocate part slot s := rfl
theorem exec_traceRecordWrite (unit : Nat) (s : State) : exec (.traceRecordWrite unit) s = execTraceRecordWrite unit s := rfl
theorem exec_traceWiAdd (unit ctx : Nat) (s : State) : exec (.traceWiAdd unit ctx) s = execTraceWiAdd unit ctx s := rfl
theorem exec_sample (core : Nat) (s : State) : exec (.sample core) s = execSample core s := rfl
theorem exec_counterRotate (core : Nat) (s : State) : exec (.counterRotate core) s = execCounterRotate core s := rfl
theorem exec_boundaryStopRequest (core : Nat) (s : State) : exec (.boundaryStopRequest core) s = execBoundaryStopRequest core s := rfl
theorem exec_packageReset  (s : State) : exec (.packageReset) s = execPackageReset s := rfl
theorem exec_bootRom (iod : Nat) (image selfTest : Bool) (s : State) : exec (.bootRom iod image selfTest) s = execBootRom iod image selfTest s := rfl
theorem exec_coreReset (core : Nat) (s : State) : exec (.coreReset core) s = execCoreReset core s := rfl
theorem exec_featureAccept (word : Bool) (bits : BitVec 64) (s : State) : exec (.featureAccept word bits) s = execFeatureAccept word bits s := rfl
theorem exec_hostCounterAdd (ctx : Nat) (ident val : BitVec 64) (s : State) : exec (.hostCounterAdd ctx ident val) s = execHostCounterAdd ctx ident val s := rfl
theorem exec_hostHbmWrite (pa : Nat) (bytes : List (BitVec 8)) (s : State) : exec (.hostHbmWrite pa bytes) s = execHostHbmWrite pa bytes s := rfl
theorem exec_hostHbmRead (pa len : Nat) (s : State) : exec (.hostHbmRead pa len) s = execHostHbmRead pa len s := rfl
theorem exec_hostControlAccess (core : Nat) (op : CsrOp) (csr : BitVec 16) (val : BitVec 64) (s : State) : exec (.hostControlAccess core op csr val) s = execHostControlAccess core op csr val s := rfl
theorem exec_issueGating (die : Nat) (cause : GateCause) (s : State) : exec (.issueGating die cause) s = execIssueGating die cause s := rfl
theorem exec_gatingEnd (die : Nat) (s : State) : exec (.gatingEnd die) s = execGatingEnd die s := rfl
theorem exec_thermalStop (die : Nat) (s : State) : exec (.thermalStop die) s = execThermalStop die s := rfl
theorem exec_refresh (stack channel : Nat) (s : State) : exec (.refresh stack channel) s = execRefresh stack channel s := rfl
theorem exec_linkReturn (port : Nat) (s : State) : exec (.linkReturn port) s = execLinkReturn port s := rfl
theorem exec_bulkShareWindow (port : Nat) (s : State) : exec (.bulkShareWindow port) s = execBulkShareWindow port s := rfl
theorem exec_samplingChangeApplied (core : Nat) (s : State) : exec (.samplingChangeApplied core) s = execSamplingChangeApplied core s := rfl
theorem exec_watchpointChangeApplied (core : Nat) (s : State) : exec (.watchpointChangeApplied core) s = execWatchpointChangeApplied core s := rfl

end Sys2Proof.Machine
end

