-- ==== Sys2Proof/Laws/Memory.lean ====
section
/-!
SUPPORT. Tables and memory: what an entry reads after another was set or removed, and that every memory operation keeps
the canonical form.
-/

namespace Sys2Proof.Machine

/-! ## Tables -/

theorem tget_tset_same {α : Type} (t : Tab α) (k : Nat) (v : α) : tget (tset t k v) k = some v := by
  induction t with
  | nil => simp [tset, tget]
  | cons x t ih =>
    obtain ⟨a, w⟩ := x
    simp only [tset]
    split
    · simp [tget]
    · split
      · simp [tget]
      · have : a ≠ k := fun h => by omega
        simp [tget, this, ih]

theorem tget_tset_other {α : Type} (t : Tab α) (k j : Nat) (v : α) (h : j ≠ k) :
    tget (tset t k v) j = tget t j := by
  induction t with
  | nil => simp [tset, tget, Ne.symm h]
  | cons x t ih =>
    obtain ⟨a, w⟩ := x
    simp only [tset]
    split
    · simp [tget, Ne.symm h]
    · split
      · rename_i h2; subst h2; simp [tget, Ne.symm h]
      · simp [tget, ih]

theorem tget_tdel_other {α : Type} (t : Tab α) (k j : Nat) (h : j ≠ k) : tget (tdel t k) j = tget t j := by
  induction t with
  | nil => rfl
  | cons x t ih =>
    obtain ⟨a, w⟩ := x
    simp only [tdel]
    split
    · rename_i h2; subst h2; simp [tget, Ne.symm h]
    · simp [tget, ih]

@[simp] theorem tgetD_tset_same {α : Type} (t : Tab α) (k : Nat) (v d : α) : tgetD (tset t k v) k d = v := by
  simp [tgetD, tget_tset_same]

theorem tgetD_tset_other {α : Type} (t : Tab α) (k j : Nat) (v d : α) (h : j ≠ k) :
    tgetD (tset t k v) j d = tgetD t j d := by
  simp [tgetD, tget_tset_other t k j v h]

/-! ## The canonical form -/

theorem cellsWf_mono {lo hi : Nat} {t : List Host.Cell} (h : cellsWf hi t = true) (le : lo ≤ hi) :
    cellsWf lo t = true := by
  cases t with
  | nil => rfl
  | cons x t =>
    obtain ⟨a, v⟩ := x
    simp only [cellsWf, Bool.and_eq_true, decide_eq_true_eq] at h ⊢
    exact ⟨⟨by omega, h.1.2⟩, h.2⟩

theorem cellsWf_tset {t : List Host.Cell} {k : Nat} {v : Byte} (hv : v ≠ 0) :
    ∀ {lo : Nat}, cellsWf lo t = true → lo ≤ k → cellsWf lo (tset t k v) = true := by
  induction t with
  | nil => intro lo _ hk; simpa [tset, cellsWf, hk] using hv
  | cons x t ih =>
    obtain ⟨a, w⟩ := x
    intro lo h hk
    simp only [cellsWf, Bool.and_eq_true, decide_eq_true_eq] at h
    simp only [tset]
    split
    · rename_i lt
      simp only [cellsWf, Bool.and_eq_true, decide_eq_true_eq]
      exact ⟨⟨hk, hv⟩, ⟨by omega, h.1.2⟩, h.2⟩
    · split
      · rename_i e; subst e
        simp only [cellsWf, Bool.and_eq_true, decide_eq_true_eq]
        exact ⟨⟨h.1.1, hv⟩, h.2⟩
      · simp only [cellsWf, Bool.and_eq_true, decide_eq_true_eq]
        exact ⟨h.1, ih h.2 (by omega)⟩

theorem cellsWf_tdel {t : List Host.Cell} {k : Nat} : ∀ {lo : Nat}, cellsWf lo t = true → cellsWf lo (tdel t k) = true := by
  induction t with
  | nil => intro lo _; rfl
  | cons x t ih =>
    obtain ⟨a, w⟩ := x
    intro lo h
    simp only [cellsWf, Bool.and_eq_true, decide_eq_true_eq] at h
    simp only [tdel]
    split
    · exact cellsWf_mono h.2 (by omega)
    · simp only [cellsWf, Bool.and_eq_true, decide_eq_true_eq]
      exact ⟨h.1, ih h.2⟩

theorem tget_below {t : List Host.Cell} {k : Nat} : ∀ {lo : Nat}, cellsWf lo t = true → k < lo → tget t k = none := by
  induction t with
  | nil => intro lo _ _; rfl
  | cons x t ih =>
    obtain ⟨a, w⟩ := x
    intro lo h hk
    simp only [cellsWf, Bool.and_eq_true, decide_eq_true_eq] at h
    have : a ≠ k := by omega
    simp only [tget, this, if_false]
    exact ih h.2 (by omega)

theorem tget_tdel_same {t : List Host.Cell} {k : Nat} : ∀ {lo : Nat}, cellsWf lo t = true → tget (tdel t k) k = none := by
  induction t with
  | nil => intro lo _; rfl
  | cons x t ih =>
    obtain ⟨a, w⟩ := x
    intro lo h
    simp only [cellsWf, Bool.and_eq_true, decide_eq_true_eq] at h
    simp only [tdel]
    split
    · rename_i e; subst e; exact tget_below h.2 (by omega)
    · rename_i e
      simp only [tget, e, if_false]
      exact ih h.2

/-- A write keeps the canonical form. -/
theorem Memory.write_wf (m : Memory) (a : Nat) (v : Byte) (h : m.wf = true) : (m.write a v).wf = true := by
  unfold Memory.write
  split
  · exact cellsWf_tdel h
  · rename_i hv; exact cellsWf_tset hv h (Nat.zero_le _)

/-- A list of writes keeps the canonical form. -/
theorem Memory.writes_wf (l : List (Nat × Byte)) : ∀ m : Memory, m.wf = true → (m.writes l).wf = true := by
  induction l with
  | nil => intro m h; exact h
  | cons x t ih => intro m h; exact ih _ (Memory.write_wf m x.1 x.2 h)

/-- A byte just written reads as written. -/
theorem Memory.read_write_same (m : Memory) (a : Nat) (v : Byte) (h : m.wf = true) : (m.write a v).read a = v := by
  unfold Memory.write Memory.read tgetD
  split
  · rename_i hv
    simp only [tget_tdel_same h, hv, Option.getD_none]
  · simp [tget_tset_same]

/-- A write leaves every other byte. -/
theorem Memory.read_write_other (m : Memory) (a x : Nat) (v : Byte) (h : x ≠ a) : (m.write a v).read x = m.read x := by
  unfold Memory.write Memory.read tgetD
  split
  · simp [tget_tdel_other _ _ _ h]
  · simp [tget_tset_other _ _ _ _ h]

/-- A list of writes leaves every byte it does not name. -/
theorem Memory.read_writes_other (l : List (Nat × Byte)) (x : Nat) :
    ∀ m : Memory, (∀ p ∈ l, p.1 ≠ x) → (m.writes l).read x = m.read x := by
  induction l with
  | nil => intro m _; rfl
  | cons p t ih =>
    intro m h
    have h1 := Memory.read_write_other m p.1 x p.2 (fun e => h p (List.mem_cons_self ..) e.symm)
    exact (ih (m.write p.1 p.2) fun q hq => h q (List.mem_cons_of_mem _ hq)).trans h1

/-- Merging the settled stores keeps the canonical form. -/
theorem State.settle_wf (s : State) (h : s.mem.wf = true) : s.settle.mem.wf = true := Memory.writes_wf _ _ h

end Sys2Proof.Machine
end

