-- ==== Sys2Proof/Laws/State.lean ====
section
/-!
SUPPORT. What each update of the state's records leaves in each field, each true by computation.
-/

namespace Sys2Proof.Machine

/-! ## State -/

@[simp] theorem State.tick_mem (s : State) : s.tick.mem = s.mem := rfl
@[simp] theorem State.tick_dev (s : State) : s.tick.dev = s.dev := rfl
@[simp] theorem State.tick_agenda (s : State) : s.tick.agenda = s.agenda := rfl
@[simp] theorem State.tick_cur (s : State) : s.tick.cur = s.cur := rfl
@[simp] theorem State.tick_bundle (s : State) : s.tick.bundle = s.bundle := rfl
@[simp] theorem State.tick_time (s : State) : s.tick.time = s.later := rfl
@[simp] theorem State.tick_free (s : State) : s.tick.free = s.free + 1 := rfl
@[simp] theorem State.settle_time (s : State) : s.settle.time = s.time := rfl
@[simp] theorem State.settle_free (s : State) : s.settle.free = s.free := rfl
@[simp] theorem State.settle_agenda (s : State) : s.settle.agenda = s.agenda := rfl
@[simp] theorem State.settle_cur (s : State) : s.settle.cur = s.cur := rfl
@[simp] theorem State.settle_bundle (s : State) : s.settle.bundle = s.bundle := rfl
@[simp] theorem State.settle_dev_cores (s : State) : s.settle.dev.cores = s.dev.cores := rfl
@[simp] theorem State.settle_dev_clusters (s : State) : s.settle.dev.clusters = s.dev.clusters := rfl
@[simp] theorem State.settle_dev_dies (s : State) : s.settle.dev.dies = s.dev.dies := rfl
@[simp] theorem State.settle_dev_parts (s : State) : s.settle.dev.parts = s.dev.parts := rfl
@[simp] theorem State.settle_dev_ctxs (s : State) : s.settle.dev.ctxs = s.dev.ctxs := rfl
@[simp] theorem State.settle_dev_units (s : State) : s.settle.dev.units = s.dev.units := rfl
@[simp] theorem State.settle_dev_sys (s : State) : s.settle.dev.sys = s.dev.sys := rfl
@[simp] theorem State.settle_dev_poison (s : State) : s.settle.dev.poison = s.dev.poison := rfl
@[simp] theorem State.settle_dev_remote (s : State) : s.settle.dev.remote = s.dev.remote := rfl
@[simp] theorem State.settle_dev_seqnos (s : State) : s.settle.dev.seqnos = s.dev.seqnos := rfl
@[simp] theorem State.settle_dev_tseqs (s : State) : s.settle.dev.tseqs = s.dev.tseqs := rfl
@[simp] theorem State.settle_dev_genPart (s : State) : s.settle.dev.genPart = s.dev.genPart := rfl
@[simp] theorem State.settle_dev_gravs (s : State) : s.settle.dev.gravs = s.dev.gravs := rfl
@[simp] theorem State.settle_dev_images (s : State) : s.settle.dev.images = s.dev.images := rfl
@[simp] theorem State.settle_dev_cpyqs (s : State) : s.settle.dev.cpyqs = s.dev.cpyqs := rfl
@[simp] theorem State.settle_dev_cpyLast (s : State) : s.settle.dev.cpyLast = s.dev.cpyLast := rfl
@[simp] theorem State.settle_dev_cpyReqs (s : State) : s.settle.dev.cpyReqs = s.dev.cpyReqs := rfl
@[simp] theorem State.settle_dev_fab (s : State) : s.settle.dev.fab = s.dev.fab := rfl
@[simp] theorem State.settle_dev_susp (s : State) : s.settle.dev.susp = s.dev.susp := rfl

/-! ## Units -/

@[simp] theorem Dev.setCore_clusters (d : Dev) (n : Nat) (c : Core) : (d.setCore n c).clusters = d.clusters := rfl
@[simp] theorem Dev.setCore_dies (d : Dev) (n : Nat) (c : Core) : (d.setCore n c).dies = d.dies := rfl
@[simp] theorem Dev.setCore_parts (d : Dev) (n : Nat) (c : Core) : (d.setCore n c).parts = d.parts := rfl
@[simp] theorem Dev.setCore_ctxs (d : Dev) (n : Nat) (c : Core) : (d.setCore n c).ctxs = d.ctxs := rfl
@[simp] theorem Dev.setCore_units (d : Dev) (n : Nat) (c : Core) : (d.setCore n c).units = d.units := rfl
@[simp] theorem Dev.setCore_sys (d : Dev) (n : Nat) (c : Core) : (d.setCore n c).sys = d.sys := rfl
@[simp] theorem Dev.setCore_stores (d : Dev) (n : Nat) (c : Core) : (d.setCore n c).stores = d.stores := rfl
@[simp] theorem Dev.setCore_poison (d : Dev) (n : Nat) (c : Core) : (d.setCore n c).poison = d.poison := rfl
@[simp] theorem Dev.setCore_remote (d : Dev) (n : Nat) (c : Core) : (d.setCore n c).remote = d.remote := rfl
@[simp] theorem Dev.setCore_seqnos (d : Dev) (n : Nat) (c : Core) : (d.setCore n c).seqnos = d.seqnos := rfl
@[simp] theorem Dev.setCore_tseqs (d : Dev) (n : Nat) (c : Core) : (d.setCore n c).tseqs = d.tseqs := rfl
@[simp] theorem Dev.setCore_genPart (d : Dev) (n : Nat) (c : Core) : (d.setCore n c).genPart = d.genPart := rfl
@[simp] theorem Dev.setCore_gravs (d : Dev) (n : Nat) (c : Core) : (d.setCore n c).gravs = d.gravs := rfl
@[simp] theorem Dev.setCore_images (d : Dev) (n : Nat) (c : Core) : (d.setCore n c).images = d.images := rfl
@[simp] theorem Dev.setCore_cpyqs (d : Dev) (n : Nat) (c : Core) : (d.setCore n c).cpyqs = d.cpyqs := rfl
@[simp] theorem Dev.setCore_cpyLast (d : Dev) (n : Nat) (c : Core) : (d.setCore n c).cpyLast = d.cpyLast := rfl
@[simp] theorem Dev.setCore_cpyReqs (d : Dev) (n : Nat) (c : Core) : (d.setCore n c).cpyReqs = d.cpyReqs := rfl
@[simp] theorem Dev.setCore_fab (d : Dev) (n : Nat) (c : Core) : (d.setCore n c).fab = d.fab := rfl
@[simp] theorem Dev.setCore_susp (d : Dev) (n : Nat) (c : Core) : (d.setCore n c).susp = d.susp := rfl
@[simp] theorem Dev.updCore_clusters (d : Dev) (n : Nat) (g : Core → Core) : (d.updCore n g).clusters = d.clusters := rfl
@[simp] theorem Dev.updCore_dies (d : Dev) (n : Nat) (g : Core → Core) : (d.updCore n g).dies = d.dies := rfl
@[simp] theorem Dev.updCore_parts (d : Dev) (n : Nat) (g : Core → Core) : (d.updCore n g).parts = d.parts := rfl
@[simp] theorem Dev.updCore_ctxs (d : Dev) (n : Nat) (g : Core → Core) : (d.updCore n g).ctxs = d.ctxs := rfl
@[simp] theorem Dev.updCore_units (d : Dev) (n : Nat) (g : Core → Core) : (d.updCore n g).units = d.units := rfl
@[simp] theorem Dev.updCore_sys (d : Dev) (n : Nat) (g : Core → Core) : (d.updCore n g).sys = d.sys := rfl
@[simp] theorem Dev.updCore_stores (d : Dev) (n : Nat) (g : Core → Core) : (d.updCore n g).stores = d.stores := rfl
@[simp] theorem Dev.updCore_poison (d : Dev) (n : Nat) (g : Core → Core) : (d.updCore n g).poison = d.poison := rfl
@[simp] theorem Dev.updCore_remote (d : Dev) (n : Nat) (g : Core → Core) : (d.updCore n g).remote = d.remote := rfl
@[simp] theorem Dev.updCore_seqnos (d : Dev) (n : Nat) (g : Core → Core) : (d.updCore n g).seqnos = d.seqnos := rfl
@[simp] theorem Dev.updCore_tseqs (d : Dev) (n : Nat) (g : Core → Core) : (d.updCore n g).tseqs = d.tseqs := rfl
@[simp] theorem Dev.updCore_genPart (d : Dev) (n : Nat) (g : Core → Core) : (d.updCore n g).genPart = d.genPart := rfl
@[simp] theorem Dev.updCore_gravs (d : Dev) (n : Nat) (g : Core → Core) : (d.updCore n g).gravs = d.gravs := rfl
@[simp] theorem Dev.updCore_images (d : Dev) (n : Nat) (g : Core → Core) : (d.updCore n g).images = d.images := rfl
@[simp] theorem Dev.updCore_cpyqs (d : Dev) (n : Nat) (g : Core → Core) : (d.updCore n g).cpyqs = d.cpyqs := rfl
@[simp] theorem Dev.updCore_cpyLast (d : Dev) (n : Nat) (g : Core → Core) : (d.updCore n g).cpyLast = d.cpyLast := rfl
@[simp] theorem Dev.updCore_cpyReqs (d : Dev) (n : Nat) (g : Core → Core) : (d.updCore n g).cpyReqs = d.cpyReqs := rfl
@[simp] theorem Dev.updCore_fab (d : Dev) (n : Nat) (g : Core → Core) : (d.updCore n g).fab = d.fab := rfl
@[simp] theorem Dev.updCore_susp (d : Dev) (n : Nat) (g : Core → Core) : (d.updCore n g).susp = d.susp := rfl
@[simp] theorem Dev.core_setCore_same (d : Dev) (n : Nat) (c : Core) : (d.setCore n c).core n = c := by
  simp [Dev.core, Dev.setCore, tget_tset_same]
theorem Dev.core_setCore_other (d : Dev) (n k : Nat) (c : Core) (h : k ≠ n) : (d.setCore n c).core k = d.core k := by
  simp [Dev.core, Dev.setCore, tget_tset_other _ _ _ _ h]
@[simp] theorem Dev.core_updCore_same (d : Dev) (n : Nat) (f : Core → Core) : (d.updCore n f).core n = f (d.core n) := by
  simp [Dev.updCore]
theorem Dev.core_updCore_other (d : Dev) (n k : Nat) (f : Core → Core) (h : k ≠ n) : (d.updCore n f).core k = d.core k := by
  simp [Dev.updCore, Dev.core_setCore_other _ _ _ _ h]
@[simp] theorem Dev.setCluster_cores (d : Dev) (n : Nat) (c : Cluster) : (d.setCluster n c).cores = d.cores := rfl
@[simp] theorem Dev.setCluster_dies (d : Dev) (n : Nat) (c : Cluster) : (d.setCluster n c).dies = d.dies := rfl
@[simp] theorem Dev.setCluster_parts (d : Dev) (n : Nat) (c : Cluster) : (d.setCluster n c).parts = d.parts := rfl
@[simp] theorem Dev.setCluster_ctxs (d : Dev) (n : Nat) (c : Cluster) : (d.setCluster n c).ctxs = d.ctxs := rfl
@[simp] theorem Dev.setCluster_units (d : Dev) (n : Nat) (c : Cluster) : (d.setCluster n c).units = d.units := rfl
@[simp] theorem Dev.setCluster_sys (d : Dev) (n : Nat) (c : Cluster) : (d.setCluster n c).sys = d.sys := rfl
@[simp] theorem Dev.setCluster_stores (d : Dev) (n : Nat) (c : Cluster) : (d.setCluster n c).stores = d.stores := rfl
@[simp] theorem Dev.setCluster_poison (d : Dev) (n : Nat) (c : Cluster) : (d.setCluster n c).poison = d.poison := rfl
@[simp] theorem Dev.setCluster_remote (d : Dev) (n : Nat) (c : Cluster) : (d.setCluster n c).remote = d.remote := rfl
@[simp] theorem Dev.setCluster_seqnos (d : Dev) (n : Nat) (c : Cluster) : (d.setCluster n c).seqnos = d.seqnos := rfl
@[simp] theorem Dev.setCluster_tseqs (d : Dev) (n : Nat) (c : Cluster) : (d.setCluster n c).tseqs = d.tseqs := rfl
@[simp] theorem Dev.setCluster_genPart (d : Dev) (n : Nat) (c : Cluster) : (d.setCluster n c).genPart = d.genPart := rfl
@[simp] theorem Dev.setCluster_gravs (d : Dev) (n : Nat) (c : Cluster) : (d.setCluster n c).gravs = d.gravs := rfl
@[simp] theorem Dev.setCluster_images (d : Dev) (n : Nat) (c : Cluster) : (d.setCluster n c).images = d.images := rfl
@[simp] theorem Dev.setCluster_cpyqs (d : Dev) (n : Nat) (c : Cluster) : (d.setCluster n c).cpyqs = d.cpyqs := rfl
@[simp] theorem Dev.setCluster_cpyLast (d : Dev) (n : Nat) (c : Cluster) : (d.setCluster n c).cpyLast = d.cpyLast := rfl
@[simp] theorem Dev.setCluster_cpyReqs (d : Dev) (n : Nat) (c : Cluster) : (d.setCluster n c).cpyReqs = d.cpyReqs := rfl
@[simp] theorem Dev.setCluster_fab (d : Dev) (n : Nat) (c : Cluster) : (d.setCluster n c).fab = d.fab := rfl
@[simp] theorem Dev.setCluster_susp (d : Dev) (n : Nat) (c : Cluster) : (d.setCluster n c).susp = d.susp := rfl
@[simp] theorem Dev.updCluster_cores (d : Dev) (n : Nat) (g : Cluster → Cluster) : (d.updCluster n g).cores = d.cores := rfl
@[simp] theorem Dev.updCluster_dies (d : Dev) (n : Nat) (g : Cluster → Cluster) : (d.updCluster n g).dies = d.dies := rfl
@[simp] theorem Dev.updCluster_parts (d : Dev) (n : Nat) (g : Cluster → Cluster) : (d.updCluster n g).parts = d.parts := rfl
@[simp] theorem Dev.updCluster_ctxs (d : Dev) (n : Nat) (g : Cluster → Cluster) : (d.updCluster n g).ctxs = d.ctxs := rfl
@[simp] theorem Dev.updCluster_units (d : Dev) (n : Nat) (g : Cluster → Cluster) : (d.updCluster n g).units = d.units := rfl
@[simp] theorem Dev.updCluster_sys (d : Dev) (n : Nat) (g : Cluster → Cluster) : (d.updCluster n g).sys = d.sys := rfl
@[simp] theorem Dev.updCluster_stores (d : Dev) (n : Nat) (g : Cluster → Cluster) : (d.updCluster n g).stores = d.stores := rfl
@[simp] theorem Dev.updCluster_poison (d : Dev) (n : Nat) (g : Cluster → Cluster) : (d.updCluster n g).poison = d.poison := rfl
@[simp] theorem Dev.updCluster_remote (d : Dev) (n : Nat) (g : Cluster → Cluster) : (d.updCluster n g).remote = d.remote := rfl
@[simp] theorem Dev.updCluster_seqnos (d : Dev) (n : Nat) (g : Cluster → Cluster) : (d.updCluster n g).seqnos = d.seqnos := rfl
@[simp] theorem Dev.updCluster_tseqs (d : Dev) (n : Nat) (g : Cluster → Cluster) : (d.updCluster n g).tseqs = d.tseqs := rfl
@[simp] theorem Dev.updCluster_genPart (d : Dev) (n : Nat) (g : Cluster → Cluster) : (d.updCluster n g).genPart = d.genPart := rfl
@[simp] theorem Dev.updCluster_gravs (d : Dev) (n : Nat) (g : Cluster → Cluster) : (d.updCluster n g).gravs = d.gravs := rfl
@[simp] theorem Dev.updCluster_images (d : Dev) (n : Nat) (g : Cluster → Cluster) : (d.updCluster n g).images = d.images := rfl
@[simp] theorem Dev.updCluster_cpyqs (d : Dev) (n : Nat) (g : Cluster → Cluster) : (d.updCluster n g).cpyqs = d.cpyqs := rfl
@[simp] theorem Dev.updCluster_cpyLast (d : Dev) (n : Nat) (g : Cluster → Cluster) : (d.updCluster n g).cpyLast = d.cpyLast := rfl
@[simp] theorem Dev.updCluster_cpyReqs (d : Dev) (n : Nat) (g : Cluster → Cluster) : (d.updCluster n g).cpyReqs = d.cpyReqs := rfl
@[simp] theorem Dev.updCluster_fab (d : Dev) (n : Nat) (g : Cluster → Cluster) : (d.updCluster n g).fab = d.fab := rfl
@[simp] theorem Dev.updCluster_susp (d : Dev) (n : Nat) (g : Cluster → Cluster) : (d.updCluster n g).susp = d.susp := rfl
@[simp] theorem Dev.cluster_setCluster_same (d : Dev) (n : Nat) (c : Cluster) : (d.setCluster n c).cluster n = c := by
  simp [Dev.cluster, Dev.setCluster, tget_tset_same]
theorem Dev.cluster_setCluster_other (d : Dev) (n k : Nat) (c : Cluster) (h : k ≠ n) : (d.setCluster n c).cluster k = d.cluster k := by
  simp [Dev.cluster, Dev.setCluster, tget_tset_other _ _ _ _ h]
@[simp] theorem Dev.cluster_updCluster_same (d : Dev) (n : Nat) (f : Cluster → Cluster) : (d.updCluster n f).cluster n = f (d.cluster n) := by
  simp [Dev.updCluster]
theorem Dev.cluster_updCluster_other (d : Dev) (n k : Nat) (f : Cluster → Cluster) (h : k ≠ n) : (d.updCluster n f).cluster k = d.cluster k := by
  simp [Dev.updCluster, Dev.cluster_setCluster_other _ _ _ _ h]
@[simp] theorem Dev.setDie_cores (d : Dev) (n : Nat) (c : Die) : (d.setDie n c).cores = d.cores := rfl
@[simp] theorem Dev.setDie_clusters (d : Dev) (n : Nat) (c : Die) : (d.setDie n c).clusters = d.clusters := rfl
@[simp] theorem Dev.setDie_parts (d : Dev) (n : Nat) (c : Die) : (d.setDie n c).parts = d.parts := rfl
@[simp] theorem Dev.setDie_ctxs (d : Dev) (n : Nat) (c : Die) : (d.setDie n c).ctxs = d.ctxs := rfl
@[simp] theorem Dev.setDie_units (d : Dev) (n : Nat) (c : Die) : (d.setDie n c).units = d.units := rfl
@[simp] theorem Dev.setDie_sys (d : Dev) (n : Nat) (c : Die) : (d.setDie n c).sys = d.sys := rfl
@[simp] theorem Dev.setDie_stores (d : Dev) (n : Nat) (c : Die) : (d.setDie n c).stores = d.stores := rfl
@[simp] theorem Dev.setDie_poison (d : Dev) (n : Nat) (c : Die) : (d.setDie n c).poison = d.poison := rfl
@[simp] theorem Dev.setDie_remote (d : Dev) (n : Nat) (c : Die) : (d.setDie n c).remote = d.remote := rfl
@[simp] theorem Dev.setDie_seqnos (d : Dev) (n : Nat) (c : Die) : (d.setDie n c).seqnos = d.seqnos := rfl
@[simp] theorem Dev.setDie_tseqs (d : Dev) (n : Nat) (c : Die) : (d.setDie n c).tseqs = d.tseqs := rfl
@[simp] theorem Dev.setDie_genPart (d : Dev) (n : Nat) (c : Die) : (d.setDie n c).genPart = d.genPart := rfl
@[simp] theorem Dev.setDie_gravs (d : Dev) (n : Nat) (c : Die) : (d.setDie n c).gravs = d.gravs := rfl
@[simp] theorem Dev.setDie_images (d : Dev) (n : Nat) (c : Die) : (d.setDie n c).images = d.images := rfl
@[simp] theorem Dev.setDie_cpyqs (d : Dev) (n : Nat) (c : Die) : (d.setDie n c).cpyqs = d.cpyqs := rfl
@[simp] theorem Dev.setDie_cpyLast (d : Dev) (n : Nat) (c : Die) : (d.setDie n c).cpyLast = d.cpyLast := rfl
@[simp] theorem Dev.setDie_cpyReqs (d : Dev) (n : Nat) (c : Die) : (d.setDie n c).cpyReqs = d.cpyReqs := rfl
@[simp] theorem Dev.setDie_fab (d : Dev) (n : Nat) (c : Die) : (d.setDie n c).fab = d.fab := rfl
@[simp] theorem Dev.setDie_susp (d : Dev) (n : Nat) (c : Die) : (d.setDie n c).susp = d.susp := rfl
@[simp] theorem Dev.updDie_cores (d : Dev) (n : Nat) (g : Die → Die) : (d.updDie n g).cores = d.cores := rfl
@[simp] theorem Dev.updDie_clusters (d : Dev) (n : Nat) (g : Die → Die) : (d.updDie n g).clusters = d.clusters := rfl
@[simp] theorem Dev.updDie_parts (d : Dev) (n : Nat) (g : Die → Die) : (d.updDie n g).parts = d.parts := rfl
@[simp] theorem Dev.updDie_ctxs (d : Dev) (n : Nat) (g : Die → Die) : (d.updDie n g).ctxs = d.ctxs := rfl
@[simp] theorem Dev.updDie_units (d : Dev) (n : Nat) (g : Die → Die) : (d.updDie n g).units = d.units := rfl
@[simp] theorem Dev.updDie_sys (d : Dev) (n : Nat) (g : Die → Die) : (d.updDie n g).sys = d.sys := rfl
@[simp] theorem Dev.updDie_stores (d : Dev) (n : Nat) (g : Die → Die) : (d.updDie n g).stores = d.stores := rfl
@[simp] theorem Dev.updDie_poison (d : Dev) (n : Nat) (g : Die → Die) : (d.updDie n g).poison = d.poison := rfl
@[simp] theorem Dev.updDie_remote (d : Dev) (n : Nat) (g : Die → Die) : (d.updDie n g).remote = d.remote := rfl
@[simp] theorem Dev.updDie_seqnos (d : Dev) (n : Nat) (g : Die → Die) : (d.updDie n g).seqnos = d.seqnos := rfl
@[simp] theorem Dev.updDie_tseqs (d : Dev) (n : Nat) (g : Die → Die) : (d.updDie n g).tseqs = d.tseqs := rfl
@[simp] theorem Dev.updDie_genPart (d : Dev) (n : Nat) (g : Die → Die) : (d.updDie n g).genPart = d.genPart := rfl
@[simp] theorem Dev.updDie_gravs (d : Dev) (n : Nat) (g : Die → Die) : (d.updDie n g).gravs = d.gravs := rfl
@[simp] theorem Dev.updDie_images (d : Dev) (n : Nat) (g : Die → Die) : (d.updDie n g).images = d.images := rfl
@[simp] theorem Dev.updDie_cpyqs (d : Dev) (n : Nat) (g : Die → Die) : (d.updDie n g).cpyqs = d.cpyqs := rfl
@[simp] theorem Dev.updDie_cpyLast (d : Dev) (n : Nat) (g : Die → Die) : (d.updDie n g).cpyLast = d.cpyLast := rfl
@[simp] theorem Dev.updDie_cpyReqs (d : Dev) (n : Nat) (g : Die → Die) : (d.updDie n g).cpyReqs = d.cpyReqs := rfl
@[simp] theorem Dev.updDie_fab (d : Dev) (n : Nat) (g : Die → Die) : (d.updDie n g).fab = d.fab := rfl
@[simp] theorem Dev.updDie_susp (d : Dev) (n : Nat) (g : Die → Die) : (d.updDie n g).susp = d.susp := rfl
@[simp] theorem Dev.die_setDie_same (d : Dev) (n : Nat) (c : Die) : (d.setDie n c).die n = c := by
  simp [Dev.die, Dev.setDie, tget_tset_same]
theorem Dev.die_setDie_other (d : Dev) (n k : Nat) (c : Die) (h : k ≠ n) : (d.setDie n c).die k = d.die k := by
  simp [Dev.die, Dev.setDie, tget_tset_other _ _ _ _ h]
@[simp] theorem Dev.die_updDie_same (d : Dev) (n : Nat) (f : Die → Die) : (d.updDie n f).die n = f (d.die n) := by
  simp [Dev.updDie]
theorem Dev.die_updDie_other (d : Dev) (n k : Nat) (f : Die → Die) (h : k ≠ n) : (d.updDie n f).die k = d.die k := by
  simp [Dev.updDie, Dev.die_setDie_other _ _ _ _ h]
@[simp] theorem Dev.setPart_cores (d : Dev) (n : Nat) (c : Part) : (d.setPart n c).cores = d.cores := rfl
@[simp] theorem Dev.setPart_clusters (d : Dev) (n : Nat) (c : Part) : (d.setPart n c).clusters = d.clusters := rfl
@[simp] theorem Dev.setPart_dies (d : Dev) (n : Nat) (c : Part) : (d.setPart n c).dies = d.dies := rfl
@[simp] theorem Dev.setPart_ctxs (d : Dev) (n : Nat) (c : Part) : (d.setPart n c).ctxs = d.ctxs := rfl
@[simp] theorem Dev.setPart_units (d : Dev) (n : Nat) (c : Part) : (d.setPart n c).units = d.units := rfl
@[simp] theorem Dev.setPart_sys (d : Dev) (n : Nat) (c : Part) : (d.setPart n c).sys = d.sys := rfl
@[simp] theorem Dev.setPart_stores (d : Dev) (n : Nat) (c : Part) : (d.setPart n c).stores = d.stores := rfl
@[simp] theorem Dev.setPart_poison (d : Dev) (n : Nat) (c : Part) : (d.setPart n c).poison = d.poison := rfl
@[simp] theorem Dev.setPart_remote (d : Dev) (n : Nat) (c : Part) : (d.setPart n c).remote = d.remote := rfl
@[simp] theorem Dev.setPart_seqnos (d : Dev) (n : Nat) (c : Part) : (d.setPart n c).seqnos = d.seqnos := rfl
@[simp] theorem Dev.setPart_tseqs (d : Dev) (n : Nat) (c : Part) : (d.setPart n c).tseqs = d.tseqs := rfl
@[simp] theorem Dev.setPart_genPart (d : Dev) (n : Nat) (c : Part) : (d.setPart n c).genPart = d.genPart := rfl
@[simp] theorem Dev.setPart_gravs (d : Dev) (n : Nat) (c : Part) : (d.setPart n c).gravs = d.gravs := rfl
@[simp] theorem Dev.setPart_images (d : Dev) (n : Nat) (c : Part) : (d.setPart n c).images = d.images := rfl
@[simp] theorem Dev.setPart_cpyqs (d : Dev) (n : Nat) (c : Part) : (d.setPart n c).cpyqs = d.cpyqs := rfl
@[simp] theorem Dev.setPart_cpyLast (d : Dev) (n : Nat) (c : Part) : (d.setPart n c).cpyLast = d.cpyLast := rfl
@[simp] theorem Dev.setPart_cpyReqs (d : Dev) (n : Nat) (c : Part) : (d.setPart n c).cpyReqs = d.cpyReqs := rfl
@[simp] theorem Dev.setPart_fab (d : Dev) (n : Nat) (c : Part) : (d.setPart n c).fab = d.fab := rfl
@[simp] theorem Dev.setPart_susp (d : Dev) (n : Nat) (c : Part) : (d.setPart n c).susp = d.susp := rfl
@[simp] theorem Dev.setCtx_cores (d : Dev) (n : Nat) (c : Ctx) : (d.setCtx n c).cores = d.cores := rfl
@[simp] theorem Dev.setCtx_clusters (d : Dev) (n : Nat) (c : Ctx) : (d.setCtx n c).clusters = d.clusters := rfl
@[simp] theorem Dev.setCtx_dies (d : Dev) (n : Nat) (c : Ctx) : (d.setCtx n c).dies = d.dies := rfl
@[simp] theorem Dev.setCtx_parts (d : Dev) (n : Nat) (c : Ctx) : (d.setCtx n c).parts = d.parts := rfl
@[simp] theorem Dev.setCtx_units (d : Dev) (n : Nat) (c : Ctx) : (d.setCtx n c).units = d.units := rfl
@[simp] theorem Dev.setCtx_sys (d : Dev) (n : Nat) (c : Ctx) : (d.setCtx n c).sys = d.sys := rfl
@[simp] theorem Dev.setCtx_stores (d : Dev) (n : Nat) (c : Ctx) : (d.setCtx n c).stores = d.stores := rfl
@[simp] theorem Dev.setCtx_poison (d : Dev) (n : Nat) (c : Ctx) : (d.setCtx n c).poison = d.poison := rfl
@[simp] theorem Dev.setCtx_remote (d : Dev) (n : Nat) (c : Ctx) : (d.setCtx n c).remote = d.remote := rfl
@[simp] theorem Dev.setCtx_seqnos (d : Dev) (n : Nat) (c : Ctx) : (d.setCtx n c).seqnos = d.seqnos := rfl
@[simp] theorem Dev.setCtx_tseqs (d : Dev) (n : Nat) (c : Ctx) : (d.setCtx n c).tseqs = d.tseqs := rfl
@[simp] theorem Dev.setCtx_genPart (d : Dev) (n : Nat) (c : Ctx) : (d.setCtx n c).genPart = d.genPart := rfl
@[simp] theorem Dev.setCtx_gravs (d : Dev) (n : Nat) (c : Ctx) : (d.setCtx n c).gravs = d.gravs := rfl
@[simp] theorem Dev.setCtx_images (d : Dev) (n : Nat) (c : Ctx) : (d.setCtx n c).images = d.images := rfl
@[simp] theorem Dev.setCtx_cpyqs (d : Dev) (n : Nat) (c : Ctx) : (d.setCtx n c).cpyqs = d.cpyqs := rfl
@[simp] theorem Dev.setCtx_cpyLast (d : Dev) (n : Nat) (c : Ctx) : (d.setCtx n c).cpyLast = d.cpyLast := rfl
@[simp] theorem Dev.setCtx_cpyReqs (d : Dev) (n : Nat) (c : Ctx) : (d.setCtx n c).cpyReqs = d.cpyReqs := rfl
@[simp] theorem Dev.setCtx_fab (d : Dev) (n : Nat) (c : Ctx) : (d.setCtx n c).fab = d.fab := rfl
@[simp] theorem Dev.setCtx_susp (d : Dev) (n : Nat) (c : Ctx) : (d.setCtx n c).susp = d.susp := rfl
@[simp] theorem Dev.setUnit_cores (d : Dev) (n : Nat) (c : TraceUnit) : (d.setUnit n c).cores = d.cores := rfl
@[simp] theorem Dev.setUnit_clusters (d : Dev) (n : Nat) (c : TraceUnit) : (d.setUnit n c).clusters = d.clusters := rfl
@[simp] theorem Dev.setUnit_dies (d : Dev) (n : Nat) (c : TraceUnit) : (d.setUnit n c).dies = d.dies := rfl
@[simp] theorem Dev.setUnit_parts (d : Dev) (n : Nat) (c : TraceUnit) : (d.setUnit n c).parts = d.parts := rfl
@[simp] theorem Dev.setUnit_ctxs (d : Dev) (n : Nat) (c : TraceUnit) : (d.setUnit n c).ctxs = d.ctxs := rfl
@[simp] theorem Dev.setUnit_sys (d : Dev) (n : Nat) (c : TraceUnit) : (d.setUnit n c).sys = d.sys := rfl
@[simp] theorem Dev.setUnit_stores (d : Dev) (n : Nat) (c : TraceUnit) : (d.setUnit n c).stores = d.stores := rfl
@[simp] theorem Dev.setUnit_poison (d : Dev) (n : Nat) (c : TraceUnit) : (d.setUnit n c).poison = d.poison := rfl
@[simp] theorem Dev.setUnit_remote (d : Dev) (n : Nat) (c : TraceUnit) : (d.setUnit n c).remote = d.remote := rfl
@[simp] theorem Dev.setUnit_seqnos (d : Dev) (n : Nat) (c : TraceUnit) : (d.setUnit n c).seqnos = d.seqnos := rfl
@[simp] theorem Dev.setUnit_tseqs (d : Dev) (n : Nat) (c : TraceUnit) : (d.setUnit n c).tseqs = d.tseqs := rfl
@[simp] theorem Dev.setUnit_genPart (d : Dev) (n : Nat) (c : TraceUnit) : (d.setUnit n c).genPart = d.genPart := rfl
@[simp] theorem Dev.setUnit_gravs (d : Dev) (n : Nat) (c : TraceUnit) : (d.setUnit n c).gravs = d.gravs := rfl
@[simp] theorem Dev.setUnit_images (d : Dev) (n : Nat) (c : TraceUnit) : (d.setUnit n c).images = d.images := rfl
@[simp] theorem Dev.setUnit_cpyqs (d : Dev) (n : Nat) (c : TraceUnit) : (d.setUnit n c).cpyqs = d.cpyqs := rfl
@[simp] theorem Dev.setUnit_cpyLast (d : Dev) (n : Nat) (c : TraceUnit) : (d.setUnit n c).cpyLast = d.cpyLast := rfl
@[simp] theorem Dev.setUnit_cpyReqs (d : Dev) (n : Nat) (c : TraceUnit) : (d.setUnit n c).cpyReqs = d.cpyReqs := rfl
@[simp] theorem Dev.setUnit_fab (d : Dev) (n : Nat) (c : TraceUnit) : (d.setUnit n c).fab = d.fab := rfl
@[simp] theorem Dev.setUnit_susp (d : Dev) (n : Nat) (c : TraceUnit) : (d.setUnit n c).susp = d.susp := rfl

/-! ## Results in flight -/

@[simp] theorem Core.push_r (c : Core) (e : Pend) : (c.push e).r = c.r := rfl
@[simp] theorem Core.push_lp (c : Core) (e : Pend) : (c.push e).lp = c.lp := rfl
@[simp] theorem Core.push_lpSaved (c : Core) (e : Pend) : (c.push e).lpSaved = c.lpSaved := rfl
@[simp] theorem Core.push_seq (c : Core) (e : Pend) : (c.push e).seq = c.seq := rfl
@[simp] theorem Core.push_run (c : Core) (e : Pend) : (c.push e).run = c.run := rfl
@[simp] theorem Core.push_pc (c : Core) (e : Pend) : (c.push e).pc = c.pc := rfl
@[simp] theorem Core.push_ready (c : Core) (e : Pend) : (c.push e).ready = c.ready := rfl
@[simp] theorem Core.push_issued (c : Core) (e : Pend) : (c.push e).issued = c.issued := rfl
@[simp] theorem Core.push_bWrite (c : Core) (e : Pend) : (c.push e).bWrite = c.bWrite := rfl
@[simp] theorem Core.push_waits (c : Core) (e : Pend) : (c.push e).waits = c.waits := rfl
@[simp] theorem Core.push_task (c : Core) (e : Pend) : (c.push e).task = c.task := rfl
@[simp] theorem Core.push_preempt (c : Core) (e : Pend) : (c.push e).preempt = c.preempt := rfl
@[simp] theorem Core.push_spanStart (c : Core) (e : Pend) : (c.push e).spanStart = c.spanStart := rfl
@[simp] theorem Core.push_heldSum (c : Core) (e : Pend) : (c.push e).heldSum = c.heldSum := rfl
@[simp] theorem Core.push_stopReq (c : Core) (e : Pend) : (c.push e).stopReq = c.stopReq := rfl
@[simp] theorem Core.push_attached (c : Core) (e : Pend) : (c.push e).attached = c.attached := rfl
@[simp] theorem Core.push_savedAtt (c : Core) (e : Pend) : (c.push e).savedAtt = c.savedAtt := rfl
@[simp] theorem Core.push_cons (c : Core) (e : Pend) : (c.push e).cons = c.cons := rfl
@[simp] theorem Core.push_ibuf (c : Core) (e : Pend) : (c.push e).ibuf = c.ibuf := rfl
@[simp] theorem Core.push_fetchBase (c : Core) (e : Pend) : (c.push e).fetchBase = c.fetchBase := rfl
@[simp] theorem Core.push_fetchK (c : Core) (e : Pend) : (c.push e).fetchK = c.fetchK := rfl
@[simp] theorem Core.push_fetched (c : Core) (e : Pend) : (c.push e).fetched = c.fetched := rfl
@[simp] theorem Core.push_atBnd (c : Core) (e : Pend) : (c.push e).atBnd = c.atBnd := rfl
@[simp] theorem Core.push_exitDue (c : Core) (e : Pend) : (c.push e).exitDue = c.exitDue := rfl
@[simp] theorem Core.push_joinWait (c : Core) (e : Pend) : (c.push e).joinWait = c.joinWait := rfl
@[simp] theorem Core.push_fuseWait (c : Core) (e : Pend) : (c.push e).fuseWait = c.fuseWait := rfl
@[simp] theorem Core.push_spill (c : Core) (e : Pend) : (c.push e).spill = c.spill := rfl
@[simp] theorem Core.push_phase (c : Core) (e : Pend) : (c.push e).phase = c.phase := rfl
@[simp] theorem Core.push_wanyNext (c : Core) (e : Pend) : (c.push e).wanyNext = c.wanyNext := rfl
@[simp] theorem Core.push_holds (c : Core) (e : Pend) : (c.push e).holds = c.holds := rfl
@[simp] theorem Core.push_deque (c : Core) (e : Pend) : (c.push e).deque = c.deque := rfl
@[simp] theorem Core.push_lfsr (c : Core) (e : Pend) : (c.push e).lfsr = c.lfsr := rfl
@[simp] theorem Core.push_stolen (c : Core) (e : Pend) : (c.push e).stolen = c.stolen := rfl
@[simp] theorem Core.push_localFails (c : Core) (e : Pend) : (c.push e).localFails = c.localFails := rfl
@[simp] theorem Core.push_hit (c : Core) (e : Pend) : (c.push e).hit = c.hit := rfl
@[simp] theorem Core.push_miss (c : Core) (e : Pend) : (c.push e).miss = c.miss := rfl
@[simp] theorem Core.push_cc (c : Core) (e : Pend) : (c.push e).cc = c.cc := rfl
@[simp] theorem Core.push_sample (c : Core) (e : Pend) : (c.push e).sample = c.sample := rfl
@[simp] theorem Core.push_charged (c : Core) (e : Pend) : (c.push e).charged = c.charged := rfl
@[simp] theorem Core.push_waitEnd (c : Core) (e : Pend) : (c.push e).waitEnd = c.waitEnd := rfl
@[simp] theorem Core.push_gapWhy (c : Core) (e : Pend) : (c.push e).gapWhy = c.gapWhy := rfl
@[simp] theorem Core.push_tseq (c : Core) (e : Pend) : (c.push e).tseq = c.tseq := rfl
@[simp] theorem Core.push_ev (c : Core) (e : Pend) : (c.push e).ev = c.ev := rfl
@[simp] theorem Core.push_watch (c : Core) (e : Pend) : (c.push e).watch = c.watch := rfl
@[simp] theorem Core.push_remFails (c : Core) (e : Pend) : (c.push e).remFails = c.remFails := rfl
@[simp] theorem Core.push_remOps (c : Core) (e : Pend) : (c.push e).remOps = c.remOps := rfl
@[simp] theorem Core.push_cwaits (c : Core) (e : Pend) : (c.push e).cwaits = c.cwaits := rfl
@[simp] theorem Core.push_probing (c : Core) (e : Pend) : (c.push e).probing = c.probing := rfl
@[simp] theorem Core.push_gaps (c : Core) (e : Pend) : (c.push e).gaps = c.gaps := rfl
@[simp] theorem Core.push_holdWas (c : Core) (e : Pend) : (c.push e).holdWas = c.holdWas := rfl
@[simp] theorem Core.push_exitStream (c : Core) (e : Pend) : (c.push e).exitStream = c.exitStream := rfl
@[simp] theorem Core.push_row (c : Core) (e : Pend) : (c.push e).row = c.row := rfl
@[simp] theorem Core.push_mat (c : Core) (e : Pend) : (c.push e).mat = c.mat := rfl
@[simp] theorem Core.push_nextTag (c : Core) (e : Pend) : (c.push e).nextTag = c.nextTag := rfl
@[simp] theorem Core.push_busyUntil (c : Core) (e : Pend) : (c.push e).busyUntil = c.busyUntil := rfl
@[simp] theorem Core.push_csrq (c : Core) (e : Pend) : (c.push e).csrq = c.csrq := rfl
@[simp] theorem Core.push_pend (c : Core) (e : Pend) : (c.push e).pend = c.pend ++ [e] := rfl
@[simp] theorem sendIn_clusters (d : Dev) (b : Bundle) (r : Result) (l : Nat) : (sendIn d b r l).clusters = d.clusters := rfl
@[simp] theorem sendIn_dies (d : Dev) (b : Bundle) (r : Result) (l : Nat) : (sendIn d b r l).dies = d.dies := rfl
@[simp] theorem sendIn_parts (d : Dev) (b : Bundle) (r : Result) (l : Nat) : (sendIn d b r l).parts = d.parts := rfl
@[simp] theorem sendIn_ctxs (d : Dev) (b : Bundle) (r : Result) (l : Nat) : (sendIn d b r l).ctxs = d.ctxs := rfl
@[simp] theorem sendIn_units (d : Dev) (b : Bundle) (r : Result) (l : Nat) : (sendIn d b r l).units = d.units := rfl
@[simp] theorem sendIn_sys (d : Dev) (b : Bundle) (r : Result) (l : Nat) : (sendIn d b r l).sys = d.sys := rfl
@[simp] theorem sendIn_stores (d : Dev) (b : Bundle) (r : Result) (l : Nat) : (sendIn d b r l).stores = d.stores := rfl
@[simp] theorem sendIn_poison (d : Dev) (b : Bundle) (r : Result) (l : Nat) : (sendIn d b r l).poison = d.poison := rfl
@[simp] theorem sendIn_remote (d : Dev) (b : Bundle) (r : Result) (l : Nat) : (sendIn d b r l).remote = d.remote := rfl
@[simp] theorem sendIn_seqnos (d : Dev) (b : Bundle) (r : Result) (l : Nat) : (sendIn d b r l).seqnos = d.seqnos := rfl
@[simp] theorem sendIn_tseqs (d : Dev) (b : Bundle) (r : Result) (l : Nat) : (sendIn d b r l).tseqs = d.tseqs := rfl
@[simp] theorem sendIn_genPart (d : Dev) (b : Bundle) (r : Result) (l : Nat) : (sendIn d b r l).genPart = d.genPart := rfl
@[simp] theorem sendIn_gravs (d : Dev) (b : Bundle) (r : Result) (l : Nat) : (sendIn d b r l).gravs = d.gravs := rfl
@[simp] theorem sendIn_images (d : Dev) (b : Bundle) (r : Result) (l : Nat) : (sendIn d b r l).images = d.images := rfl
@[simp] theorem sendIn_cpyqs (d : Dev) (b : Bundle) (r : Result) (l : Nat) : (sendIn d b r l).cpyqs = d.cpyqs := rfl
@[simp] theorem sendIn_cpyLast (d : Dev) (b : Bundle) (r : Result) (l : Nat) : (sendIn d b r l).cpyLast = d.cpyLast := rfl
@[simp] theorem sendIn_cpyReqs (d : Dev) (b : Bundle) (r : Result) (l : Nat) : (sendIn d b r l).cpyReqs = d.cpyReqs := rfl
@[simp] theorem sendIn_fab (d : Dev) (b : Bundle) (r : Result) (l : Nat) : (sendIn d b r l).fab = d.fab := rfl
@[simp] theorem sendIn_susp (d : Dev) (b : Bundle) (r : Result) (l : Nat) : (sendIn d b r l).susp = d.susp := rfl
@[simp] theorem sendIn_core (d : Dev) (b : Bundle) (r : Result) (l : Nat) :
    (sendIn d b r l).core b.core = (d.core b.core).push (b.pend r l) := by simp [sendIn]
theorem sendIn_core_other (d : Dev) (b : Bundle) (r : Result) (l k : Nat) (h : k ≠ b.core) :
    (sendIn d b r l).core k = d.core k := by simp [sendIn, Dev.core_updCore_other _ _ _ _ h]

end Sys2Proof.Machine
end

