-- ==== Sys2Proof/Laws/Syllable.lean ====
section
/-!
SUPPORT. What the two wrappers of meanings do, once: a syllable's answer by what its effect answers, and an event's.
-/

namespace Sys2Proof.Machine

theorem State.opened_of_some {s : State} {b : Bundle} (h : s.bundle = some b) : s.opened = s := by
  simp [State.opened, h]

/-- The wrapper when the bundle is open and the syllable executes. -/
theorem bundleSyllable_issuing {h : Hdr} {f : State → Bundle → Core → Out} {g : State → Bundle → Bundle} {s : State}
    {b : Bundle} (hi : Issuing s b h) :
    bundleSyllable h f g s = (match f s b b.issuer with
      | .ok d => .next (s.afterWith h d (g s b))
      | .raise e => .next (s.faultBundle b.base e)
      | .raiseIn d e => .next (s.faultBundle d e)
      | .stall r => .next (s.stallBundle b.base r)
      | .stallIn d r => .next (s.stallBundle d r)) := by
  obtain ⟨h1, h2⟩ := hi
  simp only [bundleSyllable, State.opened_of_some h1, h1, h2, if_true]
  rfl

/-- A syllable whose guard or edge is not met only counts as one of its bundle. -/
theorem bundleSyllable_skipped {h : Hdr} {f : State → Bundle → Core → Out} {g : State → Bundle → Bundle} {s : State}
    {b : Bundle} (h1 : s.bundle = some b) (h2 : selected b.issuer h = false) :
    bundleSyllable h f g s = .next (s.closeSyllable h false) := by
  have h2' : selected (b.base.core b.core) h = false := h2
  simp [bundleSyllable, State.opened_of_some h1, h1, h2']

theorem State.afterWith_same {s : State} {b : Bundle} (hb : s.bundle = some b) (h : Hdr) (d : Dev) :
    s.afterWith h d b = s.after h d := by
  simp only [State.afterWith, State.after, ← hb]

theorem syllable_ok {h : Hdr} {f : State → Bundle → Core → Out} {s : State} {b : Bundle} {d : Dev}
    (hi : Issuing s b h) (hf : f s b b.issuer = .ok d) : syllable h f s = .next (s.after h d) := by
  rw [syllable, bundleSyllable_issuing hi, hf, ← State.afterWith_same hi.1]

theorem syllable_raise {h : Hdr} {f : State → Bundle → Core → Out} {s : State} {b : Bundle} {e : Event}
    (hi : Issuing s b h) (hf : f s b b.issuer = .raise e) : syllable h f s = .next (s.faultBundle b.base e) := by
  rw [syllable, bundleSyllable_issuing hi, hf]

theorem ctlSyllable_ok {h : Hdr} {f : State → Bundle → Core → Out} {g : Bundle → Bundle} {s : State} {b : Bundle}
    {d : Dev} (hi : Issuing s b h) (hf : f s b b.issuer = .ok d) :
    ctlSyllable h f g s = .next (s.afterWith h d (g b)) := by
  rw [ctlSyllable, bundleSyllable_issuing hi, hf]

theorem ctlSyllable_raise {h : Hdr} {f : State → Bundle → Core → Out} {g : Bundle → Bundle} {s : State} {b : Bundle}
    {e : Event} (hi : Issuing s b h) (hf : f s b b.issuer = .raise e) :
    ctlSyllable h f g s = .next (s.faultBundle b.base e) := by
  rw [ctlSyllable, bundleSyllable_issuing hi, hf]

theorem bundleSyllable_ok {h : Hdr} {f : State → Bundle → Core → Out} {g : State → Bundle → Bundle} {s : State}
    {b : Bundle} {d : Dev} (hi : Issuing s b h) (hf : f s b b.issuer = .ok d) :
    bundleSyllable h f g s = .next (s.afterWith h d (g s b)) := by
  rw [bundleSyllable_issuing hi, hf]

theorem happening_some {f : State → Option Dev} {s : State} {d : Dev} (hl : s.Live) (hf : f s = some d) :
    happening f s = .next (s.happened d) := by
  have hl' : s.dev.sys.hot = false := hl
  simp [happening, hl', hf, State.happened]

theorem happening_none {f : State → Option Dev} {s : State} (hf : f s = none) : happening f s = .next s := by
  simp [happening, hf]

/-- A syllable always answers a next state. -/
theorem bundleSyllable_next (h : Hdr) (f : State → Bundle → Core → Out) (g : State → Bundle → Bundle) (s : State) :
    ∃ t, bundleSyllable h f g s = .next t := by
  unfold bundleSyllable
  dsimp only
  repeat' split
  all_goals exact ⟨_, rfl⟩

/-- An event always answers a next state. -/
theorem happening_next (f : State → Option Dev) (s : State) : ∃ t, happening f s = .next t := by
  unfold happening
  repeat' split
  all_goals exact ⟨_, rfl⟩

/-! ## What no operation does -/

/-- What every step keeps: the canonical form of memory, and a time base that does not run back. -/
def Kept (s t : State) : Prop := (s.Canonical → t.Canonical) ∧ s.time ≤ t.time

theorem Kept.refl (s : State) : Kept s s := ⟨id, Nat.le_refl _⟩

theorem Kept.trans {s t u : State} (a : Kept s t) (b : Kept t u) : Kept s u :=
  ⟨fun h => b.1 (a.1 h), Nat.le_trans a.2 b.2⟩

/-- A state with the same memory and time keeps both. -/
theorem Kept.of_eq {s t : State} (hm : t.mem = s.mem) (ht : t.time = s.time) : Kept s t :=
  ⟨fun h => by simpa [State.Canonical, hm] using h, Nat.le_of_eq ht.symm⟩

theorem kept_settle (s : State) : Kept s s.settle :=
  ⟨fun h => State.settle_wf s h, Nat.le_refl _⟩

/-- A bound on the time base does not bring it back. -/
theorem le_bounded (time : Nat) (l : List (Nat × Due)) (t : Nat) (h : time ≤ t) :
    time ≤ l.foldl (fun t (x : Nat × Due) => min t (max x.1 time)) t := by
  induction l generalizing t with
  | nil => exact h
  | cons x l ih => exact ih _ (Nat.le_min.2 ⟨h, Nat.le_max_right _ _⟩)

theorem State.le_later (s : State) : s.time ≤ s.later := le_bounded _ _ _ (Nat.le_add_right _ _)

theorem kept_tick (s : State) : Kept s s.tick := ⟨id, s.le_later⟩

theorem kept_settle_tick (s : State) : Kept s s.settle.tick := (kept_settle s).trans (kept_tick _)

theorem kept_closeSyllable (s : State) (h : Hdr) (ran : Bool) : Kept s (s.closeSyllable h ran) := by
  unfold State.closeSyllable
  split
  · exact Kept.refl s
  · dsimp only
    split
    · refine (Kept.of_eq (t := ({ s with bundle := _ }.finish _)) ?_ ?_).trans
        ((kept_settle_tick _).trans (Kept.of_eq rfl rfl))
      · rfl
      · rfl
    · exact Kept.of_eq rfl rfl

theorem kept_faultBundle (s : State) (d : Dev) (e : Event) : Kept s (s.faultBundle d e) := by
  unfold State.faultBundle
  split
  · exact Kept.refl s
  · refine Kept.trans ?_ (kept_settle_tick _)
    exact Kept.of_eq rfl rfl

theorem kept_stallBundle (s : State) (d : Dev) (why : Nat) : Kept s (s.stallBundle d why) := by
  unfold State.stallBundle
  split
  · exact Kept.refl s
  · refine Kept.trans ?_ (kept_tick _)
    exact Kept.of_eq rfl rfl

theorem kept_opened (s : State) : Kept s s.opened := by
  unfold State.opened
  split
  · exact Kept.refl s
  · exact Kept.of_eq rfl rfl

/-- A syllable keeps what every step keeps. -/
theorem bundleSyllable_kept (h : Hdr) (f : State → Bundle → Core → Out) (g : State → Bundle → Bundle) (s : State) :
    ∃ t, bundleSyllable h f g s = .next t ∧ Kept s t := by
  have ho := kept_opened s
  unfold bundleSyllable
  dsimp only
  repeat' split
  · exact ⟨_, rfl, ho⟩
  · refine ⟨_, rfl, ho.trans (Kept.trans ?_ (kept_closeSyllable _ _ _))⟩
    exact Kept.of_eq rfl rfl
  · exact ⟨_, rfl, ho.trans (kept_faultBundle _ _ _)⟩
  · exact ⟨_, rfl, ho.trans (kept_faultBundle _ _ _)⟩
  · exact ⟨_, rfl, ho.trans (kept_stallBundle _ _ _)⟩
  · exact ⟨_, rfl, ho.trans (kept_stallBundle _ _ _)⟩
  · exact ⟨_, rfl, ho.trans (kept_closeSyllable _ _ _)⟩

/-- An event keeps what every step keeps. -/
theorem happening_kept (f : State → Option Dev) (s : State) : ∃ t, happening f s = .next t ∧ Kept s t := by
  unfold happening
  repeat' split
  · exact ⟨_, rfl, Kept.refl s⟩
  · refine ⟨_, rfl, Kept.trans ?_ (kept_settle_tick _)⟩
    exact Kept.of_eq rfl rfl
  · exact ⟨_, rfl, Kept.refl s⟩

end Sys2Proof.Machine
end

