-- ==== Sys2Proof/Tests/Slice0.lean ====
section
/-!
SUPPORT. The package's own tests: refused terms, words decoded, small runs of one syllable, and for every statement
with hypotheses a state and operands that meet them.  Expected results are worked out from spec/, by hand.
-/

namespace Sys2Proof.Tests

open Sys2Proof Sys2Proof.Machine

set_option Elab.async false

/-! ## Small states -/

/-- Memory with words from an address. -/
def put (m : Memory) (a : Nat) (ws : List Word) : Memory :=
  m.writes (((List.range (8 * ws.length)).zip (bytesOfWords ws)).map fun (i, b) => (a + i, b))

/-- Page table of context 0: one 16 GiB page that maps HBM to itself (R112-R114). -/
def mem0 : Memory := { cells := [(0x20000, 1), (0x20002, 4), (0x40000, 0x1F)] }

/-- Context 0: formats 0 INT8, 1 FP32, the others unset; 64 counters; the whole scratchpad and one window way. -/
def block0 : List Word :=
  [0x400000000, 0x100000000] ++ List.replicate 14 0x700000000 ++
    [0x20000, 0x10000, 64, 0x11000, 0, 0x30000, 0, 0x30000000000, 0x2040, 1]

def ctx0 : Ctx := newCtx 0 7 block0

/-- A partition of die 0 that runs context 0. -/
def part0 : Part := { newPart 1 0 64 1 0xFFFF with resident := some 0 }

def task0 : Task :=
  { words := [0x1000, 0x1000, 0x2000, 0, 0, 0, 0, 0], id := 0, ctx := 0, isMember := false, passes := 1, cancelled := false
    leaving := false }

/-- Tensor core 0 in a pass: s4 in the aperture, s5 in HBM, s6 small, s7 in another bank group. -/
def core0 : Core :=
  let c := Core.reset 0
  { c with
    run := .running, task := some task0, pc := 0x1000, seq := { c.seq with region := .pass }
    r := { c.r with s := [(4, 0x01FFFFFF00001000), (5, 0x100000), (6, 3), (7, 0x01FFFFFF00C00000), (8, 1)] } }

def dev0 : Dev := ((State.reset.dev.setPart 0 part0).setCtx 0 ctx0).setCore 0 core0

/-- A header without guard and edge, of a syllable that is not its bundle's last. -/
def hd : Hdr := { e := false, wait := 0, gn := false, gp := 0, edge := 0, elvl := 0 }

/-- A bundle of core n at its first syllable. -/
def bun (n : Nat) (d : Dev) : Bundle :=
  { core := n, addr := 0x1000, words := [], next := 0x1008, src := 1, cycle := 10, wmax := 0, idx := 0, ran := 0
    ctl := .none, phaseEnd := false, stop := none, base := d }

def stm (m : Memory) (n : Nat) (d : Dev) : State :=
  { mem := m, dev := d, time := 100, free := 0, agenda := [], cur := n, bundle := some (bun n d) }

def st (n : Nat) (d : Dev) : State := stm mem0 n d

/-- The same core with some of its fields changed. -/
def withCore (f : Core → Core) : Dev := dev0.updCore 0 f

/-- General core 256 as after reset, privileged, with s4 and s5. -/
def devG : Dev := dev0.updCore 256 fun c => { c with r := { c.r with s := [(4, 0x40000), (5, 0x100000)] } }

theorem issuing (m : Memory) (n : Nat) (d : Dev) : Issuing (stm m n d) (bun n d) hd := ⟨rfl, rfl⟩

def srr : SRR := { d := 1, a := 4, b := 5 }

/-! ## Witnesses: states that meet the hypotheses of the statements -/

theorem witness_ScalarTwoSourceResults : Issuing (st 0 dev0) (bun 0 dev0) hd := issuing ..

/-- LIMMH of 7 to s5 is the last result in flight. -/
def devL : Dev := withCore fun c => { c with pend := [(bun 0 dev0).pend (.s 5 0x700000000) 1] }

theorem witness_ScalarOneSourceAndImmediateResults :
    Issuing (st 0 devL) (bun 0 devL) hd ∧ (devL.core 0).pend =
      [] ++ [(bun 0 devL).pend (.s (physSV (bun 0 devL).issuer.lp 5) (toW (7 * 2 ^ 32))) 1] :=
  ⟨issuing .., by decide +kernel⟩

theorem witness_ScalarBitOperations : Issuing (st 0 dev0) (bun 0 dev0) hd ∧ (0 : Nat) + 64 ≤ 64 :=
  ⟨issuing .., by decide⟩

theorem witness_ComparesAndPredicateLogic : Issuing (st 0 dev0) (bun 0 dev0) hd ∧ 8 ≤ 8 := ⟨issuing .., by decide⟩

/-- Level 2 active, at the last bundle of a body of two. -/
def devLoop : Dev := withCore fun c => { c with lp := { c.lp with levels :=
  [(2, { LoopLevel.reset with active := true, count := 4, len := 2, pos := 1, body := 0xFF8 })] } }

theorem witness_SelectsAndMoves :
    Issuing (st 0 devLoop) (bun 0 devLoop) hd ∧ ((bun 0 devLoop).issuer.lp.level 2).active = true ∧
      ((bun 0 devLoop).issuer.lp.level 0).active = false :=
  ⟨issuing .., by decide +kernel⟩

theorem witness_ResultsLandWhenDue :
    ∃ c : Core, c.pend = [(bun 0 dev0).pend (.s 5 9) 3] ∧ 12 < (bun 0 dev0).cycle + 3 ∧ (bun 0 dev0).cycle + 3 ≤ 13 :=
  ⟨{ core0 with pend := [(bun 0 dev0).pend (.s 5 9) 3] }, by decide⟩

theorem witness_BranchesAndNop :
    Issuing (st 0 dev0) (bun 0 dev0) hd ∧ (bun 0 dev0).issuer.lp.innermost = none ∧
    Issuing (st 0 devLoop) (bun 0 devLoop) hd ∧ (bun 0 devLoop).issuer.lp.innermost = some 2 :=
  ⟨issuing .., by decide +kernel, issuing .., by decide +kernel⟩

theorem witness_StopsAndEnds :
    Issuing (st 256 devG) (bun 256 devG) hd ∧ (isGeneral 256 && (bun 256 devG).issuer.seq.priv) = true ∧
    Issuing (st 0 dev0) (bun 0 dev0) hd ∧ (isGeneral 0 && (bun 0 dev0).issuer.seq.priv) = false ∧
    (bun 0 dev0).issuer.seq.region ≠ .none :=
  ⟨issuing .., by decide +kernel, issuing .., by decide +kernel⟩

/-- A cached line of one-syllable bundles of NOP at 0x1000. -/
def nopLine : ILine := { line := 0x1000, bytes := (List.range 8).flatMap fun _ => toBytes 8 0x3000000000000000, bad := false }

/-- The prologue's last bundle: a kernel of one bundle follows it, and the epilogue the kernel; in a task loop. -/
def devPro (loop : Bool) : Dev :=
  (withCore fun c => { c with
    task := some { task0 with words := [0x1000, 0x1008, 0x1010, 0, 0, 0, 0, 0] }, seq := { c.seq with region := .prologue }
    lp := if loop then { c.lp with mloop := some { level := 2, n := 4, stages := 1, ii := 1, task := true } } else c.lp
    }).updCluster 0 fun x => { x with icache := [nopLine] }

theorem witness_LoopSyllables :
    (∀ d, Issuing (st 0 d) (bun 0 d) hd) ∧ ((bun 0 dev0).issuer.nestBad 0 1 = false ∧ ((0 : BitVec 2) ≠ 3) ∧
    (bun 0 devLoop).issuer.nestBad 2 1 = true ∧
    ((bun 0 devLoop).issuer.lp.level 2).active = true ∧ (bun 0 devLoop).issuer.lp.mloop = none ∧
    ((bun 0 devLoop).issuer.lp.level 0).active = false ∧
    taskLoopOk mem0 (devPro false) (bun 0 (devPro false)) (bun 0 (devPro false)).issuer 1 = true ∧
    (bun 0 (devPro false)).issuer.nestBad 0 1 = false ∧
    taskLoopOk mem0 (devPro false) (bun 0 (devPro false)) (bun 0 (devPro false)).issuer 2 = false ∧
    (bun 0 (devPro true)).issuer.lp.mloop.any (fun q => decide (q.level = 2) && q.task) = true) :=
  ⟨fun _ => issuing .., by decide +kernel⟩

def member (c : Core) : Core := { c with task := some { task0 with isMember := true }, attached := true }

/-- Cores 0 and 1 attached to the front end of cluster 0, which may be fused, core 8 to that of cluster 1, where it
waits at a FUSE of the same address. -/
def devJoin (fused : Bool) : Dev :=
  let d := ((withCore member).setCore 1 (member core0)).setCore 8
    { member core0 with fuseWait := some 0x1000 }
  (d.updCluster 0 fun x => { x with fe := { x.fe with serving := true, fused := fused } }).updCluster 1 fun x =>
    { x with fe := { x.fe with serving := true, fused := fused } }

theorem witness_JoinAndFusion :
    (∀ f n, Issuing (st n (devJoin f)) (bun n (devJoin f)) hd) ∧
    (let c := (bun 0 (devJoin false)).issuer
     c.isMember = true ∧ c.attached = true ∧ c.lp.innermost = none ∧ ((c.s 6).toNat + 1) % 65536 ≠ 0) ∧
    (let d := devJoin false
     (d.cluster 0).fe.fuseSeq ≠ some (d.core 0).cons ∧ (d.cluster 0).fe.fused = false ∧ steering d 0 = some 0 ∧
       (d.cluster 1).fe.serving = true ∧ steering d 1 = some 8 ∧ (d.core 8).fuseWait = some (bun 0 d).addr) ∧
    (let d := devJoin true
     (d.core 1).isMember = true ∧ (d.core 1).attached = true ∧ (d.cluster 0).fe.fused = true ∧
       steering d (feOf d 0) = some 0) :=
  ⟨fun _ _ => issuing .., by decide +kernel⟩

/-- Core 1 is detached; core 8 does not wait at a FUSE yet. -/
def devDetached : Dev := (devJoin false).updCore 1 fun c => { c with attached := false }
def devFuseEarly : Dev := (devJoin false).updCore 8 fun c => { c with fuseWait := none }
/-- The FUSE bundle that the core consumes next has acted. -/
def devFused : Dev := (devJoin true).updCluster 0 fun x => { x with fe := { x.fe with fuseSeq := some (core0.cons) } }

theorem witness_JoinAndFusion_waits :
    (let d := devDetached
     let c := (bun 1 d).issuer
     let away := (((c.s 6).toNat + 1) % 65536 + 65535 - joinCount (d.cluster 0).fe 0x1000 % 65535) % 65535
     isGeneral 1 = false ∧ c.isMember = true ∧ c.attached = false ∧ c.lp.innermost = none ∧ feOf d 0 = 0 ∧
       (d.cluster 0).fe.joins.length < 8 ∧ 0 < away ∧ away < 32768 ∧ attachedOf d 0 ≠ []) ∧
    joinReason dev0 (bun 0 dev0) (bun 0 dev0).issuer 0x1000 4 = some 4 ∧
    (let d := devFuseEarly
     steering d 0 = some 0 ∧ (d.cluster 1).fe.serving = true ∧ steering d 1 = some 8 ∧
       (d.core 8).fuseWait ≠ some (bun 0 d).addr) ∧
    (let fe := (devFused.cluster 0).fe
     fe.acted fe.fuseSeq (bun 0 devFused).issuer.cons = true ∧ ((devFused.core 0).isMember && (devFused.core 0).attached) = true) ∧
    (let fe := ((devJoin false).cluster 0).fe
     fe.acted fe.fuseSeq ((devJoin false).core 0).cons = false ∧ fe.acted fe.unfuseSeq ((devJoin false).core 0).cons = false ∧
       fe.earlier.contains ((devJoin false).core 0).cons = false) := by
  decide +kernel

theorem witness_VectorIntegerResults : Issuing (st 0 dev0) (bun 0 dev0) hd := issuing ..

theorem witness_MasksSelectionAndSeed :
    Issuing (st 0 dev0) (bun 0 dev0) hd ∧
    (let j := ((bun 0 dev0).issuer.s 6).toNat % 2 ^ 32
     j < elemCount 1 ∧ 0 + j * tyWidth 2 / 2048 ≤ 63) ∧
    elemCount 1 ≤ ((bun 0 dev0).issuer.s 5).toNat % 2 ^ 32 :=
  ⟨issuing .., by decide +kernel⟩

theorem witness_VectorFloatResults : Issuing (st 0 dev0) (bun 0 dev0) hd := issuing ..

theorem witness_ConversionsAndReductions :
    Issuing (st 0 dev0) (bun 0 dev0) hd ∧ (descFmt (formatReg dev0 0 0)).isSome = true ∧
    kindAllowed true (formatReg dev0 0 0) = true ∧ kindAllowed false (formatReg dev0 0 0) = false ∧
    kindAllowed false (formatReg dev0 0 1) = true ∧ descFmt (formatReg dev0 0 2) = none :=
  ⟨issuing .., by decide +kernel⟩

theorem witness_ElementsPackAndUnpack :
    (8 ∈ [8, 16, 32, 64] ∧ ∀ v ∈ [0, 255], v < 2 ^ 8) ∧ ([0, 255].length ≤ 2048 ∧ ∀ v ∈ [0, 255], v < 2 ^ imageWidth 0) := by
  decide

/-- A device that caches a page of package 5 for context 0 at 2 MiB. -/
def devFar : Dev := (withCore fun c => { c with r := { c.r with s := [(4, 0x200000)] } }).updCluster 0 fun x =>
  { x with tlb := [{ ctx := 0, va := 0x200000, bits := 16, leaf := 0x028000000020003F }] }

/-- Physical place of s4's bytes. -/
def spmA : Nat := 0x10000001000

def lm (a : BitVec 6) (disp : BitVec 20) : LM := { d := 1, a := a, nq := 1, disp := disp }

/-- The part of a w-byte access at s[a]. -/
def pieceAt (d : Dev) (a w : Nat) : Piece := { ea := (d.core 0).s a, len := w, elem := 0 }

/-- An earlier load of the core, to its own package, is still to reach the bytes at s4 and s5. -/
def devAway : Dev := { dev0 with remote := [spmA, 0x100000].map fun pa =>
  { src := 0, ctx := 0, pkg := Config.packageNumber, kind := .load, ident := 0, pa := pa, data := List.replicate 64 0
    val := 0, tag := 1, phase := 0, start := 0 } }

theorem away_at (l : List (Piece × Loc)) (h : (l.any fun (p, q) => match q with
      | .here pa => decide (spmA < pa + p.len) && decide (pa < spmA + 64)
      | .away _ _ => false) = true) : devAway.awayOn 0 l = true := by
  simp only [Dev.awayOn, devAway, List.map, List.any, decide_true, Bool.true_and, List.length_replicate]
  have h2 : ∀ a b : Bool, a = true → (a || b) = true := by decide
  exact h2 _ _ h

/-- A W syllable accesses the bytes from s4 until cycle 20. -/
def devBusy : Dev := withCore fun c => { c with row := { c.row with busyUntil := 20, touched := [(0x10000001000, 64)] } }

theorem witness_ScalarLoads :
    (∀ d, Issuing (st 0 d) (bun 0 d) hd) ∧ ((core0.s 4).toNat + 1) % 2 ≠ 0 ∧
    (straddles (toW (2 ^ 60)) 8 = true ∧ (toW (2 ^ 60)).toNat % 8 = 0) ∧
    (locate mem0 devBusy 0 .read true true (pieceAt devBusy 4 8) = .ok (.here 0x10000001000) ∧
      (bun 0 devBusy).issuer.rowBusyAt 10 0x10000001000 8 = true) ∧
    ((core0.s 4).toNat % 8 = 0 ∧ straddles (core0.s 4) 8 = false ∧ (bun 0 dev0).issuer.rowBusyAt 10 0x10000001000 8 = false ∧
      locate mem0 dev0 0 .read true true (pieceAt dev0 4 8) = .ok (.here 0x10000001000) ∧
      inAperture (core0.s 4).toNat = true) ∧
    (locate mem0 dev0 0 .read true true (pieceAt dev0 5 8) = .ok (.here 0x100000) ∧
      (bun 0 dev0).issuer.rowBusyAt 10 0x100000 8 = false ∧ inAperture (core0.s 5).toNat = false) ∧
    dev0.awayOn 0 [(pieceAt dev0 4 8, .here spmA), (pieceAt dev0 5 8, .here 0x100000)] = false ∧
    locate mem0 devFar 0 .read true true (pieceAt devFar 4 8) = .ok (.away 5 0x200000) ∧
    ((locate mem0 dev0 0 .read true true { ea := 2 ^ 50, len := 8, elem := 0 }).isOk = false ∧
      straddles (toW (2 ^ 50)) 8 = false) :=
  ⟨fun _ => issuing .., by decide +kernel⟩

/-- The elements of LDV and STV at s4 with their places in scratchpad 0. -/
def spots : List (Piece × Nat) :=
  ((bun 0 dev0).issuer.vectorAccess (lm 4 0)).parts.map fun p => (p, 0x10000000000 + (p.ea.toNat - apertureBase))

theorem witness_VectorLoads_spots : ((bun 0 dev0).issuer.vectorAccess (lm 4 0)).locate mem0 dev0 0 .read true =
    .ok (spots.map fun (p, pa) => (p, .here pa)) := by decide +kernel

/-- The clauses of an access that an earlier request of the core to its own package still holds up. -/
theorem witness_VectorLoads_away : devAway.awayOn 0 [(pieceAt dev0 4 8, .here spmA)] = true ∧
    devAway.awayOn 0 (spots.map fun (p, pa) => (p, .here pa)) = true :=
  ⟨away_at _ (by decide +kernel), away_at _ (by decide +kernel)⟩

theorem witness_VectorLoads :
    Issuing (st 0 dev0) (bun 0 dev0) hd ∧
    (let a := (bun 0 dev0).issuer.vectorAccess (lm 4 0)
     a.misaligned = none ∧ a.parts ≠ [] ∧ a.local = true ∧
       dev0.awayOn 0 (spots.map fun (p, pa) => (p, .here pa)) = false ∧
       (∀ x ∈ spots, (bun 0 dev0).issuer.rowBusyAt 10 x.2 x.1.len = false) ∧
       (bun 0 devBusy).issuer.rowBusyOn 10 (spots.map fun (p, pa) => (p, .here pa)) = true) ∧
    ((bun 0 dev0).issuer.vectorAccess (lm 5 0)).local = false ∧
    ((bun 0 dev0).issuer.vectorAccess (lm 4 1)).misaligned ≠ none :=
  ⟨issuing .., by decide +kernel⟩

theorem witness_ScalarStores :
    (∀ d, Issuing (st 0 d) (bun 0 d) hd) ∧ (bun 0 dev0).issuer.rowBusyAt 10 0x10000001000 8 = false ∧
    (locate mem0 devBusy 0 .write false true (pieceAt devBusy 4 8) = .ok (.here 0x10000001000) ∧
      (bun 0 devBusy).issuer.rowBusyAt 10 0x10000001000 8 = true) ∧
    (match locate mem0 devFar 0 .write false true (pieceAt devFar 4 8) with | .ok (.away _ _) => true | _ => false) = true ∧
    (core0.s 4).toNat % 8 = 0 ∧ straddles (core0.s 4) 8 = false ∧
    dev0.poisoned 0x10000001000 = false ∧ dev0.awayOn 0 [(pieceAt dev0 4 8, .here spmA)] = false ∧
    locate mem0 dev0 0 .write false true (pieceAt dev0 4 8) = .ok (.here 0x10000001000) ∧
    ((core0.s 4).toNat + 1) % 2 ≠ 0 ∧
    ((locate mem0 dev0 0 .write false true { ea := 2 ^ 50, len := 8, elem := 0 }).isOk = false ∧
      straddles (toW (2 ^ 50)) 8 = false) :=
  ⟨fun _ => issuing .., by decide +kernel⟩

theorem witness_VectorStores_spots : ((bun 0 dev0).issuer.vectorAccess (lm 4 0)).locate mem0 dev0 0 .write false =
    .ok (spots.map fun (p, pa) => (p, .here pa)) := by decide +kernel

theorem witness_VectorStores :
    Issuing (st 0 dev0) (bun 0 dev0) hd ∧ ((bun 0 dev0).issuer.vectorAccess (lm 4 0)).misaligned = none ∧
    (∀ x ∈ spots, (bun 0 dev0).issuer.rowBusyAt 10 x.2 x.1.len = false ∧ dev0.poisoned x.2 = false) ∧
    dev0.awayOn 0 (spots.map fun (p, pa) => (p, .here pa)) = false ∧
    ((bun 0 dev0).issuer.vectorAccess (lm 4 1)).misaligned ≠ none :=
  ⟨issuing .., by decide +kernel⟩

/-- dev0 with other scalar registers. -/
def withS (l : Tab Word) : Dev := withCore fun c => { c with r := { c.r with s := l } }

/-- The image of 16 zero bytes at s4: its header; its mask is zero. -/
def memZ : Memory := { cells := mem0.cells ++ [(spmA + 2, 0x10)] }

/-- s4 an image address, s5 a capacity of 64 KiB for 8-bit elements, s9 the same of width code 3. -/
def devZ : Dev := withS [(4, 0x01FFFFFF00001000), (5, 0x10000), (8, 0x01FFFFFF00001008), (9, 0x3000000010000)]

theorem witness_CompressedImages :
    (∀ m, Issuing (stm m 0 devZ) (bun 0 devZ) hd) ∧
    (let c := (bun 0 devZ).issuer
     (c.s 8).toNat % 64 ≠ 0 ∧ (c.s 4).toNat % 64 = 0 ∧ wfld (c.s 9) 48 2 = 3 ∧ wfld (c.s 5) 48 2 ≠ 3 ∧
       wfld (c.s 0) 0 32 < (imageBytes (c.elems 0 16 8) 8 0).length ∧
       (imageBytes (c.elems 0 16 8) 8 0).length ≤ wfld (c.s 5) 0 32 ∧
       (match (imageAccess (c.s 4) 128).locate mem0 devZ 0 .write false with
         | .ok l => !c.rowBusyOn 10 l && !devZ.awayOn 0 l | .error _ => false) = true) ∧
    (let head := 0x100000
     head < 2 ^ 34 ∧ fld head 32 2 ≠ 3 ∧ fld head 16 16 = elemCount 1 ∧ fld head 32 2 = 0 ∧
       headerSize head ≤ 0x10000 ∧ headerSize head - 64 = 64 ∧
       ((List.range 16).filter fun k => (ofBytes ((List.replicate 64 (0 : Byte)).take (maskBytes 16))).testBit k).length
         = fld head 0 16 ∧ inAperture (devZ.core 0 |>.s 4).toNat = true) :=
  ⟨fun _ => issuing .., by decide +kernel⟩

/-- An image whose parts all lie in this package, free of row and own requests, is read as its bytes. -/
theorem image_at (m : Memory) (d : Dev) (n : Nat) (slots : Bool) (a : Word) (len : Nat) (ps : List (Piece × Nat))
    (bs : List Byte) (f : List Byte → Out)
    (h1 : (imageAccess a len).locate m d n .read slots = .ok (ps.map fun (p, pa) => (p, .here pa)))
    (h0 : (d.core n).rowBusyOn 10 (ps.map fun (p, pa) => (p, .here pa)) = false)
    (h3 : d.awayOn n (ps.map fun (p, pa) => (p, .here pa)) = false)
    (h2 : ∀ g : List Byte → Out, readParts (stm m n d) (bun n d) (bun n d).issuer
      (ps.map fun (p, pa) => (p, .here pa)) [] g = g bs) :
    readImage (stm m n d) (bun n d) (bun n d).issuer slots a len f = f bs := by
  unfold readImage
  rw [show (imageAccess a len).locate (stm m n d).mem (stm m n d).dev (bun n d).core .read slots =
    .ok (ps.map fun (p, pa) => (p, .here pa)) from h1]
  show afterRow (bun n d) _ _ = _
  rw [afterRow, show (bun n d).base = d from rfl, show (bun n d).core = n from rfl, show (bun n d).cycle = 10 from rfl, h0,
    h3]
  exact h2 f

theorem witness_CompressedImages_header (f : List Byte → Out) :
    readImage (stm memZ 0 devZ) (bun 0 devZ) (bun 0 devZ).issuer false 0x01FFFFFF00001000 8 f = f (toBytes 8 0x100000) :=
  image_at _ _ _ _ _ _ [({ ea := 0x01FFFFFF00001000, len := 8, elem := 0 }, spmA)] _ f (by decide +kernel) (by decide +kernel)
    (by decide +kernel) (fun g => congrArg g (by decide +kernel))

/-- The mask of the image and its padding. -/
theorem witness_CompressedImages_body (f : List Byte → Out) :
    readImage (stm memZ 0 devZ) (bun 0 devZ) (bun 0 devZ).issuer false (0x01FFFFFF00001000 + 64) 64 f =
      f (List.replicate 64 0) :=
  image_at _ _ _ _ _ _ ((List.range 8).map fun i =>
      ({ ea := toW (0x01FFFFFF00001040 + 8 * i), len := 8, elem := 0 }, spmA + 64 + 8 * i)) _ f (by decide +kernel)
    (by decide +kernel) (by decide +kernel) (fun g => congrArg g (by decide +kernel))

theorem witness_SpillMemory : Issuing (st 0 dev0) (bun 0 dev0) hd := issuing ..

/-- Core 0 with handles: 3 a window, 4 a ring, 5 fills that have ended; the page at s5 is in slot 0 of its set. -/
def devH : Dev :=
  let d := withCore fun c => { c with
    r := { c.r with h := [(3, .window 256 0), (4, .ring 1 2 3 4 0x3000 64 2 0 false), (5, .fills 0 [])] } }
  d.updCluster 0 fun x => { x with tags := [(8 * 256, { ctx := 0, block := 256, st := .full, filled := true
                                                        poisoned := false, recency := 0, seenBy := [], staleAt := 0
                                                        pins := 1 })] }

/-- The one way of the same set holds another page, pinned. -/
def devPinned : Dev := dev0.updCluster 0 fun x => { x with tags := [(8 * 256, {
  ctx := 0, block := 512, st := .full, filled := true, poisoned := false, recency := 0, seenBy := [], staleAt := 0
  pins := 1 })] }

/-- A ring descriptor at s4: two slots of 64 bytes at 0x3000, counters 1 to 4. -/
def memRing : Memory := put mem0 spmA [0x4000000002, 0x3000, 1, 2, 3, 4, 0, 0]

def ring0 : RingDesc := { size := 64, nslot := 2, base := 0x3000, cf := 1, f := 2, cd := 3, dr := 4 }

theorem witness_WindowSyllables :
    (∀ m d, Issuing (stm m 0 d) (bun 0 d) hd) ∧ (bun 0 devH).issuer.h 3 ≠ .unbound ∧
    ((bun 0 devH).issuer.h 6 = .unbound ∧ probeFor mem0 devH 0 6 0x100000 .probe = .hit 2048 256) ∧
    (match probeFor mem0 dev0 0 6 (toW (2 ^ 60)) .probe with | .fault _ => true | _ => false) = true ∧
    probeFor mem0 devPinned 0 6 0x100000 .probe = .full ∧ probeFor mem0 devPinned 0 0 0x100000 .read = .full ∧
    probeFor mem0 dev0 0 6 0x100000 .probe = .miss 256 0 256 ∧ probeFor mem0 dev0 0 0 0x100000 .read = .miss 256 0 256 ∧
    isGeneral 0 = false ∧ (bun 0 devH).issuer.h 3 = .window 256 0 ∧
    (bun 0 devH).issuer.h 4 = .ring 1 2 3 4 0x3000 64 2 0 false ∧ (bun 0 devH).issuer.h 5 = .fills 0 [] ∧
    fillsEnded devH 0 [] = true ∧ isGeneral 256 = true ∧
    (ringOf ctx0 [0x4000000002, 0x3000, 1, 2, 3, 4, 0, 0] = some ring0 ∧ ringCounterFault dev0 0 ring0 = none ∧
      dev0.ctx 0 = some ctx0 ∧ (match (imageAccess 0x01FFFFFF00001000 64).locate memRing dev0 0 .read true with
        | .ok l => l.all fun (p, q) => match q with
          | .here pa => !(bun 0 dev0).issuer.rowBusyAt 10 pa p.len
          | .away _ _ => false
        | .error _ => false) = true) :=
  ⟨fun _ _ => issuing .., by decide +kernel⟩

theorem witness_LocalAddresses :
    (wfld (0x01FFFFFF00001000 : Word) 57 7 = 0 ∧ inAperture 0x01FFFFFF00001000 = true ∧ isGeneral 256 = true ∧
      isGeneral 0 = false ∧ (dev0.ctxOfCore 0).bind dev0.ctx = some ctx0) ∧
    (ctx0.qbase + ctx0.qsize) * 65536 ≤ 0x3000000 ∧ inAperture 0x01FFFFFF03000000 = true ∧
    (ctx0.qbase * 65536 ≤ 0x1000 ∧ 0x1000 < (ctx0.qbase + ctx0.qsize) * 65536 ∧ ctx0.slotAt 0x1000 = none) ∧
    (dev0.cluster 0).spmBad.contains (0x1000 / 8) = false ∧
    ((dev0.updCluster 0 fun x => { x with spmBad := [0x200] }).cluster 0).spmBad.contains (0x1000 / 8) = true := by
  decide +kernel

/-- Three rows: row 0 live with action 0, row 1 with action 3, row 2 free; the trace holds rows 0 and 1. -/
def devRow : Dev := withCore fun c => { c with row := { c.row with
  nrow := 3, cwa := [(0, 0x00010000), (1, 0x0002000F), (2, 0xFFFF0000)], live := [(0, true), (1, true)]
  tm := [(0, 0), (1, 1)], tlen := 2, plen := 8, tvalid := true } }

theorem witness_RowWords :
    (∀ d, Issuing (st 0 d) (bun 0 d) hd) ∧ (bun 0 devRow).issuer.row.busyUntil ≤ (bun 0 devRow).cycle ∧
    (bun 0 devBusy).cycle < (bun 0 devBusy).issuer.row.busyUntil ∧ ((bun 0 devRow).issuer.s 0).toNat = 0 ∧
    4096 < ((bun 0 devRow).issuer.s 5).toNat ∧
    (bun 0 devRow).issuer.row.nrow < ((bun 0 devRow).issuer.s 6).toNat + 2 ∧
    (1 ≤ ((bun 0 devRow).issuer.s 6).toNat ∧ ((bun 0 devRow).issuer.s 6).toNat ≤ 4096 ∧
      rangeFault devRow 0 0x01FFFFFF00001000 12 4 .read = none ∧ rangeBad devRow 0 0x01FFFFFF00001000 12 = none) ∧
    rangeFault devRow 0 0x01FFFFFF00001000 12 4 .write = none ∧
    ((bun 0 devRow).issuer.s 8).toNat + 2 ≤ (bun 0 devRow).issuer.row.nrow :=
  ⟨fun _ => issuing .., by decide +kernel⟩

theorem witness_RowUpdates :
    (∀ d, Issuing (st 0 d) (bun 0 d) hd) ∧ (bun 0 devRow).issuer.row.busyUntil ≤ (bun 0 devRow).cycle ∧
    (bun 0 devRow).issuer.row.tvalid = true ∧ (bun 0 dev0).issuer.row.tvalid = false ∧
    (bun 0 dev0).issuer.row.busyUntil ≤ (bun 0 dev0).cycle ∧
    (bun 0 devRow).issuer.row.nrow < ((bun 0 devRow).issuer.s 6).toNat + 2 ∧
    ((bun 0 devRow).issuer.s 8).toNat + 2 ≤ (bun 0 devRow).issuer.row.nrow :=
  ⟨fun _ => issuing .., by decide +kernel⟩

theorem witness_RowSelections :
    (∀ d, Issuing (st 0 d) (bun 0 d) hd) ∧ (bun 0 devRow).issuer.row.busyUntil ≤ (bun 0 devRow).cycle ∧
    (let r := (bun 0 devRow).issuer.row
     let src : Word := 0x01FFFFFF00001000
     let dst : Word := 0x01FFFFFF00010000
     r.badRow 0 false = none ∧ r.rlen ≠ 0 ∧ r.rlen ≤ 256 ∧ rangeFault devRow 0 src 0 64 .read = none ∧
       (∀ i ∈ r.selected 0 false, rangeFault devRow 0 (src + toW (i * 256)) 256 64 .read = none) ∧
       rangeFault devRow 0 dst (32 * 256) 64 .write = none ∧ (0 : BitVec 6) = 0 ∧ (4 : BitVec 6) ≠ 0 ∧
       r.tvalid = true ∧ rangeFault devRow 0 src (r.tlen * 256) 64 .read = none ∧
       rangeFault devRow 0 dst 0 64 .write = none ∧
       ((List.range r.tlen).all fun i =>
         (rangeFault devRow 0 (dst + toW ((r.trace i).toNat * 256)) 256 64 .write).isNone) = true) ∧
    (bun 0 dev0).issuer.row.tvalid = false :=
  ⟨fun _ => issuing .., by decide +kernel⟩

theorem witness_MovedRows :
    [((0x01FFFFFF00001000 : Word), (0x01FFFFFF00010000 : Word)), (0x01FFFFFF00001100, 0x01FFFFFF00010100)].Pairwise
      (fun x y => spmOf 0 x.2 + 256 ≤ spmOf 0 y.2 ∨ spmOf 0 y.2 + 256 ≤ spmOf 0 x.2) := by decide +kernel

theorem witness_RowTracesAndMasks :
    (∀ d, Issuing (st 0 d) (bun 0 d) hd) ∧ (bun 0 devRow).issuer.row.busyUntil ≤ (bun 0 devRow).cycle ∧
    (((bun 0 devRow).issuer.s 8).toNat ≤ 4096 ∧ rangeFault devRow 0 0x01FFFFFF00001000 2 2 .read = none ∧
      rangeBad devRow 0 0x01FFFFFF00001000 2 = none ∧
      badEntry (bun 0 devRow).issuer.row.nrow ((List.range 1).map fun i => ofBytes ((List.range 2).map fun j =>
        (st 0 devRow).reads 0 (spmOf 0 0x01FFFFFF00001000 + 2 * i + j))) [] = none) ∧
    (bun 0 devRow).issuer.row.tvalid = true ∧ rangeFault devRow 0 0x01FFFFFF00001000 16 2 .write = none :=
  ⟨fun _ => issuing .., by decide +kernel⟩

/-- A matrix engine configured for 16 columns of INT8, name 2 bound to slot 0 with band 0 declared. -/
def mat0 : MatState := { MatState.reset with configured := true, nq := 1, ak := 1 }
def matBand : MatState := (mat0.bind 2).updSlot 2 fun q => { q with bands := [(0, { lo := 4, hi := 9 })] }
def devMat (t : MatState) : Dev := withCore fun c => { c with mat := t }

/-- A push to name 2 is in flight; rows at the aperture's 0x1000 are still busy. -/
def matPush : MatState := { mat0.bind 2 with pushes := [{ slot := 0, row := 0, acc := false, ak := 1, vals := [], due := 146 }] }
def devMatBusy : Dev := (devMat mat0).updCore 0 fun c => { c with row := { c.row with
  busyUntil := 20, touched := [(spmA, 64)] } }

theorem witness_MatrixConfigurationAndNames :
    (∀ d, Issuing (st 0 d) (bun 0 d) hd) ∧ pairReason (formatReg dev0 0 0) (formatReg dev0 0 0) 1 = 0 ∧
    pairReason (formatReg dev0 0 0) (formatReg dev0 0 2) 1 ≠ 0 ∧ (bun 0 (devMat mat0)).issuer.mat.waits 2 none = false ∧
    (bun 0 (devMat mat0)).issuer.mat.pushes = [] ∧ (bun 0 (devMat matPush)).issuer.mat.pushes ≠ [] ∧
    (bun 0 (devMat matPush)).issuer.mat.waits 2 none = true ∧
    (let bands := (((bun 0 (devMat matBand)).issuer.mat.slotOf 2).map (·.bands)).getD []
     bands.any (fun (k, v) => decide (k ≠ 1 ∧ 9 ≤ v.hi ∧ v.lo ≤ 12)) = true ∧
       bands.any (fun (k, v) => decide (k ≠ 1 ∧ 10 ≤ v.hi ∧ v.lo ≤ 12)) = false) ∧
    (bun 0 (devMat mat0)).issuer.mat.drainUntil ≤ (bun 0 (devMat mat0)).cycle ∧
    (tget mat0.names 2 = none ∧ ∀ y ∈ mat0.names, y.2 ≠ 0) :=
  ⟨fun _ => issuing .., by decide +kernel⟩

/-- Push-overwrite of s4's row into row 0 of name 1 and a shift of the weights at s7. -/
def beatPushShift : MB :=
  { aop := 1, aw := 0, aslot := 1, arb := 0, wop := 1, ww := 1, dop := 0, ds := 0, drb := 0, dv := 0, m := 0 }
def beatDrain : MB := { beatPushShift with dop := 1, ds := 2 }

/-- A drain through the row engine to the aperture's 0x1000, in format 1. -/
def devDrainRow : Dev := (devMat { mat0 with drainFmt := 1 }).updCore 0 fun c => { c with row := { c.row with
  tm := [(0, 0)], dbase := 0x01FFFFFF00001000, rlen := 4 } }

theorem witness_BeatsPushShiftAndDrain_row :
    (let c := (bun 0 devDrainRow).issuer
     c.row.drainTo (c.mat.drainCidx + (0 + c.beatRow 0) % 128) = some 0x01FFFFFF00001000 ∧
       descFmt (formatReg devDrainRow 0 c.mat.drainFmt) = some fmtFp32 ∧ c.row.busyUntil ≤ 10) ∧
    ((devMat mat0).core 0).row.drainTo 4096 = none ∧ (2 : BitVec 2) = 2 := by
  decide +kernel

def cfg0 : MatCfg := { n := 16, wf := fmtInt 8, af := fmtInt 8, k := 256, ba := 0, bw := 0, sa := 0, sw := 0 }

theorem witness_BeatsPushShiftAndDrain :
    (∀ d, Issuing (st 0 d) (bun 0 d) hd) ∧ dev0.matCfg 0 (bun 0 dev0).issuer.mat = none ∧
    (devMat mat0).matCfg 0 mat0 = some cfg0 ∧
    (∀ o ∈ [beatPushShift, beatDrain, { beatPushShift with aop := 2, wop := 2 }],
      ¬(o.aop = 0 ∧ o.wop = 0 ∧ o.dop = 0) ∧ (o.dop ≠ 0 → mat0.waits o.ds.toNat (some 0) = false) ∧ o.dop ≠ 2 ∧
      firstOf (beatChecks (st 0 (devMat mat0)) (bun 0 (devMat mat0)) (bun 0 (devMat mat0)).issuer o 0 cfg0) = none ∧
      beatFilling (devMat mat0) ((devMat mat0).core 0) 0 0x01FFFFFF00001000 cfg0.aLen = false ∧
      beatFilling (devMat mat0) ((devMat mat0).core 0) 0 0x01FFFFFF00C00000 (cfg0.wLen 0) = false) ∧
    (bun 0 (devMat mat0)).issuer.rowBusyAt 10 spmA cfg0.aLen = false ∧
    (bun 0 (devMat mat0)).issuer.rowBusyAt 10 (spmOf 0 0x01FFFFFF00C00000) (cfg0.wLen 0) = false ∧
    (bun 0 devMatBusy).issuer.rowBusyAt 10 (spmOf 0 0x01FFFFFF00001000) cfg0.aLen = true ∧
    (bun 0 devMatBusy).cycle < (bun 0 devMatBusy).issuer.row.busyUntil ∧ matPush.waits 2 (some 0) = true ∧
    (firstOf (beatChecks (st 0 (devMat mat0)) (bun 0 (devMat mat0)) (bun 0 (devMat mat0)).issuer
      { beatPushShift with aw := 1 } 0 cfg0)).isSome = true :=
  ⟨fun _ => issuing .., by decide +kernel⟩

theorem witness_IntegerBeatIsDotProduct :
    cfg0.wf = fmtInt 8 ∧ cfg0.af = fmtInt 8 ∧ cfg0.ba = 0 ∧ cfg0.bw = 0 ∧ cfg0.k = 256 ∧ (1 : BitVec 2) ≠ 0 ∧
      15 < cfg0.n := by decide +kernel

def mv0 : MV := { acc := 2, row := 0, a := 4, cnt := 0, fmt := 1, rm := 0, sat := 0 }

theorem witness_AccumulatorMoves :
    (∀ d, Issuing (st 0 d) (bun 0 d) hd) ∧ mat0.waits 2 none = false ∧ dev0.matCfg 0 (bun 0 dev0).issuer.mat = none ∧
    (devMat mat0).matCfg 0 mat0 = some cfg0 ∧ descFmt (formatReg dev0 0 2) = none ∧ matPush.waits 2 none = true ∧
    (bun 0 devMatBusy).issuer.rowBusyAt 10 spmA 64 = true ∧ (bun 0 (devMat mat0)).issuer.rowBusyAt 10 spmA 64 = false ∧
    descFmt (formatReg dev0 0 1) = some fmtFp32 ∧
    firstOf (moveChecks (devMat mat0) 0 ((devMat mat0).core 0) mv0 0 false cfg0 fmtFp32) = none ∧
    firstOf (moveChecks (devMat mat0) 0 ((devMat mat0).core 0) mv0 0 true cfg0 fmtFp32) = none :=
  ⟨fun _ => issuing .., by decide +kernel⟩

/-- What package 0 has answered for its counter 5. -/
def remAnswers : List RemOp :=
  [(.counterAdd, 3), (.counterMax, 3), (.counterRead, 3), (.counterRead, 0)].map fun (k, v) =>
    { kind := k, ident := toW (2 ^ 63 + 5), val := v, answer := some (0, 7) }

/-- Handle 0 names counter 5, handle 1 a counter out of range, handle 2 one of package 0; in devOver counter 5 is at
its maximum. -/
def devK : Dev := withCore fun c => { c with
  r := { c.r with k := [(0, some 5), (1, some 100), (2, some (toW (2 ^ 63 + 5)))] }, remOps := remAnswers }
def devOver : Dev := counterSet devK 0 0 5 (BitVec.allOnes 64)

theorem witness_CounterSyllables :
    (∀ d, Issuing (st 0 d) (bun 0 d) hd) ∧ (bun 0 dev0).issuer.k 0 = none ∧
    ((bun 0 devK).issuer.k 1 = some 100 ∧ resolveCounter devK 0 100 = .error 3) ∧
    ((bun 0 devK).issuer.k 0 = some 5 ∧ resolveCounter devK 0 5 = .ok (.here 0 5)) ∧
    (counterGet mem0 devK 0 0 5).toNat + (1 : Word).toNat < 2 ^ 64 ∧
    2 ^ 64 ≤ (counterGet mem0 devOver 0 0 5).toNat + (1 : Word).toNat ∧
    (counterGet mem0 devK 0 0 5).toNat < (1 : Word).toNat ∧ (0 : Word).toNat ≤ (counterGet mem0 devK 0 0 5).toNat ∧
    (bun 0 devK).issuer.cond mem0 devK 0 0 { i := 0, k := 0, v := 0 } = .holds ∧ (0 + (bun 0 devK).issuer.wanyNext) % 8 = 0 ∧
    (bun 0 devK).issuer.cond mem0 devK 0 0 { i := 0, k := 0, v := 1 } = .below 0 5 ∧
    ((bun 0 devK).issuer.k 2 = some (toW (2 ^ 63 + 5)) ∧ resolveCounter devK 0 (toW (2 ^ 63 + 5)) = .ok (.remote 0) ∧
      ∀ q ∈ remAnswers, (((bun 0 devK).issuer.remOps.find? fun x => x.kind = q.kind && x.ident = q.ident &&
        x.val = q.val).bind (·.answer)) = some (0, 7)) :=
  ⟨fun _ => issuing .., by decide +kernel⟩

/-- Stage 3 is valid. -/
def memS : Memory := put mem0 0x11070 [1]

/-- Stake records: record 0 holds two stakes of stage 3 at time 1, record 1 the task's own stake of stage 4. -/
def devS : Dev := withCore fun c => { c with holds := [(0, { own := false, stage := 3, time := 1, count := 2 }),
                                                       (1, { own := true, stage := 4, time := 1, count := 1 })] }

/-- All four records hold stakes of other stages. -/
def devFour : Dev := withCore fun c => { c with
  holds := (List.range 4).map fun i => (i, { own := false, stage := 10 + i, time := 1, count := 2 }) }

theorem room (d : Dev) (die ctx : Nat) (ds : List Delta)
    (h : ((d.die die).moraineOf ctx).owed.isEmpty = true ∧
      ((d.die die).moraineOf ctx).growth ds ≤ moraineSize - (d.die die).moraineUsed) :
    moraineRoom d die ctx ds = true := by
  have h2 := h.2
  simp only [moraineRoom, h.1, Bool.true_and, Bool.or_eq_true, decide_eq_true_eq]
  omega

/-- A delta of die 0 waits for room. -/
def devFull : Dev := devS.updDie 0 fun x => x.setMoraine 0 { MoraineCtx.reset with owed := [(1, [{ stage := 1, time := 2, n := 1 }])] }

theorem witness_StakeSyllables :
    (∀ m d, Issuing (stm m 0 d) (bun 0 d) hd) ∧ 4096 ≤ (core0.s 5).toNat ∧
    moraineRoom dev0 (moraineDie dev0 0 0) 0 [{ stage := 3, time := 1, n := 2 }] = true ∧
    ((core0.s 6).toNat = 3 ∧ stageOk memS dev0 0 3 = true ∧ stageOk memS dev0 0 5 = false) ∧
    moraineRoom devFull (moraineDie devFull 0 0) 0 [{ stage := 3, time := 1, n := 2 }] = false ∧
    ((devFour.core 0).holdOf 3 = none ∧ (devFour.core 0).freeHold = none) ∧
    ((dev0.core 0).holdOf 3 = none ∧ (dev0.core 0).freeHold = some 0) ∧
    ((devS.core 0).holdOf 3 = some 0 ∧ ((devS.core 0).hold 0).time = core0.s 8 ∧ ((devS.core 0).hold 0).count = 2 ∧
      ((devS.core 0).hold 0).own = false) ∧
    ((devS.core 0).holdOf 4 = some 1 ∧ ((devS.core 0).hold 1).time = core0.s 8 ∧ ((devS.core 0).hold 1).count = 1 ∧
      ((devS.core 0).hold 1).own = true) ∧
    ((core0.s 0).toNat < ((devS.core 0).hold 0).time.toNat ∧ ((devS.core 0).hold 0).time.toNat < (core0.s 6).toNat) :=
  ⟨fun _ _ => issuing .., by decide +kernel, room _ _ _ _ (by decide +kernel), by decide +kernel⟩

/-- A park descriptor at s4: 64 bytes at the aperture's 0x2000, slot 0, one drain, counters 1 and 2. -/
def parkWords : List Word := [0x2000000, 0x01FFFFFF00002000, 0x100, 0x4000000001, 0, 0, 1, 2]
def memPark : Memory := put mem0 spmA parkWords

def slot0 : HoldSlot :=
  { parked := true, packet := none, ctx := 0, bytes := List.replicate 64 7, rem := 2, free := 2, done := 1, rel := false
    rscp := 0, busy := none }

def devSlot : Dev := dev0.updCluster 0 fun x => { x with slots := [(0, slot0), (1, { slot0 with rem := 1 })] }

/-- Core 1 drains slot 0 until its cycle 50. -/
def devDrain : Dev := (dev0.updCluster 0 fun x => { x with slots := [(0, { slot0 with busy := some (1, 50) })] }).updCore 1
  fun c => { c with run := .running, ready := 12, busyUntil := 50 }

def devBusyPark : Dev := withCore fun c => { c with row := { c.row with
  busyUntil := 20, touched := [(spmOf 0 0x01FFFFFF00002000, 64)] } }

theorem witness_CopySyllables :
    (∀ m n d, Issuing (stm m n d) (bun n d) hd) ∧ isGeneral 256 = true ∧ isGeneral 0 = false ∧
    (let w := spmWords memPark dev0 0 (core0.s 4)
     rangeFault dev0 0 (core0.s 4) 64 64 .read = none ∧ rangeBad dev0 0 (core0.s 4) 64 = none ∧
       rangeFault dev0 0 (nth w 1 0) (pktLen w) 64 .read = none ∧ rangeBad dev0 0 (nth w 1 0) (pktLen w) = none ∧
       resolveCounter dev0 0 (nth w 6 0) = .ok (.here 0 1) ∧ resolveCounter dev0 0 (nth w 7 0) = .ok (.here 0 2) ∧
       badPark w = false ∧ wfld (nth w 2 0) 0 4 = 0) ∧
    (tget (dev0.cluster 0).slots 0 = none ∧ (dev0.cluster 0).nextPark 0 = none) ∧
    tget (devSlot.cluster 0).slots 0 ≠ none ∧
    (wfld (0 : Word) 4 4 = 0 ∧ wfld (0 : Word) 10 54 = 0 ∧ tget (devSlot.cluster 0).slots 0 = some slot0 ∧
      slot0.parked = true ∧ slot0.ctx = 0 ∧ slot0.busy = none ∧
      rangeFault devSlot 0 (core0.s 4) slot0.bytes.length 64 .write = none ∧ 1 < slot0.rem) ∧
    ((bun 0 dev0).issuer.rowBusyAt 10 (spmOf 0 0x01FFFFFF00002000) 64 = false ∧
      (bun 0 devBusyPark).issuer.rowBusyAt 10 (spmOf 0 0x01FFFFFF00002000) 64 = true) ∧
    tget (devSlot.cluster 0).slots 1 = some { slot0 with rem := 1 } ∧
    (tget (devDrain.cluster 0).slots 0 = some { slot0 with busy := some (1, 50) } ∧ (1 : Nat) ≠ 0 ∧
      devDrain.drains 1 50 = true) :=
  ⟨fun _ _ _ => issuing .., by decide +kernel⟩

/-- A subscription descriptor at s4 with its ring descriptor behind it, and a reduction descriptor. -/
def subWords : List Word := [0x100000, 1, 0x01FFFFFF00001040, 5, 0, 0x4000000000, 0, 0]
def redWords : List Word := [0x100000, 0x100000, 0, 0x100001000, 5, 0, 0, 0]
def ringWords : List Word := [0x4000000002, 0x3000, 1, 2, 3, 4, 0, 0]
def memSub : Memory := put mem0 spmA (subWords ++ ringWords)

def sub0 : SubEnt :=
  { ctx := 0, cluster := 0, isRed := false, dva := 0x01FFFFFF00001000, words := subWords, ring := ringWords, next := 0
    flight := [], cancelled := false, susp := false, bad := false }

def devSub (e : SubEnt) : Dev := dev0.updDie 0 fun y => { y with subs := [(3, e)] }

theorem witness_SubscriptionSyllables :
    (∀ m d, Issuing (stm m 0 d) (bun 0 d) hd) ∧
    (dev0.ctx 0 = some ctx0 ∧ rangeFault dev0 0 (core0.s 4) 64 64 .read = none ∧ rangeBad dev0 0 (core0.s 4) 64 = none) ∧
    spmWords memSub dev0 0 (core0.s 4) = subWords ∧ spmWords memSub dev0 0 0x01FFFFFF00001040 = ringWords ∧
    (rangeFault dev0 0 0x01FFFFFF00001040 64 64 .read = none ∧ rangeBad dev0 0 0x01FFFFFF00001040 64 = none) ∧
    subReason dev0 0 ctx0 subWords ringWords = none ∧ subReason dev0 0 ctx0 redWords ringWords ≠ none ∧
    redReason dev0 0 ctx0 redWords = none ∧ redReason dev0 0 ctx0 subWords ≠ none ∧ (dev0.die 0).freeSub = some 0 ∧
    ((core0.s 6).toNat < 512 ∧ tget ((devSub sub0).die 0).subs 3 = some sub0 ∧ sub0.tilesDone = false) ∧
    tget (dev0.die 0).subs 3 = none ∧ 512 ≤ (core0.s 5).toNat :=
  ⟨fun _ _ => issuing .., by decide +kernel⟩

theorem witness_SubscriptionSyllables_entries :
    (let w := subWords
     let w5 := nth w 5 0
     wfld (nth w 0 0) 0 6 = 0 ∧ wfld (nth w 1 0) 32 32 % 64 = 0 ∧ wfld (nth w 1 0) 0 32 ≠ 0 ∧ wfld w5 32 32 ≠ 0 ∧
       wfld w5 32 32 % 64 = 0 ∧ wfld w5 12 20 = 0 ∧ wfld w5 1 2 = 0 ∧ wfld w5 8 3 ≤ 4 ∧ wfld w5 4 3 ≤ 4 ∧ nth w 6 0 = 0 ∧
       nth w 7 0 = 0 ∧ w5.getLsbD 11 = false ∧ ringOf ctx0 ringWords = some ring0 ∧ wfld w5 32 32 ≤ ring0.size ∧
       ([nth w 3 0, ring0.cf, ring0.f, ring0.cd, ring0.dr].all fun id => match resolveCounter dev0 0 id with
         | .ok _ => true | .error _ => false) = true ∧ engineVa (nth w 0 0) = true) ∧
    (let w := redWords
     let w3 := nth w 3 0
     let w5 := nth w 5 0
     wfld (nth w 0 0) 0 6 = 0 ∧ wfld (nth w 1 0) 0 6 = 0 ∧ wfld (nth w 2 0) 0 6 = 0 ∧ wfld w3 32 32 ≠ 0 ∧
       wfld w3 24 8 = 0 ∧ wfld w3 8 4 = 0 ∧ wfld w3 0 3 = 0 ∧ wfld w5 11 53 = 0 ∧ wfld w5 0 3 = 0 ∧ wfld w5 8 3 ≤ 4 ∧
       wfld w5 4 3 ≤ 4 ∧ nth w 6 0 = 0 ∧ nth w 7 0 = 0 ∧ wfld w3 6 2 ≠ 3 ∧ wfld w3 4 2 ≠ 3 ∧
       reduceFmt (ctx0.format (wfld w3 12 4)) = true ∧ resolveCounter dev0 0 (nth w 4 0) = .ok (.here 0 5) ∧
       engineVa (nth w 0 0) = true ∧ wfld w3 16 8 = 0 ∧ engineVa (nth w 1 0) = true) ∧
    (let no (e : SubEnt) : Bool := match tget ((devSub e).die (3 / 64)).subs (3 % 64) with
       | some q => q.isRed || decide (q.ctx ≠ 0) || q.tilesDone
       | none => false
     no { sub0 with isRed := true } = true ∧ no { sub0 with ctx := 1 } = true ∧ no { sub0 with next := 1 } = true) ∧
    ((dev0.updDie 0 fun y => { y with subs := (List.range 64).map fun i => (i, sub0) }).die 0).freeSub = none := by
  decide +kernel

/-- A task record at s4: stage 3 and counter 5 in word 6. -/
def recWords : List Word := [0x1000, 0x1000, 0x2000, 0, 0, 0, 0x3000000005, 0]
def memRec : Memory := put memS spmA recWords

def ent0 : QEntry := { words := recWords, id := 9, ctx := 0 }

def devDeque8 : Dev := withCore fun c => { c with deque := List.replicate 8 ent0 }
def devDeque : Dev := withCore fun c => { c with deque := [ent0] }

/-- Context 0 with stream 1 of sixteen slots at 1 MiB. -/
def devStream : Dev := dev0.setCtx 0 { ctx0 with streams := [(1, { Stream.reset with base := 0x100000, log2 := 4 })] }

theorem witness_TaskSyllables :
    (∀ m n d, Issuing (stm m n d) (bun n d) hd) ∧
    moraineRoom dev0 (moraineDie dev0 0 0) 0 [recDelta recWords 1] = true ∧
    cancelTask mem0 dev0 0 (BitVec.allOnes 64) 0 = .done dev0 0 ∧ isGeneral 256 = true ∧ isGeneral 0 = false ∧
    (rangeFault dev0 0 (core0.s 4) 64 64 .read = none ∧ rangeBad dev0 0 (core0.s 4) 64 = none ∧
      spmWords memRec dev0 0 (core0.s 4) = recWords ∧ recRange memRec dev0 0 recWords = none) ∧
    (let x := (newId dev0 0).2.cluster 0
     (x.ringOf 0).swr = (x.ringOf 0).srd ∧ x.queue.length < 32) ∧
    (recRange memRec dev0 0 (recWords.take 6 ++ [0x5000000005, 0])).isSome = true ∧
    ((((dev0.partOfCtx 0).map (·.clusters)).getD [])[3]? = some 3 ∧ (recWords.length = 8 ∧ (core0.s 4).toNat % 64 = 0)) ∧
    moraineRoom devFull (moraineDie devFull 0 0) 0 [recDelta recWords 1] = false ∧
    8 ≤ ((newId devDeque8 0).2.core 0).deque.length ∧
    (dev0.ctx 0 = some ctx0 ∧ (ctx0.stream 1).log2 = 0) ∧
    ((newId dev0 0).2.core 0).deque.length < 8 ∧ rangeFault dev0 0 (core0.s 4) 64 64 .write = none ∧
    (dev0.core 0).deque = [] ∧ (devDeque.core 0).deque = [] ++ [ent0] ∧
    (devStream.ctx 0 = some { ctx0 with streams := [(1, { Stream.reset with base := 0x100000, log2 := 4 })] } ∧
      ((1 : BitVec 15).toNat % 16 = 1) ∧
      (({ ctx0 with streams := [(1, { Stream.reset with base := 0x100000, log2 := 4 })] } : Ctx).stream 1).log2 ≠ 0) :=
  ⟨fun _ _ _ => issuing .., room _ _ _ _ (by decide +kernel), rfl, by decide +kernel⟩

/-- Cluster 0 with a spill ring of one entry that holds a task or none, and full queues but for the ring. -/
def devRing (log2 : Nat) (stop : Bool) (base : Word) : Dev := dev0.updCluster 0 fun x => { x with
  queue := List.replicate 32 ent0, spillStop := stop
  spill := [(0, { SpillRing.reset with base := base, log2 := log2, swr := 1 })] }

theorem witness_TaskSyllables_rings :
    (let full := appendQueue mem0 (devRing 0 false 0x100000) 0 ent0 0
     (match full with | .full k => decide (k = 0) | _ => false) = true ∧
     (match appendQueue mem0 (devRing 1 true 0x100000) 0 ent0 0 with | .wait => true | _ => false) = true ∧
     (match appendQueue mem0 (devRing 1 false 0x100000) 0 ent0 0 with | .ok _ => true | _ => false) = true ∧
     (match appendQueue mem0 (devRing 1 false 0x2000000000000) 0 ent0 0 with | .fault _ => true | _ => false) = true) ∧
    (let d := (newId (devRing 1 false 0x100000) 0).2
     let ring := (d.cluster 0).ringOf 0
     d.queueOf 0 0 = some (List.replicate 32 ent0) ∧ d.residentOn (0 / 4) = some 0 ∧
       ¬(ring.swr = ring.srd ∧ (List.replicate 32 ent0).length < 32) ∧ (ring.swr - ring.srd).toNat < 2 ^ ring.log2) ∧
    (let d := (newId dev0 0).2
     d.queueOf 0 0 = some [] ∧ ((d.cluster 0).ringOf 0).swr = ((d.cluster 0).ringOf 0).srd) ∧
    moraineRoom devFull 0 0 [recDelta recWords (-1)] = false ∧ dieOf 0 = 0 ∧ (dev0.ctxOfCore 0).getD noContext = 0 := by
  decide +kernel

theorem witness_TaskSyllables_taken : moraineRoom devDeque (dieOf 0) 0 [recDelta ent0.words (-1)] = true :=
  room _ _ _ _ (by decide +kernel)

/-- General core 256 reads a record for context 0 from memory at s5. -/
theorem witness_TaskSyllables_general (f : List Byte → Out) :
    readImage (stm (put mem0 0x100000 recWords) 256 devG) (bun 256 devG) (bun 256 devG).issuer true 0x100000 64 f =
      f (bytesOfWords recWords) :=
  image_at _ _ _ _ _ _ ((List.range 8).map fun i => ({ ea := toW (0x100000 + 8 * i), len := 8, elem := 0 }, 0x100000 + 8 * i))
    _ f (by decide +kernel) (by decide +kernel) (by decide +kernel) (fun g => congrArg g (by decide +kernel))

/-- A fill descriptor at s4: 256 rows of 64 bytes by repetition in one block, counter 5. -/
def kvWords : List Word := [0x100000, 0x200000, 0x300000, 0x400000, 0x4000FF0001, 0, 5, 0]
def memKv : Memory := put mem0 spmA kvWords

/-- An arm descriptor at s4: one row, target 2, counter 5. -/
def armWords : List Word := [0x100000, 0x200000, 5, 0x20001]
def memArm : Memory := put mem0 spmA armWords

theorem witness_FillAndCalvingSyllables :
    (∀ m d, Issuing (stm m 0 d) (bun 0 d) hd) ∧ (core0.s 8).toNat % 64 ≠ 0 ∧ (core0.s 4).toNat % 64 = 0 ∧
    kvWords.length = 8 ∧ kvReason dev0 0 kvWords 0x100000000 false = none ∧ kvReason dev0 0 kvWords 0 true = none ∧
    (bun 0 dev0).issuer.h 7 = .unbound ∧
    ((bun 0 dev0).issuer.pend.any fun e => match e.res with | .h k _ => k = 7 | _ => false) = false ∧
    ((0xFFC0000000000000 : Word).getLsbD 63 = true ∧ 383 < wfld (0xFFC0000000000000 : Word) 54 9) ∧
    (core0.s 5).getLsbD 63 = false ∧ wfld (core0.s 5) 32 2 ≠ 2 ∧ wfld (0x200000000 : Word) 32 2 = 2 ∧
    (core0.s 8).toNat % 32 ≠ 0 ∧ armWords.length = 4 ∧
    (let w3 := nth armWords 3 0
     wfld w3 22 42 = 0 ∧ wfld w3 13 3 = 0 ∧ 1 ≤ wfld w3 0 13 ∧ wfld w3 0 13 ≤ 4096 ∧
       (nth armWords 0 0).toNat % 4 = 0 ∧ (nth armWords 1 0).toNat % 64 = 0) ∧
    resolveCounter dev0 0 (nth armWords 2 0) = .ok (.here 0 5) ∧ dev0.ctx 0 = some ctx0 ∧ ctx0.calv.arm = none ∧
    ctx0.calv.held = [] ∧ ctx0.calv.pending = [] ∧ tget ctx0.calv.targets 2 = none :=
  ⟨fun _ _ => issuing .., by decide +kernel⟩

/-- A notice of target 2 is pending for an earlier time, another for the arm's; a third is held. -/
def notice0 : Notice := { target := 2, row := 0, token := 0, cw := 0, time := 9, spilled := false }
def devNotices : Dev := dev0.setCtx 0 { ctx0 with calv := { ctx0.calv with
  pending := [{ notice0 with time := 1 }, notice0], targets := [(2, (armWords, 9))] } }
def devHeldNotice : Dev := dev0.setCtx 0 { ctx0 with calv := { ctx0.calv with held := [notice0] } }

theorem witness_FillAndCalvingSyllables_refused :
    kvReason dev0 0 kvWords 0 false = some 2 ∧ kvReason dev0 0 kvWords 0x1000000000 true = some 2 ∧
    (wfld (nth (0 :: armWords.tail) 3 0) 16 6 = 2 ∧ (nth (1 :: armWords.tail) 0 0).toNat % 4 ≠ 0) ∧
    resolveCounter dev0 0 100 = .error 3 ∧
    (∃ x, devHeldNotice.ctx 0 = some x ∧ x.calv.held ≠ []) ∧
    (∃ x, devNotices.ctx 0 = some x ∧ x.calv.arm = none ∧ x.calv.held = [] ∧ x.calv.pending.length = 2 ∧
      (tget x.calv.targets 2).isSome = true) ∧
    (wfld (nth armWords 3 0) 16 6 = 2 ∧ (9 : Word).toNat ≤ (9 : Word).toNat) :=
  ⟨by decide +kernel, by decide +kernel, by decide +kernel, by decide +kernel, ⟨_, rfl, by decide +kernel⟩,
    ⟨_, rfl, by decide +kernel⟩, by decide⟩

/-- The parts of an image of n words at s4. -/
def imgParts (n : Nat) : List (Piece × Nat) := (List.range n).map fun i =>
  ({ ea := toW (0x01FFFFFF00001000 + 8 * i), len := 8, elem := 0 }, spmA + 8 * i)

theorem witness_FillAndCalvingSyllables_fill (f : List Byte → Out) :
    readImage (stm memKv 0 dev0) (bun 0 dev0) (bun 0 dev0).issuer true 0x01FFFFFF00001000 64 f = f (bytesOfWords kvWords) :=
  image_at _ _ _ _ _ _ (imgParts 8) _ f (by decide +kernel) (by decide +kernel) (by decide +kernel)
    (fun g => congrArg g (by decide +kernel))

theorem witness_FillAndCalvingSyllables_arm (f : List Byte → Out) :
    readImage (stm memArm 0 dev0) (bun 0 dev0) (bun 0 dev0).issuer true 0x01FFFFFF00001000 32 f = f (bytesOfWords armWords) :=
  image_at _ _ _ _ _ _ (imgParts 4) _ f (by decide +kernel) (by decide +kernel) (by decide +kernel)
    (fun g => congrArg g (by decide +kernel))

/-- A broadcast of 64 bytes as rank 0 of two, counter 5; its group table at s4's own place names package 0 there. -/
def colWords : List Word := [0x100000, 0x200000, 0x01FFFFFF00001000, 0x4000000000, 5, 0x0002000000000000, 0, 0]

theorem witness_CollectiveSyllables :
    (∀ m d, Issuing (stm m 0 d) (bun 0 d) hd) ∧ rangeFault dev0 0 (core0.s 5) 64 64 .read ≠ none ∧
    (rangeFault dev0 0 (core0.s 4) 64 64 .read = none ∧ rangeBad dev0 0 (core0.s 4) 64 = none) ∧
    colBad dev0 0 1 recWords = true ∧ colBad dev0 0 1 colWords = false ∧ colRankNo colWords < colNrank colWords ∧
    (colBad dev0 0 1 ((colWords.take 5) ++ [0x0002000200000000, 0, 0]) = false ∧
      colNrank ((colWords.take 5) ++ [0x0002000200000000, 0, 0]) ≤
        colRankNo ((colWords.take 5) ++ [0x0002000200000000, 0, 0])) ∧
    resolveCounter dev0 0 (nth colWords 4 0) = .ok (.here 0 5) ∧
    (joinCol dev0 1 0 0 { core := 0, ctx := 0, dva := core0.s 4, words := colWords }).isSome = true :=
  ⟨fun _ _ => issuing .., by decide +kernel⟩

/-- The first two bytes at s4 are the package's own number. -/
def pkgBytes : List Byte := [BitVec.ofNat 8 Config.packageNumber, BitVec.ofNat 8 (Config.packageNumber / 256)]
def memPkg : Memory := { cells := mem0.cells ++ [(spmA, nth pkgBytes 0 0), (spmA + 1, nth pkgBytes 1 0)] }

theorem pkgBytes_value : ofBytes pkgBytes = Config.packageNumber := by
  have h : Config.packageNumber < 384 := Config.packagePlace.isLt
  simp only [pkgBytes, ofBytes, BitVec.toNat_ofNat]
  omega

theorem witness_CollectiveSyllables_table :
    (∀ f : List Byte → Out, readImage (stm memPkg 0 dev0) (bun 0 dev0) (bun 0 dev0).issuer true 0x01FFFFFF00001000 2 f = f pkgBytes) ∧
    ofBytes pkgBytes = Config.packageNumber :=
  ⟨fun f => image_at _ _ _ _ _ _ [({ ea := 0x01FFFFFF00001000, len := 2, elem := 0 }, spmA)] _ f (by decide +kernel)
    (by decide +kernel) (by decide +kernel)
    (fun g => congrArg g rfl), pkgBytes_value⟩

def zc (n : BitVec 16) : ZC := { d := 1, a := 4, csr := n }

theorem witness_ControlRegisterForms :
    (∀ n d, Issuing (st n d) (bun n d) hd) ∧ csrAssigned (isGeneral 0) 5 = false ∧
    (csrAssigned (isGeneral 0) 0x10 = true ∧ csrPrivileged 0x10 = true ∧ (isGeneral 0 && (bun 0 dev0).issuer.seq.priv) = false) ∧
    (csrAssigned (isGeneral 256) 0x10 = true ∧ (isGeneral 256 && (bun 256 devG).issuer.seq.priv) = true ∧ 0x10 ≠ 0xB008) ∧
    (csrAssigned (isGeneral 256) 0xB008 = true ∧ (csrPrivileged 0xB008 = true →
      (isGeneral 256 && (bun 256 devG).issuer.seq.priv) = true)) ∧
    ((withCore fun c => { c with csrq := [{ op := .read, csr := 0, a := 0, tag := 1, at' := 12 }] }).core 0).csrq ≠ [] ∧
    csrAssigned (isGeneral 0) 0xB008 = true :=
  ⟨fun _ _ => issuing .., by decide +kernel⟩

/-- dev0 with a context that is not debuggable. -/
def devNoDbg : Dev := dev0.setCtx 0 { ctx0 with dbg := false }

theorem witness_TraceAndDebugSyllables :
    (∀ n d, Issuing (st n d) (bun n d) hd) ∧ dev0.ctxOfCore 0 = some 0 ∧ devG.ctxOfCore 256 = none ∧
    dev0.debuggable 0 = true ∧ devNoDbg.debuggable 0 = false ∧ isGeneral 256 = true ∧ isGeneral 0 = false ∧
    (wfld (core0.s 5) 57 7 = 0 ∧ inAperture (core0.s 5).toNat = false ∧
      translate mem0 dev0 (walkBad dev0) 0 (some 0) (core0.s 5) .read = .ok { pa := 0x100000, leaf := 0x1F, bits := 34 } ∧
      ({ pa := 0x100000, leaf := 0x1F, bits := 34 } : TOk).remote = none) :=
  ⟨fun _ _ => issuing .., by decide +kernel⟩

/-- A partition descriptor and a context block at s5. -/
def formWords : List Word := [0, 64, 1, 0xFFFF]
def createWords : List Word :=
  [0x400000000, 0x100000000] ++ List.replicate 14 0x700000000 ++
    [0x20000, 0x10000, 64, 0x11000, 0, 0x30000, 0, 0x30000000000, 0, 0, 0, 0, 0, 0, 0, 0]

def flatParts (n : Nat) : List (Piece × Nat) := (List.range n).map fun i =>
  ({ ea := toW (0x100000 + 8 * i), len := 8, elem := 0 }, 0x100000 + 8 * i)

theorem witness_FirmwareOperations_form (f : List Byte → Out) :
    readImage (stm (put mem0 0x100000 formWords) 256 devG) (bun 256 devG) (bun 256 devG).issuer true 0x100000 32 f =
      f (bytesOfWords formWords) :=
  image_at _ _ _ _ _ _ (flatParts 4) _ f (by decide +kernel) (by decide +kernel) (by decide +kernel)
    (fun g => congrArg g (by decide +kernel))

theorem witness_FirmwareOperations_create (f : List Byte → Out) :
    readImage (stm (put mem0 0x100000 createWords) 256 devG) (bun 256 devG) (bun 256 devG).issuer true 0x100000 256 f =
      f (bytesOfWords createWords) :=
  image_at _ _ _ _ _ _ (flatParts 32) _ f (by decide +kernel) (by decide +kernel) (by decide +kernel)
    (fun g => congrArg g (by decide +kernel))

/-- Every core of die 0 halted, and a second context that is not resident. -/
def devHalted : Dev :=
  ((List.range 32).foldl (fun d n => d.updCore n fun c => { c with run := .halted }) devG).setCtx 1 ctx0

/-- A swap of partition 0 without a resident context; a load of context 0 under way with an old translation. -/
def devEmpty : Dev := devG.setPart 0 { part0 with resident := none }
def devUnder : Dev := { devG with remote := [{ src := 0, ctx := 0, pkg := 5, kind := .load, ident := 0x200000, pa := 0
                                               data := [], val := 0, tag := 0, phase := 0, start := 0 }] }

theorem witness_FirmwareOperations :
    (∀ m d, Issuing (stm m 256 d) (bun 256 d) hd) ∧ devG.underOld 0 0 0 = false ∧ devUnder.underOld 0 0 0 = true ∧
    (createReason mem0 devEmpty 0 (newCtx 0 0 createWords) = none ∧ (tget devEmpty.parts 0).any (fun p =>
      p.resident.isNone && p.swap.isNone) = true ∧ ((List.range 64).find? fun i => (devEmpty.ctx i).isNone) = some 1) ∧ isGeneral 256 = true ∧ (bun 256 devG).issuer.seq.priv = true ∧
    (formWords.length = 4 ∧ formReason devG 1 formWords = some 1 ∧ formReason devG 2 formWords = none ∧
      ((List.range 8).find? fun i => (tget devG.parts i).isNone) = some 1) ∧
    tget devG.parts 5 = none ∧ tget devG.parts 0 = some part0 ∧
    (let d := devG.setPart 1 part0
     tget d.parts 1 = some part0 ∧ d.ctxs.any (fun (_, y) => y.part = 1) = false) ∧
    swapReason devG part0 1 0 = some 6 ∧ swapReason devHalted part0 1 0 = none ∧
    devG.ctx 5 = none ∧ devG.ctx 0 = some ctx0 ∧
    (devHalted.ctx 1 = some ctx0 ∧ devHalted.parts.all (fun q => decide (¬(q.2.resident = some 1 ∨
      q.2.swap = some (2, 1) ∨ q.2.swap = some (3, 1)))) = true ∧
      devHalted.genPart.any (fun (_, _, q) => q = 1) = false) ∧
    ((devHalted.setPart 0 { part0 with swap := some (3, 1) }).parts.any fun q => q.2.swap = some (3, 1)) = true ∧
    createWords.length = 32 ∧ createReason mem0 devG 0 (newCtx 0 0 createWords) = none ∧
    (inMemory 0x100000 640 = true ∧ inMemory 0x4000000000000 640 = false) ∧
    ((∃ p ∈ devG.parts, p.2.resident = some 0) ∧ devG.ctxs.any (fun (_, y) => y.part = 0) = true) ∧
    createReason mem0 devG 5 (newCtx 5 0 createWords) = some 1 ∧ part0.resident ≠ none ∧
    ((List.range 64).find? fun i => (devG.ctx i).isNone) = some 1 :=
  ⟨fun _ _ => issuing .., by decide +kernel⟩

/-- General core 256 in user mode, with interrupts on and one pending. -/
def devUser : Dev :=
  let d := devG.updCore 256 fun c => { c with seq := { c.seq with priv := false, ie := true } }
  { d with sys := { d.sys with irq := [0] } }

theorem witness_PrivilegedForms :
    Issuing (st 0 dev0) (bun 0 dev0) hd ∧ isGeneral 0 = false ∧ Issuing (st 256 devUser) (bun 256 devUser) hd ∧
    (bun 256 devUser).issuer.seq.priv = false ∧ csrAssigned (isGeneral 256) 0x10 = true ∧ csrPrivileged 0x10 = true :=
  ⟨issuing .., by decide, issuing .., by decide +kernel⟩

theorem witness_TrapEntry :
    isGeneral 256 = true ∧ (devUser.core 256).seq.priv = false ∧ (devG.core 256).seq.priv = true := by decide +kernel

theorem witness_ReturnFromEvent :
    Issuing (st 256 devG) (bun 256 devG) hd ∧ isGeneral 256 = true ∧ (bun 256 devG).issuer.seq.priv = true ∧
    ({ bun 256 devG with ctl := .tret true } : Bundle).ctl = .tret true :=
  ⟨issuing .., by decide +kernel⟩

theorem witness_TensorCoreEvents :
    isGeneral 0 = false ∧ (mkStop 0x10 0 0).kind ≠ .fault ∧ (mkFault 0x10 0 0).kind = .fault ∧
    (dev0.core 0).task.isSome = true ∧ (st 0 dev0).bundle = some (bun 0 dev0) := ⟨by decide, by decide, by decide, by decide +kernel, rfl⟩

theorem witness_FaultedBundleHasNoEffect :
    (st 0 dev0).bundle = some (bun 0 dev0) ∧ hdrOf (.add { hd with gp := 1 } srr) = some { hd with gp := 1 } ∧
    selected (bun 0 dev0).issuer { hd with gp := 1 } = false ∧
    ∀ h c o x, Instr.add { hd with gp := 1 } srr ≠ .illegalOpcode h c o x :=
  ⟨rfl, rfl, by decide +kernel, fun _ _ _ _ h => by cases h⟩

/-! ### Events -/

def push0 : Push := { slot := 0, row := 3, acc := false, ak := 1, vals := List.replicate 16 5, due := 0 }

/-- Core 0 with an answered result and a push in flight, waiting for its phase and for the sync engine. -/
def devWaits : Dev := withCore fun c => { c with
  pend := [(bun 0 dev0).interlocked (.s 5 9) true 0], mat := { mat0.bind 2 with pushes := [push0] }
  waits := [.phase 0, .answer] }

/-- Core 0 without a task, with one in its deque; core 1 asked to halt. -/
def devIdle (l : List QEntry) : Dev :=
  (withCore fun c => { c with run := .idle, task := none, deque := l }).updCore 1 fun c => { c with preempt := true }

def devBoundary : Dev := withCore fun c => { c with waits := [.boundary] }

theorem witness_CoreEvents :
    (∀ n d, (st n d).Live ↔ d.sys.hot = false) ∧ dev0.sys.hot = false ∧
    (∃ e, (devWaits.core 0).pend[0]? = some e ∧ e.due = none ∧ e.ready = true ∧ e.after ≤ (devWaits.core 0).ready) ∧
    ((devWaits.core 0).mat.pushes = push0 :: [] ∧ push0.due ≤ (devWaits.core 0).ready ∧
      ((tget (devWaits.core 0).mat.slots push0.slot).isSome = true)) ∧
    ((withCore fun c => { c with pend := [(bun 0 dev0).interlocked (.h 3 (.window 256 0)) false 0] }).core 0).lookupDue =
      some 0 ∧
    (Wait.phase 0 ∈ (devWaits.core 0).waits ∧ storesAway devWaits 0 = false ∧ Wait.answer ∈ (devWaits.core 0).waits) ∧
    (isGeneral 256 = true ∧ (devUser.core 256).run = .running ∧ (devUser.core 256).seq.priv = false ∧
      (devUser.core 256).seq.ie = true ∧ devUser.sys.irq.contains (256 - 256) = true) ∧
    ((devUser.updCore 256 fun c => { c with run := .asleep }).core 256).run = .asleep ∧
    (mkReplay 0x31 0 0).kind = .replayable ∧ (mkStop 0xD1 0 0).kind = .stop ∧ core0.exitDue = false ∧
    (let c := devBoundary.core 0
     c.task = some task0 ∧ c.run = .running ∧ c.boundaryDue = true ∧ (∀ w ∈ c.waits, w = .boundary) ∧ c.answered = true ∧
       c.strayLevel = none ∧ c.stopReq = false ∧ c.attached = false ∧
       ({ c.landAll with waits := [] } : Core).strayLevel = none) ∧
    ((devIdle [ent0]).takes mem0 0 = true ∧ ((devIdle [ent0]).core 0).deque = [] ++ [ent0]) ∧
    ((devIdle []).takes mem0 0 = true ∧ ((devIdle []).core 0).deque = [] ∧ ((devIdle []).cluster 0).queue = [] ∧
      (devIdle []).spilled 0 = false ∧ ((devIdle []).core 0).localFails = 0) :=
  ⟨fun _ _ => Iff.rfl, by decide +kernel, ⟨_, rfl, by decide +kernel⟩, by decide +kernel⟩

theorem witness_CoreEvents_waits :
    (Wait.phase 0 ∈ (devWaits.core 0).waits ∧ ∀ r ∈ devWaits.remote, r.src = 0 → r.kind ≠ .store) ∧
    (isGeneral 1 = false ∧ ((devIdle []).core 1).preempt = true ∧ ((devIdle []).core 1).run = .idle ∧
      ((devIdle []).core 1).csrq = [] ∧ ((devIdle []).core 1).mat.pushes = []) ∧
    (let c := (withCore fun c => { c with preempt := true, atBnd := true }).core 0
     c.run = .running ∧ c.atBnd = true ∧ c.waits = [] ∧ c.boundaryDue = false ∧ ∀ t ∈ c.task, t.leaving = false) ∧
    (let c := (withCore fun c => { c with preempt := true, spanStart := some 0, ready := 100 }).core 0
     c.preempt = true ∧ c.run = .running ∧ c.task = some task0 ∧ wfld (nth task0.words 7 0) 32 32 < c.spanCycles) ∧
    ((withCore fun c => { c with pend := [(bun 0 dev0).pend (.s 5 9) 3] }).core 0).pend[0]?.map (·.due) = some (some 13) ∧
    (let c := (withCore fun c => { c with pend := [(bun 0 dev0).interlocked (.h 3 (.window 256 0)) false 0] }).core 0
     c.pend.findIdx? (fun e => e.due.isNone && !e.ready && e.tag = 0 &&
       (match e.res with | .h _ (.window _ _) => true | _ => false)) = some 0 ∧
       (c.pend[0]?.map (·.res)) = some (.h 3 (.window 256 0))) := by
  decide +kernel

/-- R422: a core with nothing to take begins a probe in its turn, in which its unit makes one step. -/
theorem test_idle_core_probes :
    (match turn exec { State.reset with dev := devIdle [], cur := 0 } 0 with
     | .next t => (t.dev.core 0).probing && (t.dev.core 0).lfsr != ((devIdle []).core 0).lfsr
     | _ => false) = true := by
  decide +kernel

theorem witness_CoreEvents_boundary :
    (dev0.neverBooted 0 = false ∧ ((withCore fun c => { c with run := .stopped }).core 0).run = .stopped) ∧
    (let c := (withCore fun c => { c with
        waits := [.boundary], lp := { c.lp with levels := [(2, { LoopLevel.reset with active := true })] } }).core 0
     c.strayLevel = some 2 ∧ c.boundaryDue = true ∧ (∀ w ∈ c.waits, w = .boundary) ∧ c.run = .running) ∧
    (let c := ((devPro false).updCore 0 fun c => { c with waits := [.boundary] }).core 0
     c.seq.region = .prologue ∧ c.boundaryDue = true ∧ c.strayLevel = none ∧ c.landAll.tripCount [0, 0, 0, 0] = 0 ∧
       c.landAll.tripCount [0, 0, 0, 5] = 5 ∧ (c.task.all fun t => decide (t.ker ≠ t.epi)) = true) ∧
    (let c := devBoundary.core 0
     c.seq.region = .pass ∧ c.atBnd = false ∧ c.lp.inTaskLoop = false ∧ c.seq.pass + 1 < 2 ∧ task0.passes ≤ c.seq.pass + 1) ∧
    ((devIdle [ent0]).core 0).exitDue = false ∧
    ((withCore fun c => { c with exitDue := true, seq := { c.seq with region := .epilogue } }).core 0).exitDue = true ∧
    (let v := stealVictim 0 ((devIdle []).core 0).lfsr.toNat false
     let d := ((devIdle []).updCore v fun c => { c with deque := [ent0] }).updCore 0 fun c => { c with probing := true }
     v ≠ 0 ∧ (d.core v).deque = [ent0] ∧ (d.core 0).probing = true ∧ (d.core 0).localFails < 7 ∧ d.takes mem0 0 = true) ∧
    (((devIdle []).core 0).probing = false ∧
      (let d := (devIdle [ent0]).updCore 0 fun c => { c with probing := true }
       (d.core 0).deque ≠ [] ∧ (d.core 0).probing = true)) ∧
    (∀ l ∈ [[], [ent0]], registerDue (devIdle l) 0 = false ∧ (devIdle l).recordWaits 0 = false ∧
      launchReady mem0 (devIdle l) 0 = none) := by
  decide +kernel

/-- A store of core 0 to package 5 is under way; its task is to end when it has been made. -/
def devStoring : Dev := { withCore fun c => { c with
    preempt := true, spanStart := some 0, ready := 100, waits := [.ending 0] } with
  remote := [{ src := 0, ctx := 0, pkg := 5, kind := .store, ident := 0x200000, pa := 0, data := [], val := 0, tag := 0
               phase := 0, start := 0 }] }

theorem witness_CoreEvents_ending :
    (let c := (withCore fun c => { c with waits := [.ending 0] }).core 0
     Wait.ending 0 ∈ c.waits ∧ (c.waits.all fun w => match w with | .phase _ => false | _ => true) = true ∧
       dev0.remote = []) ∧
    (devStoring.remote.any fun r => r.src = 0 && r.kind = .store) = true ∧
    (((devStoring.updCore 0 fun c => { c with waits := [] }).core 0).waits = [] ∧
      wfld (nth task0.words 7 0) 32 32 < (devStoring.core 0).spanCycles) ∧
    (dev0.ctxAt 0 = some (0, ctx0) ∧ ctx0.dbg = true ∧ devNoDbg.ctxAt 0 = some (0, { ctx0 with dbg := false })) := by
  decide +kernel

theorem witness_CoreEvents_deques (m : Nat) : ((devIdle []).core m).deque = [] := by
  by_cases h0 : m = 0
  · subst h0; decide +kernel
  · by_cases h1 : m = 1
    · subst h1; decide +kernel
    · by_cases h : m = 256
      · subst h; decide +kernel
      · have e : tget (devIdle []).cores m = none := by
          have : ∀ k v, tget ([(0, v), (1, k)] : Tab Core) m = none := fun k v => by
            simp [tget, Ne.symm h0, Ne.symm h1]
          exact this _ _
        simp only [Dev.core, e]
        rfl

/-- The front end of cluster 0 delivers those bundles to core 0. -/
def devStreamFe : Dev :=
  let g : Group := { ctx := 0, code := { cells := (List.range 8).map fun i => (0x1000 + 8 * i + 7, 0x30) }, left := [0], stream := 0 }
  (withCore member).updCluster 0 fun x =>
    { x with icache := [nopLine], group := some g, fe := { x.fe with serving := true, pos := some 0x1000 } }

/-- Core 0 fetches alone at 0x1000. -/
def devAlone : Dev := dev0.updCluster 0 fun x => { x with icache := [nopLine] }

def store0 : StoreEnt :=
  { owner := 300, phase := 0, ended := true, gran := 0x20000, cells := [(0, 7)], all := false, seen := [], applied := false
    inval := [] }

def devStores : Dev := { dev0 with stores := [store0] }

def tag0 : TagEnt :=
  { ctx := 0, block := 256, st := .filling, filled := false, poisoned := false, recency := 0, seenBy := [], staleAt := 0
    pins := 1 }

/-- Counter 2 of context 0 reads 1. -/
def devCount : Dev := counterSet dev0 0 0 2 1

/-- Core 0 waits to claim, or to release, a use of ring0. -/
def devClaim : Dev := withCore fun c => { c with waits := [.claim 3 1 2 3 4 0x3000 64 2 false 0x1000 0] }
def devRelease : Dev := withCore fun c => { c with
  waits := [.release 3], r := { c.r with h := [(3, .ring 1 2 3 4 0x3000 64 2 0 false)] } }

theorem witness_FetchAndMemoryEvents :
    (st 0 dev0).Live ∧ (streamDelivery mem0 devStreamFe 0).isSome = true ∧
    (let fe := (devStreamFe.cluster 0).fe
     fe.serving = true ∧ fe.redirect = none ∧ fe.fused = false ∧ fe.pos = some 0x1000 ∧
       (∀ n ∈ attachedOf devStreamFe 0, (devStreamFe.core n).ibuf = [] ∧ (devStreamFe.core n).cons ≤ fe.next ∧
         fe.next < (devStreamFe.core n).cons + 64) ∧
       (streamPort devStreamFe 0).bundle mem0 devStreamFe 0x1000 = .ok [0x3000000000000000] ∧
       (decoded [0x3000000000000000]).any isJoin = false ∧ attachedOf devStreamFe 0 ≠ []) ∧
    ((devAlone.core 0).fetchesAlone = true ∧
      (corePort devAlone 0).bundle mem0 devAlone (devAlone.core 0).pc = .ok [0x3000000000000000]) ∧
    (match (corePort devAlone 0).bundle mem0 devAlone (2 ^ 60) with | .fault _ => true | _ => false) = true ∧ (dev0.cluster 0).line 0x1000 = none ∧
    (dev0.ctx 0 = some ctx0 ∧ wfld (0x100000 : Word) 57 7 = 0 ∧ inAperture 0x100000 = false ∧
      (walkFrom (readWord mem0 dev0 everyone) (walkBad dev0) dev0 ctx0 0x100000 ctx0.ptRoot walkLevels).isOk = true ∧
      tlbFind (dev0.cluster 0).tlb 0 0x100000 = none ∧ tlbFind (dev0.die 0).tlb 0 0x100000 = none) ∧
    (devStores.stores[0]? = some store0 ∧ store0.ended = true) ∧
    (store0 ∈ devStores.stores ∧ store0.gran / 512 = 256 ∧ store0.gran * 8 < 2 ^ 40 ∧ 0 ∉ store0.inval) ∧
    (let d := dev0.updCluster 0 fun x => { x with tags := [(tagKey 256 0, tag0)] }
     tget (d.cluster 0).tags (tagKey 256 0) = some tag0 ∧ d.ctx tag0.ctx = some ctx0 ∧ tag0.filled = false ∧ tag0.again = none) ∧
    (tag0.st = .filling ∧ (dev0.poison = [])) ∧
    0 + 64 ≤ 2 ^ 40 ∧ (dev0.sys.boot ≠ 3 ∧ ({ dev0 with sys := { dev0.sys with boot := 3 } } : Dev).sys.boot = 3) :=
  ⟨rfl, by decide +kernel⟩

theorem witness_FetchAndMemoryEvents_rings :
    (let q : Claim := { hn := 3, r := ring0, drain := false, bundle := 0x1000, sidx := 0 }
     (devClaim.core 0).claimDue = some q ∧ devClaim.ctxOfCore 0 = some 0 ∧
      ringCounter mem0 devClaim 0 1 = some 0 ∧ ringCounter mem0 devClaim 0 2 = some 0 ∧
      ringCounter mem0 devClaim 0 3 = some 0 ∧ ringCounter mem0 devClaim 0 4 = some 0 ∧
      (0 : Word).toNat < (0 : Word).toNat + ring0.nslot ∧ (0 : Word).toNat < (counterGet mem0 devCount 0 0 2).toNat ∧
      counterGet mem0 (devClaim.readCounter mem0 0 4) 0 0 1 = 0 ∧ resolveCounter devClaim 0 ring0.cf = .ok (.here 0 1) ∧ resolveCounter devClaim 0 ring0.cd = .ok (.here 0 3)) ∧
    ((devRelease.core 0).releaseDue = some 3 ∧ devRelease.ctxOfCore 0 = some 0 ∧
      (devRelease.core 0).h 3 = .ring 1 2 3 4 0x3000 64 2 0 false ∧
      (∀ r ∈ devRelease.remote, r.src = 0 → r.kind ≠ .store ∧ r.kind ≠ .load) ∧ resolveCounter devRelease 0 2 = .ok (.here 0 2) ∧
      (counterGet mem0 ((devRelease.endPhase 0).release 0 3) 0 0 2).toNat = 0) ∧
    (store0.owner < 288 → (devStores.core store0.owner).phase ≠ store0.phase) := by
  decide +kernel

theorem witness_FetchAndMemoryEvents_poison (pa : Nat) : dev0.poisoned pa = false := by
  rw [Dev.poisoned, show dev0.poison = [] by decide +kernel]
  simp

/-- Die 0's Moraine holds an open delta; batch 1 of context 0 waits for the root. -/
def batch0 : Batch := { die := 0, seq := 1, deltas := [{ stage := 1, time := 1, n := 1 }] }
def devMoraine : Dev := (dev0.updDie 0 fun x => x.setMoraine 0
  { MoraineCtx.reset with openDeltas := [{ stage := 1, time := 2, n := 1 }], sent := 1 }).setCtx 0
    { ctx0 with root := { ctx0.root with arriving := [batch0] } }

def gravEnt0 : GravEnt := { unit := 0, ctx := 0, data := none }

/-- Graver 0 has a read of row 0 in the queue of pseudo-channel 0, its bank closed or open, and scrubs. -/
def devGrav (rows : Tab Nat) : Dev := dev0.setGrav 0 { Grav.reset with queues := [(0, [gravEnt0])], rows := rows, passing := true }

/-- R388: an error corrected on an access is counted and recorded as kind 1. -/
theorem test_column_corrected :
    ((columnCommand (devGrav [(0, 0)]) 0 0 0 .corrected 100).map fun d =>
      ((d.grav 0).eccAccess.toNat, (d.grav 0).hist.map (·.kind))) = some (1, [1]) := by decide

/-- FIPS 197, section 5.1.1: the substitution takes 53 to ED. -/
theorem test_aes_sub : aesSub 0x53 = 0xED := by decide

def subRed0 : SubEnt := { sub0 with isRed := true, words := redWords, ring := [] }

theorem witness_SyncAndGraverEvents :
    resolveCounter dev0 0 5 = .ok (.here 0 5) ∧ (counterGet mem0 dev0 0 0 5).toNat + (3 : Word).toNat < 2 ^ 64 ∧
    ((devMoraine.die 0).moraineOf 0).openDeltas ≠ [] ∧
    ((devMoraine.ctx 0).all (fun x => !x.root.frozen && decide ((x.root.arriving.find? fun q => decide (q.die = 0) &&
        decide (q.seq = tgetD x.root.applied 0 0 + 1)) = some batch0)) = true ∧ (devMoraine.ctx 0).isSome = true ∧
      ∀ e ∈ (batch0.deltas.foldl addNet ctx0.root.net), -((2 : Int) ^ 47) ≤ e.2.2 ∧ e.2.2 < (2 : Int) ^ 47) ∧
    ((tgetD (dev0.grav 0).queues (5 % 64) []).length < 32 ∧
      ((some ((0, 0) : BitVec 512 × BitVec 64)).isSome && dev0.staleTag 0 (stackAddress 0 (64 * 5)) 0) = false ∧
      ((some ((0, 0) : BitVec 512 × BitVec 64)).isSome && dev0.staleTag 0 (stackAddress 0 (64 * 5)) 0x10001) = true) ∧
    (let last := tgetD ((devGrav []).grav 0).runs 0 (false, 0)
     busUser last.1 last.2 true false = some false ∧ ((devGrav []).grav 0).idle 0 ≠ [] ∧
       ((devGrav [(0, 1)]).grav 0).blocked 0 ≠ none ∧ ((devGrav [(0, 0)]).grav 0).columnPlaces 0 ≠ []) ∧
    ((dev0.grav 0).en = true ∧ (dev0.grav 0).passing = false ∧ ((devGrav []).grav 0).mayScrub = true ∧
      (devGrav []).poisoned (stackAddress 0 ((devGrav []).grav 0).pos) = false ∧
      ((devGrav []).grav 0).queued 0 = true ∧ (({ Grav.reset with passing := true } : Grav).queued 0) = false ∧
      ((devGrav []).grav 0).pos + 64 < 2 ^ 36) ∧
    (tget ((devSub sub0).die 0).subs 3 = some sub0 ∧ sub0.isRed = false ∧ sub0.susp = false ∧ sub0.bad = false ∧
      ((devSub sub0).ctx 0).bind (fun c => ringOf c sub0.ring) = some ring0 ∧
      (subClaim mem0 (devSub sub0) 0 3 sub0 ring0).isSome = true) ∧
    (tget ((devSub subRed0).die 0).subs 3 = some subRed0 ∧
      (match subRed0.dfmt (devSub subRed0) with | some f => decide (subRed0.next < redBlocks subRed0.words f.c) | none => false) = true) ∧
    ({ sub0 with bad := true } : SubEnt).outcome (devSub { sub0 with bad := true }) = some 3 := by
  decide +kernel

/-- Copy queue 0 of context 0: two slots at 1 MiB, WI counter 1 that reads 1, RD counter 2; its first slot a copy of 64
bytes. -/
def queue0 : CpyQ := { CpyQ.reset with base := 0x100000, wi := 1, rd := 2, ctx := 0, en := true }
def devQueue (q : CpyQ) : Dev := (counterSet dev0 0 0 1 1).setCpyq 0 q
def copyWords : List Word := [0x1000000000000, 0x200000, 0x300000, 0x4000000001, 0, 0, 5, 0]
def memQueue : Memory := put mem0 0x100000 copyWords
def packet0 : Packet := { idx := 0, words := copyWords, susp := false, moved := 0, ahead := [], got := []
                          parking := false, bad := false, sent := false }
/-- A piece that queue 0's packet 0 reads in a package, sent on port 0. -/
def packetRead (pkg : Nat) : RemoteOut :=
  { src := copyEngine 0, ctx := 0, pkg := pkg, kind := .load, ident := 0x200000, pa := 0, data := List.replicate 64 0
    val := 0, tag := 0, phase := 0, start := 0, port := some 0 }
def packetPark : Packet := { packet0 with words := [0x2000000, 0x200000, 0x100, 0x4000000001, 0, 0, 1, 2] }
def req0 : CpyReq := { ctx := 0, core := 0, tag := 1, q := 0, words := copyWords, idx := some 0, susp := false }
def park0 : ParkReq := { slot := 2, src := 0, hold := slot0 }
def devPark : Dev := dev0.updCluster 0 fun x => { x with parks := [park0], slots := [(3, { slot0 with parked := false })] }

/-- Stream 1 of context 0 holds a ready launch of one member for cluster 0, whose core 0 is idle. -/
def launch0 : List Word := [0x200000, 0, 0x111, 0, 0, 0, 0, 0]
def memLaunch : Memory := put (put mem0 0x100000 launch0) 0x200000 recWords
def devLaunch : Dev := (withCore fun c => { c with run := .idle, task := none }).setCtx 0
  { ctx0 with streams := [(1, { Stream.reset with base := 0x100000, log2 := 4, widx := 1 })] }

def devSpill : Dev := dev0.updCluster 0 fun x =>
  { x with spill := [(0, { SpillRing.reset with base := 0x100000, swr := 1 })] }

def firnOp0 : FirnOp :=
  { ctx := 0, core := 0, kind := 0, dva := 0x01FFFFFF00001000, words := kvWords, t0 := 0, n := 1, b := 1, tag := 1
    task := none, no := 0, susp := false }
def fill0 : FillEnt :=
  { ctx := 0, core := 0, begun := true, dva := 0x01FFFFFF00001000, words := kvWords, t := 3, b := 1, e := 0, wtag := 0
    task := none, marked := false, cleared := false, ended := false, susp := false }
def devFirn (f : Firn) : Dev := dev0.updDie 0 fun y => { y with firn := f }
def firnOps : Firn := { Firn.reset with ops := [firnOp0] }
def firnFull : Firn := { firnOps with fills := (List.range 256).map fun i => (i, fill0) }

theorem witness_CopyTaskAndFillEvents_queues :
    (let q := (devQueue { queue0 with en := false }).cpyq 0
     q.en = false ∧ ((devQueue queue0).partOfCtx 0).any (fun p => p.engines.getLsbD 0) = true ∧
       q.base.toNat % (64 * q.nslot) = 0 ∧ resolveCounter (devQueue queue0) 0 q.wi = .ok (.here 0 1) ∧
       resolveCounter (devQueue queue0) 0 q.rd = .ok (.here 0 2)) ∧
    (((devQueue queue0).readCounter memQueue 0 1).queueReady memQueue 0 = true ∧ inFlight (devQueue queue0) 0 < 8 ∧
      engineWords memQueue (devQueue queue0) (copyEngine 0) 0 (queue0.slotVa queue0.ridx) 8 = .ok copyWords ∧
      wfld (nth copyWords 0 0) 48 16 = queue0.lap queue0.ridx ∧ pktReason (devQueue queue0) 0 copyWords = none ∧
      (devQueue queue0).nextQueue memQueue 0 = some 0) ∧
    ((devQueue { queue0 with reread := true }).readCounter memQueue 0 1).queueReady memQueue 0 = true ∧
    (let d := devQueue { queue0 with wi := toW (2 ^ 63 + 1) }
     d.nextQueue memQueue 0 ≠ some 0 ∧ (askIndex d 0 100).isSome = true) ∧
    (let d := counterSet (counterSet (devQueue queue0) 0 0 1 (BitVec.allOnes 64)) 0 0 2 (BitVec.allOnes 64)
     let m := counterGet mem0 (d.readCounter mem0 0 2) 0 0 1
     m = counterGet mem0 d 0 0 1 ∧ m.toNat + 1 = 2 ^ 64 ∧ m.toNat < (counterGet mem0 d 0 0 2).toNat + queue0.nslot) ∧
    (let d : Dev := { devQueue queue0 with cpyReqs := [(0, [req0])] }
     (tgetD d.cpyReqs 0 []).find? (fun x => !x.susp) = some req0 ∧ req0.idx = some 0) ∧
    ({ req0 with idx := none } : CpyReq).idx = none ∧ (dev0.cpyq (wfld req0.q 0 8)).en = false ∧
    (wfld req0.q 8 56 = 0 ∧ queue0.en = true ∧ queue0.ctx = req0.ctx ∧
      counterGet mem0 ((devQueue queue0).readCounter mem0 0 2) 0 0 1 = counterGet mem0 (devQueue queue0) 0 0 1 ∧
      (counterGet mem0 (devQueue queue0) 0 0 1).toNat + 1 < 2 ^ 64 ∧
      (counterGet mem0 (devQueue queue0) 0 0 1).toNat < (counterGet mem0 (devQueue queue0) 0 0 2).toNat + queue0.nslot) := by
  decide +kernel

theorem witness_CopyTaskAndFillEvents_packets :
    (let d := devQueue { queue0 with packets := [packet0] }
     (d.cpyq 0).packets.find? (fun x => decide (x.idx = packet0.idx)) = some packet0 ∧ pktOp packet0.words = 0 ∧
       packet0.susp = false ∧ packet0.parking = false ∧ packet0.bad = false ∧ packet0.sent = false ∧
       (nth packet0.words 0 0).getLsbD 19 = false ∧
       (d.remote.all fun y => !y.reads 0 0) = true ∧
       (let r := moveChunks mem0 0 100 ((copyChunks packet0.words).drop 0) (d.updPacket 0 0 fun _ => packet0) packet0 []
        r.2.2.2.isNone = true ∧ (r.1.remote.all fun y => !y.ofPacket 0 0) = true)) ∧
    (∀ y ∈ dev0.remote, y.ofPacket 0 0 = false) ∧
    (let d := devQueue { queue0 with packets := [packetPark] }
     pktOp packetPark.words = 2 ∧ (d.cpyq 0).packets.find? (fun x => decide (x.idx = 0)) = some packetPark) ∧
    (let d := { devQueue { queue0 with packets := [packet0] } with remote := [packetRead 5] }
     d.remote.findIdx? (fun y => y.reads 0 0) = some 0 ∧ d.remote[0]? = some (packetRead 5)) ∧
    ((devPark.cluster 0).nextPark 2 = some park0 ∧ tget (devPark.cluster 0).slots 2 = none ∧
      tget (devPark.cluster 0).slots 3 = some { slot0 with parked := false } ∧ slot0.packet = none) := by
  decide +kernel

theorem witness_CopyTaskAndFillEvents_tasks :
    ((match streamHead memLaunch devLaunch 0 1 with | .ready g w => decide (g = 0 ∧ w = launch0) | _ => false) = true ∧
      devLaunch.residentOn (0 / 4) = some 0 ∧ firstReady memLaunch devLaunch 0 1 0 = true ∧ launchSize launch0 = 1 ∧
      (devLaunch.core 0).preempt = false ∧ (devLaunch.core 0).run = .idle ∧ (devLaunch.core 0).csrq = [] ∧
      engineWords memLaunch devLaunch (taskEngine 0) 0 (nth launch0 0 0) 8 = .ok recWords) ∧
    (let x := devSpill.cluster 0
     let r := x.ringOf 0
     devSpill.residentOn (0 / 4) = some 0 ∧ devSpill.owes (taskEngine 0) (0 / 4) 0 = false ∧ r.swr ≠ r.srd ∧ x.spillStop = false ∧ x.queue.length < 32 ∧
       engineRead mem0 devSpill (taskEngine 0) 0 (r.entryVa r.srd.toNat) 128 = .ok (List.replicate 128 0) ∧
       (nth (wordsOf 10 (List.replicate 128 (0 : Byte))) 9 0).getLsbD 0 = false) ∧
    ({ dev0 with susp := [Cmd.spill 0] } : Dev).susp[0]? = some (Cmd.spill 0) := by
  decide +kernel

theorem witness_CopyTaskAndFillEvents_fills :
    (firnOp0.kind < 2 ∧ ((devFirn firnOps).die 0).firn.ops.find? (fun x => !x.susp) = some firnOp0 ∧
      ((devFirn firnOps).die 0).firn.waiting = [] ∧
      kvGaps mem0 (devFirn firnOps) (firnEngine 0) 0 kvWords 1 firnOp0.tokens = .ok [(0, 0)] ∧
      ((devFirn firnOps).die 0).firn.fits firnOp0 [(0, 0)] = true ∧ firnFull.fits firnOp0 [(0, 0)] = false) ∧
    (let d := devFirn { Firn.reset with waiting := [firnOp0] }
     (d.die 0).firn.waiting.find? (fun x => !x.susp) = some firnOp0 ∧ (d.die 0).firn.fits firnOp0 [(0, 0)] = true) ∧
    (let q := { firnOp0 with kind := 2 }
     2 ≤ q.kind ∧ q.core ≠ calvingUnit ∧
       (match performMark mem0 (devFirn { Firn.reset with ops := [q] }) 0 q 100 with | .ok _ => true | _ => false) = true) ∧
    (let d := devFirn { Firn.reset with fills := [(4, fill0)] }
     tget (d.die 0).firn.fills 4 = some fill0 ∧ fill0.cleared = false ∧ fill0.susp = false ∧ fill0.begun = true ∧
       kvRepeat fill0.words = true ∧ (copyFill mem0 d 0 4 fill0 100).2.isNone = true ∧
       ({ fill0 with begun := false } : FillEnt).begun = false) := by
  decide +kernel

/-- No waiting probe can be retried: none waits, or the one that waits does not fit. -/
theorem witness_CopyTaskAndFillEvents_noRetry :
    (∀ free, firnRetry mem0 (devFirn firnOps) 0 free 100 = none) ∧
    (((devFirn { firnFull with waiting := [firnOp0] }).die 0).firn.waiting ≠ [] ∧
      ∀ free, firnRetry mem0 (devFirn { firnFull with waiting := [firnOp0] }) 0 free 100 = none) := by
  refine ⟨fun free => ?_, by decide +kernel, fun free => ?_⟩
  · rw [firnRetry, show ((devFirn firnOps).die 0).firn.waiting.find? (fun q => !q.susp) = none by decide +kernel]
  · have h1 : ((devFirn { firnFull with waiting := [firnOp0] }).die 0).firn.waiting.find? (fun q => !q.susp) = some firnOp0 := by
      decide +kernel
    have h2 : kvGaps mem0 (devFirn { firnFull with waiting := [firnOp0] }) (firnEngine 0) firnOp0.ctx firnOp0.words firnOp0.b
        firnOp0.tokens = .ok [(0, 0)] := by decide +kernel
    have h3 : ((devFirn { firnFull with waiting := [firnOp0] }).die 0).firn.fits firnOp0 [(0, 0)] = false := by decide +kernel
    simp only [firnRetry, h1, h2, h3, Bool.false_eq_true, if_false]

theorem witness_CopyTaskAndFillEvents_room :
    moraineRoom devLaunch (0 / 4) 0 [groupDelta devLaunch 0 1 launch0 recWords] = true := room _ _ _ _ (by decide +kernel)

theorem pkg_other : ∃ p, p ≠ Config.packageNumber := ⟨Config.packageNumber + 1, by simp⟩

/-- A counter read for context 0, and a notice of target 2 within the package. -/
def remote0 (pkg : Nat) : RemoteOut :=
  { src := 0, ctx := 0, pkg := pkg, kind := .counterRead, ident := 5, pa := 0, data := [], val := 0, tag := 0, phase := 0
    start := 0 }
def remoteN : RemoteOut := { remote0 0 with kind := .notice, ident := 2, val := 9 }

def colRank0 : ColRank := { core := 0, ctx := 0, dva := 0x01FFFFFF00001000, words := colWords }
def col0 : Col :=
  { form := 0, colid := 0, part := 0, start := 0, ranks := [colRank0], gathered := none, susp := false, bad := none }
def devCol (x : Col) : Dev := dev0.setCol 3 x
/-- The same broadcast by one rank, with its group table in memory. -/
def colOne : Col := { col0 with form := 1, ranks := [{ colRank0 with words :=
  [0x100000, 0x200000, 0x100000, 0x4000000000, 5, 0x0001000000000000, 0, 0] }] }

/-- Context 0 with its sequencer in a state, the bucket table at 1 MiB and stream 15 of sixteen slots at 2 MiB. -/
def devGen (g : Gen) : Dev := dev0.setCtx 0 { ctx0 with
  gen := g, streams := [(15, { Stream.reset with base := 0x200000, log2 := 4 })] }
def gen0 : Gen := { Gen.reset with btab := 0x100000, list := 0x300000, gtab := 0x400000, spool := 0x500005, nslot := 64 }
def memBucket : Memory := put mem0 0x100000 [0x300000, 0x10000000001]
/-- The same page with the bit that the sequencer's pool asks for, and one entry of 16 GiB in the ring at 5 MiB. -/
def memPool : Memory := put { cells := [(0x20000, 1), (0x20002, 4), (0x40000, 0x5F)] } 0x500000 [3]
def slotOp0 : SlotOp := { core := 256, tag := 1, slot := 5, retire := true, gen := 1, todo := [] }

theorem witness_FabricAndSequencerEvents_remote (p : Nat) :
    (match serveRemote mem0 dev0 300 1 0 .load 0x100000 8 (fun _ d => d) 0 0 0 (fun i => Config.freeWord (4 * 0 + i)) 100 with
      | .answer _ _ _ => true | .waits => false) = true ∧
    ({ dev0 with remote := [remote0 p] } : Dev).remote[0]? = some (remote0 p) ∧ (remote0 p).lost = false ∧
    (remote0 p).kind ≠ .notice ∧ (remote0 p).pkg = p ∧ behindLane [remote0 p] 0 (remote0 p) = false ∧
    dev0.admitBulk 0 p 8 = some dev0 ∧ (remote0 p).overdue dev0 100 = false ∧ (remote0 p).overdue dev0 100000 = true ∧
    ({ remote0 p with acked := true } : RemoteOut).overdue dev0 100000 = false :=
  ⟨by decide +kernel, rfl, rfl, nofun, rfl, by simp [behindLane], by
    rw [Dev.admitBulk, Dev.shareLeft, Fab.portTo, show dev0.fab.route = [] by decide +kernel]
    simp [tgetD, tget], show (remote0 0).overdue dev0 100 = false by decide +kernel,
    show (remote0 0).overdue dev0 100000 = true by decide +kernel,
    show ({ remote0 0 with acked := true } : RemoteOut).overdue dev0 100000 = false by decide +kernel⟩

/-- A device that has accepted the fabric feature and reaches every package below 384 by port 0. -/
def devFabric : Dev :=
  { dev0 with fab := { dev0.fab with route := (List.range 384).map fun k => (k, 1) }, sys := { dev0.sys with feata0 := 4 } }

/-- A request without a port takes one; one that a packet reads is answered on it. -/
theorem witness_FabricAndSequencerEvents_port (p : Nat) (h : p ≠ Config.packageNumber) :
    devFabric.accepted 2 = true ∧ devFabric.fab.refused = [] ∧
    (devFabric.fab.portTo p = some 0 → (devFabric.enterPort 0 (remote0 p)).isSome = true) ∧
    (answerRead mem0 { dev0 with remote := [packetRead p] } 0 packet0 0 (packetRead p) (List.replicate 64 0) 0 100).isSome
      = true := by
  have h1 : devFabric.accepted 2 = true := by decide +kernel
  refine ⟨h1, by decide +kernel, fun hp => ?_, ?_⟩
  · simp [Dev.enterPort, Dev.portFor, remote0, h, h1, hp]
  · have h2 : (packetRead p).overdue { dev0 with remote := [packetRead p] } 100 = false :=
      show (packetRead 0).overdue dev0 100 = false by decide +kernel
    have h3 : ({ dev0 with remote := [] } : Dev).admitBulk 0 p 64 = some { dev0 with remote := [] } := by
      rw [Dev.admitBulk, Dev.shareLeft, Fab.portTo, show ({ dev0 with remote := [] } : Dev).fab.route = [] by decide +kernel]
      simp [tgetD, tget]
    have h4 : (packetRead p).pkg = p ∧ (packetRead p).lost = false ∧ (packetRead p).port = some 0 ∧
      (packetRead p).data.length = 64 ∧ (packetRead p).ctx = 0 := ⟨rfl, rfl, rfl, rfl, rfl⟩
    simp [answerRead, h4, h2, h3, h]

theorem witness_FabricAndSequencerEvents_route : devFabric.fab.portTo 5 = some 0 := by decide +kernel

theorem witness_FabricAndSequencerEvents_notice :
    (([remoteN].findIdx fun q => decide (q.kind = .notice) && !q.ident.getLsbD 63) = 0 ∧ [remoteN][0]? = some remoteN ∧
      remoteN.ctx = 0 ∧ ctx0.calv.defers notice0 = true ∧
      (noticeRoom mem0 dev0 0 notice0 (fun _ => 0) 100).isSome = true ∧
      (devHeldNotice.ctx 0).any (fun x => !x.calv.held.isEmpty) = true ∧
      (devNotices.ctx 0).any (fun x => decide (tget x.calv.targets 2 = some (armWords, 9)) &&
        !x.calv.defers notice0) = true ∧
      noticeOf remoteN.ident (toW remoteN.pa) remoteN.val = notice0 ∧
      ctx0.calv.held = [] ∧ ctx0.calv.arm = none ∧ notice0.time.toNat ≤ (9 : Word).toNat ∧
      (match applyNotice mem0 dev0 0 [0x100000, 0, 5, 0x20001] 9 notice0 100 with | .done _ _ => true | _ => false) = true) := by
  decide +kernel

theorem witness_FabricAndSequencerEvents :
    ((3 : BitVec 4) ≠ 0 ∧ dev0.remote = [] ∧ (tgetD dev0.fab.ports 0 Port.reset).since + 1000 ≤ 5000) ∧
    ((devCol col0).fab.cols = [(3, col0)] ∧ 3 < 18) ∧
    (tget (devCol col0).fab.cols 3 = some col0 ∧ col0.susp = false ∧ col0.gathered = none ∧ col0.bad = none ∧
      colNrank ((col0.ranks.head?.map (·.words)).getD []) ≤ col0.ranks.length + 1 ∧
      col0.overdue (devCol col0) 10000000 = true ∧ col0.overdue (devCol col0) 100 = false ∧ col0.lost = false) ∧
    (let x : Col := { colOne with others := some [] }
     let d := devCol x
     (match x.ranks.mapM (fun r => r.readGroup mem0 d) with
     | .ok gs => decide (colNrank ((x.ranks.head?.map (·.words)).getD []) ≤ x.ranks.length + 0) &&
         (colReason gs x []).isNone && (colResult mem0 d x []).isOk &&
         (moveCol d 0 (x.flits mem0 d (gs.headD []) []) [] x.moved).2.2
     | .error _ => false) = true) ∧
    (let x : Col := { colOne with ranks := colOne.ranks ++ colOne.ranks, others := some [] }
     (match x.ranks.mapM (fun r => r.readGroup mem0 (devCol x)) with
     | .ok gs => decide (colReason gs x [] = some 4)
     | .error _ => false) = true) ∧
    ({ col0 with bad := some (0xC2, 2) } : Col).ranks = colRank0 :: [] ∧
    (let x := { col0 with gathered := some (List.replicate 64 0) }
     x.ranks = colRank0 :: [] ∧
       (engineStore mem0 (devCol x) fabricPort 0 (nth colRank0.words 1 0)
         (rankBytes mem0 (devCol x) x colRank0 (List.replicate 64 0)) none 100).isOk = true) := by
  decide +kernel

theorem witness_FabricAndSequencerEvents_sequencer :
    ((devGen gen0).served 0 = some (0, { ctx0 with gen := gen0, streams := ((devGen gen0).ctx 0 |>.map (·.streams)).getD [] }) ∧
      gen0.run = false) ∧
    (let g := { gen0 with run := true }
     g.halting = false ∧ g.stop = false ∧ g.busy = false ∧ Cmd.gen 0 0 ∉ (devGen g).susp ∧ (devGen g).genOwes 0 0 = false ∧ g.k < g.ahead + 1 ∧
       beginDue memBucket (devGen g) 0 g = true ∧
       (match pickBucket memBucket (devGen g) (genEngine 0) 0 g 64 0 with
         | .bucket b nl l => decide (b = 0 ∧ nl = 1 ∧ l = 0x300000) | _ => false) = true) ∧
    (let g := { gen0 with run := true, halting := true }
     g.left = 0 ∧ (devGen g).genOwes 0 0 = false) ∧
    (match pickBucket (put mem0 0x100000 [0x300001, 0x10000000001]) (devGen gen0) (genEngine 0) 0 gen0 64 0 with | .bad b => decide (b = 0) | _ => false) = true ∧
    (let g := { gen0 with run := true, k := 9, trstage := 3 }
     let m := put mem0 0x11060 [toW (2 ^ 63 + 5)]
     beginDue m (devGen g) 0 g = false ∧ (askFrontier m (devGen g) 0 0 g g.beginAt 100).isSome = true) ∧
    (let g := { gen0 with run := true, busy := true, left := 1 }
     let q := (((devGen g).ctx 0).map (·.stream 15)).getD Stream.reset
     q.appends = [] ∧ q.granted 0 = true ∧
       engineRead mem0 (devGen g) (genEngine 0) 0 (g.list + toW (64 * g.listed)) 64 = .ok (List.replicate 64 0) ∧
       (engineStore mem0 (devGen g) (genEngine 0) 0 (q.slotVa q.widx.toNat) (List.replicate 64 0) none 100).isOk = true) ∧
    (let g := { gen0 with run := true, busy := true, offs := [(2, 0)] }
     (g.offs.all fun q => passed 3 q.1) = true ∧ (g.offs.all fun q => passed 2 q.1) = false) ∧
    (let g := { gen0 with stop := true, spec0 := true, swr := 1 }
     (g.atTake 0).spec0 = true ∧ g.need = 0 ∧ Cmd.gen 0 2 ∉ (devGen g).susp ∧ wfld g.spool 0 5 ≠ 0 ∧ g.swr ≠ g.srd ∧ g.drafted = 0 ∧
       (engineWords memPool (devGen g) (genEngine 0) 0
         ((g.spool &&& ~~~(0xFFF : Word)) + toW (8 * (g.srd.toNat % 2 ^ wfld g.spool 0 5))) 1) = .ok [3] ∧
       poolPageOk memPool (devGen g) ctx0 3 true = true) ∧
    (let g := { gen0 with slotOp := some { slotOp0 with todo := [2] } }
     ((devGen g).ctx 0).isSome = true ∧ 2 ∈ ([2] : List Nat)) ∧
    (writeSlotTable mem0 (devGen { gen0 with slotOp := some slotOp0 }) (genEngine 0) 0 gen0 5 1 false 100).isOk = true ∧
    (writeSlotTable mem0 (devGen { gen0 with slotOp := some slotOp0 }) (genEngine 0) 0 gen0 5 1 true 100).isOk = true := by
  decide +kernel

/-- Context 0 with a ring of 32 slots at unit 0, one record of it in the unit's buffer, and a counter page. -/
def traceRing0 : TraceRing := { base := 0x100000, log2 := 5, wi := 1, rd := 2, written := 0, owed := 1, since := 0 }
def ctxT : Ctx := { ctx0 with rings := [(0, traceRing0)], cpage := 0x200000 }
def rec0 : TraceRec := { ctx := 0, words := List.replicate 8 0 }
def devTrace : Dev := (dev0.setCtx 0 ctxT).setUnit 0 { TraceUnit.reset with buf := [rec0] }

def devSwap : Dev := (dev0.setPart 0 { part0 with swap := some (0, 0), swapLeft := [0] })

theorem witness_TraceAndSystemEvents_stop :
    ¬(stm mem0 0 { dev0 with sys := { dev0.sys with hot := true } }).Live := fun h => Bool.noConfusion h

theorem witness_TraceAndSystemEvents :
    (let x := devTrace.unit 0
     x.reported mem0 devTrace 0 = none ∧ x.buf = rec0 :: [] ∧ nextRecord mem0 devTrace 0 x.buf [] 0 = some 0 ∧ rec0.ctx = 0 ∧
       (devTrace.ctx 0).bind (fun y => y.ring 0) = some traceRing0 ∧ x.lost = 0 ∧
       ringSpace mem0 devTrace 0 traceRing0 = true ∧ traceRing0.owed ≠ 0 ∧
       (engineStore mem0 devTrace (traceEngine 0) 0 (traceRing0.base + toW (64 * (traceRing0.written % 2 ^ traceRing0.log2)))
         (bytesOfWords rec0.words) none 100).isOk = true) ∧
    (let d := withCore fun c => { c with sample := some (10, 2048) }
     let d := d.updCore 0 fun c => { c with run := .idle }
     (d.core 0).sample = some (10, 2048) ∧ (d.core 0).run = .idle) ∧
    (engineStore mem0 (devTrace.readCounter mem0 0 traceRing0.rd) (traceEngine 0) 0
       (traceRing0.base + toW (64 * (traceRing0.written % 2 ^ traceRing0.log2)))
       (bytesOfWords (unitRecord 7 0 0 5 3 100)) none 100).isOk = true ∧
    (devTrace.ctxAt 0 = some (0, ctxT) ∧ ctxT.cpage ≠ 0 ∧ (devTrace.core 0).ev.sels = [] ∧ (devTrace.core 0).ev.used = [] ∧
      (((writeBack mem0 devTrace 0 ctxT 0 [] 100).bind fun d => makeCurrent mem0 d 0 ctxT 0 0 100)).isOk = true) ∧
    (devSwap.partOfDie 0 = some 0 ∧
      tget devSwap.parts 0 = some { part0 with swap := some (0, 0), swapLeft := [0] } ∧ 0 ∈ ([0] : List Nat)) ∧
    (let d : Dev := { dev0 with sys := { dev0.sys with boot := 0 } }
     d.sys.boot = 0 ∧ d.sys.dead = []) ∧ ({ dev0 with sys := { dev0.sys with boot := 1 } } : Dev).sys.boot ≠ 0 ∧
    (((dev0.updDie 0 fun y => { y with gate := [(.temperature, 0)] }).die 0).gate.any
      fun x => decide (x.2 + gateLeast x.1 ≤ 2000000)) = true ∧
    (dev0.sys.boot ≠ 3 ∧ dev0.sys.locked = false ∧ dev0.sys.cw = false ∧ resolveCounter dev0 0 5 = .ok (.here 0 5)) ∧
    (csrAssigned (isGeneral 0) (0x2000 : BitVec 16).toNat = true ∧
      ({ dev0 with sys := { dev0.sys with cw := true } } : Dev).sys.cw = true) ∧
    (1 % 2 ∉ dev0.sys.dead ∧ dev0.sys.dead = []) := by
  decide +kernel

/-! ### The machine -/

/-- Core 0 has fetched a bundle of one NOP. -/
def nop0 : Word := 0x3000000000000000
def hand0 : AtHand := { f := { addr := 0x1000, words := [nop0], fault := none }, src := 1, cycle := 2, present := 2 }
def stNop : State :=
  { stm mem0 0 (withCore fun c => { c with fetched := some hand0.f }) with bundle := none, agenda := [] }

theorem witness_StepRunsDecodedBundle :
    let s := stNop
    let x := hand0
    let c := s.dev.core s.cur
    let t := s.begin s.cur x
    let c' := t.dev.core s.cur
    let is := decoded x.f.words
    s.due = none ∧ ({ c with ready := x.cycle } : Core).overrunDue = false ∧
    s.agenda = [] ∧ needOf s.mem s.dev s.cur = none ∧ c.run = .running ∧ c.discards = false ∧
    atHand s.dev s.cur = some x ∧ c.lp.skip = 0 ∧ (x.src = 1 → x.f.addr = c.pc) ∧ x.f.fault = none ∧
    decodeFault (isGeneral s.cur) c'.seq.priv x.f.words = none ∧ c'.remoteFailure x.f.words is = none ∧
    c'.pushDue x.cycle = false ∧ c'.mat.busyUntil ≤ x.cycle ∧ c'.busyUntil ≤ x.cycle ∧
    c'.engineWaits x.f.words is x.cycle = false ∧ storesAway t.dev s.cur = false ∧ (∀ i ∈ is, stallsOn c' i = false) ∧ scoreboard c' is x.cycle = none ∧
    x.f.words = [nop0] ∧ (decodeWord nop0.toNat).isOk = true := by
  decide +kernel

theorem witness_StepRunsDecodedBundle_need : needOf State.reset.mem State.reset.dev 256 = some (.fetch 256) := by
  decide +kernel

/-- Core 0 has written SEQ.SB and stands at the cycle in which the register takes it. -/
def devCsr : Dev := withCore fun c => { c with
  ready := 12, pend := [(bun 0 dev0).interlocked (.s 5 0) false 1]
  csrq := [{ op := .write, csr := 0, a := 1, tag := 1, at' := 12 }] }

theorem witness_StepRunsDecodedBundle_register :
    needOf mem0 devCsr 0 = some (.register 0) ∧
    (stm mem0 0 devSwap).due = none ∧ ({ stm mem0 0 devSwap with time := 5000 } : State).due = some (.swap 0) ∧
    stNop.due = none := by
  decide +kernel

theorem witness_StepRunsDecodedBundle_event :
    ({ stNop with agenda := [.event .packageReset] } : State).agenda = [Sched.event .packageReset] ∧
    ¬ Instr.packageReset.IsSyllable ∧
    ({ stNop with agenda := [.world (.imageIn 0)] } : State).agenda = [Sched.world (.imageIn 0)] :=
  ⟨rfl, nofun, rfl⟩

theorem witness_StepRunsDecodedBundle_general :
    isGeneral 256 = true ∧ (corePort devG 256).address (put mem0 0x2000 [nop0]) devG 0x2000 = .ok 0x2000 ∧
      (readWord (put mem0 0x2000 [nop0]) devG everyone 0x2000).getLsbD 60 = true := by
  decide +kernel

theorem witness_StepKeepsMemoryCanonical : State.reset.Canonical ∧ stNop.Canonical :=
  ⟨rfl, by show stNop.mem.wf = true; decide +kernel⟩

theorem witness_DecodeOfEncode :
    (Instr.add hd srr).WellFormed ∧ (∀ h c o x, Instr.add hd srr ≠ .illegalOpcode h c o x) ∧
    (encode (.add hd srr)).isSome = true ∧ (decodeWord nop0.toNat).isOk = true ∧ (Instr.add hd srr).IsSyllable :=
  ⟨rfl, nofun, by decide +kernel, by decide +kernel, rfl⟩

theorem witness_RegisterOnlyFrame :
    (Instr.add hd srr).WellFormed ∧ hdrOf (.add hd srr) = some hd ∧ Issuing (st 0 dev0) (bun 0 dev0) hd ∧
    (∃ cls opc ops, encParts (.add hd srr) = some (cls, opc, hd, ops) ∧ (cls = 0 ∨ cls = 2)) ∧
    (∀ h c o x, Instr.add hd srr ≠ .illegalOpcode h c o x) ∧
    (∀ h o, Instr.add hd srr ≠ .vcvtf h o ∧ Instr.add hd srr ≠ .vcvtn h o ∧ Instr.add hd srr ≠ .vcvti h o ∧
      Instr.add hd srr ≠ .vcvtif h o) :=
  ⟨rfl, rfl, issuing .., ⟨_, _, _, rfl, .inl rfl⟩, nofun, fun _ _ => ⟨nofun, nofun, nofun, nofun⟩⟩

/-! ## Decoding: a word of every syllable, put together from the opcode map (R67-R74) and the families of R64 -/

/-- The last syllable of its bundle, WAIT 5, guard not p6, first iteration of level 3; and a plain one with WAIT 3. -/
def hx : Hdr := { e := true, wait := 5, gn := true, gp := 6, edge := 1, elvl := 3 }
def hp : Hdr := { e := false, wait := 3, gn := false, gp := 0, edge := 0, elvl := 0 }

def decodes (l : List (Nat × Instr)) : Bool :=
  l.all fun (w, i) => (match decodeWord w with | .ok j => decide (j = i) | .error _ => false) && decide (encode i = some w)

def words_scalar_1 : List (Nat × Instr) := [
  (0x15B2C00852500000, .add hx { d := 8, a := 0x14, b := 0x25 }),
  (0x15B2C04852500000, .sub hx { d := 8, a := 0x14, b := 0x25 }),
  (0x15B2C08852500000, .and hx { d := 8, a := 0x14, b := 0x25 }),
  (0x15B2C0C852500000, .or hx { d := 8, a := 0x14, b := 0x25 }),
  (0x15B2C10852500000, .xor hx { d := 8, a := 0x14, b := 0x25 }),
  (0x15B2C14852500000, .andn hx { d := 8, a := 0x14, b := 0x25 }),
  (0x15B2C18852500000, .shl hx { d := 8, a := 0x14, b := 0x25 }),
  (0x15B2C1C852500000, .shr hx { d := 8, a := 0x14, b := 0x25 }),
  (0x15B2C20852500000, .sra hx { d := 8, a := 0x14, b := 0x25 }),
  (0x15B2C24852500000, .rol hx { d := 8, a := 0x14, b := 0x25 }),
  (0x15B2C28852500000, .mul hx { d := 8, a := 0x14, b := 0x25 }),
  (0x15B2C2C852500000, .mulh hx { d := 8, a := 0x14, b := 0x25 }),
  (0x15B2C30852500000, .mulhn hx { d := 8, a := 0x14, b := 0x25 }),
  (0x15B2C34852500000, .min hx { d := 8, a := 0x14, b := 0x25 }),
  (0x15B2C38852500000, .max hx { d := 8, a := 0x14, b := 0x25 }),
  (0x15B2C3C852500000, .minn hx { d := 8, a := 0x14, b := 0x25 }),
  (0x15B2C40852500000, .maxn hx { d := 8, a := 0x14, b := 0x25 }),
  (0x15B2C44850000000, .clz hx { d := 8, a := 0x14 }),
  (0x15B2C48850000000, .ctz hx { d := 8, a := 0x14 }),
  (0x15B2C4C850000000, .popc hx { d := 8, a := 0x14 }),
  (0x15B2C50850000000, .brev hx { d := 8, a := 0x14 }),
  (0x15B2C54850000000, .bswap hx { d := 8, a := 0x14 }),
  (0x15B2C588505EC000, .bext hx { d := 8, a := 0x14, pos := 5, len := 0x3b }),
  (0x15B2C5C8505EC000, .bins hx { d := 8, a := 0x14, pos := 5, len := 0x3b }),
  (0x15B2C60852ABCDEF, .addi hx { d := 8, a := 0x14, imm := 0x2abcdef }) ]

theorem test_decode_scalar_1 : decodes words_scalar_1 = true := by decide +kernel

def words_scalar_2 : List (Nat × Instr) := [
  (0x15B2C64852ABCDEF, .andi hx { d := 8, a := 0x14, imm := 0x2abcdef }),
  (0x15B2C68852ABCDEF, .ori hx { d := 8, a := 0x14, imm := 0x2abcdef }),
  (0x15B2C6C852ABCDEF, .xori hx { d := 8, a := 0x14, imm := 0x2abcdef }),
  (0x15B2C7085000003F, .shli hx { d := 8, a := 0x14, imm := 0x3f }),
  (0x15B2C7485000003F, .shri hx { d := 8, a := 0x14, imm := 0x3f }),
  (0x15B2C7885000003F, .srai hx { d := 8, a := 0x14, imm := 0x3f }),
  (0x15B2C7C852ABCDEF, .muli hx { d := 8, a := 0x14, imm := 0x2abcdef }),
  (0x15B2C81852500000, .ceq hx { pd := 6, a := 0x14, b := 0x25 }),
  (0x15B2C85852500000, .cne hx { pd := 6, a := 0x14, b := 0x25 }),
  (0x15B2C89852500000, .clt hx { pd := 6, a := 0x14, b := 0x25 }),
  (0x15B2C8D852500000, .cle hx { pd := 6, a := 0x14, b := 0x25 }),
  (0x15B2C91852500000, .cltn hx { pd := 6, a := 0x14, b := 0x25 }),
  (0x15B2C95852500000, .clen hx { pd := 6, a := 0x14, b := 0x25 }),
  (0x15B2C99827000000, .pand hx { pd := 6, pa := 9, pb := 0xc }),
  (0x15B2C9D827000000, .por hx { pd := 6, pa := 9, pb := 0xc }),
  (0x15B2CA1852ABCDEF, .ceqi hx { pd := 6, a := 0x14, imm := 0x2abcdef }),
  (0x15B2CA5852ABCDEF, .cnei hx { pd := 6, a := 0x14, imm := 0x2abcdef }),
  (0x15B2CA9852ABCDEF, .clti hx { pd := 6, a := 0x14, imm := 0x2abcdef }),
  (0x15B2CAD852ABCDEF, .clei hx { pd := 6, a := 0x14, imm := 0x2abcdef }),
  (0x15B2CB1852ABCDEF, .cltni hx { pd := 6, a := 0x14, imm := 0x2abcdef }),
  (0x15B2CB5852ABCDEF, .cleni hx { pd := 6, a := 0x14, imm := 0x2abcdef }),
  (0x15B2CB9827000000, .pxor hx { pd := 6, pa := 9, pb := 0xc }),
  (0x15B2CBD827000000, .pandn hx { pd := 6, pa := 9, pb := 0xc }),
  (0x15B2CC08525B0000, .sel hx { d := 8, a := 0x14, b := 0x25, ps := 0xb }),
  (0x15B2CC4806000000, .mfx hx { d := 8, sel := 6 }) ]

theorem test_decode_scalar_2 : decodes words_scalar_2 = true := by decide +kernel

def words_scalar_3 : List (Nat × Instr) := [
  (0x15B2CC8806000000, .mtx hx { d := 8, sel := 6 }),
  (0x15B2CCC8A0000000, .mfb hx { d := 8, bt := 5 }),
  (0x15B2CD08A0000000, .mtb hx { d := 8, bt := 5 }),
  (0x15B2CF8889ABCDEF, .limmh hx { d := 8, imm := 0x89abcdef }),
  (0x15B2CFC889ABCDEF, .limml hx { d := 8, imm := 0x89abcdef }) ]

theorem test_decode_scalar_3 : decodes words_scalar_3 = true := by decide +kernel

def words_control : List (Nat × Instr) := [
  (0x35B2C00000000000, .nop hx),
  (0x35B2C04000000000, .halt hx),
  (0x35B2C08000000000, .exit hx),
  (0x35B2C0C00000000B, .trap hx { imm := 0xb }),
  (0x2300010000000000, .detach hp),
  (0x230001540000000B, .join hp { a := 0x14, imm := 0xb }),
  (0x2300018000000000, .fuse hp),
  (0x230001C000000000, .unfuse hp),
  (0x35B2C228FEDCBA98, .pbt hx { bt := 5, disp := 0xfedcba98 }),
  (0x35B2C26800000000, .brt hx { bt := 5 }),
  (0x35B2C2AB00000000, .call hx { bt := 5, bl := 3 }),
  (0x35B2C2E800000000, .ret hx { bt := 5 }),
  (0x2300042212C50000, .loop hp { lv := 4, src := 1, mq := 0, len := 0x12c, cnt := 0x50000 }),
  (0x2300046492C7854A, .mloop hp { lv := 4, src := 2, mq := 1, len := 0x12c, sc := 7, ii := 0x21, a := 0x14, dp := 5 }),
  (0x230004A480000001, .lstri hp { lv := 4, w := 2, stride := 0x80000001 }),
  (0x230004E450000000, .lstrr hp { lv := 4, w := 2, a := 0x14 }),
  (0x35B2C52000000000, .lbrk hx { lv := 4 }),
  (0x35B2C56000000000, .lnext hx { lv := 4 }) ]

theorem test_decode_control : decodes words_control = true := by decide +kernel

def words_vector_1 : List (Nat × Instr) := [
  (0x55B2C00852511314, .vadd hx 0 { d := 8, a := 0x14, b := 0x25, nq := 4, mdf := 0x4c5, bs := 0 }),
  (0x55B2C14852511314, .vsub hx 1 { d := 8, a := 0x14, b := 0x25, nq := 4, mdf := 0x4c5, bs := 0 }),
  (0x55B2C28852511314, .vmul hx 2 { d := 8, a := 0x14, b := 0x25, nq := 4, mdf := 0x4c5, bs := 0 }),
  (0x55B2C3C852511314, .vmulh hx 3 { d := 8, a := 0x14, b := 0x25, nq := 4, mdf := 0x4c5, bs := 0 }),
  (0x55B2C40852511314, .vmin hx 0 { d := 8, a := 0x14, b := 0x25, nq := 4, mdf := 0x4c5, bs := 0 }),
  (0x55B2C54852511314, .vmax hx 1 { d := 8, a := 0x14, b := 0x25, nq := 4, mdf := 0x4c5, bs := 0 }),
  (0x55B2C68852511314, .vminn hx 2 { d := 8, a := 0x14, b := 0x25, nq := 4, mdf := 0x4c5, bs := 0 }),
  (0x55B2C7C852511314, .vmaxn hx 3 { d := 8, a := 0x14, b := 0x25, nq := 4, mdf := 0x4c5, bs := 0 }),
  (0x55B2C80852511314, .vshl hx 0 { d := 8, a := 0x14, b := 0x25, nq := 4, mdf := 0x4c5, bs := 0 }),
  (0x55B2C94852511314, .vshr hx 1 { d := 8, a := 0x14, b := 0x25, nq := 4, mdf := 0x4c5, bs := 0 }),
  (0x55B2CA8852511314, .vsra hx 2 { d := 8, a := 0x14, b := 0x25, nq := 4, mdf := 0x4c5, bs := 0 }),
  (0x55B2CBC852511314, .vadds hx 3 { d := 8, a := 0x14, b := 0x25, nq := 4, mdf := 0x4c5, bs := 0 }),
  (0x55B2CC0852511314, .vsubs hx 0 { d := 8, a := 0x14, b := 0x25, nq := 4, mdf := 0x4c5, bs := 0 }),
  (0x55B2CD4850010000, .vpopc hx 1 { d := 8, a := 0x14, b := 0, nq := 4, mdf := 0, bs := 0 }),
  (0x55B2CE8850010000, .vclz hx 2 { d := 8, a := 0x14, b := 0, nq := 4, mdf := 0, bs := 0 }),
  (0x55B2CFC850010000, .vabs hx 3 { d := 8, a := 0x14, b := 0, nq := 4, mdf := 0, bs := 0 }),
  (0x55B2D00852511314, .vand hx { d := 8, a := 0x14, b := 0x25, nq := 4, mdf := 0x4c5, bs := 0 }),
  (0x55B2D04852511314, .vor hx { d := 8, a := 0x14, b := 0x25, nq := 4, mdf := 0x4c5, bs := 0 }),
  (0x55B2D08852511314, .vxor hx { d := 8, a := 0x14, b := 0x25, nq := 4, mdf := 0x4c5, bs := 0 }),
  (0x55B2D0C852511314, .vandn hx { d := 8, a := 0x14, b := 0x25, nq := 4, mdf := 0x4c5, bs := 0 }),
  (0x55B2D10802512308, .vmov hx { d := 8, a := 0, b := 0x25, nq := 4, mdf := 0x8c2, bs := 0 }),
  (0x55B2D14852511314, .vperm hx { d := 8, a := 0x14, b := 0x25, nq := 4, mdf := 0x4c5, bs := 0 }),
  (0x55B2D18852511314, .vclmull hx { d := 8, a := 0x14, b := 0x25, nq := 4, mdf := 0x4c5, bs := 0 }),
  (0x55B2D1C852511314, .vclmulh hx { d := 8, a := 0x14, b := 0x25, nq := 4, mdf := 0x4c5, bs := 0 }),
  (0x55B2D20852512800, .vsel hx { d := 8, a := 0x14, b := 0x25, nq := 4, ms := 5, bs := 0 }) ]

theorem test_decode_vector_1 : decodes words_vector_1 = true := by decide +kernel

def words_vector_2 : List (Nat × Instr) := [
  (0x55B2D25E20000000, .mand hx { md := 3, ma := 6, mb := 1 }),
  (0x55B2D29E20000000, .mor hx { md := 3, ma := 6, mb := 1 }),
  (0x55B2D2DE20000000, .mxor hx { md := 3, ma := 6, mb := 1 }),
  (0x55B2D31E00000000, .mnot hx { md := 3, ma := 6, mb := 0 }),
  (0x55B2D34050000000, .vseed hx { a := 0x14 }),
  (0x55B2D408504FFFFE, .vaddi hx 0 { d := 8, a := 0x14, nq := 4, imm := 0xffffe }),
  (0x55B2D54850400007, .vshli hx 1 { d := 8, a := 0x14, nq := 4, imm := 7 }),
  (0x55B2D68850400007, .vshri hx 2 { d := 8, a := 0x14, nq := 4, imm := 7 }),
  (0x55B2D7C800480001, .vmovi hx 3 { d := 8, a := 0, nq := 4, imm := 0x80001 }),
  (0x55B2D80852511D00, .vfadd hx { d := 8, a := 0x14, b := 0x25, nq := 4, rm := 1, sat := 1, bs := 1, ty := 1 }),
  (0x55B2D84852511D00, .vfsub hx { d := 8, a := 0x14, b := 0x25, nq := 4, rm := 1, sat := 1, bs := 1, ty := 1 }),
  (0x55B2D88852511D00, .vfmul hx { d := 8, a := 0x14, b := 0x25, nq := 4, rm := 1, sat := 1, bs := 1, ty := 1 }),
  (0x55B2D8C852511D00, .vfma hx { d := 8, a := 0x14, b := 0x25, nq := 4, rm := 1, sat := 1, bs := 1, ty := 1 }),
  (0x55B2D90852511D00, .vfms hx { d := 8, a := 0x14, b := 0x25, nq := 4, rm := 1, sat := 1, bs := 1, ty := 1 }),
  (0x55B2D94852511D00, .vfnma hx { d := 8, a := 0x14, b := 0x25, nq := 4, rm := 1, sat := 1, bs := 1, ty := 1 }),
  (0x55B2D98852510100, .vfmin hx { d := 8, a := 0x14, b := 0x25, nq := 4, rm := 0, sat := 0, bs := 0, ty := 1 }),
  (0x55B2D9C852510100, .vfmax hx { d := 8, a := 0x14, b := 0x25, nq := 4, rm := 0, sat := 0, bs := 0, ty := 1 }),
  (0x55B2DA0850010200, .vfabs hx { d := 8, a := 0x14, b := 0, nq := 4, rm := 0, sat := 0, bs := 0, ty := 2 }),
  (0x55B2DA4850010200, .vfneg hx { d := 8, a := 0x14, b := 0, nq := 4, rm := 0, sat := 0, bs := 0, ty := 2 }),
  (0x55B2DA8850011800, .vexp2 hx { d := 8, a := 0x14, b := 0, nq := 4, rm := 1, sat := 1, bs := 0, ty := 0 }),
  (0x55B2DAC850011800, .vlog2 hx { d := 8, a := 0x14, b := 0, nq := 4, rm := 1, sat := 1, bs := 0, ty := 0 }),
  (0x55B2DB0850011800, .vrcp hx { d := 8, a := 0x14, b := 0, nq := 4, rm := 1, sat := 1, bs := 0, ty := 0 }),
  (0x55B2DB4850011800, .vrsq hx { d := 8, a := 0x14, b := 0, nq := 4, rm := 1, sat := 1, bs := 0, ty := 0 }),
  (0x55B2DB8850011800, .vtanh hx { d := 8, a := 0x14, b := 0, nq := 4, rm := 1, sat := 1, bs := 0, ty := 0 }),
  (0x55B2DC0852410000, .vcvtf hx { d := 8, a := 0x14, fmt := 9, nq := 4, rm := 0, sat := 0 }) ]

theorem test_decode_vector_2 : decodes words_vector_2 = true := by decide +kernel

def words_vector_3 : List (Nat × Instr) := [
  (0x55B2DC4852411800, .vcvtn hx { d := 8, a := 0x14, fmt := 9, nq := 4, rm := 1, sat := 1 }),
  (0x55B2DC8852411800, .vcvti hx { d := 8, a := 0x14, fmt := 9, nq := 4, rm := 1, sat := 1 }),
  (0x55B2DCC852410000, .vcvtif hx { d := 8, a := 0x14, fmt := 9, nq := 4, rm := 0, sat := 0 }),
  (0x55B2DD1852511340, .vcmp hx { md := 3, a := 0x14, b := 0x25, nq := 4, cnd := 4, bs := 1, ty := 5 }),
  (0x55B2DE0850010980, .vrsum hx { d := 8, a := 0x14, b := 0, nq := 4, seg := 2, rm := 1, ty := 4 }),
  (0x55B2DE4850010840, .vrmax hx { d := 8, a := 0x14, b := 0, nq := 4, seg := 2, rm := 0, ty := 2 }),
  (0x55B2DE8850010840, .vrmin hx { d := 8, a := 0x14, b := 0, nq := 4, seg := 2, rm := 0, ty := 2 }),
  (0x55B2DEC850010980, .vpsum hx { d := 8, a := 0x14, b := 0, nq := 4, seg := 2, rm := 1, ty := 4 }),
  (0x55B2DF0850010840, .vargmax hx { d := 8, a := 0x14, b := 0, nq := 4, seg := 2, rm := 0, ty := 2 }),
  (0x55B2DF4852510840, .vtopk hx { d := 8, a := 0x14, b := 0x25, nq := 4, seg := 2, rm := 0, ty := 2 }),
  (0x55B2DF88525100C0, .vexts hx { d := 8, a := 0x14, b := 0x25, nq := 4, seg := 0, rm := 0, ty := 6 }),
  (0x55B2DFC8525100C0, .vinss hx { d := 8, a := 0x14, b := 0x25, nq := 4, seg := 0, rm := 0, ty := 6 }) ]

theorem test_decode_vector_3 : decodes words_vector_3 = true := by decide +kernel

def words_memory_1 : List (Nat × Instr) := [
  (0x75B2C008500FFFF0, .lds8 hx { d := 8, a := 0x14, nq := 0, disp := 0xffff0 }),
  (0x75B2C048500FFFF0, .lds16 hx { d := 8, a := 0x14, nq := 0, disp := 0xffff0 }),
  (0x75B2C088500FFFF0, .lds32 hx { d := 8, a := 0x14, nq := 0, disp := 0xffff0 }),
  (0x75B2C0C8500FFFF0, .lds64 hx { d := 8, a := 0x14, nq := 0, disp := 0xffff0 }),
  (0x75B2C108500FFFF0, .ldn8 hx { d := 8, a := 0x14, nq := 0, disp := 0xffff0 }),
  (0x75B2C148500FFFF0, .ldn16 hx { d := 8, a := 0x14, nq := 0, disp := 0xffff0 }),
  (0x75B2C188500FFFF0, .ldn32 hx { d := 8, a := 0x14, nq := 0, disp := 0xffff0 }),
  (0x75B2C208500FFFF0, .sts8 hx { d := 8, a := 0x14, nq := 0, disp := 0xffff0 }),
  (0x75B2C248500FFFF0, .sts16 hx { d := 8, a := 0x14, nq := 0, disp := 0xffff0 }),
  (0x75B2C288500FFFF0, .sts32 hx { d := 8, a := 0x14, nq := 0, disp := 0xffff0 }),
  (0x75B2C2C8500FFFF0, .sts64 hx { d := 8, a := 0x14, nq := 0, disp := 0xffff0 }),
  (0x75B2C308504FFFF0, .ldv hx { d := 8, a := 0x14, nq := 4, disp := 0xffff0 }),
  (0x75B2C348504FFFF0, .stv hx { d := 8, a := 0x14, nq := 4, disp := 0xffff0 }),
  (0x75B2C38852510000, .ldvs hx { d := 8, a := 0x14, b := 0x25, nq := 4 }),
  (0x75B2C3C852510000, .stvs hx { d := 8, a := 0x14, b := 0x25, nq := 4 }),
  (0x75B2C40852511000, .ldvx hx { d := 8, a := 0x14, b := 0x25, nq := 4, isz := 1 }),
  (0x75B2C44852511000, .stvx hx { d := 8, a := 0x14, b := 0x25, nq := 4, isz := 1 }),
  (0x75B2C48852510000, .stz hx { d := 8, a := 0x14, b := 0x25, nq := 4 }),
  (0x75B2C4C852510000, .ldz hx { d := 8, a := 0x14, b := 0x25, nq := 4 }),
  (0x75B2C53252800000, .probe hx { h := 0x32, a := 0x14, bt := 5 }),
  (0x75B2C57250000000, .hclaim hx { h := 0x32, a := 0x14 }),
  (0x75B2C5B200000000, .hrel hx { h := 0x32, a := 0 }),
  (0x75B2C5C0500FFFF0, .pref hx { d := 0, a := 0x14, nq := 0, disp := 0xffff0 }),
  (0x75B2C60800000300, .splds hx { d := 8, off := 0x300 }),
  (0x75B2C64800000300, .spsts hx { d := 8, off := 0x300 }) ]

theorem test_decode_memory_1 : decodes words_memory_1 = true := by decide +kernel

def words_memory_2 : List (Nat × Instr) := [
  (0x75B2C68800000300, .spldv hx { d := 8, off := 0x300 }),
  (0x75B2C6C800000300, .spstv hx { d := 8, off := 0x300 }) ]

theorem test_decode_memory_2 : decodes words_memory_2 = true := by decide +kernel

def words_matrix : List (Nat × Instr) := [
  (0x95B2C01D72555376, .beat hx { aop := 1, aw := 1, aslot := 0x15, arb := 0x64, wop := 2, ww := 1, dop := 1, ds := 0xa, drb := 0x4d, dv := 0xd, m := 2 }),
  (0x95B2C06600000000, .acrel hx { acc := 0x13 }),
  (0x95B2C08000000000, .acrela hx),
  (0x95B2C0E711B40000, .acgrp hx { acc := 0x13, grp := 2, lo := 0x11, hi := 0x5a }),
  (0x95B2C1261543D2C0, .acmov hx { acc := 0x13, row := 5, a := 0x14, cnt := 0x1e, fmt := 9, rm := 1, sat := 1 }),
  (0x95B2C1661543D2C0, .acld hx { acc := 0x13, row := 5, a := 0x14, cnt := 0x1e, fmt := 9, rm := 1, sat := 1 }),
  (0x95B2C18496800000, .mcfg hx { nq := 4, wf := 9, af := 6, ak := 2 }),
  (0x95B2C1C000000000, .wswap hx),
  (0x95B2C20000000000, .wclr hx),
  (0x95B2C24000000000, .mwait hx) ]

theorem test_decode_matrix : decodes words_matrix = true := by decide +kernel

def words_row : List (Nat × Instr) := [
  (0xB5B2C00052500000, .rowld hx { d := 0, a := 0x14, b := 0x25, mq := 0, blk := 0 }),
  (0xB5B2C04050000000, .rowst hx { d := 0, a := 0x14, b := 0, mq := 0, blk := 0 }),
  (0xB5B2C08852595500, .rowupd hx { d := 8, a := 0x14, b := 0x25, mq := 2, blk := 0x155 }),
  (0xB5B2C0C152540300, .rowpack hx { d := 1, a := 0x14, b := 0x25, mq := 1, blk := 3 }),
  (0xB5B2C10052500000, .rowrestore hx { d := 0, a := 0x14, b := 0x25, mq := 0, blk := 0 }),
  (0xB5B2C1410002AA00, .rowcnt hx { d := 1, a := 0, b := 0, mq := 0, blk := 0x2aa }),
  (0xB5B2C18850001000, .rowset hx { d := 8, a := 0x14, imm := 0x1000 }),
  (0xB5B2C1C850000400, .rowrec hx { d := 8, a := 0x14, imm := 0x400 }),
  (0xB5B2C20800000000, .rowrdec hx { d := 8, a := 0, b := 0, mq := 0, blk := 0 }),
  (0xB5B2C24052500000, .rowtrld hx { d := 0, a := 0x14, b := 0x25, mq := 0, blk := 0 }),
  (0xB5B2C28850000000, .rowtrst hx { d := 8, a := 0x14, b := 0, mq := 0, blk := 0 }),
  (0xB5B2C2C750000000, .rowmask hx { d := 7, a := 0x14, b := 0, mq := 0, blk := 0 }),
  (0xB5B2C30850080000, .rowseq hx { d := 8, a := 0x14, b := 0, mq := 2, blk := 0 }),
  (0xB5B2C34000000000, .rowclr hx { d := 0, a := 0, b := 0, mq := 0, blk := 0 }) ]

theorem test_decode_row : decodes words_row = true := by decide +kernel

def words_sync_1 : List (Nat × Instr) := [
  (0xD5B2C0276A2BCDEF, .cadd hx { ord := 2, scp := 3, k := 0xb, a := 0x14, imm := 0x2bcdef }),
  (0xD5B2C0676A2BCDEF, .cwait hx { ord := 2, scp := 3, k := 0xb, a := 0x14, imm := 0x2bcdef }),
  (0xD5B2C0A76A000000, .cread hx { ord := 2, scp := 3, k := 0xb, a := 0x14, imm := 0 }),
  (0xD5B2C0E76A2BCDEF, .cmax hx { ord := 2, scp := 3, k := 0xb, a := 0x14, imm := 0x2bcdef }),
  (0xD5B2C12644AA9000, .cwany hx { ord := 2, scp := 3, d := 8, mask := 0x95, a := 0x14, g := 1 }),
  (0xD5B2C1416A2BCDEF, .cbind hx { ord := 0, scp := 0, k := 0xb, a := 0x14, imm := 0x2bcdef }),
  (0xD5B2C1A6A4A12340, .stakeCreate hx { ord := 2, scp := 3, a := 0x14, b := 0x25, sgn := 0, cnt := 0x1234 }),
  (0xD5B2C1A6A4B00070, .stakeRetire hx { ord := 2, scp := 3, a := 0x14, b := 0x25, sgn := 1, cnt := 7 }),
  (0xD5B2C1A6A4B00000, .stakeAdvance hx { ord := 2, scp := 3, a := 0x14, b := 0x25, sgn := 1, cnt := 0 }),
  (0xD5B2C1E600000000, .phase hx { ord := 2, scp := 3 }),
  (0xD5B2C2270A548000, .cpyq hx { ord := 2, scp := 3, x := 0x21, y := 0x12, z := 0x29, imm := 0 }),
  (0xD5B2C24108000000, .cpymc hx { ord := 0, scp := 0, x := 0x21, y := 0, z := 0, imm := 0 }),
  (0xD5B2C2810A400000, .hbdrain hx { ord := 0, scp := 0, x := 0x21, y := 0x12, z := 0, imm := 0 }),
  (0xD5B2C2F30A400000, .gsub hx { ord := 3, scp := 1, x := 0x21, y := 0x12, z := 0, imm := 0 }),
  (0xD5B2C32708000000, .gunsub hx { ord := 2, scp := 3, x := 0x21, y := 0, z := 0, imm := 0 }),
  (0xD5B2C36708000000, .gred hx { ord := 2, scp := 3, x := 0x21, y := 0, z := 0, imm := 0 }),
  (0xD5B2C4270A400009, .tlaunch hx { ord := 2, scp := 3, x := 0x21, y := 0x12, z := 0, imm := 9 }),
  (0xD5B2C4670A40002B, .tqadd hx { ord := 2, scp := 3, x := 0x21, y := 0x12, z := 0, imm := 0x2b }),
  (0xD5B2C4A70A400000, .tdqadd hx { ord := 2, scp := 3, x := 0x21, y := 0x12, z := 0, imm := 0 }),
  (0xD5B2C4C10A400000, .tdqtake hx { ord := 0, scp := 0, x := 0x21, y := 0x12, z := 0, imm := 0 }),
  (0xD5B2C5270A400000, .tcancel hx { ord := 2, scp := 3, x := 0x21, y := 0x12, z := 0, imm := 0 }),
  (0xD5B2C6010A548000, .filreq hx { ord := 0, scp := 0, x := 0x21, y := 0x12, z := 0x29, imm := 0 }),
  (0xD5B2C6410A548025, .kvprobe hx { ord := 0, scp := 0, x := 0x21, y := 0x12, z := 0x29, imm := 0x25 }),
  (0xD5B2C6A708148000, .kvmarkValid hx { ord := 2, scp := 3, x := 0x21, y := 0, z := 0x29, imm := 0 }),
  (0xD5B2C6A708148001, .kvmarkExit hx { ord := 2, scp := 3, x := 0x21, y := 0, z := 0x29, imm := 1 }) ]

theorem test_decode_sync_1 : decodes words_sync_1 = true := by decide +kernel

def words_sync_2 : List (Nat × Instr) := [
  (0xD5B2C6A708148002, .kvmarkClear hx { ord := 2, scp := 3, x := 0x21, y := 0, z := 0x29, imm := 2 }),
  (0xD5B2C6E70A548000, .calve hx { ord := 2, scp := 3, x := 0x21, y := 0x12, z := 0x29, imm := 0 }),
  (0xD5B2C6C10A548001, .calveArm hx { ord := 0, scp := 0, x := 0x21, y := 0x12, z := 0x29, imm := 1 }),
  (0xD5B2C72708000000, .colred hx { ord := 2, scp := 3, x := 0x21, y := 0, z := 0, imm := 0 }),
  (0xD5B2C76708000000, .colbc hx { ord := 2, scp := 3, x := 0x21, y := 0, z := 0, imm := 0 }),
  (0xD5B2C7A708000000, .colag hx { ord := 2, scp := 3, x := 0x21, y := 0, z := 0, imm := 0 }) ]

theorem test_decode_sync_2 : decodes words_sync_2 = true := by decide +kernel

def words_system : List (Nat × Instr) := [
  (0xF5B2C00000000000, .tret hx),
  (0xF5B2C04800810400, .csrr hx { d := 8, a := 0, csr := 0x2041 }),
  (0xF5B2C08850810400, .csrw hx { d := 8, a := 0x14, csr := 0x2041 }),
  (0xF5B2C0C850810400, .csrs hx { d := 8, a := 0x14, csr := 0x2041 }),
  (0xF5B2C10850810400, .csrc hx { d := 8, a := 0x14, csr := 0x2041 }),
  (0xF5B2C154000000C7, .tmark hx { a := 0x14, imm := 0xc7 }),
  (0xF5B2C19400000002, .smpctl hx { a := 0x14, imm := 2 }),
  (0xF5B2C1C00000000B, .bkpt hx { a := 0, imm := 0xb }),
  (0xF5B2C2214800000B, .wpset hx { x := 0x21, y := 0x12, z := 0, imm := 0xb }),
  (0xF5B2C24000000004, .wpclr hx { a := 0, imm := 4 }),
  (0xF5B2C2A100000000, .taginv hx { x := 0x21, y := 0, z := 0, imm := 0 }),
  (0xF5B2C2C000000000, .tagflush hx),
  (0xF5B2C4214A900001, .partopForm hx { x := 0x21, y := 0x12, z := 0x29, imm := 1 }),
  (0xF5B2C4214A900002, .partopDissolve hx { x := 0x21, y := 0x12, z := 0x29, imm := 2 }),
  (0xF5B2C4214A900003, .partopPreempt hx { x := 0x21, y := 0x12, z := 0x29, imm := 3 }),
  (0xF5B2C4214A900004, .partopQreset hx { x := 0x21, y := 0x12, z := 0x29, imm := 4 }),
  (0xF5B2C4614A900001, .ctxopCreate hx { x := 0x21, y := 0x12, z := 0x29, imm := 1 }),
  (0xF5B2C4614A900002, .ctxopDestroy hx { x := 0x21, y := 0x12, z := 0x29, imm := 2 }),
  (0xF5B2C4614A900003, .ctxopInval hx { x := 0x21, y := 0x12, z := 0x29, imm := 3 }),
  (0xF5B2C4614A900004, .ctxopAttest hx { x := 0x21, y := 0x12, z := 0x29, imm := 4 }),
  (0xF5B2C4A14A900001, .swapopSave hx { x := 0x21, y := 0x12, z := 0x29, imm := 1 }),
  (0xF5B2C4A14A900002, .swapopRestore hx { x := 0x21, y := 0x12, z := 0x29, imm := 2 }),
  (0xF5B2C4A14A900003, .swapopExch hx { x := 0x21, y := 0x12, z := 0x29, imm := 3 }) ]

theorem test_decode_system : decodes words_system = true := by decide +kernel


/-! ## Ill-formed terms and words, which the checks of R46 item 3 refuse -/

def h0 : Hdr := { e := true, wait := 0, gn := false, gp := 0, edge := 0, elvl := 0 }
def vr0 : VR := { d := 0, a := 0, b := 0, nq := 4, mdf := 0, bs := 0 }
def vf0 : VF := { d := 0, a := 0, b := 0, nq := 4, rm := 0, sat := 0, bs := 0, ty := 0 }
def vs0 : VS := { d := 0, a := 0, b := 0, nq := 4, seg := 0, rm := 0, ty := 2 }
def vp0 : VP := { md := 0, a := 0, b := 0, nq := 4, cnd := 0, bs := 0, ty := 2 }
def lm0 : LM := { d := 0, a := 0, nq := 4, disp := 0 }
def mb0 : MB := { aop := 0, aw := 0, aslot := 0, arb := 0, wop := 0, ww := 0, dop := 0, ds := 0, drb := 0, dv := 0, m := 0 }
def wr0 : WR := { d := 0, a := 0, b := 0, mq := 0, blk := 0 }
def yk0 : YK := { ord := 0, scp := 0, k := 0, a := 0, imm := 0 }
def yg0 : YG := { ord := 0, scp := 0, x := 0, y := 0, z := 0, imm := 0 }
def zg0 : ZG := { x := 0, y := 0, z := 0, imm := 0 }

/-- Headers (R47), scalar and control limits (R62, R66, R143). -/
def ill_scalar : List Instr := [
  .nop { h0 with edge := 3 }, .nop { h0 with edge := 1, elvl := 6 }, .nop { h0 with elvl := 1 },
  .fuse { h0 with gp := 1 }, .join { h0 with gn := true } { a := 0, imm := 0 }, .detach { h0 with edge := 1 },
  .bext h0 { d := 0, a := 0, pos := 5, len := 60 }, .bins h0 { d := 0, a := 0, pos := 1, len := 0 },
  .shli h0 { d := 0, a := 0, imm := 64 }, .mfx h0 { d := 0, sel := 8 }, .mtx h0 { d := 0, sel := 1 },
  .loop h0 { lv := 6, src := 0, mq := 0, len := 0, cnt := 0 }, .loop h0 { lv := 0, src := 0, mq := 1, len := 0, cnt := 0 },
  .loop h0 { lv := 0, src := 2, mq := 3, len := 0, cnt := 0 }, .loop h0 { lv := 0, src := 3, mq := 0, len := 0, cnt := 1 },
  .loop h0 { lv := 0, src := 1, mq := 0, len := 0, cnt := 1 },
  .mloop h0 { lv := 0, src := 0, mq := 0, len := 0, sc := 0, ii := 1, a := 0, dp := 0 },
  .mloop h0 { lv := 0, src := 1, mq := 0, len := 0, sc := 0, ii := 0, a := 0, dp := 0 },
  .lstri h0 { lv := 6, w := 0, stride := 0 }, .lbrk h0 { lv := 7 } ]

/-- Groups, modifiers and types of the vector unit (R56-R59, R65, R287-R307). -/
def ill_vector : List Instr := [
  .vadd h0 0 { vr0 with nq := 0 }, .vadd h0 2 { vr0 with d := 31, nq := 5 }, .vadd h0 2 { vr0 with a := 63, nq := 5 },
  .vadd h0 3 { vr0 with nq := 63, b := 8 }, .vadd h0 2 { vr0 with mdf := 1 }, .vadd h0 2 { vr0 with mdf := 0x5C0 },
  .vadd h0 2 { vr0 with mdf := 0x4C8 }, .vadd h0 2 { vr0 with mdf := 0x8C3 }, .vadd h0 2 { vr0 with mdf := 0x4C5, bs := 1 },
  .vabs h0 2 { vr0 with b := 1 }, .vmov h0 { vr0 with a := 1 }, .vshli h0 0 { d := 0, a := 0, nq := 4, imm := 8 },
  .vmovi h0 0 { d := 0, a := 1, nq := 4, imm := 0 }, .vfadd h0 { vf0 with ty := 3 }, .vfmin h0 { vf0 with rm := 1 },
  .vfneg h0 { vf0 with b := 1 }, .vrcp h0 { vf0 with bs := 1 },
  .vcvtf h0 { d := 0, a := 0, fmt := 0, nq := 4, rm := 0, sat := 1 }, .mnot h0 { md := 0, ma := 0, mb := 1 },
  .vcmp h0 { vp0 with ty := 7 }, .vcmp h0 { vp0 with cnd := 10 }, .vcmp h0 { vp0 with nq := 5 },
  .vcmp h0 { vp0 with ty := 4, cnd := 6 }, .vrsum h0 { vs0 with rm := 1 }, .vrmax h0 { vs0 with b := 1 },
  .vpsum h0 { vs0 with seg := 7 }, .vexts h0 { vs0 with seg := 1 } ]

/-- Memory, matrix and row forms (R58, R66, R219-R227, R314-R341, R350-R371). -/
def ill_memory : List Instr := [
  .lds8 h0 lm0, .ldv h0 { lm0 with nq := 0 }, .hrel h0 { h := 0, a := 1 }, .pref h0 { lm0 with nq := 0, d := 1 },
  .splds h0 { d := 0, off := 4 }, .spstv h0 { d := 0, off := 128 },
  .beat h0 { mb0 with aop := 3 }, .beat h0 { mb0 with wop := 3 }, .beat h0 { mb0 with dop := 3 }, .beat h0 { mb0 with m := 3 },
  .acgrp h0 { acc := 0, grp := 0, lo := 5, hi := 4 },
  .acmov h0 { acc := 0, row := 100, a := 0, cnt := 28, fmt := 0, rm := 0, sat := 0 },
  .mcfg h0 { nq := 9, wf := 0, af := 0, ak := 0 }, .mcfg h0 { nq := 0, wf := 0, af := 0, ak := 0 },
  .mcfg h0 { nq := 1, wf := 0, af := 0, ak := 3 },
  .rowld h0 { wr0 with mq := 1 }, .rowupd h0 { wr0 with mq := 3 }, .rowpack h0 { wr0 with d := 2 }, .rowpack h0 { wr0 with a := 1 },
  .rowset h0 { d := 0, a := 0, imm := 4097 }, .rowrec h0 { d := 0, a := 0, imm := 0 }, .rowmask h0 { wr0 with d := 8 } ]

/-- Synchronisation, engine and system forms (R65, R66, R259-R265, R424, R435, R496-R500, R509). -/
def ill_system : List Instr := [
  .cadd h0 { yk0 with scp := 1 }, .cadd h0 { yk0 with ord := 2, scp := 5 }, .cread h0 { yk0 with imm := 1 }, .cbind h0 { yk0 with ord := 1 },
  .cwany h0 { ord := 0, scp := 0, d := 0, mask := 1, a := 57, g := 0 }, .phase h0 { ord := 0, scp := 2 },
  .cpymc h0 { yg0 with y := 1 }, .gsub h0 { yg0 with z := 1 }, .tlaunch h0 yg0, .tqadd h0 { yg0 with ord := 2, scp := 3, imm := 1 },
  .tcancel h0 { yg0 with ord := 1 }, .kvprobe h0 { yg0 with imm := 64 }, .calveArm h0 { yg0 with ord := 2, imm := 1 },
  .csrr h0 { d := 0, a := 1, csr := 0x2000 }, .tmark h0 { a := 0, imm := 256 }, .smpctl h0 { a := 0, imm := 4 },
  .wpset h0 { zg0 with imm := 3 }, .wpclr h0 { a := 0, imm := 8 }, .taginv h0 { zg0 with y := 1 }, .partopForm h0 { zg0 with imm := 0x11 } ]

theorem test_illFormed_refused :
    ((ill_scalar ++ ill_vector ++ ill_memory ++ ill_system).any fun i => operandsOk i) = false := by decide +kernel

theorem test_illFormed_is_not_wellFormed : ∀ i ∈ ill_scalar ++ ill_vector ++ ill_memory ++ ill_system, ¬ i.WellFormed := by
  intro i hi
  have h := test_illFormed_refused
  rw [List.any_eq_false] at h
  exact h i hi

/-- Non-zero reserved bits: ADD [0], NOP [0], VADD.i8 [0], LDVS [0], ACREL [0], ROWCLR [0], PHASE [0], TRET [0]. -/
theorem test_reserved_bits_refused :
    (([0x1000000000000001, 0x3000000000000001, 0x5000000000010001, 0x7000038000010001, 0x9000004000000001,
       0xB000034000000001, 0xD00001C000000001, 0xF000000000000001] : List Nat).all fun w =>
      match decodeWord w with | .error _ => true | .ok _ => false) = true := by
  decide +kernel

/-- Vacant codes of R75: S 0x35, C 0x0C, V 0x6F, L 0x07, M 0x0A, W 0x0E, Y 0x1F, Z 0x13; the reserved bits do not matter. -/
theorem test_vacant_opcodes :
    (([0x10000D4000000001, 0x3000030000000000, 0x50001BC000000000, 0x700001C000000000, 0x9000028000000000,
       0xB000038000000000, 0xD00007C000000000, 0xF00004C000000000] : List Nat).all fun w =>
      match decodeWord w with | .ok (.illegalOpcode _ _ _ _) => true | _ => false) = true := by
  decide +kernel

/-! ## Single syllables on small states; expected values from the rules named -/

/-- The result that a syllable of core 0 sends last. -/
def res (d : Dev) (i : Instr) : Option Result :=
  match exec i (st 0 d) with
  | .next t => ((t.dev.core 0).pend.getLast?).map (·.res)
  | _ => none

def resM (m : Memory) (d : Dev) (i : Instr) : Option Result :=
  match exec i (stm m 0 d) with
  | .next t => ((t.dev.core 0).pend.getLast?).map (·.res)
  | _ => none

/-- The units after a syllable of core 0. -/
def after (d : Dev) (i : Instr) : Dev :=
  match exec i (st 0 d) with
  | .next t => t.dev
  | _ => d

def two (a b : Word) : Dev := withS [(4, a), (5, b)]
def sri (i : BitVec 26) : SRI := { d := 1, a := 4, imm := i }

/-- R140. -/
theorem test_add_wraps : res (two 0xFFFFFFFFFFFFFFFF 2) (.add hd srr) = some (.s 1 1) := by decide +kernel
theorem test_sub_borrows : res (two 0 1) (.sub hd srr) = some (.s 1 0xFFFFFFFFFFFFFFFF) := by decide +kernel
theorem test_andn : res (two 0xFF 0x0F) (.andn hd srr) = some (.s 1 0xF0) := by decide +kernel
theorem test_shl_ignores_high_bits : res (two 3 65) (.shl hd srr) = some (.s 1 6) := by decide +kernel
theorem test_sra_copies_sign : res (two 0x8000000000000000 63) (.sra hd srr) = some (.s 1 0xFFFFFFFFFFFFFFFF) := by decide +kernel
theorem test_rol : res (two 0x8000000000000001 1) (.rol hd srr) = some (.s 1 3) := by decide +kernel
theorem test_mulh_unsigned : res (two 0xFFFFFFFFFFFFFFFF 2) (.mulh hd srr) = some (.s 1 1) := by decide +kernel
theorem test_mulhn_signed : res (two 0xFFFFFFFFFFFFFFFF 2) (.mulhn hd srr) = some (.s 1 0xFFFFFFFFFFFFFFFF) := by decide +kernel
theorem test_min_unsigned : res (two 0xFFFFFFFFFFFFFFFF 2) (.min hd srr) = some (.s 1 2) := by decide +kernel
theorem test_minn_signed : res (two 0xFFFFFFFFFFFFFFFF 2) (.minn hd srr) = some (.s 1 0xFFFFFFFFFFFFFFFF) := by decide +kernel

/-- R141, R142. -/
theorem test_clz_of_zero : res (two 0 0) (.clz hd { d := 1, a := 4 }) = some (.s 1 64) := by decide +kernel
theorem test_bswap : res (two 0x0102030405060708 0) (.bswap hd { d := 1, a := 4 }) = some (.s 1 0x0807060504030201) := by decide +kernel
theorem test_brev : res (two 1 0) (.brev hd { d := 1, a := 4 }) = some (.s 1 0x8000000000000000) := by decide +kernel
theorem test_bext : res (two 0xABCD 0) (.bext hd { d := 1, a := 4, pos := 4, len := 8 }) = some (.s 1 0xBC) := by decide +kernel
theorem test_bins_keeps_outside : res (two 0xF 0xAAAA) (.bins hd { d := 5, a := 4, pos := 8, len := 4 }) = some (.s 5 0xAFAA) := by decide +kernel

/-- R143, R144: immediates are signed; unsigned relations read them as u(I). -/
theorem test_addi_negative : res (two 0 0) (.addi hd (sri 0x3FFFFFF)) = some (.s 1 0xFFFFFFFFFFFFFFFF) := by decide +kernel
theorem test_clti_unsigned : res (two 5 0) (.clti hd { pd := 2, a := 4, imm := 0x3FFFFFF }) = some (.p 2 true) := by decide +kernel
theorem test_cltni_signed : res (two 5 0) (.cltni hd { pd := 2, a := 4, imm := 0x3FFFFFF }) = some (.p 2 false) := by decide +kernel
theorem test_s0_reads_zero : res (two 7 9) (.add hd { srr with a := 0 }) = some (.s 1 9) := by decide +kernel

/-- R147: pall reads p0 as 1; R62 clamps lr. -/
theorem test_mfx_pall : res dev0 (.mfx hd { d := 1, sel := 6 }) = some (.s 1 1) := by decide +kernel
theorem test_mtx_lr_clamps : res (two 4097 0) (.mtx hd { d := 4, sel := 0 }) = some (.lr 4096) := by decide +kernel

/-- Element i of the last vector result. -/
def lane (d : Dev) (i : Instr) (w k : Nat) : Option Nat :=
  match res d i with
  | some (.v _ x _) => some (x.toNat / 2 ^ (w * k) % 2 ^ w)
  | _ => none

def vec (w : Nat) (l : List Nat) : VWord := BitVec.ofNat 2048 (l.foldr (fun x acc => x + 2 ^ w * acc) 0)
def withV (a b : VWord) : Dev := withCore fun c => { c with r := { c.r with v := [(2, a), (3, b)] } }
def vr (nq : BitVec 6) : VR := { d := 1, a := 2, b := 3, nq := nq, mdf := 0, bs := 0 }
def vf (ty : BitVec 2) : VF := { d := 1, a := 2, b := 3, nq := 1, rm := 0, sat := 0, bs := 0, ty := ty }

/-- R290-R293. -/
theorem test_vadd_i8_wraps : lane (withV (vec 8 [1, 255]) (vec 8 [2, 3])) (.vadd hd 0 (vr 1)) 8 1 = some 2 := by decide +kernel
theorem test_vmulh_i16_unsigned : lane (withV (vec 16 [0xFFFF]) (vec 16 [2])) (.vmulh hd 1 (vr 1)) 16 0 = some 1 := by decide +kernel
theorem test_vadds_i8_saturates : lane (withV (vec 8 [127]) (vec 8 [1])) (.vadds hd 0 (vr 1)) 8 0 = some 127 := by decide +kernel
theorem test_vadd_rotates_segments :
    lane (withV (vec 32 [0, 0, 0, 0]) (vec 32 [10, 11, 12, 13])) (.vadd hd 2 { vr 1 with mdf := 0x481 }) 32 3 = some 10 := by
  decide +kernel

/-- R299, R300: FP32 1 + 2^-24 rounds to even; 2 · 3 + 1 in one rounding; FP16 negation of 1. -/
theorem test_vfadd_rounds_to_even :
    lane (withV (vec 32 [0x3F800000]) (vec 32 [0x33800000])) (.vfadd hd (vf 0)) 32 0 = some 0x3F800000 := by decide +kernel
theorem test_vfneg : lane (withV (vec 16 [0x3C00]) 0) (.vfneg hd (vf 2)) 16 0 = some 0xBC00 := by decide +kernel
theorem test_vfmul_bf16 : lane (withV (vec 16 [0x4000]) (vec 16 [0x4040])) (.vfmul hd (vf 1)) 16 0 = some 0x40C0 := by decide +kernel
/-- R302: VEXP2 of 3.0 is 8.0, VRCP of 4.0 is 0.25. -/
theorem test_vexp2 : lane (withV (vec 32 [0x40400000]) 0) (.vexp2 hd (vf 0)) 32 0 = some 0x41000000 := by decide +kernel
theorem test_vrcp : lane (withV (vec 32 [0x40800000]) 0) (.vrcp hd (vf 0)) 32 0 = some 0x3E800000 := by decide +kernel

/-- R227: LDS8 zero-extends, LDN8 sign-extends; STS16 stores the low bytes, at the lowest address first. -/
def memB : Memory := { cells := mem0.cells ++ [(spmA, 0x80)] }
theorem test_lds8 : resM memB dev0 (.lds8 hd { d := 1, a := 4, nq := 0, disp := 0 }) = some (.s 1 0x80) := by decide +kernel
theorem test_ldn8 : resM memB dev0 (.ldn8 hd { d := 1, a := 4, nq := 0, disp := 0 }) = some (.s 1 0xFFFFFFFFFFFFFF80) := by decide +kernel
theorem test_sts16_byte_order :
    let d := after (withS [(4, 0x01FFFFFF00001000), (1, 0xABCD)]) (.sts16 hd { d := 1, a := 4, nq := 0, disp := 2 })
    readByte mem0 d 0 (spmA + 2) = 0xCD ∧ readByte mem0 d 0 (spmA + 3) = 0xAB ∧ readByte mem0 d 0 (spmA + 4) = 0 := by
  decide +kernel

/-- R260: CADD adds s[a] + imm to its counter. -/
theorem test_cadd :
    counterGet mem0 (after devK (.cadd hd { ord := 0, scp := 0, k := 0, a := 6, imm := 4 })) 0 0 5 = 7 := by decide +kernel

/-- R102, R103: the table of chapter 04, beats of +512 and −1,000 on 2,147,483,392. -/
theorem test_integer_accumulation :
    landedValue 1 true 0x7FFFFF00 512 = (0x80000100, false) ∧ landedValue 1 true 0x80000100 (-1000) = (0x7FFFFD18, false) ∧
    landedValue 2 true 0x7FFFFF00 512 = (0x7FFFFFFF, true) ∧ (landedValue 2 true 0x7FFFFFFF (-1000)).1 = 0x7FFFFC17 := by
  decide +kernel

/-- A step of the reset state changes no byte of memory. -/
theorem test_step_of_reset_fetches : (match step State.reset with | .next t => decide (t.mem = State.reset.mem) | _ => false) = true := by
  decide +kernel

end Sys2Proof.Tests
end

/-!
SUPPORT. Every step answers a next state, keeps the canonical form of memory and never takes the time base back: each
instruction runs one of the wrappers of Laws/Syllable.lean, and a turn of a core only composes instructions.
-/

namespace Sys2Proof.Machine

/-! ## Outcomes that are next states -/

/-- An outcome of a step from s is a next state, which keeps what every step keeps. -/
def Answers (s : State) (o : Host.Outcome State Fault Refusal) : Prop := ∃ t, o = .next t ∧ Kept s t

theorem answers_next {s t : State} (k : Kept s t) : Answers s (.next t) := ⟨t, rfl, k⟩

theorem Answers.of_kept {s t : State} {o : Host.Outcome State Fault Refusal} (a : Answers t o) (k : Kept s t) :
    Answers s o := by
  obtain ⟨u, hu, ku⟩ := a
  exact ⟨u, hu, k.trans ku⟩

/-- An outcome from a state in which only the units, the bundle or the choice of what comes next differ. -/
theorem Answers.of_eq {s t : State} {o : Host.Outcome State Fault Refusal} (a : Answers t o) (hm : t.mem = s.mem)
    (ht : t.time = s.time) : Answers s o := a.of_kept (Kept.of_eq hm ht)

theorem kept_tick_of_eq {s t : State} (hm : t.mem = s.mem) (ht : t.time = s.time) : Kept s t.tick :=
  (Kept.of_eq hm ht).trans (kept_tick t)

theorem kept_settle_tick_of_eq {s t : State} (hm : t.mem = s.mem) (ht : t.time = s.time) : Kept s t.settle.tick :=
  (Kept.of_eq hm ht).trans (kept_settle_tick t)

/-! ## The wrappers of meanings -/

theorem happening_answers (f : State → Option Dev) (s : State) : Answers s (happening f s) := happening_kept f s

section
variable (h : Hdr) (s : State)

theorem bundleSyllable_answers (f g) : Answers s (bundleSyllable h f g s) := bundleSyllable_kept ..
theorem syllable_answers (f) : Answers s (syllable h f s) := bundleSyllable_answers ..
theorem ctlSyllable_answers (f g) : Answers s (ctlSyllable h f g s) := bundleSyllable_answers ..

theorem scalarResult_answers (d lat val) : Answers s (scalarResult h d lat val s) := syllable_answers ..
theorem scalarRR_answers (o lat op) : Answers s (scalarRR h o lat op s) := scalarResult_answers ..
theorem scalarR1_answers (o op) : Answers s (scalarR1 h o op s) := scalarResult_answers ..
theorem scalarRI_answers (o lat op) : Answers s (scalarRI h o lat op s) := scalarResult_answers ..
theorem compareRR_answers (o r) : Answers s (compareRR h o r s) := syllable_answers ..
theorem compareRI_answers (o r) : Answers s (compareRI h o r s) := syllable_answers ..
theorem predicateLogic_answers (o op) : Answers s (predicateLogic h o op s) := syllable_answers ..
theorem branch_answers (n w also) : Answers s (branch h n w also s) := ctlSyllable_answers ..

theorem vecResult_answers (d w lat vals) : Answers s (vecResult h d w lat vals s) := syllable_answers ..
theorem vecBinary_answers (o w lat op) : Answers s (vecBinary h o w lat op s) := vecResult_answers ..
theorem vecUnary_answers (o w lat op) : Answers s (vecUnary h o w lat op s) := vecResult_answers ..
theorem vecImm_answers (o w op) : Answers s (vecImm h o w op s) := vecResult_answers ..
theorem maskForm_answers (o op) : Answers s (maskForm h o op s) := syllable_answers ..
theorem vecFloat_answers (o lat op) : Answers s (vecFloat h o lat op s) := syllable_answers ..
theorem convert_answers (o i int out) : Answers s (convert h o i int out s) := syllable_answers ..
theorem vecSums_answers (o lat sums) : Answers s (vecSums h o lat sums s) := syllable_answers ..

theorem loadScalar_answers (o w signed) : Answers s (loadScalar h o w signed s) := ctlSyllable_answers ..
theorem loadGroup_answers (d acc) : Answers s (loadGroup h d acc s) := ctlSyllable_answers ..
theorem storeWith_answers (acc vals) : Answers s (storeWith h acc vals s) := ctlSyllable_answers ..
theorem moveForm_answers (o w load f) : Answers s (moveForm h o w load f s) := syllable_answers ..
theorem rowSyllable_answers (touch f) : Answers s (rowSyllable h touch f s) := syllable_answers ..
theorem changeCounter_answers (o w kind op) : Answers s (changeCounter h o w kind op s) := ctlSyllable_answers ..
theorem enterCol_answers (o form) : Answers s (enterCol h o form s) := ctlSyllable_answers ..
theorem csrForm_answers (o w op) : Answers s (csrForm h o w op s) := syllable_answers ..
theorem firmware_answers (w f) : Answers s (firmware h w f s) := syllable_answers ..
theorem swapForm_answers (w o code) : Answers s (swapForm h w o code s) := firmware_answers ..

theorem execProbe_answers (o) : Answers s (execProbe h o s) := by
  unfold execProbe
  exact bundleSyllable_answers ..

theorem execIllegalOpcode_answers (cls opc w) : Answers s (execIllegalOpcode h cls opc w s) := by
  unfold execIllegalOpcode
  dsimp only
  split
  · exact answers_next (kept_opened s)
  · exact answers_next ((kept_opened s).trans (kept_faultBundle ..))

end

theorem execPackageReset_answers (s : State) : Answers s (execPackageReset s) := answers_next (kept_tick_of_eq rfl rfl)

/-! ## Every instruction -/

/-- No instruction stops the machine: a syllable runs its class's wrapper, an event happens or does not. -/
theorem exec_answers (i : Instr) (s : State) : Answers s (exec i s) := by
  unfold exec
  cases i with
  | mfx h o | mtx h o | mtb h o | limml h o | nop h | fuse h | unfuse h | pbt h o | lstri h o | lstrr h o | vsel h o
  | vseed h o | vcmp h o | vexts h o | vinss h o | hclaim h o | splds h o | spsts h o | spldv h o | spstv h o
  | beat h o | acrel h o | acrela h | acgrp h o | mcfg h o | wswap h | wclr h | mwait h | cbind h o | cpymc h o
  | hbdrain h o | tdqtake h o | filreq h o | kvprobe h o | calveArm h o | tmark h o | smpctl h o | wpset h o
  | wpclr h o | taginv h o | tagflush h => exact syllable_answers ..
  | halt h | exit h | trap h o | detach h | join h o | loop h o | lbrk h o | lnext h o | stz h o | hrel h o
  | pref h o | cwait h o | cread h o | cwany h o | stakeCreate h o | stakeRetire h o | stakeAdvance h o | phase h o
  | cpyq h o | gsub h o | gunsub h o | gred h o | tlaunch h o | tqadd h o | tdqadd h o | tcancel h o
  | kvmarkValid h o | kvmarkExit h o | kvmarkClear h o | calve h o | tret h | bkpt h o | mloop h o =>
    exact ctlSyllable_answers ..
  | ldz h o => exact bundleSyllable_answers ..
  | probe h o => exact execProbe_answers ..
  | add h o | sub h o | and h o | or h o | xor h o | andn h o | shl h o | shr h o | sra h o | rol h o | mul h o
  | mulh h o | mulhn h o | min h o | max h o | minn h o | maxn h o => exact scalarRR_answers ..
  | clz h o | ctz h o | popc h o | brev h o | bswap h o => exact scalarR1_answers ..
  | bext h o | bins h o | sel h o | mfb h o | limmh h o => exact scalarResult_answers ..
  | addi h o | andi h o | ori h o | xori h o | shli h o | shri h o | srai h o | muli h o => exact scalarRI_answers ..
  | ceq h o | cne h o | clt h o | cle h o | cltn h o | clen h o => exact compareRR_answers ..
  | ceqi h o | cnei h o | clti h o | clei h o | cltni h o | cleni h o => exact compareRI_answers ..
  | pand h o | por h o | pxor h o | pandn h o => exact predicateLogic_answers ..
  | brt h o | call h o | ret h o => exact branch_answers ..
  | vadd h ew o | vsub h ew o | vmul h ew o | vmulh h ew o | vmin h ew o | vmax h ew o | vminn h ew o | vmaxn h ew o
  | vshl h ew o | vshr h ew o | vsra h ew o | vadds h ew o | vsubs h ew o | vand h o | vor h o | vxor h o
  | vandn h o | vmov h o | vclmull h o | vclmulh h o => exact vecBinary_answers ..
  | vpopc h ew o | vclz h ew o | vabs h ew o => exact vecUnary_answers ..
  | vperm h o | vrmax h o | vrmin h o | vargmax h o | vtopk h o => exact vecResult_answers ..
  | mand h o | mor h o | mxor h o | mnot h o => exact maskForm_answers ..
  | vaddi h ew o | vshli h ew o | vshri h ew o | vmovi h ew o => exact vecImm_answers ..
  | vfadd h o | vfsub h o | vfmul h o | vfma h o | vfms h o | vfnma h o | vfmin h o | vfmax h o | vfabs h o
  | vfneg h o | vexp2 h o | vlog2 h o | vrcp h o | vrsq h o | vtanh h o => exact vecFloat_answers ..
  | vcvtf h o | vcvtn h o | vcvti h o | vcvtif h o => exact convert_answers ..
  | vrsum h o | vpsum h o => exact vecSums_answers ..
  | lds8 h o | lds16 h o | lds32 h o | lds64 h o | ldn8 h o | ldn16 h o | ldn32 h o => exact loadScalar_answers ..
  | sts8 h o | sts16 h o | sts32 h o | sts64 h o | stv h o | stvs h o | stvx h o => exact storeWith_answers ..
  | ldv h o | ldvs h o | ldvx h o => exact loadGroup_answers ..
  | acmov h o | acld h o => exact moveForm_answers ..
  | rowld h o | rowst h o | rowupd h o | rowpack h o | rowrestore h o | rowcnt h o | rowset h o | rowrec h o
  | rowrdec h o | rowtrld h o | rowtrst h o | rowmask h o | rowseq h o | rowclr h o =>
    dsimp only [execRowld, execRowst, execRowupd, execRowpack, execRowrestore, execRowcnt, execRowset, execRowrec,
      execRowrdec, execRowtrld, execRowtrst, execRowmask, execRowseq, execRowclr]
    exact rowSyllable_answers ..
  | cadd h o | cmax h o => exact changeCounter_answers ..
  | colred h o | colbc h o | colag h o => exact enterCol_answers ..
  | csrr h o | csrw h o | csrs h o | csrc h o => exact csrForm_answers ..
  | partopForm h o | partopDissolve h o | partopPreempt h o | partopQreset h o | ctxopCreate h o | ctxopDestroy h o
  | ctxopInval h o | ctxopAttest h o => exact firmware_answers ..
  | swapopSave h o | swapopRestore h o | swapopExch h o => exact swapForm_answers ..
  | illegalOpcode h cls opc w => exact execIllegalOpcode_answers ..
  | packageReset => exact execPackageReset_answers s
  | _ => exact happening_answers ..

/-! ## The syllables of a bundle -/

theorem performCsr_kept (s : State) (n : Nat) : Kept s (performCsr s n) := by
  unfold performCsr
  split
  · exact kept_tick s
  · exact kept_settle_tick_of_eq rfl rfl

theorem stallBundle_answers (s : State) (d : Dev) (why : Nat) : Answers s (.next (s.stallBundle d why)) :=
  answers_next (kept_stallBundle ..)

section
variable {ex : Meaning} (hex : ∀ i s, Answers s (ex i s))
include hex

theorem runSyllables_answers (is : List Instr) (s : State) : Answers s (runSyllables ex is s) := by
  induction is generalizing s with
  | nil => exact answers_next (Kept.refl s)
  | cons i is ih =>
    obtain ⟨t, ht, kt⟩ := hex i s
    simp only [runSyllables, ht]
    split
    · exact answers_next kt
    · exact (ih t).of_kept kt

/-- The syllables of a bundle that only stalled run again with the reason found. -/
theorem runSyllables_hinted_answers (is : List Instr) (s : State) (n : Nat) :
    Answers s (runSyllables ex is (s.hinted ex n is)) :=
  (runSyllables_answers hex is (s.hinted ex n is)).of_eq rfl rfl

theorem runOrStall_answers (is : List Instr) (s : State) (n : Nat) : Answers s (runOrStall ex is s n) := by
  obtain ⟨t, ht, kt⟩ := runSyllables_answers hex is s
  simp only [runOrStall, ht]
  split
  · exact runSyllables_hinted_answers hex is s n
  · exact answers_next kt

theorem runFailing_answers (is : List Instr) (s : State) {fail : State → Host.Outcome State Fault Refusal} (k : Nat)
    (hfail : ∀ t, Answers s (fail t)) : Answers s (runFailing ex is s fail k) := by
  obtain ⟨t, ht, kt⟩ := runSyllables_answers hex (is.take k) s
  simp only [runFailing, ht]
  split
  · exact answers_next kt
  · exact hfail t

theorem issueBundle_answers (s : State) (n : Nat) (c : Core) (x : AtHand) (is : List Instr)
    {event : State → Event → Host.Outcome State Fault Refusal} (hev : ∀ t e, Answers t (event t e)) :
    Answers s (issueBundle ex s n c x is event) := by
  unfold issueBundle
  split
  · next e _ =>
    obtain ⟨t, ht, -⟩ := runSyllables_answers hex is s
    simp only [ht]
    split
    · exact runSyllables_hinted_answers hex is s n
    · exact hev s e
  · split
    · exact runFailing_answers hex is s _ fun _ => (hev ..).of_eq rfl rfl
    · exact (runOrStall_answers hex is (s.translating n is) n).of_eq rfl rfl

theorem tryBundle_answers (s : State) (n : Nat) (x : AtHand) : Answers s (tryBundle ex s n x) := by
  refine Answers.of_eq (t := s.begin n x) ?_ rfl rfl
  unfold tryBundle
  dsimp only
  generalize s.begin n x = t
  split
  · exact answers_next (kept_settle_tick_of_eq rfl rfl)
  split
  · exact answers_next (kept_settle_tick_of_eq rfl rfl)
  have stalls (why : Nat) : Answers t (.next ((t.hinted ex n (decoded x.f.words)).stallBundle t.dev why)) :=
    (stallBundle_answers ..).of_eq rfl rfl
  split
  · exact (happening_answers ..).of_eq rfl rfl
  split
  · split
    · exact (happening_answers ..).of_eq rfl rfl
    · split
      · exact (happening_answers ..).of_eq rfl rfl
      · exact stallBundle_answers ..
  split
  · exact stalls 10
  split
  · exact stalls 11
  split
  · exact stalls 11
  split
  · exact stalls 14
  exact issueBundle_answers hex t n _ x _ fun _ _ => answers_next (kept_settle_tick_of_eq rfl rfl)

theorem tryOrOverrun_answers (s : State) (n : Nat) (x : AtHand) : Answers s (tryOrOverrun ex s n x) := by
  unfold tryOrOverrun
  dsimp only
  split
  · exact (happening_answers ..).of_eq rfl rfl
  · exact tryBundle_answers hex s n x

end

/-! ## A turn of a core -/

theorem idleTurn_answers (s : State) (n : Nat) : Answers s (idleTurn s n) := by
  unfold idleTurn
  dsimp only
  split
  · exact happening_answers ..
  repeat' split
  · exact happening_answers ..
  · exact answers_next (kept_tick s)
  · exact happening_answers ..
  · exact happening_answers ..
  · exact answers_next (kept_tick s)
  · exact happening_answers ..
  · exact happening_answers ..

theorem endWait_answers {s : State} (n why : Nat) (ends : Option Dev) {go : Host.Outcome State Fault Refusal}
    (hgo : Answers s go) : Answers s (endWait s n why ends go) := by
  unfold endWait
  split
  · exact hgo
  · exact answers_next (kept_tick_of_eq rfl rfl)

theorem meetDelivery_answers (s : State) (n g : Nat) : Answers s (meetDelivery s n g) := by
  unfold meetDelivery
  dsimp only
  split
  · exact answers_next (kept_tick_of_eq rfl rfl)
  split
  · split
    · exact (happening_answers ..).of_eq rfl rfl
    · exact happening_answers ..
  · exact answers_next (kept_tick_of_eq rfl rfl)

theorem Need.meet_answers (q : Need) (s : State) : Answers s (q.meet s) := by
  cases q with
  | taskStart n => exact idleTurn_answers s n
  | delivery n g => exact meetDelivery_answers s n g
  | register n => exact answers_next (performCsr_kept s n)
  | claim n => exact endWait_answers _ _ _ (happening_answers ..)
  | release n => exact endWait_answers _ _ _ (happening_answers ..)
  | phaseEnd n =>
    simp only [Need.meet]
    split
    · exact answers_next (kept_tick_of_eq rfl rfl)
    · exact happening_answers ..
  | boundary n =>
    simp only [Need.meet]
    split
    · exact answers_next (kept_tick_of_eq rfl rfl)
    · exact endWait_answers _ _ _ (happening_answers ..)
  | preemptHalt n | haltWake n | answer n | overrun n | push n | fetch n | line g pa =>
    simp only [Need.meet]
    exact happening_answers ..

theorem idleCycle_kept (s : State) (n : Nat) : Kept s (idleCycle s n) := by
  unfold idleCycle
  repeat' split
  · exact Kept.of_eq rfl rfl
  · exact Kept.of_eq rfl rfl
  · exact Kept.refl s

theorem idleCycle_tick_answers (s : State) (n : Nat) : Answers s (.next (idleCycle s n).tick) :=
  answers_next ((idleCycle_kept s n).trans (kept_tick _))

theorem turn_answers {ex : Meaning} (hex : ∀ i s, Answers s (ex i s)) (s : State) (n : Nat) :
    Answers s (turn ex s n) := by
  unfold turn
  split
  · exact Need.meet_answers ..
  dsimp only
  split
  · split
    · split
      · exact idleCycle_tick_answers s n
      · exact answers_next (kept_tick_of_eq rfl rfl)
    · split
      · exact idleCycle_tick_answers s n
      · repeat' split
        · exact answers_next (kept_tick_of_eq rfl rfl)
        · exact answers_next (kept_tick_of_eq rfl rfl)
        · exact tryOrOverrun_answers hex s n _
  · exact answers_next (kept_tick s)

/-! ## A step -/

theorem Due.act_answers (q : Due) (s : State) : Answers s (q.act s) := by
  cases q with
  | remote idx | collective idx | wiAdd u ctx | sampling n | watch n | swap die =>
    simp only [Due.act]
    exact happening_answers ..

theorem stepWith_answers {ex : Meaning} (hex : ∀ i s, Answers s (ex i s)) (s : State) :
    Answers s (stepWith ex s) := by
  unfold stepWith
  split
  · exact Due.act_answers ..
  split
  · dsimp only
    split
    · exact answers_next (kept_tick_of_eq rfl rfl)
    · exact (hex ..).of_eq rfl rfl
  · exact (happening_answers ..).of_eq rfl rfl
  · exact (turn_answers hex ..).of_eq rfl rfl
  · exact turn_answers hex s s.cur

theorem step_answers (s : State) : Answers s (step s) := stepWith_answers exec_answers s

theorem Answers.canonical {s : State} {o : Host.Outcome State Fault Refusal} (a : Answers s o) (hs : s.Canonical) :
    ∃ t, o = .next t ∧ t.Canonical ∧ s.time ≤ t.time := by
  obtain ⟨t, ht, hcan, htime⟩ := a
  exact ⟨t, ht, hcan hs, htime⟩

/-- Settles O58: every instruction runs a wrapper that keeps memory's form and the time base, and a step composes
instructions. -/
theorem stepKeepsMemoryCanonical : Obligations.StepKeepsMemoryCanonical :=
  ⟨fun s => (step_answers s).canonical, fun i s => (exec_answers i s).canonical⟩

end Sys2Proof.Machine

/-!
SUPPORT. STAKE (R272): what its checks and its deltas answer; the three forms follow by the cases of their holds.
-/

namespace Sys2Proof.Machine

/-- What the wrapper of a syllable in issue answers, by the answer of its effect; e is the bundle it leaves. -/
def State.concluded (s : State) (h : Hdr) (b e : Bundle) : Out → Host.Outcome State Fault Refusal
  | .ok d => .next (s.afterWith h d e)
  | .raise ev => .next (s.faultBundle b.base ev)
  | .raiseIn d ev => .next (s.faultBundle d ev)
  | .stall r => .next (s.stallBundle b.base r)
  | .stallIn d r => .next (s.stallBundle d r)

theorem ctlSyllable_concluded {h : Hdr} {f : State → Bundle → Core → Out} {g : Bundle → Bundle} {s : State}
    {b : Bundle} (hi : Issuing s b h) : ctlSyllable h f g s = s.concluded h b (g b) (f s b b.issuer) := by
  rw [ctlSyllable, bundleSyllable_issuing hi]
  cases f s b b.issuer <;> rfl

/-- The bits of a word from bit 12 up are all zero where it is below 4096. -/
theorem wfld_high_eq_zero (w : Word) : wfld w 12 52 = 0 ↔ w.toNat < 4096 := by
  have := w.isLt
  unfold wfld fld
  omega

section
variable {s : State} {b : Bundle} {c : Core} {o : YP} {f : Nat → Option (Nat × Hold) → Out}

theorem withStake_outOfRange (h : 4096 ≤ (c.s o.a.toNat).toNat) :
    withStake s b c o f = .raise (mkFault 0x43 (c.s o.a.toNat) 1) := by
  have h' : wfld (c.s o.a.toNat) 12 52 ≠ 0 := fun e => absurd ((wfld_high_eq_zero _).1 e) (by omega)
  simp [withStake, h']

theorem withStake_notInUse (h : (c.s o.a.toNat).toNat < 4096)
    (hok : stageOk s.mem s.dev ((s.dev.ctxOfCore b.core).getD noContext) (c.s o.a.toNat).toNat = false) :
    withStake s b c o f = .raise (mkFault 0x43 (c.s o.a.toNat) 2) := by
  simp [withStake, (wfld_high_eq_zero _).2 h, hok]

theorem withStake_valid (h : (c.s o.a.toNat).toNat < 4096)
    (hok : stageOk s.mem s.dev ((s.dev.ctxOfCore b.core).getD noContext) (c.s o.a.toNat).toNat = true) :
    withStake s b c o f = f (c.s o.a.toNat).toNat
      ((((s.dev.core b.core).holdsBefore b.cycle).holdOf (c.s o.a.toNat).toNat).map fun i =>
        (i, ((s.dev.core b.core).holdsBefore b.cycle).hold i)) := by
  simp [withStake, (wfld_high_eq_zero _).2 h, hok]

end

/-- With room in the Moraine the deltas of a STAKE are entered beside its other effects; without, the core stalls and
the full Moraine is reported (R274). -/
theorem concluded_stakeDeltas (s : State) (h : Hdr) (b e : Bundle) (d : Dev) {ds : List Delta} (hds : ds ≠ []) :
    s.concluded h b e (stakeDeltas s b d ds) =
      let ctx := (s.dev.ctxOfCore b.core).getD noContext
      let die := moraineDie s.dev b.core ctx
      if moraineRoom s.dev die ctx ds = true then .next (s.afterWith h (enterDeltas d b.core die ctx ds s.time) e)
      else .next (s.stallBundle (b.base.reportFull die ctx s.time) 7) := by
  have hds' : ds.isEmpty = false := by simpa using hds
  dsimp only
  split
  · next hroom => simp [stakeDeltas, hds', hroom, State.concluded]
  · next hroom => simp [stakeDeltas, hds', hroom, State.concluded]

/-- An advance to the same time enters no delta, so it needs no room. -/
theorem concluded_stakeDeltas_nil (s : State) (h : Hdr) (b e : Bundle) (d : Dev) :
    s.concluded h b e (stakeDeltas s b d []) = .next (s.afterWith h d e) := by
  simp [stakeDeltas, enterDeltas, State.concluded]

/-- Settles O34: past the checks of the stage, each form answers by the hold of the stage, its time and its count. -/
theorem stakeSyllables : Obligations.StakeSyllables := by
  unfold Obligations.StakeSyllables
  intro s b h o hi
  simp only [exec_stakeCreate, execStakeCreate, exec_stakeRetire, execStakeRetire, exec_stakeAdvance,
    execStakeAdvance, ctlSyllable_concluded hi]
  refine ⟨fun hs => ?_, fun hs hok => ?_, fun hs hok => ?_⟩
  · simp only [withStake_outOfRange hs]
    exact ⟨rfl, rfl, rfl⟩
  · simp only [withStake_notInUse hs hok]
    exact ⟨rfl, rfl, rfl⟩
  simp only [withStake_valid hs hok]
  refine ⟨fun hk => ?noCount, fun i hk he => ?held, fun i hk he hfree => ?newHold, fun hk he hfree => ?noFreeHold,
    fun he => ?withoutHold, fun i he => ?withHold⟩
  case noCount =>
    rw [if_pos hk]
    rfl
  case held =>
    simp only [he, Option.map_some, if_neg hk.ne']
    refine ⟨fun htime hcount => ?_, fun hbad => ?_⟩
    · rw [if_pos (by simp [htime, hcount])]
      exact concluded_stakeDeltas s h b _ _ (List.cons_ne_nil _ _)
    · rw [if_neg (by simpa [imp_iff_not_or] using hbad)]
      rfl
  case newHold =>
    simp only [he, Option.map_none, if_neg hk.ne', hfree]
    exact concluded_stakeDeltas s h b _ _ (List.cons_ne_nil _ _)
  case noFreeHold =>
    simp only [he, Option.map_none, if_neg hk.ne', hfree]
    rfl
  case withoutHold =>
    simp only [he, Option.map_none]
    exact ⟨rfl, rfl⟩
  case withHold =>
    simp only [he, Option.map_some]
    generalize ((s.dev.core b.core).holdsBefore b.cycle).hold i = v
    refine ⟨fun hbad => ?retireMissing, fun htime hle hown hall => ?retireLastOwn, fun htime hle hown => ?retire,
      fun hlt => ?advanceBack, fun htime => ?advanceSame, fun hlt => ?advance⟩
    case retireMissing =>
      rw [if_pos (by simpa using hbad)]
      rfl
    case retireLastOwn =>
      rw [if_neg (by simp [htime, hle]), if_pos (by simp [hown, hall])]
      rfl
    case retire =>
      rw [if_neg (by simp [htime, hle]), if_neg (by simpa [Nat.sub_eq_zero_iff_le] using hown)]
      exact concluded_stakeDeltas s h b _ _ (List.cons_ne_nil _ _)
    case advanceBack =>
      rw [if_pos hlt]
      rfl
    case advanceSame =>
      rw [if_neg (by simp [htime]), if_pos htime.symm]
      exact concluded_stakeDeltas_nil s h b _ _
    case advance =>
      rw [if_neg (by omega), if_neg (fun e => by simp [e] at hlt)]
      exact concluded_stakeDeltas s h b _ _ (List.cons_ne_nil _ _)

end Sys2Proof.Machine

/-!
SUPPORT. The state after package reset: no unit is listed in it, so each is as the .reset of its type says.
-/

namespace Sys2Proof.Machine

theorem State.reset_core (n : Nat) : State.reset.dev.core n = Core.reset n := rfl
theorem State.reset_grav (q : Nat) : State.reset.dev.grav q = Grav.reset := rfl
theorem State.reset_cpyq (q : Nat) : State.reset.dev.cpyq q = CpyQ.reset := rfl

/-- No store is in flight and no cell is listed, so every agent reads zeros. -/
theorem State.reset_reads (agent pa : Nat) : State.reset.reads agent pa = 0 := rfl

theorem Core.reset_run_tensor {n : Nat} (h : n < 256) : (Core.reset n).run = .idle := by
  simp [Core.reset, show ¬288 ≤ n by omega, show ¬256 ≤ n by omega]

theorem Core.reset_run_general {n : Nat} (h : 256 ≤ n) (h' : n < 288) : (Core.reset n).run = .running := by
  simp [Core.reset, show ¬288 ≤ n by omega, h]

theorem Core.reset_priv (n : Nat) : (Core.reset n).seq.priv = decide (256 ≤ n) := rfl

/-- Registers without a stated reset value read 0 (log entry 6); of the predicates p0 alone reads 1 (R60). -/
theorem Core.reset_registers (n k : Nat) :
    (Core.reset n).s k = 0 ∧ (Core.reset n).v k = 0 ∧ (Core.reset n).m k = 0 ∧ (Core.reset n).b k = 0 ∧
      (Core.reset n).p k = (k == 0) := by
  refine ⟨ite_self _, rfl, rfl, rfl, ?_⟩
  unfold Core.p Regs.pAt
  split
  · next h => simp [h]
  · next h => exact (beq_false_of_ne h).symm

/-- The row engine's words are 0, no row is live and every entry of the trace map is null (R314). -/
theorem RowState.reset_entries (i : Nat) :
    RowState.reset.word i = 0 ∧ RowState.reset.isLive i = false ∧ RowState.reset.trace i = 0xFFFF :=
  ⟨rfl, rfl, ite_self _⟩

/-- Settles O59: each unit and register is unlisted, so it has the reset value of its type. -/
theorem resetState : Obligations.ResetState := by
  unfold Obligations.ResetState
  simp only [State.reset_core, State.reset_grav, State.reset_cpyq]
  refine ⟨fun _ => rfl, rfl, fun _ => rfl, State.reset_reads, fun n h => ?tensor, fun n h h' => ?general,
    fun n => ?core, fun _ => ⟨rfl, rfl, rfl, rfl, rfl, rfl⟩, fun _ => ⟨rfl, rfl, rfl, rfl, rfl⟩,
    rfl, rfl, rfl, rfl, rfl, rfl, rfl, rfl⟩
  case tensor =>
    exact ⟨Core.reset_run_tensor h, rfl, by simp [Core.reset_priv, h]⟩
  case general =>
    exact ⟨Core.reset_run_general h h', by simp [Core.reset_priv, h], rfl, rfl, rfl, rfl, rfl⟩
  case core =>
    exact ⟨rfl, rfl, rfl, rfl, fun _ => rfl, rfl, rfl, rfl, Core.reset_registers n, rfl, rfl, RowState.reset_entries,
      rfl, rfl, rfl, rfl, rfl, rfl⟩

end Sys2Proof.Machine

/-!
SUPPORT. A bundle that faults (R39), and a syllable whose guard or edge is not met (R54, R55).
-/

namespace Sys2Proof.Machine

/-- What a fault leaves: of the bundle it reads what its issue recorded and the units before it, nothing of the units
since. -/
theorem State.faultBundle_of_some {s : State} {b : Bundle} (hb : s.bundle = some b) (d : Dev) (e : Event) :
    s.faultBundle d e =
      (({ s with
          dev := (((d.updCore b.core fun c => { c with remOps := [], cwaits := [] }).accountTo s.mem b.core
              (b.base.core b.core) b.addr b.words b.cycle s.time).takeEvent s.mem b.core (b.base.core b.core).inBundle
            b.addr b.next { e with sidx := b.idx } s.time)
          bundle := none } : State).settle).tick := by
  simp only [State.faultBundle, hb]

/-- Every syllable's meaning asks its guard and edge first, and does nothing but close where they are not met; only an
illegal opcode faults whether its guard holds or not (R46). -/
theorem exec_eq_ite_selected {i : Instr} {h : Hdr} {s : State} {b : Bundle} (hb : s.bundle = some b)
    (hh : hdrOf i = some h) (hi : ∀ h c o x, i ≠ .illegalOpcode h c o x) :
    ∃ o, exec i s = if selected b.issuer h = true then o else .next (s.closeSyllable h false) := by
  obtain ⟨mem, dev, time, free, agenda, cur, _⟩ := s
  cases hb
  cases i with
  | illegalOpcode h c o x => exact absurd rfl (hi h c o x)
  | _ => cases hh <;> exact ⟨_, rfl⟩

/-- Settles O48: a fault reads only the units before the bundle, and every syllable asks its guard and edge first. -/
theorem faultedBundleHasNoEffect : Obligations.FaultedBundleHasNoEffect := by
  unfold Obligations.FaultedBundleHasNoEffect
  refine ⟨fun s t b b' e hs ht hcore haddr hwords hcycle hnext hbase hidx hmem htime hfree hagenda hcur => ?fault,
    fun s b i h hb hh hsel hi => ?notSelected⟩
  case fault =>
    rw [State.faultBundle_of_some hs, State.faultBundle_of_some ht]
    refine ⟨?_, rfl⟩
    simp only [hcore, haddr, hwords, hcycle, hnext, hbase, hidx, hmem, htime, hfree, hagenda, hcur]
  case notSelected =>
    obtain ⟨o, ho⟩ := exec_eq_ite_selected hb hh hi
    rw [ho, if_neg (by simp [hsel])]

end Sys2Proof.Machine

/-!
SUPPORT. What a step runs: an event that is due, the head of the agenda, or a turn of the current core, and in that turn
the bundle at hand once every check before its execution has passed.
-/

namespace Sys2Proof.Machine

/-! ## A step -/

theorem step_of_due {s : State} {q : Due} (hq : s.due = some q) : step s = q.act s := by
  simp only [step, stepWith, hq]

theorem step_of_event {s : State} {i : Instr} {t : List Sched} (hq : s.due = none) (ha : s.agenda = .event i :: t)
    (hi : ¬ i.IsSyllable) : step s = exec i { s with agenda := t } := by
  have hi' : ¬ (hdrOf i).isSome = true := hi
  simp only [step, stepWith, hq, ha, if_neg hi']

theorem step_of_world {s : State} {w : World} {t : List Sched} (hq : s.due = none) (ha : s.agenda = .world w :: t) :
    step s = happening w.act { s with agenda := t } := by
  simp only [step, stepWith, hq, ha]

theorem step_of_turn {s : State} (hq : s.due = none) (ha : s.agenda = []) : step s = turn exec s s.cur := by
  simp only [step, stepWith, hq, ha]

/-! ## A turn -/

section
variable {ex : Meaning} {s : State} {n : Nat} {x : AtHand}

theorem turn_of_need {q : Need} (hneed : needOf s.mem s.dev n = some q) : turn ex s n = q.meet s := by
  simp only [turn, hneed]

/-- The bundle at hand is tried where the core's iteration bound has not run out at its cycle (R35). -/
theorem tryOrOverrun_of_inBound
    (h : ({ s.dev.core n with ready := x.cycle } : Core).overrunDue = false ∨ isGeneral n = true) :
    tryOrOverrun ex s n x = tryBundle ex s n x := by
  unfold tryOrOverrun
  exact if_neg (by simpa [imp_iff_not_or] using h)

/-- A running core that needs nothing first and discards nothing tries the bundle at hand, its own next one. -/
theorem turn_of_atHand (hneed : needOf s.mem s.dev n = none) (hrun : (s.dev.core n).run = .running)
    (hdis : (s.dev.core n).discards = false) (hx : atHand s.dev n = some x) (hskip : (s.dev.core n).lp.skip = 0)
    (hpc : x.src = 1 → x.f.addr = (s.dev.core n).pc) : turn ex s n = tryOrOverrun ex s n x := by
  have hown : ¬ (x.src = 1 ∧ ¬ x.f.addr = (s.dev.core n).pc) := fun h => h.2 (hpc h.1)
  simp [turn, hneed, hrun, hdis, hx, hskip, hown]

/-- Where every check before execution passes (R46, R51, R53, R318, R467), the syllables run. -/
theorem tryBundle_of_checks {c : Core} {is : List Instr} (hc : (s.begin n x).dev.core n = c)
    (his : decoded x.f.words = is) (hfault : x.f.fault = none)
    (hdecode : decodeFault (isGeneral n) c.seq.priv x.f.words = none) (hremote : c.remoteFailure x.f.words is = none)
    (hpush : c.pushDue x.cycle = false) (hmat : c.mat.busyUntil ≤ x.cycle) (hbusy : c.busyUntil ≤ x.cycle)
    (heng : c.engineWaits x.f.words is x.cycle = false)
    (haway : storesAway (s.begin n x).dev n = true →
      ((x.f.words.zip is).any fun (w, i) => endsPhase c w i) = false)
    (hstall : ∀ i ∈ is, stallsOn c i = false) (hscore : scoreboard c is x.cycle = none) :
    tryBundle ex s n x = runOrStall ex is ((s.begin n x).translating n is) n := by
  have hstall' : (is.any fun i => stallsOn c i) = false := by simpa using hstall
  have haway' : (storesAway (s.begin n x).dev n && (x.f.words.zip is).any fun (w, i) => endsPhase c w i) = false := by
    simpa [imp_iff_not_or] using haway
  unfold tryBundle
  simp only [hc, his, hfault, hdecode, hpush, hstall', if_neg (Nat.not_lt.2 hmat), if_neg (Nat.not_lt.2 hbusy), haway',
    heng, issueBundle, hscore, hremote, Bool.false_eq_true, if_false]

theorem runOrStall_of_next {is : List Instr} {t v : State} (h : runSyllables ex is t = .next v) :
    runOrStall ex is t n =
      if onlyStalled t v n = true then runSyllables ex is (t.hinted ex n is) else runSyllables ex is t := by
  simp only [runOrStall, h]

theorem runSyllables_singleton (i : Instr) (t : State) : runSyllables ex [i] t = ex i t := by
  simp only [runSyllables]
  split
  · next h => simp [h]
  · rfl

end

theorem runSyllables_cons (ex : Meaning) (i : Instr) (is : List Instr) (s : State) :
    runSyllables ex (i :: is) s = match ex i s with
      | .next s' => if s'.bundle = none then .next s' else runSyllables ex is s'
      | o => o := by
  cases h : ex i s with
  | next s' => simp only [runSyllables, h, Option.isNone_iff_eq_none]
  | _ => simp only [runSyllables, h]

/-! ## Decoding and fetching -/

theorem decodeRaw_of_decodeWord {w : Nat} {i : Instr} (h : decodeWord w = .ok i) : decodeRaw w = some i := by
  unfold decodeWord at h
  split at h
  · cases h
  · next j hj =>
    split at h
    · cases h
      exact hj
    · cases h

theorem decoded_singleton {w : Word} {i : Instr} (h : decodeWord w.toNat = .ok i) : decoded [w] = [i] := by
  simp [decoded, decodeRaw_of_decodeWord h]

/-- A general core's bundle whose first word ends it is the word that memory holds there (R44, R516). -/
theorem corePort_bundle_of_general {m : Memory} {d : Dev} {n pa : Nat} {va : Word} (hn : isGeneral n = true)
    (hpa : (corePort d n).address m d va = .ok pa) (hend : (readWord m d everyone pa).getLsbD 60 = true) :
    (corePort d n).bundle m d va = .ok [readWord m d everyone pa] := by
  have hword : (corePort d n).word m d va pa = .ok [readWord m d everyone pa] := by
    simp [corePort, hn, FetchPort.word]
  simp only [FetchPort.bundle, FetchPort.words, hpa, hword, hend, if_true]

/-- Settles O57: a step without a due event and with an empty agenda is a turn of the current core, and a turn with a
bundle at hand that passes the checks runs its syllables. -/
theorem stepRunsDecodedBundle : Obligations.StepRunsDecodedBundle := by
  unfold Obligations.StepRunsDecodedBundle
  refine ⟨?bundle, runSyllables_cons exec, fun s n hq ha => ⟨fun hneed => ?fetch, fun hneed => ?register⟩,
    fun s q => step_of_due, fun m d n pa va => corePort_bundle_of_general, fun s i t => step_of_event,
    fun s w t => step_of_world⟩
  case bundle =>
    intro s x c t c' is u hq ha hneed hrun hdis hover hx hskip hpc hfault hdecode hremote hpush hmat hbusy heng haway
      hstall hscore
    have hstep : step s = runOrStall exec is u s.cur := by
      rw [step_of_turn hq ha, turn_of_atHand hneed hrun hdis hx hskip hpc, tryOrOverrun_of_inBound hover]
      exact tryBundle_of_checks rfl rfl hfault hdecode hremote hpush hmat hbusy heng haway hstall hscore
    refine ⟨fun v hv => ?_, fun w i v hw hi hv => ?_⟩
    · rw [hstep, runOrStall_of_next hv]
    · have his : is = [i] := by
        simp only [is, hw, decoded_singleton hi]
      have hv' : runSyllables exec [i] u = .next v := by rw [runSyllables_singleton, hv]
      rw [hstep, his, runOrStall_of_next hv']
      simp only [runSyllables_singleton]
      split <;> rfl
  case fetch =>
    rw [step_of_turn hq ha, turn_of_need hneed]
    rfl
  case register =>
    rw [step_of_turn hq ha, turn_of_need hneed]
    rfl

end Sys2Proof.Machine

/-!
SUPPORT. What the shared operations leave of a core: writes of records and memory leave every core, and the accounts of
cycles (R489-R491) and the record of an event (R181-R183) leave its work and the requests to other packages.
-/

namespace Sys2Proof.Machine

/-! ## Operations that leave every core -/

section
variable (d : Dev) (n k src scope time : Nat) (m : Memory)

@[simp] theorem Dev.core_updCluster (g : Nat) (f : Cluster → Cluster) : (d.updCluster g f).core k = d.core k := rfl
@[simp] theorem Dev.core_updDie (g : Nat) (f : Die → Die) : (d.updDie g f).core k = d.core k := rfl
@[simp] theorem Dev.core_countRecord : (d.countRecord src).core k = d.core k := rfl

@[simp] theorem Dev.core_release : (d.release src scope).core k = d.core k := by
  unfold Dev.release
  split <;> rfl

@[simp] theorem Dev.core_toPartQueue (p : Nat) (words : List Word) : (d.toPartQueue src p words).core k = d.core k := by
  unfold Dev.toPartQueue
  split
  · rfl
  · split <;> rfl

@[simp] theorem Dev.core_engineReport (ctx : Nat) (cause : BitVec 8) (kind : EvKind) (baddr info0 info1 : Word) :
    (d.engineReport src ctx cause kind baddr info0 info1 time).core k = d.core k := by
  unfold Dev.engineReport Dev.toRing
  split <;> rfl

@[simp] theorem Dev.core_traceAppend (u ctx : Nat) (words : List Word) :
    (d.traceAppend m u ctx words).core k = d.core k := by
  unfold Dev.traceAppend
  split
  · rfl
  · dsimp only
    split
    · rfl
    · split <;> rfl

@[simp] theorem Dev.core_unfuse (g : Nat) : (d.unfuse g).core k = d.core k := by
  unfold Dev.unfuse
  split <;> rfl

@[simp] theorem Dev.core_noteHalt : (d.noteHalt n time).core k = d.core k := by
  unfold Dev.noteHalt
  split
  · split <;> rfl
  · rfl

@[simp] theorem Dev.core_noteEnded (ctx : Nat) (id : Word) : (d.noteEnded ctx id).core k = d.core k := by
  unfold Dev.noteEnded
  dsimp only
  split <;> rfl

@[simp] theorem Dev.core_leaveGroup : (d.leaveGroup n).core k = d.core k := by
  unfold Dev.leaveGroup
  dsimp only
  split
  · rfl
  · split
    · simp
    · rfl

@[simp] theorem core_counterSet (ctx i idx : Nat) (v : Word) : (counterSet d ctx i idx v).core k = d.core k := by
  unfold counterSet
  dsimp only
  split <;> rfl

@[simp] theorem core_counterOp (ctx i idx : Nat) (op : CounterOp) : (counterOp m d ctx i idx op).1.core k = d.core k := by
  cases op with
  | add v =>
    simp only [counterOp]
    split <;> exact core_counterSet ..
  | raise v => exact core_counterSet ..
  | read => exact core_counterSet ..

@[simp] theorem core_enterDeltas (die ctx : Nat) (ds : List Delta) :
    (enterDeltas d src die ctx ds time).core k = d.core k := by
  unfold enterDeltas
  split
  · rfl
  · split
    · rfl
    · unfold Dev.reportFull
      dsimp only
      split
      · rfl
      · simp

@[simp] theorem core_engineAdd (ctx : Nat) (id v : Word) : (engineAdd m d src ctx id v time).core k = d.core k := by
  unfold engineAdd
  split
  · rfl
  · dsimp only
    split <;> simp
  · rfl

@[simp] theorem core_completionAdd (ctx outcome die : Nat) (words : List Word) (ds : List Delta) :
    (completionAdd m d src ctx words outcome die ds time).core k = d.core k := by
  unfold completionAdd
  dsimp only
  split
  · exact (core_engineAdd ..).trans (Dev.core_release ..)
  · simp

end

/-! ## Accounts and records -/

/-- A core without its accounts: cycles charged and not (R489, R491), event counters (R494), samples (R490), the number
of its trace records (R486) and the record of its last event (R176). -/
def Core.work (c : Core) : Core :=
  { c with cc := [], ev := EvCounters.reset, charged := 0, gaps := [], sample := none, tseq := 0
           seq := { c.seq with seqno := 0, frec := [] } }

section
variable (c : Core)

@[simp] theorem Core.work_gap (why x y : Nat) : (c.gap why x y).work = c.work := by
  unfold Core.gap
  split <;> rfl

@[simp] theorem Core.work_count (e k : Nat) : (c.count e k).work = c.work := rfl

theorem Core.work_cc (t : Tab Nat) : ({ c with cc := t } : Core).work = c.work := rfl

@[simp] theorem Core.work_charge (cls why k : Nat) : (c.charge cls why k).work = c.work := by
  simp only [Core.charge, apply_ite Core.work, Core.work_count, Core.work_cc, ite_self]

@[simp] theorem Core.work_chargeGap (b : Core) (ws : List Word) (x y : Nat) : (c.chargeGap b ws x y).work = c.work :=
  List.foldlRecOn (motive := fun e : Core => e.work = c.work) _ _ rfl fun _ h _ _ => (Core.work_charge ..).trans h

end

/-- From d to d' core n keeps its work, and the requests to other packages stay. -/
structure Dev.Accounted (n : Nat) (d d' : Dev) : Prop where
  work : (d'.core n).work = (d.core n).work
  remote : d'.remote = d.remote

namespace Dev.Accounted

variable {n : Nat} {d d' d'' : Dev}

theorem refl (n : Nat) (d : Dev) : Accounted n d d := ⟨rfl, rfl⟩

theorem trans (h : Accounted n d d') (h' : Accounted n d' d'') : Accounted n d d'' :=
  ⟨h'.work.trans h.work, h'.remote.trans h.remote⟩

theorem updCore {f : Core → Core} (h : (f (d.core n)).work = (d.core n).work) : Accounted n d (d.updCore n f) :=
  ⟨by rw [Dev.core_updCore_same, h], rfl⟩

theorem foldl {α : Type} {f : Dev → α → Dev} (h : ∀ e x, Accounted n e (f e x)) (l : List α) :
    Accounted n d (l.foldl f d) :=
  List.foldlRecOn (motive := Accounted n d) _ _ (refl n d) fun _ hb x _ => hb.trans (h _ x)

theorem task (h : Accounted n d d') : (d'.core n).task = (d.core n).task := (congrArg Core.task h.work :)

theorem preempt (h : Accounted n d d') : (d'.core n).preempt = (d.core n).preempt :=
  (congrArg Core.preempt h.work :)

theorem storesAway (h : Accounted n d d') : Machine.storesAway d' n = Machine.storesAway d n := by
  simp only [Machine.storesAway, h.remote]

variable (n d) (m : Memory) (time : Nat)

theorem toPartQueue (p : Nat) (words : List Word) : Accounted n d (d.toPartQueue n p words) := by
  refine ⟨by rw [Dev.core_toPartQueue], ?_⟩
  unfold Dev.toPartQueue
  split
  · rfl
  · split <;> rfl

theorem traceAppend (u ctx : Nat) (words : List Word) : Accounted n d (d.traceAppend m u ctx words) := by
  refine ⟨by rw [Dev.core_traceAppend], ?_⟩
  unfold Dev.traceAppend
  split
  · rfl
  · dsimp only
    split
    · rfl
    · split <;> rfl

theorem traceCore (c : Core) (baddr : Word) (type sub cls : Nat) (payload : Word) :
    Accounted n d (d.traceCore m n c baddr type sub cls payload time) := by
  unfold Dev.traceCore
  split
  · exact refl n d
  · exact trans (updCore rfl) (traceAppend ..)

theorem sampleTo (b : Core) (addr : Word) (ws : List Word) (upto : Nat) :
    Accounted n d (d.sampleTo m n b addr ws upto time) := by
  unfold Dev.sampleTo
  split
  · exact refl n d
  · split
    · exact refl n d
    · refine trans (foldl (fun e i => traceCore n e m time ..) _) (updCore ?_)
      exact (apply_ite Core.work ..).trans (ite_self _)

theorem accountTo (b : Core) (addr : Word) (ws : List Word) (upto : Nat) :
    Accounted n d (d.accountTo m n b addr ws upto time) := by
  unfold Dev.accountTo
  refine trans (updCore ?_) (sampleTo ..)
  exact Core.work_chargeGap ..

theorem accountNow : Accounted n d (d.accountNow m n time) := accountTo ..

end Dev.Accounted

/-! ## The end of a task (R32) -/

section
variable (m : Memory) (d : Dev) (n outcome time : Nat)

@[simp] theorem Dev.core_endPhase_preempt : ((d.endPhase n).core n).preempt = (d.core n).preempt := by
  simp [Dev.endPhase]

@[simp] theorem Dev.core_reportLeft_preempt (ctx : Nat) :
    ((d.reportLeft n ctx time).core n).preempt = (d.core n).preempt := by
  unfold Dev.reportLeft
  refine List.foldlRecOn (motive := fun x : Dev => (x.core n).preempt = (d.core n).preempt) _ _ (by simp)
    fun x hx e _ => ?_
  dsimp only
  split <;> simpa [Core.keepRecord] using hx

@[simp] theorem Dev.core_dropHandles_preempt : ((d.dropHandles n).core n).preempt = (d.core n).preempt := by
  unfold Dev.dropHandles
  simp only [Dev.core_updCore_same]
  split <;> rfl

theorem Dev.core_ite_preempt {p : Prop} [Decidable p] {d d' : Dev} {n : Nat}
    (h : (d'.core n).preempt = (d.core n).preempt) :
    ((if p then d' else d).core n).preempt = (d.core n).preempt := by
  split
  · exact h
  · rfl

/-- A task whose stores in other packages have all been made is gone; its core halts where a pre-emption is pending and
is idle otherwise (R32, R35). -/
theorem Dev.taskEnd_of_no_store {t : Task} (ht : (d.core n).task = some t) (ha : storesAway d n = false) :
    ((d.taskEnd m n outcome time).core n).task = none ∧
      ((d.taskEnd m n outcome time).core n).run = if (d.core n).preempt = true then .halted else .idle := by
  simp only [Dev.taskEnd, ht, ha, Dev.core_updCore_same, Bool.false_eq_true, if_false, true_and]
  congr 2
  refine (Dev.core_ite_preempt (by rw [Dev.core_noteHalt])).trans ?_
  refine (Dev.core_ite_preempt (by rw [Dev.core_leaveGroup])).trans ?_
  refine (Dev.core_ite_preempt (Dev.Accounted.traceCore ..).preempt).trans ?_
  simp only [Dev.core_noteEnded, core_completionAdd, Dev.core_dropHandles_preempt, Dev.core_endPhase_preempt,
    Dev.core_reportLeft_preempt, Dev.core_updCore_same]
  exact (congrArg Core.preempt (Core.work_charge ..) :)

theorem Dev.taskEnd_task_of_no_store (ha : storesAway d n = false) :
    ((d.taskEnd m n outcome time).core n).task = none := by
  cases ht : (d.core n).task with
  | none => simp only [Dev.taskEnd, ht]
  | some t => exact (d.taskEnd_of_no_store m n outcome time ht ha).1

/-- A task with a store under way to another package waits for it before it ends (R131, log entry 106). -/
theorem Dev.taskEnd_of_store {t : Task} (ht : (d.core n).task = some t) (ha : storesAway d n = true) :
    ((d.taskEnd m n outcome time).core n).task = some t ∧
      Wait.ending outcome ∈ ((d.taskEnd m n outcome time).core n).waits := by
  simp [Dev.taskEnd, ht, ha]

end

/-- The property that the statements name: a remote store of the core has no answer yet. -/
theorem storesAway_iff {d : Dev} {n : Nat} : storesAway d n = true ↔ ∃ r ∈ d.remote, r.src = n ∧ r.kind = .store := by
  simp [storesAway]

theorem storesAway_eq_false_iff {d : Dev} {n : Nat} :
    storesAway d n = false ↔ ¬ ∃ r ∈ d.remote, r.src = n ∧ r.kind = .store := by
  rw [← storesAway_iff, Bool.not_eq_true]

/-! ## Taking an event (R181, R184) -/

section
variable {m : Memory} {d : Dev} {n : Nat} {b : Core} {baddr next : Word} {e : Event} {time : Nat}

/-- A fault on a tensor core: its record is written, and its task ends as faulted (R181-R183). -/
theorem Dev.takeEvent_fault (hn : isGeneral n = false) (he : e.kind = .fault) :
    ∃ d', Dev.Accounted n d d' ∧ d.takeEvent m n b baddr next e time = d'.taskEnd m n 3 time := by
  simp only [Dev.takeEvent, hn, he, Bool.false_eq_true, if_false]
  refine ⟨_, ?_, rfl⟩
  have hrecord {no : BitVec 32} {words : List Word} :
      Dev.Accounted n d ((d.countRecord n).updCore n fun c => c.keepRecord no words) :=
    .trans (d' := d.countRecord n) ⟨rfl, rfl⟩ (.updCore rfl)
  split
  · exact hrecord.trans (.toPartQueue ..)
  · exact hrecord

/-- On a general core in user mode an event is a trap entry (R184). -/
theorem Dev.takeEvent_trap (hn : isGeneral n = true) (hp : (d.core n).seq.priv = false) :
    ∃ words, d.takeEvent m n b baddr next e time =
      (d.countRecord n).updCore n fun c => c.trapEntry e baddr next (d.seqnoOf n) words := by
  simp only [Dev.takeEvent, hn, hp, Bool.false_eq_true, if_true, if_false]
  exact ⟨_, rfl⟩

end

end Sys2Proof.Machine

/-!
SUPPORT. The events of a core (02_execution_model.md): each happens where its condition holds, and what it leaves there.
-/

namespace Sys2Proof.Machine

/-! ## What a core waits for -/

/-- A wait of a phase end (R129). -/
def Wait.isPhase : Wait → Bool
  | .phase _ => true
  | _ => false

/-- The outcome with which a task that waits for its stores in other packages ends (R131). -/
def Wait.outcome : Wait → Option Nat
  | .ending o => some o
  | _ => none

theorem Wait.isPhase_iff {w : Wait} : w.isPhase = true ↔ ∃ k, w = .phase k := by
  cases w <;> simp [Wait.isPhase]

theorem Wait.outcome_iff {w : Wait} {o : Nat} : w.outcome = some o ↔ w = .ending o := by
  cases w <;> simp [Wait.outcome]

/-! ## Landings and answers (R49, R236, R260, R350) -/

section
variable {s : State} {n : Nat} (hl : s.Live)
include hl

theorem exec_resultLanding_answered {k : Nat} {e : Pend} (he : (s.dev.core n).pend[k]? = some e) (hdue : e.due = none)
    (hready : e.ready = true) (hafter : e.after ≤ (s.dev.core n).ready) :
    exec (.resultLanding n k) s = .next (s.happened (s.dev.setCore n ((s.dev.core n).landAt k))) := by
  rw [exec_resultLanding, execResultLanding]
  exact happening_some hl (by simp [he, hdue, hready, hafter])

theorem exec_resultLanding_due {k x : Nat} {e : Pend} (he : (s.dev.core n).pend[k]? = some e) (hdue : e.due = some x)
    (hx : x ≤ (s.dev.core n).ready) :
    exec (.resultLanding n k) s = .next (s.happened (s.dev.setCore n ((s.dev.core n).landBy x))) := by
  rw [exec_resultLanding, execResultLanding]
  exact happening_some hl (by simp [he, hdue, hx])

theorem exec_pushLanding_due {p : Push} {t : List Push} {q : AccSlot} (hp : (s.dev.core n).mat.pushes = p :: t)
    (hdue : p.due ≤ (s.dev.core n).ready) (hq : tget (s.dev.core n).mat.slots p.slot = some q) :
    ∃ d, exec (.pushLanding n) s = .next (s.happened d) ∧ (d.core n).mat.pushes = t ∧
      (d.core n).r = (s.dev.core n).r ∧
      tget (d.core n).mat.slots p.slot = some (q.land p fun j => Config.freeAcc (128 * s.free + j)) := by
  refine ⟨?d, ?exec, ?lands⟩
  case exec =>
    rw [exec_pushLanding, execPushLanding]
    refine happening_some hl ?_
    simp only [hp, Nat.not_lt.2 hdue, decide_false, Bool.false_and, Bool.false_eq_true, if_false]
    rfl
  case lands => simp [MatState.landPush, hp, hq, tget_tset_same]

theorem exec_probeLookup_due {k x : Nat} {y : Handle} {e : Pend} (hk : (s.dev.core n).lookupDue = some k)
    (he : (s.dev.core n).pend[k]? = some e) (hres : e.res = .h x y) :
    exec (.probeLookup n) s = .next (s.happened (s.dev.setCore n { s.dev.core n with
      r := (s.dev.core n).r.land (s.dev.core n).lp.mloop.isSome (.h x y)
      pend := (s.dev.core n).pend.eraseIdx k })) := by
  rw [exec_probeLookup, execProbeLookup]
  exact happening_some hl (by simp [hk, Core.landAt, he, hres])

theorem exec_syncAnswer_waiting (hw : Wait.answer ∈ (s.dev.core n).waits) :
    exec (.syncAnswer n) s = .next (s.happened
      (s.dev.setCore n { s.dev.core n with waits := (s.dev.core n).waits.filter (· ≠ .answer) })) := by
  rw [exec_syncAnswer, execSyncAnswer]
  exact happening_some hl (by simp [hw])

/-! ## The end of a phase (R129, R131) -/

omit hl in
theorem Dev.core_beginPhase (d : Dev) (n : Nat) :
    (∀ k, Wait.phase k ∉ ((d.beginPhase n).core n).waits) ∧ ((d.beginPhase n).core n).r = (d.core n).r := by
  simp only [Dev.beginPhase, Dev.core_updCore_same]
  refine ⟨by simp, ?_⟩
  split <;> rfl

omit hl in
/-- PHASE_END_COMPLETE: with a phase to end the next one begins, without one the task that waits for its stores ends. -/
theorem exec_phaseEndComplete_eq : exec (.phaseEndComplete n) s = happening (fun s =>
    if storesAway s.dev n = true then none
    else if (!(s.dev.core n).waits.any Wait.isPhase) = true then
      ((s.dev.core n).waits.findSome? Wait.outcome).map fun o => s.dev.taskEnd s.mem n o s.time
    else some ((s.dev.beginPhase n).updCore n fun y => y.phaseWaited (Config.freeCycles s.free))) s := rfl

theorem exec_phaseEndComplete_phase {k : Nat} (hk : Wait.phase k ∈ (s.dev.core n).waits)
    (ha : storesAway s.dev n = false) :
    exec (.phaseEndComplete n) s = .next (s.happened
      ((s.dev.beginPhase n).updCore n fun y => y.phaseWaited (Config.freeCycles s.free))) := by
  rw [exec_phaseEndComplete_eq]
  have hdue : (s.dev.core n).waits.any Wait.isPhase = true := List.any_eq_true.2 ⟨_, hk, rfl⟩
  exact happening_some hl (by simp [ha, hdue])

theorem exec_phaseEndComplete_ending {k : Nat} (hk : Wait.ending k ∈ (s.dev.core n).waits)
    (hphase : ∀ j, Wait.phase j ∉ (s.dev.core n).waits) (ha : storesAway s.dev n = false) :
    ∃ o, Wait.ending o ∈ (s.dev.core n).waits ∧
      exec (.phaseEndComplete n) s = .next (s.happened (s.dev.taskEnd s.mem n o s.time)) := by
  rw [exec_phaseEndComplete_eq]
  have hdue : (s.dev.core n).waits.any Wait.isPhase = false := by
    rw [List.any_eq_false]
    intro w hw hph
    obtain ⟨j, rfl⟩ := Wait.isPhase_iff.1 hph
    exact hphase j hw
  cases ho : (s.dev.core n).waits.findSome? Wait.outcome with
  | none => exact absurd (List.findSome?_eq_none_iff.1 ho _ hk) (by simp [Wait.outcome])
  | some o =>
    obtain ⟨w, hw, hwo⟩ := List.exists_of_findSome?_eq_some ho
    refine ⟨o, Wait.outcome_iff.1 hwo ▸ hw, happening_some hl ?_⟩
    simp [ha, hdue, ho]

end

/-! ## Pre-emption (R35, R193) -/

/-- A core halts with its registers, its task and its place; it leaves the attached set, and which set it was in is
kept. -/
theorem Dev.core_haltCore {d : Dev} {n : Nat} {c : Core} (h : (d.core n).work = c.work) :
    ((d.haltCore n).core n).run = .halted ∧ ((d.haltCore n).core n).r = c.r ∧ ((d.haltCore n).core n).task = c.task ∧
      ((d.haltCore n).core n).pc = c.pc ∧ ((d.haltCore n).core n).savedAtt = c.attached ∧
      ((d.haltCore n).core n).ready = c.ready := by
  have hr : (d.core n).r = c.r := (congrArg Core.r h :)
  have htask : (d.core n).task = c.task := (congrArg Core.task h :)
  have hpc : (d.core n).pc = c.pc := (congrArg Core.pc h :)
  have hatt : (d.core n).attached = c.attached := (congrArg Core.attached h :)
  have hready : (d.core n).ready = c.ready := (congrArg Core.ready h :)
  have hunfuse : (if (d.core n).isMember then d.unfuse (clusterOf n) else d).core n = d.core n := by
    split
    · exact Dev.core_unfuse ..
    · rfl
  simp only [Dev.haltCore, Dev.core_updCore_same]
  split
  · simp only [Dev.endPhase, Dev.core_setCore_same, hunfuse]
    exact ⟨trivial, hr, htask, hpc, hatt, hready⟩
  · exact ⟨trivial, hr, htask, hpc, hatt, hready⟩

theorem Core.le_quietAt (c : Core) : c.row.busyUntil ≤ c.quietAt ∧ c.mat.busyUntil ≤ c.quietAt := by
  unfold Core.quietAt
  omega

/-- A core about to halt: its engines have finished, and with a task its cycles are charged (R193, R489). -/
def Dev.quieted (m : Memory) (d : Dev) (n time : Nat) : Dev :=
  let q := d.updCore n fun c => ({ c with ready := c.quietAt } : Core).gap 2 c.charged c.quietAt
  if (d.core n).task.isSome then q.accountNow m n time else q

theorem Dev.core_quieted_work (m : Memory) (d : Dev) (n time : Nat) :
    ((d.quieted m n time).core n).work = ({ d.core n with ready := (d.core n).quietAt } : Core).work := by
  have hquiet : ((d.updCore n fun c => ({ c with ready := c.quietAt } : Core).gap 2 c.charged c.quietAt).core n).work =
      ({ d.core n with ready := (d.core n).quietAt } : Core).work := by
    rw [Dev.core_updCore_same, Core.work_gap]
  unfold Dev.quieted
  dsimp only
  split
  · exact (Dev.Accounted.accountNow ..).work.trans hquiet
  · exact hquiet

/-- An interrupt that a core has taken is pending no more (R184; log entry 86). -/
def Dev.irqTaken (d : Dev) (n : Nat) : Dev := { d with sys := { d.sys with irq := d.sys.irq.erase (n - 256) } }

/-- Where a core halts at a pending pre-emption: idle, or at a boundary that is waited for and not left (R35). -/
theorem Core.haltDue_of {c : Core} (hp : c.preempt = true) (hq : c.csrq = [])
    (h : c.run = .idle ∨ (c.run = .running ∧ c.atBnd = true ∧ c.waits = [] ∧ c.boundaryDue = false ∧
      ∀ t ∈ c.task, t.leaving = false)) : c.haltDue = true := by
  obtain hidle | ⟨hrun, hbnd, hwaits, hdue, hleave⟩ := h
  · simp [Core.haltDue, hp, hq, hidle]
  · cases ht : c.task with
    | none => simp [Core.haltDue, hp, hq, hrun, hbnd, hwaits, hdue, ht]
    | some t => simp [Core.haltDue, hp, hq, hrun, hbnd, hwaits, hdue, ht, hleave t ht]

/-- The iteration bound of a core's task has run out, which is not ending already (R35). -/
theorem Core.overrunDue_of {c : Core} {t : Task} (hp : c.preempt = true) (hrun : c.run = .running) (ht : c.task = some t)
    (hover : wfld (nth t.words 7 0) 32 32 < c.spanCycles) (hend : ∀ k, Wait.ending k ∉ c.waits) :
    c.overrunDue = true := by
  have hending : c.isEnding = false := by
    unfold Core.isEnding
    rw [List.any_eq_false]
    intro w hw
    cases w with
    | ending k => exact absurd hw (hend k)
    | _ => simp
  simp only [Core.overrunDue, hp, hrun, hending, ht, hover]
  rfl

section
variable {s : State} {n : Nat} (hl : s.Live)
include hl

theorem exec_preemptHalt_due (hn : isGeneral n = false) (hdue : (s.dev.core n).haltDue = true)
    (hpush : (s.dev.core n).mat.pushes = []) :
    ∃ d, exec (.preemptHalt n) s = .next (s.happened d) ∧ (d.core n).run = .halted ∧
      (d.core n).r = (s.dev.core n).r ∧ (d.core n).task = (s.dev.core n).task ∧ (d.core n).pc = (s.dev.core n).pc ∧
      (d.core n).savedAtt = (s.dev.core n).attached ∧ (s.dev.core n).row.busyUntil ≤ (d.core n).ready ∧
      (s.dev.core n).mat.busyUntil ≤ (d.core n).ready := by
  rw [exec_preemptHalt, execPreemptHalt]
  refine ⟨((s.dev.quieted s.mem n s.time).haltCore n).noteHalt n s.time, happening_some hl ((if_neg ?_).trans rfl), ?_⟩
  · simp [hn, hdue, hpush]
  · obtain ⟨hrun, hr, htask, hpc, hatt, hready⟩ := Dev.core_haltCore (Dev.core_quieted_work s.mem s.dev n s.time)
    rw [Dev.core_noteHalt, hready]
    exact ⟨hrun, hr, htask, hpc, hatt, (s.dev.core n).le_quietAt⟩

/-- An overrun takes its fault as the task's end, in a device that differs from this one in accounts alone. -/
theorem exec_iterationOverrun_due {t : Task} (hn : isGeneral n = false) (ht : (s.dev.core n).task = some t)
    (hdue : (s.dev.core n).overrunDue = true) :
    ∃ d, Dev.Accounted n s.dev d ∧ exec (.iterationOverrun n) s = .next (s.happened (d.taskEnd s.mem n 3 s.time)) := by
  rw [exec_iterationOverrun, execIterationOverrun]
  obtain ⟨d, hd, hend⟩ := Dev.takeEvent_fault (m := s.mem) (d := s.dev.accountNow s.mem n s.time)
    (b := s.dev.core n) (baddr := (s.dev.core n).pc) (next := (s.dev.core n).pc)
    (e := mkFault 0x07 (toW (wfld (nth t.words 7 0) 32 32)) (toW (s.dev.core n).spanCycles)) (time := s.time) hn rfl
  refine ⟨d, (Dev.Accounted.accountNow ..).trans hd, happening_some hl ((if_neg ?_).trans ?_)⟩
  · simp [hn, hdue]
  · simp only [ht, hend]

theorem iterationOverrun_ends {t : Task} (hn : isGeneral n = false) (ht : (s.dev.core n).task = some t)
    (hdue : (s.dev.core n).overrunDue = true) (hp : (s.dev.core n).preempt = true) :
    ∃ d, exec (.iterationOverrun n) s = .next (s.happened d) ∧
      (storesAway s.dev n = false → (d.core n).task = none ∧ (d.core n).run = .halted) ∧
      (storesAway s.dev n = true → (d.core n).task = some t ∧ Wait.ending 3 ∈ (d.core n).waits) := by
  obtain ⟨d, hd, hexec⟩ := exec_iterationOverrun_due hl hn ht hdue
  refine ⟨_, hexec, fun ha => ?_, fun ha => ?_⟩
  · have hend := d.taskEnd_of_no_store s.mem n 3 s.time (hd.task.trans ht) (hd.storesAway.trans ha)
    rwa [hd.preempt, hp, if_pos rfl] at hend
  · exact d.taskEnd_of_store s.mem n 3 s.time (hd.task.trans ht) (hd.storesAway.trans ha)

/-! ## Interrupts (R184, R158) -/

theorem exec_interrupt_pending (hn : isGeneral n = true) (hrun : (s.dev.core n).run = .running)
    (hp : (s.dev.core n).seq.priv = false) (hie : (s.dev.core n).seq.ie = true)
    (hirq : s.dev.sys.irq.contains (n - 256) = true) :
    ∃ d words, exec (.interrupt n) s = .next (s.happened d) ∧ d.sys.irq = s.dev.sys.irq.erase (n - 256) ∧
      d.core n = (s.dev.core n).trapEntry (mkStop 0xE2 0 0) (s.dev.core n).pc (s.dev.core n).pc (s.dev.seqnoOf n) words := by
  rw [exec_interrupt, execInterrupt]
  obtain ⟨words, hw⟩ := Dev.takeEvent_trap (m := s.mem) (d := s.dev.irqTaken n) (b := s.dev.core n)
    (baddr := (s.dev.core n).pc) (next := (s.dev.core n).pc) (e := mkStop 0xE2 0 0) (time := s.time) hn hp
  refine ⟨_, words, happening_some hl ((if_neg ?_).trans (congrArg some hw)), rfl, ?_⟩
  · simp [hn, hrun, hp, hie, List.contains_iff_mem.1 hirq]
  · rw [Dev.core_updCore_same]
    rfl

theorem exec_haltWake_pending (hn : isGeneral n = true) (hrun : (s.dev.core n).run = .asleep)
    (hirq : s.dev.sys.irq.contains (n - 256) = true) :
    exec (.haltWake n) s = .next (s.happened
      ((s.dev.irqTaken n).updCore n fun x => { x with run := .running })) := by
  rw [exec_haltWake, execHaltWake]
  exact happening_some hl (if_pos (by simp [hrun, hn, List.contains_iff_mem.1 hirq]))

end

/-! ## Resolutions of a held core (R181, R187) -/

theorem Core.work_afterHold (c : Core) (k : Nat) :
    (c.afterHold k).work = ({ c with run := .running, ready := c.ready + k, heldSum := c.heldSum + k } : Core).work :=
  Core.work_gap ..

/-- A hold that ends leaves registers, place and task as they are. -/
theorem Core.afterHold_keeps (c : Core) (k : Nat) :
    (c.afterHold k).run = .running ∧ (c.afterHold k).r = c.r ∧ (c.afterHold k).pc = c.pc ∧
      (c.afterHold k).task = c.task :=
  have h := Core.work_afterHold c k
  ⟨(congrArg Core.run h :), (congrArg Core.r h :), (congrArg Core.pc h :), (congrArg Core.task h :)⟩

/-- A refetch changes the buffers of cores alone (R214). -/
theorem Dev.core_refetch (d : Dev) (g n : Nat) : ∃ ib, (d.refetch g).core n = { d.core n with ibuf := ib } := by
  refine List.foldlRecOn (motive := fun x : Dev => ∃ ib, x.core n = { d.core n with ibuf := ib }) _ _ ⟨_, rfl⟩ ?_
  intro x ⟨ib, hx⟩ k _
  by_cases hk : n = k
  · subst hk
    exact ⟨_, by rw [Dev.core_updCore_same, hx]⟩
  · exact ⟨ib, by rw [Dev.core_updCore_other _ _ _ _ hk, hx]⟩

theorem Dev.core_refetch_if (b : Bool) (d : Dev) (g n : Nat) :
    ∃ ib, (if b = true then d.refetch g else d).core n = { d.core n with ibuf := ib } := by
  split
  · exact d.core_refetch g n
  · exact ⟨_, rfl⟩

theorem Core.afterHold_of_ibuf {c c' : Core} (h : ∃ ib, c' = { c with ibuf := ib }) (k : Nat) :
    (c'.afterHold k).run = .running ∧ (c'.afterHold k).r = c.r ∧ (c'.afterHold k).pc = c.pc ∧
      (c'.afterHold k).task = c.task := by
  obtain ⟨ib, rfl⟩ := h
  exact Core.afterHold_keeps ..

section
variable {d : Dev} {n cycles time : Nat} {e : Event} {m : Memory}

theorem Dev.replay_of_held (hrun : (d.core n).run = .held e) (hk : e.kind = .replayable) :
    ∃ d', d.replay n cycles = some d' ∧ (d'.core n).run = .running ∧ (d'.core n).r = (d.core n).r ∧
      (d'.core n).pc = (d.core n).pc ∧ (d'.core n).task = (d.core n).task := by
  simp only [Dev.replay, hrun, hk, ne_eq, not_true_eq_false, if_false]
  refine ⟨_, rfl, ?_⟩
  rw [Dev.core_updCore_same]
  have hforget (p : Prop) [Decidable p] (x : Dev) (ctx g : Nat) (va : Word) :
      (if p then x.forgetPage ctx g va else x).core n = x.core n := by
    split <;> rfl
  rw [hforget]
  exact Core.afterHold_of_ibuf (Dev.core_refetch_if ..) cycles

theorem Dev.continueStop_of_held (hrun : (d.core n).run = .held e) (hk : e.kind = .stop)
    (hexit : (d.core n).exitDue = false) :
    ∃ d', d.continueStop m n cycles time = some d' ∧ (d'.core n).run = .running ∧ (d'.core n).r = (d.core n).r ∧
      (d'.core n).pc = (d.core n).pc := by
  simp only [Dev.continueStop, hrun, hk, hexit]
  refine ⟨_, rfl, ?_⟩
  obtain ⟨hrun', hr, hpc, -⟩ := (d.core n).afterHold_keeps cycles
  rw [Dev.core_updCore_same]
  exact ⟨hrun', hr, hpc⟩

theorem Dev.continueStop_of_exit (hrun : (d.core n).run = .held e) (hk : e.kind = .stop)
    (hexit : (d.core n).exitDue = true) (hregion : (d.core n).seq.region = .epilogue) (ha : storesAway d n = false) :
    ∃ d', d.continueStop m n cycles time = some d' ∧ (d'.core n).task = none := by
  simp only [Dev.continueStop, hrun, hk, hexit, hregion]
  exact ⟨_, rfl, Dev.taskEnd_task_of_no_store _ _ _ _ _ ha⟩

theorem Dev.unresolved_of_held (hrun : (d.core n).run = .held e) : d.unresolved m n time = some (d.taskEnd m n 3 time) := by
  simp only [Dev.unresolved, hrun]

end

section
variable {s : State} {n : Nat} {e : Event} (hl : s.Live) (hrun : (s.dev.core n).run = .held e)
include hl hrun

theorem exec_seqResumeReplay_held (hk : e.kind = .replayable) :
    ∃ d, exec (.seqResumeReplay n) s = .next (s.happened d) ∧ (d.core n).run = .running ∧
      (d.core n).r = (s.dev.core n).r ∧ (d.core n).pc = (s.dev.core n).pc ∧ (d.core n).task = (s.dev.core n).task := by
  obtain ⟨d, hd, hkept⟩ := Dev.replay_of_held (cycles := Config.freeCycles s.free) hrun hk
  exact ⟨d, by rw [exec_seqResumeReplay, execSeqResumeReplay, happening_some hl hd], hkept⟩

theorem exec_seqResumeContinue_held (hk : e.kind = .stop) (hexit : (s.dev.core n).exitDue = false) :
    ∃ d, exec (.seqResumeContinue n) s = .next (s.happened d) ∧ (d.core n).run = .running ∧
      (d.core n).r = (s.dev.core n).r ∧ (d.core n).pc = (s.dev.core n).pc := by
  obtain ⟨d, hd, hkept⟩ :=
    Dev.continueStop_of_held (m := s.mem) (cycles := Config.freeCycles s.free) (time := s.time) hrun hk hexit
  exact ⟨d, by rw [exec_seqResumeContinue, execSeqResumeContinue, happening_some hl hd], hkept⟩

theorem exec_seqResumeContinue_exit (hk : e.kind = .stop) (hexit : (s.dev.core n).exitDue = true)
    (hregion : (s.dev.core n).seq.region = .epilogue) (ha : storesAway s.dev n = false) :
    ∃ d, exec (.seqResumeContinue n) s = .next (s.happened d) ∧ (d.core n).task = none := by
  obtain ⟨d, hd, hkept⟩ :=
    Dev.continueStop_of_exit (m := s.mem) (cycles := Config.freeCycles s.free) (time := s.time) hrun hk hexit hregion ha
  exact ⟨d, by rw [exec_seqResumeContinue, execSeqResumeContinue, happening_some hl hd], hkept⟩

theorem exec_seqResumeUnresolved_held :
    exec (.seqResumeUnresolved n) s = .next (s.happened (s.dev.taskEnd s.mem n 3 s.time)) := by
  rw [exec_seqResumeUnresolved, execSeqResumeUnresolved, happening_some hl (Dev.unresolved_of_held hrun)]

end

/-! ## Boundaries (R30, R156, R192) -/

/-- When every result lands, registers, results in flight and the clock change, and what stays in flight is lost (R467). -/
theorem Core.landAll_work (c : Core) : ∃ r pend ready,
    c.landAll.work = ({ c with r := r, pend := pend, ready := ready } : Core).work ∧
      ∀ e ∈ pend, c.lostResult e = true := by
  refine ⟨_, _, _, Core.work_gap .., fun e he => ?_⟩
  change e ∈ ((c.landBy c.lastDue).pend.partition (c.landBy c.lastDue).lostResult).1 at he
  rw [List.partition_eq_filter_filter] at he
  exact (List.mem_filter.1 he).2

/-- The core at its boundary: every result has landed and nothing is waited for. -/
def Core.atBoundary (c : Core) : Core := { c.landAll with waits := [] }

section
variable (c : Core)

theorem Core.atBoundary_lp : c.atBoundary.lp = c.lp := by
  obtain ⟨r, p, k, h, -⟩ := c.landAll_work
  exact (congrArg Core.lp h :)

theorem Core.atBoundary_attached : c.atBoundary.attached = c.attached := by
  obtain ⟨r, p, k, h, -⟩ := c.landAll_work
  exact (congrArg Core.attached h :)

theorem Core.atBoundary_stopReq : c.atBoundary.stopReq = c.stopReq := by
  obtain ⟨r, p, k, h, -⟩ := c.landAll_work
  exact (congrArg Core.stopReq h :)

theorem Core.atBoundary_atBnd : c.atBoundary.atBnd = c.atBnd := by
  obtain ⟨r, p, k, h, -⟩ := c.landAll_work
  exact (congrArg Core.atBnd h :)

theorem Core.atBoundary_region : c.atBoundary.seq.region = c.seq.region := by
  obtain ⟨r, p, k, h, -⟩ := c.landAll_work
  exact (congrArg (fun x : Core => x.seq.region) h :)

theorem Core.atBoundary_pass : c.atBoundary.seq.pass = c.seq.pass := by
  obtain ⟨r, p, k, h, -⟩ := c.landAll_work
  exact (congrArg (fun x : Core => x.seq.pass) h :)

theorem Core.atBoundary_pend : ∀ e ∈ c.atBoundary.pend, c.lostResult e = true := by
  obtain ⟨r, p, k, h, hp⟩ := c.landAll_work
  have hpend : c.atBoundary.pend = p := (congrArg Core.pend h :)
  rwa [hpend]

theorem Core.atBoundary_strayLevel : c.atBoundary.strayLevel = c.strayLevel := by
  simp only [Core.strayLevel, c.atBoundary_lp]

end

section
variable {c : Core} {t : Task}

/-- Leaving for the epilogue changes no wait, no result in flight and no attachment. -/
theorem Core.endLevel_frame (c : Core) (l : Nat) :
    (c.endLevel l).waits = c.waits ∧ (c.endLevel l).pend = c.pend ∧ (c.endLevel l).attached = c.attached ∧
      (c.endLevel l).stopReq = c.stopReq := by
  unfold Core.endLevel
  dsimp only
  split
  · split <;> exact ⟨rfl, rfl, rfl, rfl⟩
  · exact ⟨rfl, rfl, rfl, rfl⟩

theorem Core.leave_frame (c : Core) (t : Task) :
    (c.leave t).waits = c.waits ∧ (c.leave t).pend = c.pend ∧ (c.leave t).attached = c.attached ∧
      (c.leave t).stopReq = c.stopReq := by
  unfold Core.leave
  dsimp only
  split
  · split
    · exact Core.endLevel_frame ..
    · exact ⟨rfl, rfl, rfl, rfl⟩
  · exact ⟨rfl, rfl, rfl, rfl⟩

/-- The part that follows is the epilogue left for by a cancelled task (R40), or differs in place, task and region alone. -/
theorem Core.nextPart_cases (c : Core) (t : Task) :
    (∃ task seq t', c.nextPart t = ({ c with task := task, seq := seq } : Core).leave t' ∧ t.cancelled = true) ∨
      ∃ pc task seq, c.nextPart t = { c with pc := pc, task := task, seq := seq } := by
  unfold Core.nextPart
  split
  · dsimp only
    split
    · next hc => exact .inl ⟨_, _, _, rfl, hc⟩
    · split
      · exact .inr ⟨_, _, _, rfl⟩
      · exact .inr ⟨_, _, _, rfl⟩
  · split
    · split
      · next hc => exact .inl ⟨c.task, c.seq, _, rfl, hc⟩
      · exact .inr ⟨c.pc, c.task, c.seq, rfl⟩
    · dsimp only
      split
      · next hc => exact .inl ⟨c.task, _, _, rfl, hc⟩
      · split
        · exact .inr ⟨_, c.task, _, rfl⟩
        · exact .inr ⟨_, c.task, _, rfl⟩
  · exact .inr ⟨c.pc, _, c.seq, rfl⟩

theorem Core.nextPart_frame (c : Core) (t : Task) :
    (c.nextPart t).waits = c.waits ∧ (c.nextPart t).pend = c.pend ∧ (c.nextPart t).attached = c.attached ∧
      (c.nextPart t).stopReq = c.stopReq := by
  obtain ⟨task, seq, t', h, -⟩ | ⟨pc, task, seq, h⟩ := c.nextPart_cases t
  · rw [h]
    exact Core.leave_frame ..
  · rw [h]
    exact ⟨rfl, rfl, rfl, rfl⟩

theorem Core.nextPart_r (ht : t.cancelled = false) : (c.nextPart t).r = c.r := by
  obtain ⟨task, seq, t', -, hc⟩ | ⟨pc, task, seq, h⟩ := c.nextPart_cases t
  · rw [ht] at hc
    cases hc
  · rw [h]

/-- After a prologue, with no pass to make or no kernel, the epilogue follows (R30, R156). -/
theorem Core.nextPart_prologue_epi (hr : c.seq.region = .prologue) (ht : t.cancelled = false)
    (h : c.tripCount t.words = 0 ∨ t.ker = t.epi) :
    (c.nextPart t).pc = t.epi ∧ (c.nextPart t).seq.region = .epilogue := by
  have hnext : c.nextPart t = { c with
      pc := t.epi, task := some { t with passes := c.tripCount t.words }
      seq := { c.seq with region := .epilogue, pass := c.tripCount t.words } } := by
    simp only [Core.nextPart, hr, ht, Bool.false_eq_true, if_false]
    refine if_pos ?_
    simp only [Bool.or_eq_true, decide_eq_true_eq]
    exact h
  rw [hnext]
  exact ⟨rfl, rfl⟩

/-- After a prologue the first pass follows, and the task has its number of passes (R30, R156). -/
theorem Core.nextPart_prologue_ker (hr : c.seq.region = .prologue) (ht : t.cancelled = false)
    (h0 : c.tripCount t.words ≠ 0) (hk : t.ker ≠ t.epi) :
    (c.nextPart t).pc = t.ker ∧ (c.nextPart t).seq.region = .pass ∧ (c.nextPart t).seq.pass = 0 ∧
      (c.nextPart t).task = some { t with passes := c.tripCount t.words } := by
  have hnext : c.nextPart t = { c with
      pc := t.ker, task := some { t with passes := c.tripCount t.words }, seq := { c.seq with region := .pass, pass := 0 } } := by
    simp only [Core.nextPart, hr, ht, Bool.false_eq_true, if_false]
    refine if_neg ?_
    simp only [Bool.or_eq_true, decide_eq_true_eq]
    exact not_or.2 ⟨h0, hk⟩
  rw [hnext]
  exact ⟨rfl, rfl, rfl, rfl⟩

/-- After a pass outside a task loop the next pass follows, and after the last one the epilogue (R30, R156). -/
theorem Core.nextPart_pass (hr : c.seq.region = .pass) (ht : t.cancelled = false) (hb : c.atBnd = false)
    (hl : c.lp.inTaskLoop = false) :
    (c.seq.pass + 1 < t.passes → (c.nextPart t).pc = t.ker ∧ (c.nextPart t).seq.region = .pass ∧
      (c.nextPart t).seq.pass = c.seq.pass + 1) ∧
    (t.passes ≤ c.seq.pass + 1 → (c.nextPart t).pc = t.epi ∧ (c.nextPart t).seq.region = .epilogue) := by
  refine ⟨fun h => ?_, fun h => ?_⟩
  · simp [Core.nextPart, hr, ht, hb, hl, h]
  · simp [Core.nextPart, hr, ht, hb, hl, Nat.not_lt.2 h]

end

/-! ### Passing the boundary -/

/-- A core whose next part begins: before that part's first bundle, with clear weight planes (R192, R345). -/
def Core.partBegun (c : Core) : Core := { c.clearPlanes with atBnd := true, spanStart := none, heldSum := 0 }

section
variable (c : Core)

theorem Core.partBegun_r : c.partBegun.r = c.r := rfl
theorem Core.partBegun_pc : c.partBegun.pc = c.pc := rfl
theorem Core.partBegun_seq : c.partBegun.seq = c.seq := rfl
theorem Core.partBegun_task : c.partBegun.task = c.task := rfl
theorem Core.partBegun_pend : c.partBegun.pend = c.pend := rfl
theorem Core.partBegun_waits : c.partBegun.waits = c.waits := rfl
theorem Core.partBegun_attached : c.partBegun.attached = c.attached := rfl
theorem Core.partBegun_stopReq : c.partBegun.stopReq = c.stopReq := rfl

end

/-- The core past its boundary, before the first bundle of the next part (R192). -/
def Core.pastBoundary (c : Core) (t : Task) : Core := (c.atBoundary.nextPart t).partBegun

section
variable {c : Core} {t : Task}

theorem Core.pastBoundary_attached : (c.pastBoundary t).attached = c.attached := by
  obtain ⟨-, -, h, -⟩ := c.atBoundary.nextPart_frame t
  rw [Core.pastBoundary, Core.partBegun_attached, h, c.atBoundary_attached]

theorem Core.pastBoundary_stopReq : (c.pastBoundary t).stopReq = c.stopReq := by
  obtain ⟨-, -, -, h⟩ := c.atBoundary.nextPart_frame t
  rw [Core.pastBoundary, Core.partBegun_stopReq, h, c.atBoundary_stopReq]

theorem Core.pastBoundary_waits : (c.pastBoundary t).waits = [] := by
  obtain ⟨h, -⟩ := c.atBoundary.nextPart_frame t
  rw [Core.pastBoundary, Core.partBegun_waits, h, Core.atBoundary]

theorem Core.pastBoundary_pend : ∀ e ∈ (c.pastBoundary t).pend, c.lostResult e = true := by
  obtain ⟨-, h, -⟩ := c.atBoundary.nextPart_frame t
  rw [Core.pastBoundary, Core.partBegun_pend, h]
  exact c.atBoundary_pend

theorem Core.pastBoundary_r (ht : t.cancelled = false) : (c.pastBoundary t).r = c.landAll.r := by
  rw [Core.pastBoundary, Core.partBegun_r, Core.nextPart_r ht, Core.atBoundary]

theorem Core.pastBoundary_of_prologue (hr : c.seq.region = .prologue) (ht : t.cancelled = false) :
    (c.landAll.tripCount t.words = 0 ∨ t.ker = t.epi →
      (c.pastBoundary t).pc = t.epi ∧ (c.pastBoundary t).seq.region = .epilogue) ∧
    (c.landAll.tripCount t.words ≠ 0 → t.ker ≠ t.epi →
      (c.pastBoundary t).pc = t.ker ∧ (c.pastBoundary t).seq.region = .pass ∧ (c.pastBoundary t).seq.pass = 0 ∧
        (c.pastBoundary t).task = some { t with passes := c.landAll.tripCount t.words }) := by
  have htrips : c.landAll.tripCount t.words = c.atBoundary.tripCount t.words := rfl
  rw [htrips, Core.pastBoundary, Core.partBegun_pc, Core.partBegun_seq, Core.partBegun_task]
  have hr' := c.atBoundary_region.trans hr
  exact ⟨Core.nextPart_prologue_epi hr' ht, Core.nextPart_prologue_ker hr' ht⟩

theorem Core.pastBoundary_of_pass (hr : c.seq.region = .pass) (hb : c.atBnd = false) (hl : c.lp.inTaskLoop = false)
    (ht : t.cancelled = false) :
    (c.seq.pass + 1 < t.passes → (c.pastBoundary t).pc = t.ker ∧ (c.pastBoundary t).seq.region = .pass ∧
      (c.pastBoundary t).seq.pass = c.seq.pass + 1) ∧
    (t.passes ≤ c.seq.pass + 1 → (c.pastBoundary t).pc = t.epi ∧ (c.pastBoundary t).seq.region = .epilogue) := by
  rw [← c.atBoundary_pass, Core.pastBoundary, Core.partBegun_pc, Core.partBegun_seq]
  exact Core.nextPart_pass (c.atBoundary_region.trans hr) ht (c.atBoundary_atBnd.trans hb) (by rw [c.atBoundary_lp, hl])

end

section
variable {m : Memory} {d : Dev} {n time : Nat} {t : Task} (htask : (d.core n).task = some t)
  (hrun : (d.core n).run = .running) (hdue : (d.core n).boundaryDue = true)
  (hwaits : ∀ w ∈ (d.core n).waits, w = .boundary)
  (hpend : ∀ e ∈ (d.core n).pend, e.due.isSome = true ∨ e.ready = true) (hatt : (d.core n).attached = false)
include htask hrun hdue hwaits hpend hatt

/-- Nothing keeps a core from passing its boundary; then a level left active faults, and otherwise the next part
begins. -/
theorem passBoundary_due (hstop : (d.core n).stopReq = false ∨ (d.core n).mat.pushes = []) :
    passBoundary m d n time = match (d.core n).atBoundary.strayLevel with
      | some l => some ((d.setCore n (d.core n).atBoundary).takeEvent m n (d.core n).atBoundary
          ((d.core n).atBoundary.nextPart t).pc ((d.core n).atBoundary.nextPart t).pc
          (mkFault 0x08 ((d.core n).atBoundary.lp.level l).syl (toW l)) time)
      | none =>
        let past := d.setCore n ((d.core n).pastBoundary t)
        let past := if past.partDiverges n then past.updCore n fun c => (c.detach c.ready).count 0x0D 1 else past
        if ((d.core n).pastBoundary t).stopReq then
          some ((past.updCore n fun c => { c with stopReq := false, ready := c.quietAt }).takeEvent m n
            ((d.core n).pastBoundary t) ((d.core n).pastBoundary t).pc ((d.core n).pastBoundary t).pc
            (mkStop 0xD1 0 3) time)
        else some past := by
  have hothers : (d.core n).waits.filter (· ≠ .boundary) = [] := by simpa using hwaits
  have hanswered : (d.core n).answered = true := by
    simp only [Core.answered, List.all_eq_true, Bool.or_eq_true]
    exact fun e he => .inl (hpend e he)
  have hsteer : d.awaitsSteering n = false := by simp [Dev.awaitsSteering, hatt]
  have hstop' : ((d.core n).stopReq && !(d.core n).mat.pushes.isEmpty) = false := by
    obtain h | h := hstop <;> simp [h]
  unfold passBoundary
  refine (if_neg ?_).trans ?_
  · simp only [hrun, hdue, hothers, hanswered, hsteer, hstop']
    decide
  · simp only [htask]
    rfl

theorem passBoundary_stray (hstop : (d.core n).stopReq = false ∨ (d.core n).mat.pushes = []) {l : Nat}
    (hl : (d.core n).strayLevel = some l) :
    passBoundary m d n time = some ((d.setCore n (d.core n).atBoundary).takeEvent m n (d.core n).atBoundary
      ((d.core n).atBoundary.nextPart t).pc ((d.core n).atBoundary.nextPart t).pc
      (mkFault 0x08 ((d.core n).lp.level l).syl (toW l)) time) := by
  rw [passBoundary_due htask hrun hdue hwaits hpend hatt hstop, (d.core n).atBoundary_strayLevel, hl,
    (d.core n).atBoundary_lp]

theorem passBoundary_next (hstop : (d.core n).stopReq = false) (hl : (d.core n).strayLevel = none) :
    passBoundary m d n time = some (d.setCore n ((d.core n).pastBoundary t)) := by
  rw [passBoundary_due htask hrun hdue hwaits hpend hatt (.inl hstop), (d.core n).atBoundary_strayLevel, hl]
  have hstay : (d.setCore n ((d.core n).pastBoundary t)).partDiverges n = false := by
    simp [Dev.partDiverges, Core.pastBoundary_attached, hatt]
  simp [Core.pastBoundary_stopReq, hstop, hstay]

end

section
variable {s : State} {n : Nat} {t : Task} (hl : s.Live) (htask : (s.dev.core n).task = some t)
  (hrun : (s.dev.core n).run = .running) (hdue : (s.dev.core n).boundaryDue = true)
  (hwaits : ∀ w ∈ (s.dev.core n).waits, w = .boundary)
  (hpend : ∀ e ∈ (s.dev.core n).pend, e.due.isSome = true ∨ e.ready = true) (hatt : (s.dev.core n).attached = false)
include hl htask hrun hdue hwaits hpend hatt

theorem exec_passBoundary_stray (hstop : (s.dev.core n).stopReq = false ∨ (s.dev.core n).mat.pushes = []) {l : Nat}
    (hstray : (s.dev.core n).strayLevel = some l) :
    exec (.passBoundary n) s = .next (s.happened ((s.dev.setCore n (s.dev.core n).atBoundary).takeEvent s.mem n
      (s.dev.core n).atBoundary ((s.dev.core n).atBoundary.nextPart t).pc ((s.dev.core n).atBoundary.nextPart t).pc
      (mkFault 0x08 ((s.dev.core n).lp.level l).syl (toW l)) s.time)) := by
  rw [exec_passBoundary, execPassBoundary]
  exact happening_some hl (passBoundary_stray htask hrun hdue hwaits hpend hatt hstop hstray)

theorem exec_passBoundary_next (hstop : (s.dev.core n).stopReq = false) (hstray : (s.dev.core n).strayLevel = none) :
    exec (.passBoundary n) s = .next (s.happened (s.dev.setCore n ((s.dev.core n).pastBoundary t))) := by
  rw [exec_passBoundary, execPassBoundary]
  exact happening_some hl (passBoundary_next htask hrun hdue hwaits hpend hatt hstop hstray)

end

/-! ## Task starts and steals (R418-R422) -/

/-- The oldest entries, none of them passed over. -/
theorem takeOldest_all {p : QEntry → Bool} (hp : ∀ e, p e = true) (k : Nat) (l : List QEntry) :
    takeOldest p k l = (l.take k, l.drop k) := by
  induction l generalizing k with
  | nil => cases k <;> rfl
  | cons e l ih =>
    cases k with
    | zero => rfl
    | succ k => simp [takeOldest, hp, ih]

/-- A core that may take work is a tensor core, idle, and asked for no halt (R418). -/
theorem Dev.takes_idle {m : Memory} {d : Dev} {n : Nat} (h : d.takes m n = true) :
    isGeneral n = false ∧ (d.core n).run = .idle ∧ (d.core n).preempt = false := by
  simp only [Dev.takes, Bool.and_eq_true, Bool.not_eq_true', decide_eq_true_eq] at h
  obtain ⟨⟨⟨⟨hn, hrun⟩, hp⟩, -⟩, -⟩ := h
  exact ⟨hn, hrun, hp⟩

/-- A core may take work, and neither its deque nor its cluster's queue holds any (R422). -/
def Dev.nothingToTake (m : Memory) (d : Dev) (n : Nat) : Prop :=
  d.takes m n = true ∧ (d.core n).deque = [] ∧ (d.cluster (clusterOf n)).queue = []

theorem Dev.nothingToTake_iff {m : Memory} {d : Dev} {n : Nat} : d.nothingToTake m n ↔
    (d.takes m n && (d.core n).deque.isEmpty && (d.cluster (clusterOf n)).queue.isEmpty) = true := by
  simp [Dev.nothingToTake, and_assoc]

section
variable {s : State} {n : Nat} (hl : s.Live)
include hl

theorem exec_taskStart_newest {l : List QEntry} {e : QEntry} (ht : s.dev.takes s.mem n = true)
    (hd : (s.dev.core n).deque = l ++ [e]) :
    exec (.taskStart n) s = .next (s.happened
      ((s.dev.updCore n fun x => { x with deque := l }).startTask s.mem n e false s.time)) := by
  rw [exec_taskStart, execTaskStart]
  refine happening_some hl ((if_neg (by simp [ht])).trans ?_)
  simp [hd, Dev.updCore]

theorem exec_stealProbe_begins (hn : s.dev.nothingToTake s.mem n) (hp : (s.dev.core n).probing = false)
    (hsp : s.dev.spilled (clusterOf n) = false) :
    exec (.stealProbe n) s = .next (s.happened (s.dev.updCore n Core.startProbe)) := by
  rw [exec_stealProbe, execStealProbe]
  refine happening_some hl ((if_neg (by simp [hp])).trans (if_neg ?_))
  simp [Dev.nothingToTake_iff.1 hn, hsp]

theorem exec_stealProbe_dropped (hn : ¬ s.dev.nothingToTake s.mem n) (hp : (s.dev.core n).probing = true) :
    exec (.stealProbe n) s = .next (s.happened (s.dev.updCore n fun x => { x with probing := false })) := by
  rw [exec_stealProbe, execStealProbe]
  refine happening_some hl ((if_pos hp).trans (congrArg some (if_neg ?_)))
  exact fun h => hn (Dev.nothingToTake_iff.2 h)

theorem exec_stealProbe_ends (hn : s.dev.nothingToTake s.mem n) (hp : (s.dev.core n).probing = true) :
    exec (.stealProbe n) s = .next (s.happened (endProbe s.mem s.dev n s.time)) := by
  rw [exec_stealProbe, execStealProbe]
  exact happening_some hl ((if_pos hp).trans (congrArg some (if_pos (Dev.nothingToTake_iff.1 hn))))

end

/-! ### What a probe takes -/

/-- The core that ends a probe of its own cluster: it has taken k entries from a deque, and keeps all but the one that it
starts (R422). -/
def Core.probed (l : List QEntry) (k : Nat) (c : Core) : Core :=
  { c with probing := false, localFails := if l = [] then c.localFails + 1 else 0
           stolen := satAdd c.stolen (l.take k).length, deque := (l.take k).drop 1 }.count 0x0C (l.take k).length

theorem Dev.updCore_congr {d : Dev} {n : Nat} {f g : Core → Core} (h : f (d.core n) = g (d.core n)) :
    d.updCore n f = d.updCore n g := congrArg (d.setCore n) h

section
variable {m : Memory} {d : Dev} {n time : Nat} (hd : (d.core n).deque = []) (hf : (d.core n).localFails < 7)
include hd hf

/-- A probe of the own cluster that finds nothing has failed. -/
theorem endProbe_empty (hv : (d.core (stealVictim n (d.core n).lfsr.toNat false)).deque = []) :
    endProbe m d n time = d.updCore n (Core.probed [] 0) := by
  have haway : decide (7 ≤ (d.core n).localFails) = false := by simpa using hf
  unfold endProbe
  simp only [haway, hv, List.filter_nil]
  exact Dev.updCore_congr (by simp [Core.probed, takeOldest, hd])

/-- A probe of the own cluster takes the older half of the deque that it finds, rounded up, and starts the oldest. -/
theorem endProbe_steals {e : QEntry} {t : List QEntry}
    (hv : (d.core (stealVictim n (d.core n).lfsr.toNat false)).deque = e :: t) :
    endProbe m d n time =
      ((d.updCore n (Core.probed (e :: t) ((t.length + 1 + 1) / 2))).updCore (stealVictim n (d.core n).lfsr.toNat false)
        fun x => { x with deque := (e :: t).drop ((t.length + 1 + 1) / 2) }).startTask m n e false time := by
  have haway : decide (7 ≤ (d.core n).localFails) = false := by simpa using hf
  obtain ⟨k, hk⟩ : ∃ k, (t.length + 1 + 1) / 2 = k + 1 := ⟨t.length / 2, by omega⟩
  unfold endProbe
  simp only [haway, hv, Bool.not_false, Bool.true_or, List.filter_true, List.length_cons, hk,
    takeOldest_all (fun _ => rfl)]
  rw [Dev.updCore_congr (g := Core.probed (e :: t) (k + 1)) (by simp [Core.probed, hd])]
  rfl

end

/-! ### Turns of an idle core -/

section
variable {ex : Meaning} {s : State} {n : Nat} (ht : s.dev.takes s.mem n = true) (hreg : registerDue s.dev n = false)
  (hrec : s.dev.recordWaits n = false) (hlaunch : launchReady s.mem s.dev n = none)
  (hp : (s.dev.core n).probing = false)
include ht hreg hrec

theorem turn_of_takes : turn ex s n = idleTurn s n := by
  obtain ⟨hn, hrun, hpre⟩ := Dev.takes_idle ht
  exact turn_of_need (q := .taskStart n) (by simp [needOf, hreg, hrec, hrun, hn, hpre])

include hlaunch hp

theorem turn_taskStart (hd : (s.dev.core n).deque ≠ []) : turn ex s n = exec (.taskStart n) s := by
  rw [turn_of_takes ht hreg hrec, exec_taskStart]
  simp [idleTurn, hlaunch, hp, ht, hd]

theorem turn_stealProbe (hn : s.dev.nothingToTake s.mem n) (hsp : s.dev.spilled (clusterOf n) = false) :
    turn ex s n = exec (.stealProbe n) s := by
  obtain ⟨-, hd, hq⟩ := hn
  rw [turn_of_takes ht hreg hrec, exec_stealProbe]
  simp [idleTurn, hlaunch, hp, ht, hd, hq, hsp]

end

/-! ## Stops and resets that firmware asks for (R483, R496, R510) -/

section
variable {d : Dev} {n ctx time : Nat} {x : Ctx} (hx : d.ctxAt n = some (ctx, x))
include hx

theorem Dev.requestStop_debuggable (hdbg : x.dbg = true) :
    d.requestStop n time = d.updCore n fun c => { c with stopReq := true } := by
  simp [Dev.requestStop, hx, hdbg]

theorem Dev.requestStop_refused (hdbg : x.dbg = false) :
    d.requestStop n time = d.engineReport (traceEngine (traceUnitOf n)) ctx 0xD0 .fault 0 0xD011 4 time := by
  simp only [Dev.requestStop, hx, hdbg]
  rfl

end

section
variable {s : State} {n : Nat} (hl : s.Live)
include hl

theorem exec_boundaryStopRequest_tensor (hn : isGeneral n = false) :
    exec (.boundaryStopRequest n) s = .next (s.happened (s.dev.requestStop n s.time)) := by
  rw [exec_boundaryStopRequest, execBoundaryStopRequest]
  exact happening_some hl (if_neg (by simp [hn]))

theorem exec_coreReset_live : exec (.coreReset n) s = .next (s.happened (s.dev.resetCore n)) := by
  rw [exec_coreReset, execCoreReset]
  exact happening_some hl rfl

theorem Dev.resetCore_stopped (hn : n < 288) (hb : s.dev.neverBooted n = false) (hrun : (s.dev.core n).run = .stopped) :
    s.dev.resetCore n = s.dev.updCore n fun x => x.restarted (isGeneral n) := by
  have hhot : s.dev.sys.hot = false := hl
  exact if_neg (by simp [hhot, hb, hrun, Nat.not_le.2 hn])

end

/-- Settles O49: each event happens where its condition holds, and answers the units that its lemma above names. -/
theorem coreEvents : Obligations.CoreEvents := by
  unfold Obligations.CoreEvents
  intro s n hl c tensor sent away awake
  have hstay : ¬ away → storesAway s.dev n = false := storesAway_eq_false_iff.2
  refine ⟨fun k e => exec_resultLanding_answered hl, fun k e x => exec_resultLanding_due hl,
    fun p t q => exec_pushLanding_due hl, fun k e x y => exec_probeLookup_due hl, fun k hk hn => ?phase,
    fun k hk hp hn => ?ending, exec_syncAnswer_waiting hl, fun hn hp hq h hpush => ?halt,
    fun t hn hp hrun ht hover hend => ?overrun, fun hn hrun hp hie hirq => ?interrupt, fun hn hrun hirq => ?wake,
    fun e hrun => ?held, fun t ht hrun hdue hwaits hpend hatt => ?boundary,
    fun l e ht hd => exec_taskStart_newest hl ht hd, fun ctx x hn hx => ?stopRequest,
    ⟨exec_coreReset_live hl, fun hn hb hrun => Dev.resetCore_stopped hl hn hb hrun⟩, ?steal⟩
  case phase =>
    exact ⟨_, exec_phaseEndComplete_phase hl hk (hstay hn), Dev.core_beginPhase ..⟩
  case ending =>
    obtain ⟨o, ho, hexec⟩ := exec_phaseEndComplete_ending hl hk hp (hstay hn)
    exact ⟨o, ho, hexec, Dev.taskEnd_task_of_no_store _ _ _ _ _ (hstay hn)⟩
  case halt => exact exec_preemptHalt_due hl hn (Core.haltDue_of hp hq h) hpush
  case overrun =>
    obtain ⟨d, hexec, hends, hwaits⟩ :=
      iterationOverrun_ends hl hn ht (Core.overrunDue_of hp hrun ht hover hend) hp
    exact ⟨d, hexec, fun h => hends (hstay h), fun h => hwaits (storesAway_iff.2 h)⟩
  case interrupt => exact exec_interrupt_pending hl (Bool.eq_true_of_not_eq_false hn) hrun hp hie hirq
  case wake => exact exec_haltWake_pending hl (Bool.eq_true_of_not_eq_false hn) hrun hirq
  case held =>
    exact ⟨exec_seqResumeReplay_held hl hrun, exec_seqResumeContinue_held hl hrun,
      fun hk hx hr _ hn => exec_seqResumeContinue_exit hl hrun hk hx hr (hstay hn),
      exec_seqResumeUnresolved_held hl hrun,
      fun hn => Dev.taskEnd_task_of_no_store _ _ _ _ _ (hstay hn)⟩
  case boundary =>
    refine ⟨fun l hstray hstop => exec_passBoundary_stray hl ht hrun hdue hwaits hpend hatt hstop hstray,
      fun hstray hstop => ⟨_, exec_passBoundary_next hl ht hrun hdue hwaits hpend hatt hstop hstray, ?_⟩⟩
    rw [Dev.core_setCore_same]
    exact ⟨rfl, Core.pastBoundary_waits, Core.pastBoundary_pend, rfl, rfl, Core.pastBoundary_r,
      Core.pastBoundary_of_prologue, Core.pastBoundary_of_pass⟩
  case stopRequest =>
    rw [exec_boundaryStopRequest_tensor hl hn]
    exact ⟨fun hdbg => by rw [Dev.requestStop_debuggable hx hdbg], fun hdbg => by rw [Dev.requestStop_refused hx hdbg]⟩
  case steal =>
    intro nothing
    refine ⟨exec_stealProbe_begins hl, exec_stealProbe_dropped hl,
      fun ht hreg hrec hlaunch hp => ⟨turn_taskStart ht hreg hrec hlaunch hp, turn_stealProbe ht hreg hrec hlaunch hp⟩,
      fun hn hp hf => ?_⟩
    have hexec := exec_stealProbe_ends hl hn hp
    refine ⟨fun hv => ?_, fun e t hv => ?_⟩
    · rw [hexec, endProbe_empty hn.2.1 hf hv]
      simp only [hv]
      rfl
    · rw [hexec, endProbe_steals hn.2.1 hf hv]
      simp only [hv]
      rfl

end Sys2Proof.Machine

/-!
SUPPORT. The decoder and the encoder: what the operand families, the rows of the opcode map and the header of a
syllable read from a word, and which word the encoder gives them; and the obligations on words.
-/

namespace Sys2Proof

/-! ## Fields of a word -/

theorem fbv_eq_iff {w lo n : Nat} {x : BitVec n} : fbv w lo n = x ↔ fld w lo n = x.toNat := by
  rw [← BitVec.toNat_inj, BitVec.toNat_ofNat, fld, Nat.mod_mod]

@[simp] theorem fbv_eq_zero_iff {w lo n : Nat} : fbv w lo n = 0#n ↔ fld w lo n = 0 := by
  rw [fbv_eq_iff]; rfl

/-- A field of a word: its width and its content. -/
abbrev WordField := (n : Nat) × BitVec n

/-- Bits that a list of fields takes. -/
@[simp] def Layout.width : List WordField → Nat
  | [] => 0
  | f :: l => f.1 + Layout.width l

/-- The number that a list of fields makes, the first field in the highest bits. -/
@[simp] def Layout.packed : List WordField → Nat
  | [] => 0
  | f :: l => f.2.toNat * 2 ^ Layout.width l + Layout.packed l

/-- The number w holds the fields of the list, the last one at bit 0. -/
@[simp] def Layout.Agrees (w : Nat) : List WordField → Prop
  | [] => True
  | f :: l => fbv w (Layout.width l) f.1 = f.2 ∧ Layout.Agrees w l

theorem Layout.packed_lt (l : List WordField) : Layout.packed l < 2 ^ Layout.width l := by
  induction l with
  | nil => exact Nat.one_pos
  | cons f l ih =>
    calc Layout.packed (f :: l) < (f.2.toNat + 1) * 2 ^ Layout.width l := by rw [Layout.packed, Nat.add_mul]; omega
      _ ≤ 2 ^ f.1 * 2 ^ Layout.width l := Nat.mul_le_mul_right _ f.2.isLt
      _ = 2 ^ Layout.width (f :: l) := (Nat.pow_add ..).symm

/-- The bits of a field and of the fields below it. -/
theorem fld_zero_add (w k n : Nat) : fld w 0 (n + k) = fld w k n * 2 ^ k + fld w 0 k := by
  simp only [fld, Nat.pow_zero, Nat.div_one, Nat.add_comm n k, Nat.pow_add, Nat.mod_mul]
  rw [Nat.add_comm, Nat.mul_comm]

theorem fld_lt (w lo n : Nat) : fld w lo n < 2 ^ n := Nat.mod_lt _ (Nat.two_pow_pos n)

/-- A number is made of a list of fields exactly where it holds each of them. -/
theorem fld_eq_packed_iff (w : Nat) (l : List WordField) :
    fld w 0 (Layout.width l) = Layout.packed l ↔ Layout.Agrees w l := by
  induction l with
  | nil => simp [Layout.width, Layout.packed, Layout.Agrees, fld, Nat.mod_one]
  | cons f l ih =>
    rw [Layout.Agrees, ← ih, fbv_eq_iff, Layout.width, Layout.packed, fld_zero_add]
    have hlow := Layout.packed_lt l
    have hfld := fld_lt w 0 (Layout.width l)
    constructor
    · intro h
      have h1 : fld w (Layout.width l) f.1 = f.2.toNat := by
        have := congrArg (· / 2 ^ Layout.width l) h
        simpa [Nat.mul_comm _ (2 ^ Layout.width l), Nat.mul_add_div (Nat.two_pow_pos _), Nat.div_eq_of_lt hlow,
          Nat.div_eq_of_lt hfld] using this
      rw [h1] at h
      exact ⟨h1, Nat.add_left_cancel h⟩
    · rintro ⟨h1, h2⟩
      rw [h1, h2]

/-- A family of operands is read from bits 37 to 0 of a word exactly where these bits are its number (R64). -/
structure Codes {α : Type} (dec : Nat → Option α) (enc : α → Nat) : Prop where
  lt : ∀ o, enc o < 2 ^ 38
  iff : ∀ w o, dec w = some o ↔ fld w 0 38 = enc o

theorem Codes.of_layout {α : Type} {dec : Nat → Option α} {enc : α → Nat} (layout : α → List WordField)
    (henc : ∀ o, Layout.width (layout o) = 38 ∧ enc o = Layout.packed (layout o))
    (hdec : ∀ w o, dec w = some o ↔ Layout.Agrees w (layout o)) : Codes dec enc where
  lt o := by rw [(henc o).2, ← (henc o).1]; exact Layout.packed_lt _
  iff w o := by rw [(henc o).2, hdec, ← fld_eq_packed_iff, (henc o).1]

/-! ## The operand families (R64) -/

@[simp] theorem codes_SRR : Codes decSRR encSRR :=
  .of_layout (fun o => [⟨6, o.d⟩, ⟨6, o.a⟩, ⟨6, o.b⟩, ⟨20, 0⟩])
    (fun _ => ⟨rfl, by simp [encSRR, Nat.add_assoc]⟩)
    (by rintro w ⟨⟩; simp [decSRR]; grind)

@[simp] theorem codes_SR1 : Codes decSR1 encSR1 :=
  .of_layout (fun o => [⟨6, o.d⟩, ⟨6, o.a⟩, ⟨26, 0⟩])
    (fun _ => ⟨rfl, by simp [encSR1]⟩)
    (by rintro w ⟨⟩; simp [decSR1]; grind)

@[simp] theorem codes_SRI : Codes decSRI encSRI :=
  .of_layout (fun o => [⟨6, o.d⟩, ⟨6, o.a⟩, ⟨26, o.imm⟩])
    (fun _ => ⟨rfl, by simp [encSRI, Nat.add_assoc]⟩)
    (by rintro w ⟨⟩; simp [decSRI])

@[simp] theorem codes_SBF : Codes decSBF encSBF :=
  .of_layout (fun o => [⟨6, o.d⟩, ⟨6, o.a⟩, ⟨6, o.pos⟩, ⟨6, o.len⟩, ⟨14, 0⟩])
    (fun _ => ⟨rfl, by simp [encSBF, Nat.add_assoc]⟩)
    (by rintro w ⟨⟩; simp [decSBF]; grind)

@[simp] theorem codes_SPR : Codes decSPR encSPR :=
  .of_layout (fun o => [⟨4, o.pd⟩, ⟨2, 0⟩, ⟨6, o.a⟩, ⟨6, o.b⟩, ⟨20, 0⟩])
    (fun _ => ⟨rfl, by simp [encSPR, Nat.add_assoc]⟩)
    (by rintro w ⟨⟩; simp [decSPR]; grind)

@[simp] theorem codes_SPI : Codes decSPI encSPI :=
  .of_layout (fun o => [⟨4, o.pd⟩, ⟨2, 0⟩, ⟨6, o.a⟩, ⟨26, o.imm⟩])
    (fun _ => ⟨rfl, by simp [encSPI, Nat.add_assoc]⟩)
    (by rintro w ⟨⟩; simp [decSPI]; grind)

@[simp] theorem codes_SPP : Codes decSPP encSPP :=
  .of_layout (fun o => [⟨4, o.pd⟩, ⟨4, 0⟩, ⟨4, o.pa⟩, ⟨4, o.pb⟩, ⟨22, 0⟩])
    (fun _ => ⟨rfl, by simp [encSPP, Nat.add_assoc]⟩)
    (by rintro w ⟨⟩; simp [decSPP]; grind)

@[simp] theorem codes_SSL : Codes decSSL encSSL :=
  .of_layout (fun o => [⟨6, o.d⟩, ⟨6, o.a⟩, ⟨6, o.b⟩, ⟨4, o.ps⟩, ⟨16, 0⟩])
    (fun _ => ⟨rfl, by simp [encSSL, Nat.add_assoc]⟩)
    (by rintro w ⟨⟩; simp [decSSL]; grind)

@[simp] theorem codes_SXR : Codes decSXR encSXR :=
  .of_layout (fun o => [⟨6, o.d⟩, ⟨8, o.sel⟩, ⟨24, 0⟩])
    (fun _ => ⟨rfl, by simp [encSXR]⟩)
    (by rintro w ⟨⟩; simp [decSXR]; grind)

@[simp] theorem codes_SXB : Codes decSXB encSXB :=
  .of_layout (fun o => [⟨6, o.d⟩, ⟨3, o.bt⟩, ⟨29, 0⟩])
    (fun _ => ⟨rfl, by simp [encSXB]⟩)
    (by rintro w ⟨⟩; simp [decSXB]; grind)

@[simp] theorem codes_SLI : Codes decSLI encSLI :=
  .of_layout (fun o => [⟨6, o.d⟩, ⟨32, o.imm⟩])
    (fun _ => ⟨rfl, by simp [encSLI]⟩)
    (by rintro w ⟨⟩; simp [decSLI])

@[simp] theorem codes_CI : Codes decCI encCI :=
  .of_layout (fun o => [⟨22, 0⟩, ⟨16, o.imm⟩])
    (fun _ => ⟨rfl, by simp [encCI]⟩)
    (by rintro w ⟨⟩; simp [decCI])

@[simp] theorem codes_CT : Codes decCT encCT :=
  .of_layout (fun o => [⟨3, o.bt⟩, ⟨3, 0⟩, ⟨32, o.disp⟩])
    (fun _ => ⟨rfl, by simp [encCT]⟩)
    (by rintro w ⟨⟩; simp [decCT]; grind)

@[simp] theorem codes_CB : Codes decCB encCB :=
  .of_layout (fun o => [⟨3, o.bt⟩, ⟨35, 0⟩])
    (fun _ => ⟨rfl, by simp [encCB]⟩)
    (by rintro w ⟨⟩; simp [decCB]; grind)

@[simp] theorem codes_CC : Codes decCC encCC :=
  .of_layout (fun o => [⟨3, o.bt⟩, ⟨3, o.bl⟩, ⟨32, 0⟩])
    (fun _ => ⟨rfl, by simp [encCC]⟩)
    (by rintro w ⟨⟩; simp [decCC]; grind)

@[simp] theorem codes_CJ : Codes decCJ encCJ :=
  .of_layout (fun o => [⟨6, o.a⟩, ⟨16, 0⟩, ⟨16, o.imm⟩])
    (fun _ => ⟨rfl, by simp [encCJ]⟩)
    (by rintro w ⟨⟩; simp [decCJ]; grind)

@[simp] theorem codes_CL : Codes decCL encCL :=
  .of_layout (fun o => [⟨3, o.lv⟩, ⟨2, o.src⟩, ⟨2, o.mq⟩, ⟨11, o.len⟩, ⟨20, o.cnt⟩])
    (fun _ => ⟨rfl, by simp [encCL, Nat.add_assoc]⟩)
    (by rintro w ⟨⟩; simp [decCL])

@[simp] theorem codes_CM : Codes decCM encCM :=
  .of_layout (fun o => [⟨3, o.lv⟩, ⟨2, o.src⟩, ⟨2, o.mq⟩, ⟨11, o.len⟩, ⟨4, o.sc⟩, ⟨6, o.ii⟩, ⟨6, o.a⟩, ⟨3, o.dp⟩,
    ⟨1, 0⟩])
    (fun _ => ⟨rfl, by simp [encCM, Nat.add_assoc]⟩)
    (by rintro w ⟨⟩; simp [decCM]; grind)

@[simp] theorem codes_CS : Codes decCS encCS :=
  .of_layout (fun o => [⟨3, o.lv⟩, ⟨2, o.w⟩, ⟨1, 0⟩, ⟨32, o.stride⟩])
    (fun _ => ⟨rfl, by simp [encCS, Nat.add_assoc]⟩)
    (by rintro w ⟨⟩; simp [decCS]; grind)

@[simp] theorem codes_CW : Codes decCW encCW :=
  .of_layout (fun o => [⟨3, o.lv⟩, ⟨2, o.w⟩, ⟨1, 0⟩, ⟨6, o.a⟩, ⟨26, 0⟩])
    (fun _ => ⟨rfl, by simp [encCW, Nat.add_assoc]⟩)
    (by rintro w ⟨⟩; simp [decCW]; grind)

@[simp] theorem codes_CV : Codes decCV encCV :=
  .of_layout (fun o => [⟨3, o.lv⟩, ⟨35, 0⟩])
    (fun _ => ⟨rfl, by simp [encCV]⟩)
    (by rintro w ⟨⟩; simp [decCV]; grind)

@[simp] theorem codes_VR : Codes decVR encVR :=
  .of_layout (fun o => [⟨6, o.d⟩, ⟨6, o.a⟩, ⟨6, o.b⟩, ⟨6, o.nq⟩, ⟨12, o.mdf⟩, ⟨1, o.bs⟩, ⟨1, 0⟩])
    (fun _ => ⟨rfl, by simp [encVR, Nat.add_assoc]⟩)
    (by rintro w ⟨⟩; simp [decVR]; grind)

@[simp] theorem codes_VF : Codes decVF encVF :=
  .of_layout (fun o => [⟨6, o.d⟩, ⟨6, o.a⟩, ⟨6, o.b⟩, ⟨6, o.nq⟩, ⟨2, o.rm⟩, ⟨1, o.sat⟩, ⟨1, o.bs⟩, ⟨2, o.ty⟩, ⟨8, 0⟩])
    (fun _ => ⟨rfl, by simp [encVF, Nat.add_assoc]⟩)
    (by rintro w ⟨⟩; simp [decVF]; grind)

@[simp] theorem codes_VI : Codes decVI encVI :=
  .of_layout (fun o => [⟨6, o.d⟩, ⟨6, o.a⟩, ⟨6, o.nq⟩, ⟨20, o.imm⟩])
    (fun _ => ⟨rfl, by simp [encVI, Nat.add_assoc]⟩)
    (by rintro w ⟨⟩; simp [decVI])

@[simp] theorem codes_VC : Codes decVC encVC :=
  .of_layout (fun o => [⟨6, o.d⟩, ⟨6, o.a⟩, ⟨4, o.fmt⟩, ⟨2, 0⟩, ⟨6, o.nq⟩, ⟨2, o.rm⟩, ⟨1, o.sat⟩, ⟨11, 0⟩])
    (fun _ => ⟨rfl, by simp [encVC, Nat.add_assoc]⟩)
    (by rintro w ⟨⟩; simp [decVC]; grind)

@[simp] theorem codes_VP : Codes decVP encVP :=
  .of_layout (fun o => [⟨3, o.md⟩, ⟨3, 0⟩, ⟨6, o.a⟩, ⟨6, o.b⟩, ⟨6, o.nq⟩, ⟨4, o.cnd⟩, ⟨1, o.bs⟩, ⟨3, o.ty⟩, ⟨6, 0⟩])
    (fun _ => ⟨rfl, by simp [encVP, Nat.add_assoc]⟩)
    (by rintro w ⟨⟩; simp [decVP]; grind)

@[simp] theorem codes_VS : Codes decVS encVS :=
  .of_layout (fun o => [⟨6, o.d⟩, ⟨6, o.a⟩, ⟨6, o.b⟩, ⟨6, o.nq⟩, ⟨4, o.seg⟩, ⟨2, o.rm⟩, ⟨3, o.ty⟩, ⟨5, 0⟩])
    (fun _ => ⟨rfl, by simp [encVS, Nat.add_assoc]⟩)
    (by rintro w ⟨⟩; simp [decVS]; grind)

@[simp] theorem codes_VM : Codes decVM encVM :=
  .of_layout (fun o => [⟨6, o.d⟩, ⟨6, o.a⟩, ⟨6, o.b⟩, ⟨6, o.nq⟩, ⟨3, o.ms⟩, ⟨1, o.bs⟩, ⟨10, 0⟩])
    (fun _ => ⟨rfl, by simp [encVM, Nat.add_assoc]⟩)
    (by rintro w ⟨⟩; simp [decVM]; grind)

@[simp] theorem codes_VMM : Codes decVMM encVMM :=
  .of_layout (fun o => [⟨3, o.md⟩, ⟨3, o.ma⟩, ⟨3, o.mb⟩, ⟨29, 0⟩])
    (fun _ => ⟨rfl, by simp [encVMM, Nat.add_assoc]⟩)
    (by rintro w ⟨⟩; simp [decVMM]; grind)

@[simp] theorem codes_VX : Codes decVX encVX :=
  .of_layout (fun o => [⟨6, 0⟩, ⟨6, o.a⟩, ⟨26, 0⟩])
    (fun _ => ⟨rfl, by simp [encVX]⟩)
    (by rintro w ⟨⟩; simp [decVX]; grind)

@[simp] theorem codes_LM : Codes decLM encLM :=
  .of_layout (fun o => [⟨6, o.d⟩, ⟨6, o.a⟩, ⟨6, o.nq⟩, ⟨20, o.disp⟩])
    (fun _ => ⟨rfl, by simp [encLM, Nat.add_assoc]⟩)
    (by rintro w ⟨⟩; simp [decLM])

@[simp] theorem codes_LS : Codes decLS encLS :=
  .of_layout (fun o => [⟨6, o.d⟩, ⟨6, o.a⟩, ⟨6, o.b⟩, ⟨6, o.nq⟩, ⟨14, 0⟩])
    (fun _ => ⟨rfl, by simp [encLS, Nat.add_assoc]⟩)
    (by rintro w ⟨⟩; simp [decLS]; grind)

@[simp] theorem codes_LX : Codes decLX encLX :=
  .of_layout (fun o => [⟨6, o.d⟩, ⟨6, o.a⟩, ⟨6, o.b⟩, ⟨6, o.nq⟩, ⟨2, o.isz⟩, ⟨12, 0⟩])
    (fun _ => ⟨rfl, by simp [encLX, Nat.add_assoc]⟩)
    (by rintro w ⟨⟩; simp [decLX]; grind)

@[simp] theorem codes_LP : Codes decLP encLP :=
  .of_layout (fun o => [⟨6, o.h⟩, ⟨6, o.a⟩, ⟨3, o.bt⟩, ⟨23, 0⟩])
    (fun _ => ⟨rfl, by simp [encLP, Nat.add_assoc]⟩)
    (by rintro w ⟨⟩; simp [decLP]; grind)

@[simp] theorem codes_LH : Codes decLH encLH :=
  .of_layout (fun o => [⟨6, o.h⟩, ⟨6, o.a⟩, ⟨26, 0⟩])
    (fun _ => ⟨rfl, by simp [encLH]⟩)
    (by rintro w ⟨⟩; simp [decLH]; grind)

@[simp] theorem codes_LK : Codes decLK encLK :=
  .of_layout (fun o => [⟨6, o.d⟩, ⟨18, 0⟩, ⟨14, o.off⟩])
    (fun _ => ⟨rfl, by simp [encLK]⟩)
    (by rintro w ⟨⟩; simp [decLK]; grind)

@[simp] theorem codes_MB : Codes decMB encMB :=
  .of_layout (fun o => [⟨2, o.aop⟩, ⟨1, o.aw⟩, ⟨5, o.aslot⟩, ⟨7, o.arb⟩, ⟨2, o.wop⟩, ⟨1, o.ww⟩, ⟨2, o.dop⟩, ⟨5, o.ds⟩,
    ⟨7, o.drb⟩, ⟨4, o.dv⟩, ⟨2, o.m⟩])
    (fun _ => ⟨rfl, by simp [encMB, Nat.add_assoc]⟩)
    (by rintro w ⟨⟩; simp [decMB])

@[simp] theorem codes_MA : Codes decMA encMA :=
  .of_layout (fun o => [⟨5, o.acc⟩, ⟨33, 0⟩])
    (fun _ => ⟨rfl, by simp [encMA]⟩)
    (by rintro w ⟨⟩; simp [decMA]; grind)

@[simp] theorem codes_MG : Codes decMG encMG :=
  .of_layout (fun o => [⟨5, o.acc⟩, ⟨2, o.grp⟩, ⟨7, o.lo⟩, ⟨7, o.hi⟩, ⟨17, 0⟩])
    (fun _ => ⟨rfl, by simp [encMG, Nat.add_assoc]⟩)
    (by rintro w ⟨⟩; simp [decMG]; grind)

@[simp] theorem codes_MV : Codes decMV encMV :=
  .of_layout (fun o => [⟨5, o.acc⟩, ⟨7, o.row⟩, ⟨6, o.a⟩, ⟨7, o.cnt⟩, ⟨4, o.fmt⟩, ⟨2, o.rm⟩, ⟨1, o.sat⟩, ⟨6, 0⟩])
    (fun _ => ⟨rfl, by simp [encMV, Nat.add_assoc]⟩)
    (by rintro w ⟨⟩; simp [decMV]; grind)

@[simp] theorem codes_MC : Codes decMC encMC :=
  .of_layout (fun o => [⟨6, o.nq⟩, ⟨4, o.wf⟩, ⟨4, o.af⟩, ⟨2, o.ak⟩, ⟨22, 0⟩])
    (fun _ => ⟨rfl, by simp [encMC, Nat.add_assoc]⟩)
    (by rintro w ⟨⟩; simp [decMC]; grind)

@[simp] theorem codes_WR : Codes decWR encWR :=
  .of_layout (fun o => [⟨6, o.d⟩, ⟨6, o.a⟩, ⟨6, o.b⟩, ⟨2, o.mq⟩, ⟨10, o.blk⟩, ⟨8, 0⟩])
    (fun _ => ⟨rfl, by simp [encWR, Nat.add_assoc]⟩)
    (by rintro w ⟨⟩; simp [decWR]; grind)

@[simp] theorem codes_WI : Codes decWI encWI :=
  .of_layout (fun o => [⟨6, o.d⟩, ⟨6, o.a⟩, ⟨26, o.imm⟩])
    (fun _ => ⟨rfl, by simp [encWI, Nat.add_assoc]⟩)
    (by rintro w ⟨⟩; simp [decWI])

@[simp] theorem codes_YK : Codes decYK encYK :=
  .of_layout (fun o => [⟨2, o.ord⟩, ⟨3, o.scp⟩, ⟨4, o.k⟩, ⟨6, o.a⟩, ⟨23, o.imm⟩])
    (fun _ => ⟨rfl, by simp [encYK, Nat.add_assoc]⟩)
    (by rintro w ⟨⟩; simp [decYK])

@[simp] theorem codes_YW : Codes decYW encYW :=
  .of_layout (fun o => [⟨2, o.ord⟩, ⟨3, o.scp⟩, ⟨6, o.d⟩, ⟨8, o.mask⟩, ⟨6, o.a⟩, ⟨1, o.g⟩, ⟨12, 0⟩])
    (fun _ => ⟨rfl, by simp [encYW, Nat.add_assoc]⟩)
    (by rintro w ⟨⟩; simp [decYW]; grind)

@[simp] theorem codes_YP : Codes decYP encYP :=
  .of_layout (fun o => [⟨2, o.ord⟩, ⟨3, o.scp⟩, ⟨6, o.a⟩, ⟨6, o.b⟩, ⟨1, o.sgn⟩, ⟨16, o.cnt⟩, ⟨4, 0⟩])
    (fun _ => ⟨rfl, by simp [encYP, Nat.add_assoc]⟩)
    (by rintro w ⟨⟩; simp [decYP]; grind)

@[simp] theorem codes_YG : Codes decYG encYG :=
  .of_layout (fun o => [⟨2, o.ord⟩, ⟨3, o.scp⟩, ⟨6, o.x⟩, ⟨6, o.y⟩, ⟨6, o.z⟩, ⟨15, o.imm⟩])
    (fun _ => ⟨rfl, by simp [encYG, Nat.add_assoc]⟩)
    (by rintro w ⟨⟩; simp [decYG])

@[simp] theorem codes_YN : Codes decYN encYN :=
  .of_layout (fun o => [⟨2, o.ord⟩, ⟨3, o.scp⟩, ⟨33, 0⟩])
    (fun _ => ⟨rfl, by simp [encYN]⟩)
    (by rintro w ⟨⟩; simp [decYN]; grind)

@[simp] theorem codes_ZC : Codes decZC encZC :=
  .of_layout (fun o => [⟨6, o.d⟩, ⟨6, o.a⟩, ⟨16, o.csr⟩, ⟨10, 0⟩])
    (fun _ => ⟨rfl, by simp [encZC, Nat.add_assoc]⟩)
    (by rintro w ⟨⟩; simp [decZC]; grind)

@[simp] theorem codes_ZI : Codes decZI encZI :=
  .of_layout (fun o => [⟨6, o.a⟩, ⟨16, 0⟩, ⟨16, o.imm⟩])
    (fun _ => ⟨rfl, by simp [encZI]⟩)
    (by rintro w ⟨⟩; simp [decZI]; grind)

@[simp] theorem codes_ZG : Codes decZG encZG :=
  .of_layout (fun o => [⟨6, o.x⟩, ⟨6, o.y⟩, ⟨6, o.z⟩, ⟨20, o.imm⟩])
    (fun _ => ⟨rfl, by simp [encZG, Nat.add_assoc]⟩)
    (by rintro w ⟨⟩; simp [decZG])

/-- The families CN, MN and ZN without an operand (R64). -/
@[simp] theorem codes_none : Codes decNone (fun _ => 0) where
  lt _ := by decide
  iff w o := by simp [decNone]

theorem Codes.map_eq_some {α β : Type} {dec : Nat → Option α} {enc : α → Nat} {mk : α → β} {w : Nat} {o : α}
    (hc : Codes dec enc) (ho : fld w 0 38 = enc o) : (dec w).map mk = some (mk o) := by
  rw [(hc.iff w o).2 ho, Option.map_some]

/-- Reading a syllable of class c (R43, R67-R74). -/
def decClass (c : Nat) (h : Hdr) (opc w : Nat) : Option Instr :=
  match c with
  | 0 => decS h opc w
  | 1 => decC h opc w
  | 2 => decV h opc w
  | 3 => decL h opc w
  | 4 => decM h opc w
  | 5 => decW h opc w
  | 6 => decY h opc w
  | _ => decZ h opc w

theorem decodeRaw_eq (w : Nat) : decodeRaw w = decClass (fld w 61 3) (decHdr w) (fld w 38 8) w := rfl

/-- The vacant-opcode row. -/
def Instr.isVacant : Instr → Bool
  | .illegalOpcode _ _ _ _ => true
  | _ => false

theorem Instr.isVacant_iff {i : Instr} : i.isVacant = true ↔ ∃ h c o x, i = .illegalOpcode h c o x := by
  constructor
  · intro hi
    unfold Instr.isVacant at hi
    split at hi
    · exact ⟨_, _, _, _, rfl⟩
    · cases hi
  · rintro ⟨h, c, o, x, rfl⟩
    rfl

/-- The opcodes of class c that R75 lists as vacant. -/
def vacantOpcode (c o : Nat) : Bool :=
  match c with
  | 0 => (0x35 ≤ o ∧ o ≤ 0x3D) ∨ 0x40 ≤ o
  | 1 => (0x0C ≤ o ∧ o ≤ 0x0F) ∨ 0x16 ≤ o
  | 2 => o = 0x4E ∨ o = 0x4F ∨ o = 0x6F ∨ (0x75 ≤ o ∧ o ≤ 0x77) ∨ 0x80 ≤ o
  | 3 => o = 0x07 ∨ 0x1C ≤ o
  | 4 => 0x0A ≤ o
  | 5 => 0x0E ≤ o
  | 6 => o = 0x0E ∨ o = 0x0F ∨ (0x15 ≤ o ∧ o ≤ 0x17) ∨ 0x1F ≤ o
  | _ => (0x0C ≤ o ∧ o ≤ 0x0F) ∨ 0x13 ≤ o

/-- What is read under class c and opcode opc has this class and opcode, the given header and the operand bits of the
word, and is the vacant-opcode row exactly at a vacant opcode. -/
structure ReadsRow (c opc w : Nat) (h : Hdr) (r : Option Instr) : Prop where
  parts : ∀ i, r = some i → encParts i = some (c, opc, h, fld w 0 38)
  vacant : (∃ i, r = some i ∧ i.isVacant = true) ↔ vacantOpcode c opc = true

section
variable {α : Type} {dec : Nat → Option α} {enc : α → Nat} {c opc w : Nat} {h : Hdr}

/-- A row that reads its operands by a family. -/
theorem ReadsRow.map {mk : α → Instr}
    (hmk : ∀ o, encParts (mk o) = some (c, opc, h, enc o) ∧ (mk o).isVacant = false)
    (hv : vacantOpcode c opc = false) (hc : Codes dec enc) : ReadsRow c opc w h ((dec w).map mk) where
  parts i hi := by
    obtain ⟨o, ho, rfl⟩ := Option.map_eq_some_iff.1 hi
    rw [(hmk o).1, (hc.iff w o).1 ho]
  vacant := by simp [hv, hmk]

/-- A row whose operand fields tell several forms apart. -/
theorem ReadsRow.bind {f : α → Option Instr}
    (hf : ∀ o i, f o = some i → encParts i = some (c, opc, h, enc o) ∧ i.isVacant = false)
    (hv : vacantOpcode c opc = false) (hc : Codes dec enc) : ReadsRow c opc w h ((dec w).bind f) where
  parts i hi := by
    obtain ⟨o, ho, hi⟩ := Option.bind_eq_some_iff.1 hi
    rw [(hf o i hi).1, (hc.iff w o).1 ho]
  vacant := by
    simp only [hv, Bool.false_eq_true, iff_false]
    rintro ⟨i, hi, hvac⟩
    obtain ⟨o, -, hi⟩ := Option.bind_eq_some_iff.1 hi
    rw [(hf o i hi).2] at hvac
    cases hvac

/-- A vacant opcode. -/
theorem ReadsRow.ofVacant (hc : c < 8) (hp : opc < 256) (hv : vacantOpcode c opc = true) :
    ReadsRow c opc w h (decVacant h c opc w) where
  parts i hi := by
    cases hi
    change some ((BitVec.ofNat 3 c).toNat, (BitVec.ofNat 8 opc).toNat, h, (fbv w 0 38).toNat) = _
    simp [Nat.mod_eq_of_lt hc, Nat.mod_eq_of_lt hp, fld]
  vacant := ⟨fun _ => hv, fun _ => ⟨_, rfl, rfl⟩⟩

end

/-! ## The rows of each class (R67-R75) -/

section
variable {w opc : Nat} {h : Hdr}

theorem readsRow_decS (hp : opc < 256) : ReadsRow 0 opc w h (decS h opc w) := by
  unfold decS
  split
  case h_56 =>
    simp only [imp_false] at *
    exact .ofVacant (by decide) hp (decide_eq_true (by omega))
  all_goals exact .map (fun _ => ⟨rfl, rfl⟩) rfl (by simp)

theorem readsRow_decC (hp : opc < 256) : ReadsRow 1 opc w h (decC h opc w) := by
  unfold decC
  split
  case h_19 =>
    simp only [imp_false] at *
    exact .ofVacant (by decide) hp (decide_eq_true (by omega))
  all_goals exact .map (fun _ => ⟨rfl, rfl⟩) rfl (by simp)

/-- A width-coded row of R69: its opcode is 4 times the row's place and the element width code. -/
theorem ReadsRow.wide {α : Type} {dec : Nat → Option α} {enc : α → Nat} {r : Nat} {mk : BitVec 2 → α → Instr}
    (hr : opc / 4 = r)
    (hmk : ∀ ew o, encParts (mk ew o) = some (2, 4 * r + ew.toNat, h, enc o) ∧ (mk ew o).isVacant = false)
    (hv : r < 16 ∨ 20 ≤ r ∧ r < 24) (hc : Codes dec enc) :
    ReadsRow 2 opc w h ((dec w).map (mk (BitVec.ofNat 2 (opc % 4)))) := by
  refine .map (fun o => ⟨?_, (hmk _ o).2⟩) (decide_eq_false (by omega)) hc
  have hopc : 4 * r + (BitVec.ofNat 2 (opc % 4)).toNat = opc := by
    rw [BitVec.toNat_ofNat]; omega
  rw [(hmk _ o).1, hopc]

theorem readsRow_decVw (hp : opc < 256)
    (hopc : opc < 64 ∨ 80 ≤ opc ∧ opc < 96 ∨ vacantOpcode 2 opc = true) : ReadsRow 2 opc w h (decVw h opc w) := by
  unfold decVw
  split
  case h_21 =>
    simp only [imp_false] at *
    exact .ofVacant (by decide) hp (hopc.elim (by omega) fun h => h.elim (by omega) id)
  all_goals exact .wide ‹_› (fun _ _ => ⟨rfl, rfl⟩) (by decide) (by simp)

theorem readsRow_decV (hp : opc < 256) : ReadsRow 2 opc w h (decV h opc w) := by
  unfold decV
  split
  case h_43 =>
    simp only [imp_false] at *
    refine readsRow_decVw hp ?_
    have : vacantOpcode 2 opc = true ↔ _ := decide_eq_true_iff
    rw [this]
    omega
  all_goals exact .map (fun _ => ⟨rfl, rfl⟩) rfl (by simp)

theorem readsRow_decL (hp : opc < 256) : ReadsRow 3 opc w h (decL h opc w) := by
  unfold decL
  split
  case h_28 =>
    simp only [imp_false] at *
    exact .ofVacant (by decide) hp (decide_eq_true (by omega))
  all_goals exact .map (fun _ => ⟨rfl, rfl⟩) rfl (by simp)

theorem readsRow_decM (hp : opc < 256) : ReadsRow 4 opc w h (decM h opc w) := by
  unfold decM
  split
  case h_11 =>
    simp only [imp_false] at *
    exact .ofVacant (by decide) hp (decide_eq_true (by omega))
  all_goals exact .map (fun _ => ⟨rfl, rfl⟩) rfl (by simp)

theorem readsRow_decW (hp : opc < 256) : ReadsRow 5 opc w h (decW h opc w) := by
  unfold decW
  split
  case h_15 =>
    simp only [imp_false] at *
    exact .ofVacant (by decide) hp (decide_eq_true (by omega))
  all_goals exact .map (fun _ => ⟨rfl, rfl⟩) rfl (by simp)

theorem readsRow_decStake : ReadsRow 6 0x6 w h (decStake h w) :=
  .map (fun o => by split_ifs <;> exact ⟨rfl, rfl⟩) rfl (by simp)

theorem readsRow_decCalve : ReadsRow 6 0x1b w h (decCalve h w) :=
  .map (fun o => by split_ifs <;> exact ⟨rfl, rfl⟩) rfl (by simp)

theorem readsRow_decKvmark : ReadsRow 6 0x1a w h (decKvmark h w) := by
  refine .bind (fun o i hi => ?_) rfl codes_YG
  split at hi <;> cases hi <;> exact ⟨rfl, rfl⟩

theorem readsRow_decPartop : ReadsRow 7 0x10 w h (decPartop h w) := by
  refine .bind (fun o i hi => ?_) rfl codes_ZG
  split at hi <;> cases hi <;> exact ⟨rfl, rfl⟩

theorem readsRow_decCtxop : ReadsRow 7 0x11 w h (decCtxop h w) := by
  refine .bind (fun o i hi => ?_) rfl codes_ZG
  split at hi <;> cases hi <;> exact ⟨rfl, rfl⟩

theorem readsRow_decSwapop : ReadsRow 7 0x12 w h (decSwapop h w) := by
  refine .bind (fun o i hi => ?_) rfl codes_ZG
  split at hi <;> cases hi <;> exact ⟨rfl, rfl⟩

theorem readsRow_decY (hp : opc < 256) : ReadsRow 6 opc w h (decY h opc w) := by
  unfold decY
  split
  case h_27 =>
    simp only [imp_false] at *
    exact .ofVacant (by decide) hp (decide_eq_true (by omega))
  case h_7 => exact readsRow_decStake
  case h_22 => exact readsRow_decKvmark
  case h_23 => exact readsRow_decCalve
  all_goals exact .map (fun _ => ⟨rfl, rfl⟩) rfl (by simp)

theorem readsRow_decZ (hp : opc < 256) : ReadsRow 7 opc w h (decZ h opc w) := by
  unfold decZ
  split
  case h_16 =>
    simp only [imp_false] at *
    exact .ofVacant (by decide) hp (decide_eq_true (by omega))
  case h_13 => exact readsRow_decPartop
  case h_14 => exact readsRow_decCtxop
  case h_15 => exact readsRow_decSwapop
  all_goals exact .map (fun _ => ⟨rfl, rfl⟩) rfl (by simp)

theorem readsRow_decClass {c : Nat} (hc : c < 8) (hp : opc < 256) : ReadsRow c opc w h (decClass c h opc w) := by
  unfold decClass
  split
  · exact readsRow_decS hp
  · exact readsRow_decC hp
  · exact readsRow_decV hp
  · exact readsRow_decL hp
  · exact readsRow_decM hp
  · exact readsRow_decW hp
  · exact readsRow_decY hp
  · obtain rfl : c = 7 := by simp only [imp_false] at *; omega
    exact readsRow_decZ hp
end

/-! ## An instruction is read from its word -/

theorem Codes.map_const_eq_some {β : Type} {i : β} {w : Nat}
    (ho : fld w 0 38 = 0) : (decNone w).map (fun _ => i) = some i :=
  codes_none.map_eq_some (mk := fun _ => i) (o := ()) ho

theorem forall_bitVec_two {P : BitVec 2 → Prop} (h0 : P 0#2) (h1 : P 1#2) (h2 : P 2#2) (h3 : P 3#2)
    (x : BitVec 2) : P x :=
  match x with
  | 0#2 => h0
  | 1#2 => h1
  | 2#2 => h2
  | 3#2 => h3

/-- A width-coded syllable is read from its family's bits under each of its four opcodes. -/
theorem decClass_wide {α : Type} {dec : Nat → Option α} {enc : α → Nat} {k w : Nat} {h : Hdr}
    {mk : BitVec 2 → α → Instr} {o : α} (hc : Codes dec enc) (ho : fld w 0 38 = enc o)
    (hrow : ∀ ew : BitVec 2, decClass 2 h (k + ew.toNat) w = (dec w).map (mk ew)) (ew : BitVec 2) :
    decClass 2 h (k + ew.toNat) w = some (mk ew o) := by
  rw [hrow, hc.map_eq_some ho]

/-- The lower bits of a field. -/
theorem fld_zero_mod {w k n : Nat} (hk : k ≤ n) : fld w 0 k = fld w 0 n % 2 ^ k := by
  simp only [fld, Nat.mod_mod_of_dvd _ (Nat.pow_dvd_pow 2 hk)]

theorem fld_imm_of_decYG {w : Nat} {o : YG} (ho : decYG w = some o) : fld w 0 15 = o.imm.toNat := by
  cases ho; simp [fld]

theorem fld_imm_of_decZG {w : Nat} {o : ZG} (ho : decZG w = some o) : fld w 0 20 = o.imm.toNat := by
  cases ho; simp [fld]

/-- The last check of a row of the operand limits. -/
theorem of_and_decide {a : Bool} {p : Prop} [Decidable p] (h : (a && decide p) = true) : p :=
  of_decide_eq_true (Bool.and_eq_true_iff.1 h).2

section
variable {w : Nat} {h : Hdr}

theorem decStake_eq {o : YP} (ho : decYP w = some o) : decStake h w =
    some (if o.sgn = 0 then .stakeCreate h o else if o.cnt = 0 then .stakeAdvance h o else .stakeRetire h o) := by
  rw [decStake, ho, Option.map_some]

theorem decCalve_eq {o : YG} (ho : decYG w = some o) : decCalve h w =
    some (if o.imm.toNat % 2 = 0 then .calve h o else .calveArm h o) := by
  rw [decCalve, ho, Option.map_some, fld_zero_mod (by decide : 1 ≤ 15), fld_imm_of_decYG ho, Nat.pow_one]

theorem decKvmark_eq {o : YG} (ho : decYG w = some o) : decKvmark h w =
    match o.imm.toNat % 4 with
    | 0 => some (.kvmarkValid h o)
    | 1 => some (.kvmarkExit h o)
    | 2 => some (.kvmarkClear h o)
    | _ => none := by
  rw [decKvmark, ho, Option.bind_some, fld_zero_mod (by decide : 2 ≤ 15), fld_imm_of_decYG ho]
  rfl

theorem decPartop_eq {o : ZG} (ho : decZG w = some o) : decPartop h w =
    match o.imm.toNat % 16 with
    | 1 => some (.partopForm h o)
    | 2 => some (.partopDissolve h o)
    | 3 => some (.partopPreempt h o)
    | 4 => some (.partopQreset h o)
    | _ => none := by
  rw [decPartop, ho, Option.bind_some, fld_zero_mod (by decide : 4 ≤ 20), fld_imm_of_decZG ho]
  rfl

theorem decCtxop_eq {o : ZG} (ho : decZG w = some o) : decCtxop h w =
    match o.imm.toNat % 16 with
    | 1 => some (.ctxopCreate h o)
    | 2 => some (.ctxopDestroy h o)
    | 3 => some (.ctxopInval h o)
    | 4 => some (.ctxopAttest h o)
    | _ => none := by
  rw [decCtxop, ho, Option.bind_some, fld_zero_mod (by decide : 4 ≤ 20), fld_imm_of_decZG ho]
  rfl

theorem decSwapop_eq {o : ZG} (ho : decZG w = some o) : decSwapop h w =
    match o.imm.toNat % 16 with
    | 1 => some (.swapopSave h o)
    | 2 => some (.swapopRestore h o)
    | 3 => some (.swapopExch h o)
    | _ => none := by
  rw [decSwapop, ho, Option.bind_some, fld_zero_mod (by decide : 4 ≤ 20), fld_imm_of_decZG ho]
  rfl

end

/-- A well-formed syllable is what its class reads under its opcode. -/
theorem decClass_of_parts {c opc w : Nat} {h : Hdr} {i : Instr} (hwf : operandsOk i = true)
    (hv : i.isVacant = false) (hi : encParts i = some (c, opc, h, fld w 0 38)) : decClass c h opc w = some i := by
  generalize ho : fld w 0 38 = n at hi
  cases i <;> cases hi
  case illegalOpcode => cases hv
  case vadd | vsub | vmul | vmulh | vmin | vmax | vminn | vmaxn | vshl | vshr | vsra | vadds | vsubs | vpopc | vclz
      | vabs =>
    exact decClass_wide (dec := decVR) (by simp) ho (forall_bitVec_two rfl rfl rfl rfl) _
  case vaddi | vshli | vshri | vmovi =>
    exact decClass_wide (dec := decVI) (by simp) ho (forall_bitVec_two rfl rfl rfl rfl) _
  case stakeCreate =>
    exact (decStake_eq ((codes_YP.iff _ _).2 ho)).trans (congrArg some (if_pos (of_and_decide hwf)))
  case stakeAdvance =>
    obtain ⟨hsgn, hcnt⟩ := Bool.and_eq_true_iff.1 hwf
    have hsgn := (of_and_decide hsgn).trans_ne (by decide : (1 : BitVec 1) ≠ 0)
    exact (decStake_eq ((codes_YP.iff _ _).2 ho)).trans (by rw [if_neg hsgn, if_pos (of_decide_eq_true hcnt)])
  case stakeRetire =>
    obtain ⟨hsgn, hcnt⟩ := Bool.and_eq_true_iff.1 hwf
    have hsgn := (of_and_decide hsgn).trans_ne (by decide : (1 : BitVec 1) ≠ 0)
    exact (decStake_eq ((codes_YP.iff _ _).2 ho)).trans (by rw [if_neg hsgn, if_neg (of_decide_eq_true hcnt)])
  case calve | calveArm =>
    have himm := of_and_decide hwf
    exact (decCalve_eq ((codes_YG.iff _ _).2 ho)).trans (by simp [himm])
  case kvmarkValid | kvmarkExit | kvmarkClear =>
    have himm := of_and_decide hwf
    exact (decKvmark_eq ((codes_YG.iff _ _).2 ho)).trans (by simp [himm])
  case partopForm | partopDissolve | partopPreempt | partopQreset =>
    have himm := of_and_decide hwf
    exact (decPartop_eq ((codes_ZG.iff _ _).2 ho)).trans (by simp [himm])
  case ctxopCreate | ctxopDestroy | ctxopAttest =>
    have himm := of_and_decide hwf
    exact (decCtxop_eq ((codes_ZG.iff _ _).2 ho)).trans (by simp [himm])
  case ctxopInval =>
    have himm := of_and_decide hwf
    simp only [fld, Nat.pow_zero, Nat.div_one, Nat.reducePow] at himm
    exact (decCtxop_eq ((codes_ZG.iff _ _).2 ho)).trans (by simp [himm])
  case swapopSave | swapopRestore | swapopExch =>
    have himm := of_and_decide hwf
    exact (decSwapop_eq ((codes_ZG.iff _ _).2 ho)).trans (by simp [himm])
  all_goals dsimp only [decClass, decS, decC, decV, decL, decM, decW, decY, decZ]
  case nop | halt | exit | detach | fuse | unfuse | acrela | wswap | wclr | mwait | tret | tagflush =>
    exact Codes.map_const_eq_some ho
  all_goals exact Codes.map_eq_some (by simp) ho

/-! ## The word of a syllable -/

theorem encParts_hdr (i : Instr) : (encParts i).map (fun x => x.2.2.1) = hdrOf i := by
  cases i <;> rfl

theorem encParts_lt {c opc n : Nat} {h : Hdr} {i : Instr} (hi : encParts i = some (c, opc, h, n)) :
    c < 8 ∧ opc < 256 ∧ n < 2 ^ 38 := by
  cases i <;> cases hi
  case illegalOpcode => exact ⟨BitVec.isLt _, BitVec.isLt _, BitVec.isLt _⟩
  case nop | halt | exit | detach | fuse | unfuse | acrela | wswap | wclr | mwait | tret | tagflush =>
    decide
  all_goals
    refine ⟨by decide, by omega, ?_⟩
    simp only [codes_SRR.lt, codes_SR1.lt, codes_SRI.lt, codes_SBF.lt, codes_SPR.lt, codes_SPI.lt, codes_SPP.lt,
      codes_SSL.lt, codes_SXR.lt, codes_SXB.lt, codes_SLI.lt, codes_CI.lt, codes_CT.lt, codes_CB.lt, codes_CC.lt,
      codes_CJ.lt, codes_CL.lt, codes_CM.lt, codes_CS.lt, codes_CW.lt, codes_CV.lt, codes_VR.lt, codes_VF.lt,
      codes_VI.lt, codes_VC.lt, codes_VP.lt, codes_VS.lt, codes_VM.lt, codes_VMM.lt, codes_VX.lt, codes_LM.lt,
      codes_LS.lt, codes_LX.lt, codes_LP.lt, codes_LH.lt, codes_LK.lt, codes_MB.lt, codes_MA.lt, codes_MG.lt,
      codes_MV.lt, codes_MC.lt, codes_WR.lt, codes_WI.lt, codes_YK.lt, codes_YW.lt, codes_YP.lt, codes_YG.lt,
      codes_YN.lt, codes_ZC.lt, codes_ZI.lt, codes_ZG.lt]

/-- The layout of a syllable (R43). -/
def syllableFields (c p : Nat) (h : Hdr) (n : Nat) : List WordField :=
  [⟨3, BitVec.ofNat 3 c⟩, ⟨1, BitVec.ofBool h.e⟩, ⟨4, h.wait⟩, ⟨1, BitVec.ofBool h.gn⟩, ⟨4, h.gp⟩, ⟨2, h.edge⟩,
    ⟨3, h.elvl⟩, ⟨8, BitVec.ofNat 8 p⟩, ⟨38, BitVec.ofNat 38 n⟩]

section
variable {c p n w : Nat} {h : Hdr} (hc : c < 8) (hp : p < 256) (hn : n < 2 ^ 38)
include hc hp hn

theorem encWord_eq_packed : encWord c p h n = Layout.packed (syllableFields c p h n) := by
  simp [encWord, syllableFields, Nat.add_assoc, Nat.mod_eq_of_lt hc, Nat.mod_eq_of_lt hp, Nat.mod_eq_of_lt hn,
    -Nat.reducePow]

theorem encWord_lt : encWord c p h n < 2 ^ 64 := by
  rw [encWord_eq_packed hc hp hn]
  exact Layout.packed_lt _

/-- A word is that of the parts that are read from it. -/
theorem encWord_eq_iff (hw : w < 2 ^ 64) :
    encWord c p h n = w ↔ fld w 61 3 = c ∧ decHdr w = h ∧ fld w 38 8 = p ∧ fld w 0 38 = n := by
  have hfld : fld w 0 (Layout.width (syllableFields c p h n)) = w := by
    change w / 2 ^ 0 % 2 ^ 64 = w
    rw [Nat.pow_zero, Nat.div_one, Nat.mod_eq_of_lt hw]
  rw [encWord_eq_packed hc hp hn, eq_comm, ← hfld, fld_eq_packed_iff, hfld]
  have hbit {lo : Nat} {b : Bool} : fbv w lo 1 = BitVec.ofBool b ↔ (fld w lo 1 == 1) = b := by
    rw [fbv_eq_iff]
    have := fld_lt w lo 1
    cases b <;> simp only [BitVec.toNat_ofBool, Bool.toNat_true, Bool.toNat_false, beq_iff_eq, beq_eq_false_iff_ne]
    omega
  cases h
  simp [syllableFields, decHdr, hbit, fbv_eq_iff, Nat.mod_eq_of_lt hc, Nat.mod_eq_of_lt hp, Nat.mod_eq_of_lt hn,
    -Nat.reducePow]
  grind

end

theorem decodeWord_eq_ok_iff {w : Nat} {i : Instr} :
    decodeWord w = .ok i ↔ decodeRaw w = some i ∧ operandsOk i = true := by
  unfold decodeWord
  cases decodeRaw w with
  | none => simp
  | some j =>
    by_cases hj : operandsOk j = true
    · simp only [hj, if_true, Except.ok.injEq, Option.some.injEq]
      exact ⟨fun h => ⟨h, h ▸ hj⟩, And.left⟩
    · simp only [hj, if_false, Option.some.injEq, reduceCtorEq, false_iff]
      rintro ⟨rfl, h⟩
      exact hj h

/-- The parts that a word decodes to are those its fields name. -/
theorem encParts_of_decodeWord {w : Nat} {i : Instr} (hi : decodeWord w = .ok i) :
    encParts i = some (fld w 61 3, fld w 38 8, decHdr w, fld w 0 38) :=
  (readsRow_decClass (fld_lt w 61 3) (fld_lt w 38 8)).parts i (decodeWord_eq_ok_iff.1 hi).1

/-- A well-formed syllable is read from its own word. -/
theorem decodeWord_encode {i : Instr} {w : Nat} (hwf : i.WellFormed) (hv : i.isVacant = false)
    (hi : encode i = some w) : decodeWord w = .ok i := by
  obtain ⟨⟨c, p, h, n⟩, hparts, rfl⟩ := Option.map_eq_some_iff.1 hi
  obtain ⟨hc, hp, hn⟩ := encParts_lt hparts
  obtain ⟨hcls, hhdr, hopc, hops⟩ := (encWord_eq_iff hc hp hn (encWord_lt hc hp hn)).1 rfl
  refine decodeWord_eq_ok_iff.2 ⟨?_, hwf⟩
  rw [decodeRaw_eq, hcls, hhdr, hopc]
  exact decClass_of_parts hwf hv (hops.symm ▸ hparts)

/-- A word that decodes is the word of what it decodes to. -/
theorem encode_of_decodeWord {w : Nat} {i : Instr} (hw : w < 2 ^ 64) (hi : decodeWord w = .ok i) :
    encode i = some w := by
  rw [encode, encParts_of_decodeWord hi, Option.map_some]
  exact congrArg some ((encWord_eq_iff (fld_lt ..) (fld_lt ..) (fld_lt ..) hw).2 ⟨rfl, rfl, rfl, rfl⟩)

theorem isSyllable_iff {i : Instr} : i.IsSyllable ↔ ∃ x, encParts i = some x := by
  rw [Instr.IsSyllable, ← encParts_hdr, Option.isSome_map, Option.isSome_iff_exists]

theorem exists_word {i : Instr} (hi : i.IsSyllable) : ∃ w, w < 2 ^ 64 ∧ encode i = some w := by
  obtain ⟨⟨c, p, h, n⟩, hparts⟩ := isSyllable_iff.1 hi
  obtain ⟨hc, hp, hn⟩ := encParts_lt hparts
  exact ⟨_, encWord_lt hc hp hn, by rw [encode, hparts]; rfl⟩

/-- The vacant-opcode row is read exactly at a vacant opcode (R75). -/
theorem decodeWord_vacant_iff (w : Nat) :
    (∃ h c o x, decodeWord w = .ok (.illegalOpcode h c o x)) ↔ vacantOpcode (fld w 61 3) (fld w 38 8) = true := by
  rw [← (readsRow_decClass (w := w) (h := decHdr w) (fld_lt w 61 3) (fld_lt w 38 8)).vacant, ← decodeRaw_eq]
  constructor
  · rintro ⟨h, c, o, x, hi⟩
    exact ⟨_, (decodeWord_eq_ok_iff.1 hi).1, rfl⟩
  · rintro ⟨i, hi, hv⟩
    obtain ⟨h, c, o, x, rfl⟩ := Instr.isVacant_iff.1 hv
    exact ⟨h, c, o, x, decodeWord_eq_ok_iff.2 ⟨hi, rfl⟩⟩

/-- Settles O56: each word is its own run of the decoder. -/
theorem encodedWords : Obligations.EncodedWords := by
  unfold Obligations.EncodedWords
  decide +kernel

/-- Settles O55: a syllable's word and its parts (class, opcode, header, operand bits) determine each other, and every
row of the opcode map reads the parts that the encoder gives it. -/
theorem decodeOfEncode : Obligations.DecodeOfEncode := by
  unfold Obligations.DecodeOfEncode
  refine ⟨fun i w hwf hv hi => decodeWord_encode hwf ?_ hi,
    fun w i hw hi => ⟨encode_of_decodeWord hw hi, (decodeWord_eq_ok_iff.1 hi).2,
      isSyllable_iff.2 ⟨_, encParts_of_decodeWord hi⟩⟩,
    fun i hi => exists_word hi, fun w _ => (decodeWord_vacant_iff w).trans ?_⟩
  · refine Bool.eq_false_iff.2 fun hvac => ?_
    obtain ⟨h, c, o, x, rfl⟩ := Instr.isVacant_iff.1 hvac
    exact hv h c o x rfl
  · have hc := fld_lt w 61 3
    generalize fld w 61 3 = c at hc ⊢
    interval_cases c <;> exact decide_eq_true_iff

end Sys2Proof

/-!
SUPPORT. Landings of results (R49, R60, R145), the forms that only firmware may execute (R77, R185, R509) and
accesses to control registers (R175, R453).
-/

namespace Sys2Proof.Machine

/-! ## Results in flight (R49, R60, R145) -/

/-- A scalar result lands in its register; s0 stays 0. -/
theorem Regs.sAt_land_s (r : Regs) (md : Bool) (n k : Nat) (v : Word) :
    (r.land md (.s n v)).sAt k = if k = n ∧ n ≠ 0 then v else r.sAt k := by
  rcases eq_or_ne n 0 with rfl | hn
  · simp [Regs.land]
  · rcases eq_or_ne k n with rfl | hk
    · simp [Regs.land, Regs.sAt, hn]
    · simp [Regs.land, Regs.sAt, hn, hk, tgetD_tset_other _ _ _ _ _ hk]

section
variable {c : Core} {e : Pend} {t : Nat}

theorem Core.landBy_of_not_due (hp : c.pend = [e]) (he : e.dueBy t = false) : c.landBy t = c := by
  cases c
  simp_all [Core.landBy]

theorem Core.landBy_of_due (hp : c.pend = [e]) (he : e.dueBy t = true) :
    c.landBy t = { c with r := c.r.land c.lp.mloop.isSome e.res, pend := [] } := by
  simp [Core.landBy, hp, he, insDue]

end

theorem Bundle.pend_dueBy (b : Bundle) (res : Result) (lat t : Nat) :
    (b.pend res lat).dueBy t = decide (b.cycle + lat ≤ t) := rfl

/-- Settles O6: one result in flight is due or not, and what lands is one write of the register file. -/
theorem resultsLandWhenDue : Obligations.ResultsLandWhenDue := by
  unfold Obligations.ResultsLandWhenDue
  refine ⟨fun c b n lat t v hp => ⟨fun ht => ?_, fun ht => ?_⟩, fun r md x => ⟨rfl, rfl, fun n v hn => ?_, ?_, ?_⟩⟩
  · exact Core.landBy_of_not_due hp (by simp [Bundle.pend_dueBy, ht])
  · rw [Core.landBy_of_due hp (by simp [Bundle.pend_dueBy, ht])]
    exact ⟨rfl, fun k => Regs.sAt_land_s _ c.lp.mloop.isSome ..⟩
  · simp [Regs.land, hn]
  · exact fun _ => rfl
  · exact fun _ => rfl

/-! ## Privileged forms (R77, R185) -/

section
variable {s : State} {b : Bundle} {h : Hdr}

/-- Firmware's operations fault off a privileged general core. -/
theorem firmware_unprivileged (hi : Issuing s b h) (hb : isGeneral b.core = false ∨ b.issuer.seq.priv = false)
    (w : Word) (f : State → Bundle → Core → Out) : firmware h w f s = .next (s.faultBundle b.base (mkFault 0x05 w 0)) :=
  syllable_raise hi (if_neg (by simpa [imp_iff_not_or] using hb))

/-- A writing form of a privileged register faults off a privileged general core (R77). -/
theorem csrForm_unprivileged (hi : Issuing s b h) (hb : (isGeneral b.core && b.issuer.seq.priv) = false) {o : ZC}
    {op : CsrOp} (ha : csrAssigned (isGeneral b.core) o.csr.toNat = true) (hop : op ≠ .read)
    (hp : csrPrivileged o.csr.toNat = true) (w : Word) :
    csrForm h o w op s = .next (s.faultBundle b.base (mkFault 0x05 w 0)) :=
  syllable_raise hi (by simp [ha, hop, hp, hb])

/-- Settles O44: each form asks for the privileged general core before anything else. -/
theorem privilegedForms : Obligations.PrivilegedForms := by
  unfold Obligations.PrivilegedForms
  intro s b h o hi hb
  have hpriv : (isGeneral b.core && b.issuer.seq.priv) = false := by rcases hb with hb | hb <;> simp [hb]
  refine ⟨fun i hmem => ?_, fun q ha hp i hmem => ?_, ?_⟩
  · simp only [List.mem_cons, List.not_mem_nil, or_false] at hmem
    rcases hmem with rfl | rfl | rfl | rfl | rfl | rfl | rfl | rfl | rfl | rfl | rfl
    all_goals
      simp only [exec_partopForm, exec_partopDissolve, exec_partopPreempt, exec_partopQreset, exec_ctxopCreate,
        exec_ctxopDestroy, exec_ctxopInval, exec_ctxopAttest, exec_swapopSave, exec_swapopRestore, exec_swapopExch,
        execPartopForm, execPartopDissolve, execPartopPreempt, execPartopQreset, execCtxopCreate, execCtxopDestroy,
        execCtxopInval, execCtxopAttest, execSwapopSave, execSwapopRestore, execSwapopExch, swapForm]
      exact firmware_unprivileged hi hb ..
  · simp only [List.mem_cons, List.not_mem_nil, or_false] at hmem
    rcases hmem with rfl | rfl | rfl
    all_goals exact csrForm_unprivileged hi hpriv ha (by decide) hp _
  · rw [exec_tret, execTret]
    exact ctlSyllable_raise hi (by simp [hpriv])

/-! ## Control registers (R175) -/

theorem syllable_stall {f : State → Bundle → Core → Out} {r : Nat} (hi : Issuing s b h)
    (hf : f s b b.issuer = .stall r) : syllable h f s = .next (s.stallBundle b.base r) := by
  rw [syllable, bundleSyllable_issuing hi, hf]

theorem csrForm_unassigned (hi : Issuing s b h) {o : ZC} (ha : csrAssigned (isGeneral b.core) o.csr.toNat = false)
    (w : Word) (op : CsrOp) : csrForm h o w op s = .next (s.faultBundle b.base (mkFault 0x03 w 0)) :=
  syllable_raise hi (by simp [ha])

section
variable {o : ZC} {w : Word} {op : CsrOp} (hi : Issuing s b h)
  (ha : csrAssigned (isGeneral b.core) o.csr.toNat = true)
  (hp : op ≠ .read → csrPrivileged o.csr.toNat = true → (isGeneral b.core && b.issuer.seq.priv) = true)
include hi ha hp

/-- A set or clear form of GEN.SLOTOP is refused (R453). -/
theorem csrForm_slot_setClear (hn : o.csr.toNat = 0xB008) (hop : op = .set ∨ op = .clear) :
    csrForm h o w op s = .next (s.faultBundle b.base
      (mkFault 0xB9 w (toW (wfld (b.issuer.s o.a.toNat) 0 16 * 2 ^ 48 + 4)))) := by
  refine syllable_raise hi ?_
  rcases hop with rfl | rfl <;> simp_all

/-- A write of GEN.SLOTOP waits for the register actions before it. -/
theorem csrForm_slot_waits (hn : o.csr.toNat = 0xB008) (hop : op = .write) (hq : (s.dev.core b.core).csrq ≠ []) :
    csrForm h o w op s = .next (s.stallBundle b.base 11) := by
  refine syllable_stall hi ?_
  simp_all [slotForm]

/-- A write of GEN.SLOTOP with OP 3 is refused (R453). -/
theorem csrForm_slot_badOp (hn : o.csr.toNat = 0xB008) (hop : op = .write) (hq : (s.dev.core b.core).csrq = [])
    (h3 : wfld (b.issuer.s o.a.toNat) 62 2 = 3) :
    csrForm h o w op s = .next (s.faultBundle b.base
      (mkFault 0xB9 w (toW (wfld (b.issuer.s o.a.toNat) 0 16 * 2 ^ 48 + 4)))) := by
  refine syllable_raise hi ?_
  simp_all [slotForm]

/-- Any other access is queued behind the core's earlier ones, and its result awaited under a new tag (R175). -/
theorem csrForm_queued (hn : op ≠ .read → o.csr.toNat ≠ 0xB008) :
    csrForm h o w op s = .next (s.after h
      ((sendLate s.dev b (.s (physSV b.issuer.lp o.d.toNat) 0) false (s.dev.core b.core).nextTag).updCore b.core
        fun c => c.queueCsr op o.csr.toNat (b.issuer.s o.a.toNat) b.cycle (Config.freeCycles s.free))) := by
  refine syllable_ok hi ?_
  cases op <;> simp_all

end

/-- An access queued behind others is performed after the issue, and no earlier than the last of them. -/
theorem Core.queueCsr_cycle (c : Core) (cycle delay : Nat) :
    let t := max ((c.csrq.getLast?.map (·.at')).getD 0) (cycle + 1 + delay)
    cycle < t ∧ ∀ e ∈ c.csrq.getLast?, e.at' ≤ t := by
  refine ⟨by omega, fun e he => ?_⟩
  rw [Option.mem_def.1 he]
  exact Nat.le_max_left ..

/-- An answer changes no tag. -/
theorem Core.findIdx_answerS (c : Core) (t tag : Nat) (v : Word) :
    (c.answerS tag v).pend.findIdx? (fun e => e.tag = t) = c.pend.findIdx? (fun e => e.tag = t) := by
  simp only [Core.answerS, List.findIdx?_map]
  congr 1
  funext e
  simp only [Function.comp]
  split
  · split <;> rfl
  · rfl

end

/-- The action due is performed, and its old value lands in the register that waits for it (R175). -/
theorem performCsr_of_first {s : State} {n i : Nat} {e : CsrAct} {t : List CsrAct}
    (hq : (s.dev.core n).csrq = e :: t) :
    let x : CsrAt := { mem := s.mem, core := n, cycle := e.at', time := s.time, free := s.free }
    let d := s.dev.updCore n fun c => { c with
      csrq := t, ready := max c.ready e.at'
      heldSum := c.heldSum + match c.run with | .held _ => e.at' - c.ready | _ => 0 }
    let after := (csrAccess x d e.op e.csr e.a).2
    let old := if e.csr = 0x4000 then e.val else (csrAccess x d e.op e.csr e.a).1
    (after.core n).pend.findIdx? (fun r => r.tag = e.tag) = some i →
    performCsr s n = (({ s with dev :=
      (after.updCore n fun c => ((c.answerS e.tag old).landAt i)).actReset }).settle.tick) := by
  intro x d after old hi
  rw [performCsr, hq]
  dsimp only
  refine congrArg (fun d : Dev => ({ s with dev := d.actReset }).settle.tick) (Dev.updCore_congr ?_)
  simp only [Core.findIdx_answerS]
  split
  · next j hj =>
    obtain rfl : i = j := Option.some.inj (hi.symm.trans hj)
    rfl
  · next hj => exact absurd (hi.symm.trans hj) (Option.some_ne_none i)

/-- Settles O40: a form is refused, waits or is queued by its number and its privilege; a queued action is one
access. -/
theorem controlRegisterForms : Obligations.ControlRegisterForms := by
  unfold Obligations.ControlRegisterForms
  refine ⟨fun s b h o hi => ?_, fun x d n a => ⟨rfl, rfl, rfl, rfl⟩, fun s n e t q i hq => ?_⟩
  · intro c n a priv y i wr op hmem
    have hform : exec i s = csrForm h o (sylWord i) op s ∧ (wr = true ↔ op ≠ .read) := by
      simp only [List.mem_cons, List.not_mem_nil, or_false, Prod.mk.injEq] at hmem
      rcases hmem with ⟨rfl, rfl, rfl⟩ | ⟨rfl, rfl, rfl⟩ | ⟨rfl, rfl, rfl⟩ | ⟨rfl, rfl, rfl⟩
      all_goals exact ⟨rfl, by decide⟩
    obtain ⟨hexec, hwr⟩ := hform
    rw [hexec]
    refine ⟨fun ha => csrForm_unassigned hi ha _ _,
      fun ha hw hp hpriv => csrForm_unprivileged hi hpriv ha (hwr.1 hw) hp _,
      fun hn ha hop hp => csrForm_slot_setClear hi ha (fun _ => hp) hn hop,
      fun hn ha hop hp hq => csrForm_slot_waits hi ha (fun _ => hp) hn hop hq,
      fun hn ha hop hp hq h3 => csrForm_slot_badOp hi ha (fun _ => hp) hn hop hq h3, fun ha hp hn => ?_⟩
    obtain ⟨hlt, hle⟩ := y.queueCsr_cycle b.cycle (Config.freeCycles s.free)
    refine ⟨_, hlt, hle, ?_⟩
    rw [csrForm_queued hi ha (fun hop => hp (hwr.2 hop)) fun hop => hn (hwr.2 hop)]
    refine congrArg (fun d => Host.Outcome.next (s.after h d)) (Dev.updCore_congr ?_)
    rw [sendLate, Dev.core_updCore_same]
    rfl
  · intro x d after old _ hidx _ _ _ hneed ex
    rw [turn_of_need hneed]
    exact congrArg Host.Outcome.next (performCsr_of_first hq hidx)

end Sys2Proof.Machine

/-!
SUPPORT. Elements packed into registers (R56, R57) and into compressed images (R245-R247).
-/

namespace Sys2Proof.Machine

/-! ## Packed fields (R56) -/

theorem packNat_lt (w : Nat) (l : List Nat) : packNat w l < 2 ^ (w * l.length) := by
  induction l with
  | nil => exact Nat.one_pos
  | cons x t ih =>
    rw [packNat, List.length_cons, Nat.mul_succ, Nat.pow_add]
    have hx : x % 2 ^ w < 2 ^ w := Nat.mod_lt _ (Nat.two_pow_pos w)
    calc x % 2 ^ w + 2 ^ w * packNat w t < 2 ^ w * (packNat w t + 1) := by rw [Nat.mul_succ]; omega
      _ ≤ 2 ^ w * 2 ^ (w * t.length) := Nat.mul_le_mul_left _ ih
      _ = 2 ^ (w * t.length) * 2 ^ w := Nat.mul_comm ..

theorem toNat_ofNat_packNat {n w : Nat} {l : List Nat} (hl : w * l.length ≤ n) :
    (BitVec.ofNat n (packNat w l)).toNat = packNat w l := by
  rw [BitVec.toNat_ofNat]
  exact Nat.mod_eq_of_lt ((packNat_lt w l).trans_le (Nat.pow_le_pow_right Nat.two_pos hl))

/-- A field of a packed list is the element packed there. -/
theorem fld_packNat (w : Nat) (l : List Nat) (i : Nat) (hi : i < l.length) :
    fld (packNat w l) (i * w) w = l[i] % 2 ^ w := by
  induction l generalizing i with
  | nil => cases hi
  | cons x t ih =>
    have hx : x % 2 ^ w < 2 ^ w := Nat.mod_lt _ (Nat.two_pow_pos w)
    cases i with
    | zero => simp [packNat, fld, Nat.add_mul_mod_self_left]
    | succ i =>
      have hdiv : packNat w (x :: t) / 2 ^ w = packNat w t := by
        rw [packNat, Nat.add_mul_div_left _ _ (Nat.two_pow_pos w), Nat.div_eq_of_lt hx, Nat.zero_add]
      rw [fld, Nat.succ_mul, Nat.add_comm (i * w), Nat.pow_add, ← Nat.div_div_eq_div_mul, hdiv]
      exact ih i (Nat.lt_of_succ_lt_succ hi)

/-- The register of a group that holds an element, and the element's place in it (R56). -/
theorem nth_packGroup {w per : Nat} (hper : per * w = 2048) (vals : List Nat) (i : Nat) (hi : i < vals.length) :
    nth ((packGroup w vals).map (·.1)) (i * w / 2048) 0 =
      BitVec.ofNat 2048 (packNat w ((vals.drop (i / per * per)).take per)) := by
  have hw : 0 < w := by rcases Nat.eq_zero_or_pos w with rfl | h <;> omega
  have hq : i * w / 2048 = i / per := by rw [← hper, Nat.mul_div_mul_right _ _ hw]
  have hdiv : 2048 / w = per := by rw [← hper, Nat.mul_div_cancel _ hw]
  have hlt : i / per < groupSize vals.length w := by
    rw [← hq, groupSize]
    have : i * w + w ≤ vals.length * w := by rw [← Nat.succ_mul]; exact Nat.mul_le_mul_right _ hi
    omega
  simp [nth, packGroup, hq, hdiv, hlt]

/-- The registers that a list of elements fills read back as the list. -/
theorem elemsOf_packGroup {w per : Nat} (hper : per * w = 2048) {vals : List Nat} (hv : ∀ v ∈ vals, v < 2 ^ w) :
    elemsOf ((packGroup w vals).map (·.1)) vals.length w = vals := by
  have hpos : 0 < per := by rcases Nat.eq_zero_or_pos per with rfl | h <;> omega
  refine List.ext_getElem (by simp [elemsOf]) fun i _ hi => ?_
  simp only [elemsOf, List.getElem_map, List.getElem_range, nth_packGroup hper vals i hi]
  set l := (vals.drop (i / per * per)).take per with hl
  have hdecomp := Nat.div_add_mod' i per
  have hmod := Nat.mod_lt i hpos
  have hlen : i % per < l.length := by rw [hl, List.length_take, List.length_drop]; omega
  have hfit : w * l.length ≤ 2048 := by
    rw [← hper, Nat.mul_comm, hl]
    exact Nat.mul_le_mul_right _ (List.length_take_le ..)
  have hoff : i * w % 2048 = i % per * w := by rw [← hper, Nat.mul_mod_mul_right]
  rw [toNat_ofNat_packNat hfit, hoff, fld_packNat w l _ hlen]
  have hget : l[i % per] = vals[i] := by
    simp only [hl, List.getElem_take, List.getElem_drop]
    congr 1
  rw [hget, Nat.mod_eq_of_lt (hv _ (List.getElem_mem hi))]

/-! ## Bytes of numbers -/

@[simp] theorem toBytes_length (n v : Nat) : (toBytes n v).length = n := by
  induction n generalizing v with
  | zero => rfl
  | succ n ih => simp [toBytes, ih]

theorem ofBytes_toBytes {n v : Nat} (hv : v < 2 ^ (8 * n)) : ofBytes (toBytes n v) = v := by
  induction n generalizing v with
  | zero => rw [Nat.mul_zero, Nat.pow_zero] at hv; simp only [toBytes, ofBytes]; omega
  | succ n ih =>
    have : v / 256 < 2 ^ (8 * n) := by
      rw [Nat.div_lt_iff_lt_mul (by decide), show 256 = 2 ^ 8 from rfl, ← Nat.pow_add]
      exact hv
    rw [toBytes, ofBytes, ih this, BitVec.toNat_ofNat]
    omega

/-! ## Compressed images (R245-R247) -/

/-- Element i of a list is not zero exactly where bit i of its mask is set. -/
theorem testBit_nonzeroBits (vals : List Nat) (i : Nat) (hi : i < vals.length) :
    (nonzeroBits vals).testBit i = decide (vals[i] ≠ 0) := by
  have h := fld_packNat 1 (vals.map fun v => if v = 0 then 0 else 1) i (by simpa using hi)
  rw [fld, Nat.mul_one, Nat.pow_one, List.getElem_map] at h
  rw [Nat.testBit_eq_decide_div_mod_eq, nonzeroBits, h]
  by_cases hv : vals[i] = 0 <;> simp [hv]

theorem nonzeroBits_lt (vals : List Nat) : nonzeroBits vals < 2 ^ (8 * maskBytes vals.length) := by
  refine (packNat_lt ..).trans_le (Nat.pow_le_pow_right Nat.two_pos ?_)
  rw [List.length_map, maskBytes]
  omega

/-- The packed non-zero elements expand to the elements under a mask that names them from bit i on. -/
theorem expand_packed {w bits : Nat} (hw : 8 * (w / 8) = w) (vals : List Nat) (i : Nat) (hv : ∀ v ∈ vals, v < 2 ^ w)
    (hbits : ∀ j (hj : j < vals.length), bits.testBit (i + j) = decide (vals[j] ≠ 0)) :
    expand bits w vals.length i ((vals.filter (· ≠ 0)).flatMap fun v => toBytes (w / 8) v) = vals := by
  induction vals generalizing i with
  | nil => rfl
  | cons x t ih =>
    have hx := hbits 0 (Nat.succ_pos _)
    have ht := ih (i + 1) (fun v h => hv v (List.mem_cons_of_mem _ h)) fun j hj => by
      rw [Nat.add_assoc, Nat.add_comm 1 j]
      exact hbits (j + 1) (Nat.succ_lt_succ hj)
    have hxw : x < 2 ^ (8 * (w / 8)) := hw.symm ▸ hv x (List.mem_cons_self ..)
    rw [Nat.add_zero, List.getElem_cons_zero] at hx
    rw [List.length_cons, expand, hx]
    rcases eq_or_ne x 0 with rfl | hx0
    · simpa using ht
    · simpa [hx0, ofBytes_toBytes hxw] using ht

section
variable (vals : List Nat) (w code : Nat)

/-- The header of an image (R245). -/
def imageHeader : Nat := (vals.filter (· ≠ 0)).length + vals.length * 2 ^ 16 + code * 2 ^ 32

theorem imageBytes_eq : imageBytes vals w code = toBytes 8 (imageHeader vals code) ++ (List.replicate 56 0 ++
    (toBytes (maskBytes vals.length) (nonzeroBits vals) ++
      (vals.filter (· ≠ 0)).flatMap fun v => toBytes (w / 8) v)) := by
  simp only [imageBytes, imageHeader, List.append_assoc]

theorem imageBytes_take : (imageBytes vals w code).take 8 = toBytes 8 (imageHeader vals code) := by
  rw [imageBytes_eq]
  exact List.take_left' (toBytes_length ..)

/-- After the 64 bytes of the header, the mask and the packed elements follow. -/
theorem imageBytes_drop : (imageBytes vals w code).drop 64 = toBytes (maskBytes vals.length) (nonzeroBits vals) ++
    (vals.filter (· ≠ 0)).flatMap fun v => toBytes (w / 8) v := by
  rw [imageBytes_eq, ← List.append_assoc]
  exact List.drop_left' (by simp)

theorem imageBytes_length : (imageBytes vals w code).length =
    64 + maskBytes vals.length + (vals.filter (· ≠ 0)).length * (w / 8) := by
  simp [imageBytes_eq, List.length_flatMap, Nat.add_assoc]
  omega

end

theorem ofBytes_imageHeader {vals : List Nat} {code : Nat} (hc : code < 3) (hn : vals.length ≤ 2048) :
    headerSize (ofBytes (toBytes 8 (imageHeader vals code))) =
      imageSize vals.length (imageWidth code) (vals.filter (· ≠ 0)).length := by
  have hz : (vals.filter (· ≠ 0)).length ≤ vals.length := List.length_filter_le ..
  rw [ofBytes_toBytes (by rw [imageHeader]; omega)]
  have hcode : fld (imageHeader vals code) 32 2 = code := by rw [fld, imageHeader]; omega
  have hlen : fld (imageHeader vals code) 16 16 = vals.length := by rw [fld, imageHeader]; omega
  have hnz : fld (imageHeader vals code) 0 16 = (vals.filter (· ≠ 0)).length := by rw [fld, imageHeader]; omega
  rw [headerSize, hcode, hlen, hnz, if_neg (by omega)]

/-- Settles O15: a field of a packed list is its element, and the mask of an image tells which elements were packed. -/
theorem elementsPackAndUnpack : Obligations.ElementsPackAndUnpack := by
  unfold Obligations.ElementsPackAndUnpack
  refine ⟨fun w vals hw hv => elemsOf_packGroup (per := 2048 / w) (Nat.div_mul_cancel ?_) hv,
    fun vals code hc hn hv => ?_⟩
  · simp only [List.mem_cons, List.not_mem_nil, or_false] at hw
    rcases hw with rfl | rfl | rfl | rfl <;> decide
  · intro w n img
    have hw : 8 * (w / 8) = w := by simp [w, imageWidth]
    have hmask : (img.drop 64).take (maskBytes n) = toBytes (maskBytes n) (nonzeroBits vals) := by
      rw [imageBytes_drop]
      exact List.take_left' (toBytes_length ..)
    have hpacked : img.drop (64 + maskBytes n) = (vals.filter (· ≠ 0)).flatMap fun v => toBytes (w / 8) v := by
      rw [← List.drop_drop, imageBytes_drop]
      exact List.drop_left' (toBytes_length ..)
    constructor
    · rw [hmask, hpacked, ofBytes_toBytes (nonzeroBits_lt vals)]
      exact expand_packed hw vals 0 hv fun j hj => by rw [Nat.zero_add]; exact testBit_nonzeroBits vals j hj
    · rw [imageBytes_length, imageBytes_take, ofBytes_imageHeader hc hn, imageSize, Nat.mul_div_assoc]
      exact ⟨2 ^ code, rfl⟩

end Sys2Proof.Machine

/-!
SUPPORT. What the conversions and the reductions answer (R302-R307), and the obligation about them.
-/

namespace Sys2Proof.Machine

/-! ## Conversions -/

section
variable {s : State} {b : Bundle} {h : Hdr} {o : VC}

/-- The packed registers that a conversion under descriptor f sends; out tells the direction. -/
def converted (c : Core) (o : VC) (f : Fmt) (out : Bool) (x : Word) : List (VWord × VWord) :=
  let src := if out = true then fmtFp32 else f
  let dst := if out = true then f else fmtFp32
  packGroup dst.c ((List.range (elemCount o.nq)).map fun k =>
    dst.encode (roundingOf o.rm o.sat x k) (src.decode (nth (c.elems o.a.toNat (elemCount o.nq) src.c) k 0)))

theorem convert_allowed {i : Instr} {int out : Bool} {f : Fmt} (hi : Issuing s b h)
    (hf : descFmt (formatReg s.dev b.core o.fmt.toNat) = some f)
    (hk : kindAllowed int (formatReg s.dev b.core o.fmt.toNat) = true) :
    convert h o i int out s = .next (s.after h (sendV (drawIn s.dev b.core o.rm).1 b b.issuer o.d.toNat
      (converted b.issuer o f out (drawIn s.dev b.core o.rm).2) 4)) :=
  syllable_ok hi (by simp only [hf, hk]; rfl)

theorem convert_unset {i : Instr} {int out : Bool} (hi : Issuing s b h)
    (hf : descFmt (formatReg s.dev b.core o.fmt.toNat) = none) :
    convert h o i int out s = .next (s.faultBundle b.base (mkFault 0x50 (sylWord i) (toW o.fmt.toNat))) :=
  syllable_raise hi (by simp only [hf])

theorem convert_kind {i : Instr} {int out : Bool} (hi : Issuing s b h)
    (hf : (descFmt (formatReg s.dev b.core o.fmt.toNat)).isSome = true)
    (hk : kindAllowed int (formatReg s.dev b.core o.fmt.toNat) = false) :
    convert h o i int out s = .next (s.faultBundle b.base (mkFault 0x51 (sylWord i)
      (toW (descKind (formatReg s.dev b.core o.fmt.toNat) * 256 + o.fmt.toNat)))) := by
  obtain ⟨f, hf⟩ := Option.isSome_iff_exists.1 hf
  exact syllable_raise hi (by simp only [hf, hk]; rfl)

/-- The four conversions are convert, in the direction and with the kinds of R302. -/
theorem exec_conversion {i : Instr} {int out : Bool}
    (hm : (i, int, out) ∈ [(Instr.vcvtf h o, false, false), (.vcvtn h o, false, true), (.vcvti h o, true, true),
      (.vcvtif h o, true, false)]) : exec i s = convert h o i int out s := by
  simp only [List.mem_cons, List.not_mem_nil, or_false, Prod.mk.injEq] at hm
  rcases hm with ⟨rfl, rfl, rfl⟩ | ⟨rfl, rfl, rfl⟩ | ⟨rfl, rfl, rfl⟩ | ⟨rfl, rfl, rfl⟩
  · exact exec_vcvtf h o s
  · exact exec_vcvtn h o s
  · exact exec_vcvti h o s
  · exact exec_vcvtif h o s

end

/-! ## Reductions -/

section
variable {s : State} {b : Bundle} {h : Hdr}

theorem vecSums_issuing (hi : Issuing s b h) (o : VS) (lat : Nat) (sums : List Nat → List (List Nat)) :
    vecSums h o lat sums s = .next (s.after h (sendV (drawIn s.dev b.core o.rm).1 b b.issuer o.d.toNat
      (packGroup (tyWidth o.ty) ((List.range ((vsSource b.issuer o).flatMap sums).length).map fun k =>
        sumElems o.ty (roundingOf o.rm 0 (drawIn s.dev b.core o.rm).2 k)
          (nth ((vsSource b.issuer o).flatMap sums) k []))) lat)) :=
  syllable_ok hi rfl

theorem vecResult_issuing (hi : Issuing s b h) (d : BitVec 6) (w lat : Nat) (f : Core → List Nat) :
    vecResult h d w lat f s = .next (s.after h (sendV s.dev b b.issuer d.toNat (packGroup w (f b.issuer)) lat)) :=
  syllable_ok hi rfl

end

/-- Settles O14: the conversions by the three cases of a descriptor, the reductions form by form. -/
theorem conversionsAndReductions : Obligations.ConversionsAndReductions := by
  intro s b h hi
  refine ⟨fun o => ?_, fun o => ?_⟩
  · intro w i int out hm
    rw [exec_conversion hm]
    exact ⟨fun _ => convert_allowed hi, convert_unset hi, convert_kind hi⟩
  · refine ⟨?_, ?_, ?_, ?_, ?_, ?_⟩
    · exact (exec_vrsum h o s).trans (vecSums_issuing hi o 6 _)
    · exact (exec_vpsum h o s).trans (vecSums_issuing hi o 8 _)
    · exact (exec_vrmax h o s).trans (vecResult_issuing hi o.d _ 6 _)
    · exact (exec_vrmin h o s).trans (vecResult_issuing hi o.d _ 6 _)
    · exact (exec_vargmax h o s).trans (vecResult_issuing hi o.d 32 8 _)
    · exact (exec_vtopk h o s).trans (vecResult_issuing hi o.d 32 8 _)

end Sys2Proof.Machine

/-!
SUPPORT. What a register-only syllable leaves of the units: results in flight to its destinations and nothing else (R45,
R97); the S and V classes are walked form by form, and the obligation about them follows.
-/

namespace Sys2Proof.Machine

/-! ## A core and a device that differ by results in flight -/

/-- Core c' is core c but for results in flight from bundle b to the registers refs, the record of b's branch-target
writes, and the generator. -/
structure CoreSends (b : Bundle) (refs : List RegRef) (c c' : Core) : Prop where
  kept : { c' with pend := c.pend, bWrite := c.bWrite, r := { c'.r with gen := c.r.gen } } = c
  results : ∀ e ∈ c'.pend, e ∈ c.pend ∨ (e.prod = b.addr ∧ e.res.ref ∈ refs)

/-- Device d' is device d but for what CoreSends allows in the core of bundle b. -/
structure Sends (b : Bundle) (refs : List RegRef) (d d' : Dev) : Prop where
  core : CoreSends b refs (d.core b.core) (d'.core b.core)
  others : ∀ n, n ≠ b.core → d'.core n = d.core n
  units : { d' with cores := d.cores } = d

section
variable {b : Bundle} {refs : List RegRef}

theorem CoreSends.refl (c : Core) : CoreSends b refs c c := ⟨rfl, fun _ he => .inl he⟩

theorem CoreSends.trans {c c' c'' : Core} (h : CoreSends b refs c c') (h' : CoreSends b refs c' c'') :
    CoreSends b refs c c'' where
  kept := (congrArg (fun x : Core =>
    { x with pend := c.pend, bWrite := c.bWrite, r := { x.r with gen := c.r.gen } }) h'.kept).trans h.kept
  results e he := (h'.results e he).elim (h.results e) .inr

theorem CoreSends.push (c : Core) {e : Pend} (hp : e.prod = b.addr) (hr : e.res.ref ∈ refs) :
    CoreSends b refs c (c.push e) where
  kept := rfl
  results x hx := (List.mem_append.1 hx).imp_right fun h => by
    obtain rfl := List.mem_singleton.1 h
    exact ⟨hp, hr⟩

theorem Sends.refl (d : Dev) : Sends b refs d d := ⟨.refl _, fun _ _ => rfl, rfl⟩

theorem Sends.trans {d d' d'' : Dev} (h : Sends b refs d d') (h' : Sends b refs d' d'') : Sends b refs d d'' where
  core := h.core.trans h'.core
  others n hn := (h'.others n hn).trans (h.others n hn)
  units := (congrArg (fun x : Dev => { x with cores := d.cores }) h'.units).trans h.units

theorem Sends.updCore {d : Dev} {f : Core → Core} (h : CoreSends b refs (d.core b.core) (f (d.core b.core))) :
    Sends b refs d (d.updCore b.core f) where
  core := by rwa [Dev.core_updCore_same]
  others n hn := Dev.core_updCore_other _ _ _ _ hn
  units := rfl

theorem Sends.foldl {α : Type} {g : Dev → α → Dev} {l : List α} (h : ∀ x ∈ l, ∀ d, Sends b refs d (g d x)) (d : Dev) :
    Sends b refs d (l.foldl g d) := by
  induction l generalizing d with
  | nil => exact .refl d
  | cons x l ih =>
    exact (h x List.mem_cons_self d).trans (ih (fun y hy => h y (List.mem_cons_of_mem x hy)) _)

/-! ## What each way of sending sends -/

theorem sendIn_sends (d : Dev) {res : Result} (lat : Nat) (hr : res.ref ∈ refs) :
    Sends b refs d (sendIn d b res lat) :=
  .updCore (.push _ rfl hr)

theorem drawIn_sends (d : Dev) (rm : BitVec 2) : Sends b refs d (drawIn d b.core rm).1 := by
  unfold drawIn
  split
  · dsimp only
    refine .updCore ?_
    exact ⟨rfl, fun _ he => .inl he⟩
  · exact .refl d

theorem sendB_sends (d : Dev) (c : Core) {n : Nat} (val : Word) (hn : (4, n) ∈ refs) :
    Sends b refs d (sendB d b c n val) := by
  refine (sendIn_sends d 1 hn).trans (.updCore ?_)
  exact ⟨rfl, fun _ he => .inl he⟩

theorem sendV_sends (d : Dev) (c : Core) {n : Nat} {vals : List (VWord × VWord)} (lat : Nat)
    (hv : ∀ q, q < vals.length → (1, physSV c.lp (n + q)) ∈ refs) : Sends b refs d (sendV d b c n vals lat) := by
  refine Sends.foldl ?_ d
  rintro ⟨q, val, mask⟩ hx d
  exact sendIn_sends d lat (hv q (List.mem_range.1 (List.of_mem_zip hx).1))

end

/-! ## The registers of a group -/

theorem groupSize_mono {m n : Nat} (w : Nat) (h : m ≤ n) : groupSize m w ≤ groupSize n w :=
  Nat.div_le_div_right (Nat.add_le_add_right (Nat.mul_le_mul_right w h) 2047)

theorem mem_vcount {d : BitVec 6} {n w q : Nat} (hq : q < groupSize n w) (hd : d.toNat + q < 64) :
    (1, d.toNat + q) ∈ vcount d n w :=
  List.mem_filter.2 ⟨List.mem_map.2 ⟨q, List.mem_range.2 hq, rfl⟩, decide_eq_true hd⟩

/-- A group within the limits of R57 lies in the register file. -/
theorem mem_vcount_of_groupOk {d : BitVec 6} {n w q : Nat} (hok : groupOk d.toNat n w = true)
    (hq : q < groupSize n w) : (1, d.toNat + q) ∈ vcount d n w := by
  simp only [groupOk, Bool.and_eq_true, decide_eq_true_eq] at hok
  exact mem_vcount hq (by omega)

theorem groupOk_of_nqOk {d nq w : Nat} (h : nqOk d nq w = true) : groupOk d (16 * nq) w = true :=
  (Bool.and_eq_true_iff.1 h).2

theorem packGroup_length (w : Nat) (vals : List Nat) : (packGroup w vals).length = groupSize vals.length w := by
  simp [packGroup]

/-- An element within a group lies in one of the group's registers. -/
theorem elemPlace_mem {d : BitVec 6} {n w j r k : Nat} (h : elemPlace d.toNat n w j = some (r, k)) (hw : 0 < w) :
    (1, r) ∈ vcount d n w := by
  unfold elemPlace at h
  dsimp only at h
  split at h
  · cases h
  · next hout =>
    cases h
    simp only [Bool.or_eq_true, decide_eq_true_eq] at hout
    have hlt : j * w < n * w := Nat.mul_lt_mul_of_pos_right (by omega) hw
    refine mem_vcount ?_ (by omega)
    unfold groupSize
    omega

theorem tyWidth_pos : ∀ ty : BitVec 3, 0 < tyWidth ty := by decide

theorem vfFmt_width : ∀ ty : BitVec 2, (vfFmt ty).c = vfWidth ty := by decide

/-! ## How many elements a form sends -/

theorem Core.elems_length (c : Core) (first n w : Nat) : (c.elems first n w).length = n := by
  simp [Core.elems, elemsOf]

theorem Core.second_length (c : Core) (bs : BitVec 1) (x : BitVec 6) (mdf : BitVec 12) (n w : Nat) :
    (c.second bs x mdf n w).length = n := by
  unfold Core.second
  split <;> simp [elemsOf]

theorem segments_length {α : Type} (seg : Nat) (l : List α) : (segments seg l).length = l.length / seg := by
  simp [segments]

theorem segments_lengths_sum_le {α : Type} (seg : Nat) (l : List α) :
    ((segments seg l).map List.length).sum ≤ l.length := by
  have each : ∀ n ∈ (segments seg l).map List.length, n ≤ seg := by
    simp only [segments, List.map_map, List.mem_map, Function.comp_apply]
    rintro n ⟨q, -, rfl⟩
    exact List.length_take_le _ _
  calc ((segments seg l).map List.length).sum
      ≤ ((segments seg l).map List.length).length • seg := List.sum_le_card_nsmul _ _ each
    _ = l.length / seg * seg := by rw [List.length_map, segments_length, smul_eq_mul]
    _ ≤ l.length := Nat.div_mul_le_self _ _

theorem vsSource_length (c : Core) (o : VS) : (vsSource c o).length = vsSegs o := by
  rw [vsSource, segments_length, Core.elems_length, elemCount, vsSegs]

/-- A scan, which sends one result for each source element, sends no more than the source has (R305, R307). -/
theorem vsSource_flatMap_length_le (c : Core) (o : VS) {β : Type} (f : List Nat → List β)
    (hf : ∀ l, (f l).length = l.length) : ((vsSource c o).flatMap f).length ≤ 16 * o.nq.toNat := by
  have h := segments_lengths_sum_le (2 ^ o.seg.toNat) (c.elems o.a.toNat (elemCount o.nq) (tyWidth o.ty))
  rwa [Core.elems_length, ← List.map_congr_left fun l _ => hf l, ← List.length_flatMap] at h

/-! ## Operand limits -/

theorem limits_of_header {h : Hdr} {p : Bool} (hok : (hdrOk h && p) = true) : p = true :=
  (Bool.and_eq_true_iff.1 hok).2

theorem vrOk_dest {w : Nat} {o : VR} (hok : vrOk w o = true) : nqOk o.d.toNat o.nq.toNat w = true := by
  simp only [vrOk, Bool.and_eq_true] at hok
  obtain ⟨⟨⟨-, hd⟩, -⟩, -⟩ := hok
  exact hd

theorem vrUnOk_dest {w : Nat} {o : VR} (hok : vrUnOk w o = true) : nqOk o.d.toNat o.nq.toNat w = true := by
  simp only [vrUnOk, Bool.and_eq_true] at hok
  obtain ⟨⟨-, hd⟩, -⟩ := hok
  exact hd

theorem vmovOk_dest {o : VR} (hok : vmovOk o = true) : nqOk o.d.toNat o.nq.toNat 32 = true := by
  simp only [vmovOk, Bool.and_eq_true] at hok
  obtain ⟨⟨-, hd⟩, -⟩ := hok
  exact hd

theorem viOk_dest {w : Nat} {o : VI} (hok : viOk w o = true) : nqOk o.d.toNat o.nq.toNat w = true :=
  (Bool.and_eq_true_iff.1 hok).1

theorem vfOk_dest {o : VF} (hok : vfOk o = true) : nqOk o.d.toNat o.nq.toNat (vfWidth o.ty) = true := by
  simp only [vfOk, Bool.and_eq_true] at hok
  obtain ⟨⟨⟨-, hd⟩, -⟩, -⟩ := hok
  exact hd

theorem vfUnOk_dest {o : VF} (hok : vfUnOk o = true) : nqOk o.d.toNat o.nq.toNat (vfWidth o.ty) = true := by
  simp only [vfUnOk, Bool.and_eq_true] at hok
  obtain ⟨⟨-, hd⟩, -⟩ := hok
  exact hd

theorem vmOk_dest {o : VM} (hok : vmOk o = true) : nqOk o.d.toNat o.nq.toNat 32 = true := by
  simp only [vmOk, Bool.and_eq_true] at hok
  obtain ⟨⟨hd, -⟩, -⟩ := hok
  exact hd

theorem vsOk_dest {o : VS} {dn dw : Nat} (hok : vsOk o dn dw = true) : groupOk o.d.toNat dn dw = true :=
  (Bool.and_eq_true_iff.1 hok).2

/-! ## A syllable that completes and only sends -/

/-- The outcome is the next state in which the syllable only sent results to the registers that dests names. -/
def Completes (s : State) (b : Bundle) (h : Hdr) (dests : List RegRef) (out : Host.Outcome State Fault Refusal) :
    Prop :=
  ∃ d, out = .next (s.after h d) ∧ Sends b (dests.map (physRef b.issuer.lp)) s.dev d

section
variable {s : State} {b : Bundle} {h : Hdr} (hi : Issuing s b h)
include hi

theorem syllable_completes {dests : List RegRef} {f : State → Bundle → Core → Out} {d : Dev}
    (hf : f s b b.issuer = .ok d) (hd : Sends b (dests.map (physRef b.issuer.lp)) s.dev d) :
    Completes s b h dests (syllable h f s) :=
  ⟨d, syllable_ok hi hf, hd⟩

/-! ### Class S -/

theorem scalarResult_completes (d : BitVec 6) (lat : Nat) (val : Core → Word) :
    Completes s b h [rs d] (scalarResult h d lat val s) :=
  syllable_completes hi rfl (sendIn_sends _ _ List.mem_cons_self)

theorem scalarRR_completes (o : SRR) (lat : Nat) (op : Word → Word → Word) :
    Completes s b h [rs o.d] (scalarRR h o lat op s) :=
  scalarResult_completes hi o.d lat _

theorem scalarR1_completes (o : SR1) (op : Word → Word) : Completes s b h [rs o.d] (scalarR1 h o op s) :=
  scalarResult_completes hi o.d 1 _

theorem scalarRI_completes (o : SRI) (lat : Nat) (op : Word → Word → Word) :
    Completes s b h [rs o.d] (scalarRI h o lat op s) :=
  scalarResult_completes hi o.d lat _

theorem compareRR_completes (o : SPR) (r : Rel) : Completes s b h [rp o.pd] (compareRR h o r s) :=
  syllable_completes hi rfl (sendIn_sends _ _ List.mem_cons_self)

theorem compareRI_completes (o : SPI) (r : Rel) : Completes s b h [rp o.pd] (compareRI h o r s) :=
  syllable_completes hi rfl (sendIn_sends _ _ List.mem_cons_self)

theorem predicateLogic_completes (o : SPP) (op : Bool → Bool → Bool) :
    Completes s b h [rp o.pd] (predicateLogic h o op s) :=
  syllable_completes hi rfl (sendIn_sends _ _ List.mem_cons_self)

theorem execMfx_completes (o : SXR) : Completes s b h [rs o.d] (execMfx h o s) :=
  syllable_completes hi rfl (sendIn_sends _ _ List.mem_cons_self)

/-- MTX writes lr or the predicates p1 to p15: the only selectors that R62 lets it name. -/
theorem execMtx_completes {o : SXR} (hok : selWritable o.sel = true) :
    Completes s b h (selRegs o.sel) (execMtx h o s) := by
  refine syllable_completes hi rfl ?_
  simp only [selWritable, Bool.or_eq_true, decide_eq_true_eq] at hok
  obtain hsel | hsel := hok
  · rw [if_pos hsel, hsel]
    exact sendIn_sends _ _ List.mem_cons_self
  · rw [if_neg (by simp [hsel]), hsel]
    refine Sends.foldl (fun k hk d => sendIn_sends d 1 ?_) _
    exact List.mem_map.2 ⟨(3, k + 1), List.mem_map.2 ⟨k, hk, rfl⟩, rfl⟩

theorem execMtb_completes (o : SXB) : Completes s b h [rb o.bt] (execMtb h o s) :=
  syllable_completes hi rfl (sendB_sends _ _ _ List.mem_cons_self)

/-- LIMML takes the pair's first half out of flight and sends the whole. -/
theorem execLimml_completes (o : SLI) : Completes s b h [rs o.d] (execLimml h o s) := by
  refine syllable_completes hi rfl (Sends.trans ?_ (sendIn_sends _ _ List.mem_cons_self))
  split
  · exact .updCore ⟨rfl, fun _ he => .inl (List.mem_of_mem_dropLast he)⟩
  · exact .refl _

/-! ### Class V -/

/-- A group of at most n elements, sent after changes that themselves only send, reaches the n elements' registers. -/
theorem group_completes {f : State → Bundle → Core → Out} {d : BitVec 6} {n w lat : Nat} {d' : Dev}
    {vals : List (VWord × VWord)} (hf : f s b b.issuer = .ok (sendV d' b b.issuer d.toNat vals lat))
    (hd : Sends b ((vcount d n w).map (physRef b.issuer.lp)) s.dev d') (hlen : vals.length ≤ groupSize n w)
    (hok : groupOk d.toNat n w = true) : Completes s b h (vcount d n w) (syllable h f s) :=
  syllable_completes hi hf (hd.trans (sendV_sends _ _ _ fun _ hq =>
    List.mem_map_of_mem (f := physRef b.issuer.lp) (mem_vcount_of_groupOk hok (hq.trans_le hlen))))

theorem vecResult_completes {d : BitVec 6} {n w : Nat} (lat : Nat) {vals : Core → List Nat}
    (hlen : (vals b.issuer).length ≤ n) (hok : groupOk d.toNat n w = true) :
    Completes s b h (vcount d n w) (vecResult h d w lat vals s) :=
  group_completes hi rfl (.refl _) ((packGroup_length _ _).trans_le (groupSize_mono w hlen)) hok

theorem vecBinary_completes {o : VR} {w : Nat} (lat : Nat) (op : Nat → Nat → Nat)
    (hok : nqOk o.d.toNat o.nq.toNat w = true) : Completes s b h (vgrp o.d o.nq w) (vecBinary h o w lat op s) :=
  vecResult_completes hi lat (by simp [Core.elems_length, elemCount]) (groupOk_of_nqOk hok)

theorem vecUnary_completes {o : VR} {w : Nat} (lat : Nat) (op : Nat → Nat)
    (hok : nqOk o.d.toNat o.nq.toNat w = true) : Completes s b h (vgrp o.d o.nq w) (vecUnary h o w lat op s) :=
  vecResult_completes hi lat (by simp [Core.elems_length, elemCount]) (groupOk_of_nqOk hok)

theorem vecImm_completes {o : VI} {w : Nat} (op : Nat → Nat) (hok : nqOk o.d.toNat o.nq.toNat w = true) :
    Completes s b h (vgrp o.d o.nq w) (vecImm h o w op s) :=
  vecResult_completes hi 2 (by simp [Core.elems_length, elemCount]) (groupOk_of_nqOk hok)

theorem vecFloat_completes {o : VF} (lat : Nat) (op : FVal → FVal → FVal → FVal)
    (hok : nqOk o.d.toNat o.nq.toNat (vfWidth o.ty) = true) :
    Completes s b h (vgrp o.d o.nq (vfWidth o.ty)) (vecFloat h o lat op s) := by
  refine group_completes hi rfl (drawIn_sends _ _) ?_ (groupOk_of_nqOk hok)
  rw [packGroup_length, vfFmt_width, List.length_map, List.length_range, elemCount]

theorem vecSums_completes {o : VS} {n : Nat} (lat : Nat) {sums : List Nat → List (List Nat)}
    (hlen : ((vsSource b.issuer o).flatMap sums).length ≤ n) (hok : groupOk o.d.toNat n (tyWidth o.ty) = true) :
    Completes s b h (vcount o.d n (tyWidth o.ty)) (vecSums h o lat sums s) := by
  refine group_completes hi rfl (drawIn_sends _ _) ?_ hok
  rw [packGroup_length, List.length_map, List.length_range]
  exact groupSize_mono _ hlen

theorem execVperm_completes {o : VR} (hok : nqOk o.d.toNat o.nq.toNat 32 = true) :
    Completes s b h (vgrp o.d o.nq 32) (execVperm h o s) :=
  vecResult_completes hi 2 (by simp [Core.second_length, elemCount]) (groupOk_of_nqOk hok)

theorem execVsel_completes {o : VM} (hok : nqOk o.d.toNat o.nq.toNat 32 = true) :
    Completes s b h (vgrp o.d o.nq 32) (execVsel h o s) := by
  refine group_completes hi rfl (.refl _) ?_ (groupOk_of_nqOk hok)
  simp [packGroup_length, elemCount]

theorem maskForm_completes (o : VMM) (op : MWord → MWord → MWord) : Completes s b h [rm o.md] (maskForm h o op s) :=
  syllable_completes hi rfl (sendIn_sends _ _ List.mem_cons_self)

theorem execVcmp_completes (o : VP) : Completes s b h [rm o.md] (execVcmp h o s) :=
  syllable_completes hi rfl (sendIn_sends _ _ List.mem_cons_self)

theorem execVseed_completes (o : VX) : Completes s b h [] (execVseed h o s) :=
  syllable_completes hi rfl (.updCore ⟨rfl, fun _ he => .inl he⟩)

/-- A form with one result for each segment (R305, R306). -/
theorem segmentResult_completes {o : VS} {w : Nat} (lat : Nat) (f : List Nat → Nat)
    (hok : vsOk o (vsSegs o) w = true) :
    Completes s b h (vcount o.d (vsSegs o) w) (vecResult h o.d w lat (fun c => (vsSource c o).map f) s) :=
  vecResult_completes hi lat (by rw [List.length_map, vsSource_length]) (vsOk_dest hok)

theorem execVrsum_completes {o : VS} (hok : vsOk o (vsSegs o) (tyWidth o.ty) = true) :
    Completes s b h (vcount o.d (vsSegs o) (tyWidth o.ty)) (execVrsum h o s) :=
  vecSums_completes hi 6 (by simp [vsSource_length]) (vsOk_dest hok)

theorem execVpsum_completes {o : VS} (hok : vsOk o (16 * o.nq.toNat) (tyWidth o.ty) = true) :
    Completes s b h (vgrp o.d o.nq (tyWidth o.ty)) (execVpsum h o s) :=
  vecSums_completes hi 8 (vsSource_flatMap_length_le _ _ _ fun l => by simp) (vsOk_dest hok)

theorem execVtopk_completes {o : VS} (hok : vsOk o (16 * o.nq.toNat) 32 = true) :
    Completes s b h (vgrp o.d o.nq 32) (execVtopk h o s) :=
  vecResult_completes hi 8 (vsSource_flatMap_length_le _ _ _ fun l => by simp) (vsOk_dest hok)

theorem execVexts_completes (o : VS) : Completes s b h [rs o.d] (execVexts h o s) :=
  syllable_completes hi rfl (sendIn_sends _ _ List.mem_cons_self)

theorem execVinss_completes (o : VS) : Completes s b h (vgrp o.d o.nq (tyWidth o.ty)) (execVinss h o s) := by
  cases hp : elemPlace o.d.toNat (elemCount o.nq) (tyWidth o.ty) (wfld (b.issuer.s o.b.toNat) 0 32) with
  | none => exact syllable_completes hi (by simp only [hp]) (.refl _)
  | some place =>
    obtain ⟨r, k⟩ := place
    refine syllable_completes hi (by simp only [hp]; rfl) (sendV_sends _ _ _ fun q hq => ?_)
    obtain rfl : q = 0 := by simpa using hq
    exact List.mem_map_of_mem (f := physRef b.issuer.lp) (elemPlace_mem hp (tyWidth_pos _))

end

/-! ## The forms of the two classes -/

section
variable {s : State} {b : Bundle} {h : Hdr} (hi : Issuing s b h)
include hi

theorem classS_completes {i : Instr} (hwf : i.WellFormed) {opc ops : Nat} (hp : encParts i = some (0, opc, h, ops))
    (hill : ∀ h c o x, i ≠ .illegalOpcode h c o x) : Completes s b h (destsOf i) (exec i s) := by
  unfold exec
  cases i with
  | add h o | sub h o | and h o | or h o | xor h o | andn h o | shl h o | shr h o | sra h o | rol h o | mul h o
  | mulh h o | mulhn h o | min h o | max h o | minn h o | maxn h o =>
    cases hp
    exact scalarRR_completes hi o _ _
  | clz h o | ctz h o | popc h o | brev h o | bswap h o =>
    cases hp
    exact scalarR1_completes hi o _
  | addi h o | andi h o | ori h o | xori h o | shli h o | shri h o | srai h o | muli h o =>
    cases hp
    exact scalarRI_completes hi o _ _
  | bext h o | bins h o | sel h o | mfb h o | limmh h o =>
    cases hp
    exact scalarResult_completes hi o.d _ _
  | ceq h o | cne h o | clt h o | cle h o | cltn h o | clen h o =>
    cases hp
    exact compareRR_completes hi o _
  | ceqi h o | cnei h o | clti h o | clei h o | cltni h o | cleni h o =>
    cases hp
    exact compareRI_completes hi o _
  | pand h o | por h o | pxor h o | pandn h o =>
    cases hp
    exact predicateLogic_completes hi o _
  | mfx h o =>
    cases hp
    exact execMfx_completes hi o
  | mtx h o =>
    cases hp
    exact execMtx_completes hi (limits_of_header hwf)
  | mtb h o =>
    cases hp
    exact execMtb_completes hi o
  | limml h o =>
    cases hp
    exact execLimml_completes hi o
  | illegalOpcode h c o x => exact absurd rfl (hill h c o x)
  | _ => cases hp

theorem classV_completes {i : Instr} (hwf : i.WellFormed) {opc ops : Nat} (hp : encParts i = some (2, opc, h, ops))
    (hill : ∀ h c o x, i ≠ .illegalOpcode h c o x)
    (hconv : ∀ h o, i ≠ .vcvtf h o ∧ i ≠ .vcvtn h o ∧ i ≠ .vcvti h o ∧ i ≠ .vcvtif h o) :
    Completes s b h (destsOf i) (exec i s) := by
  unfold exec
  cases i with
  | vadd h ew o | vsub h ew o | vmul h ew o | vmulh h ew o | vmin h ew o | vmax h ew o | vminn h ew o | vmaxn h ew o
  | vshl h ew o | vshr h ew o | vsra h ew o | vadds h ew o | vsubs h ew o | vand h o | vor h o | vxor h o
  | vandn h o | vclmull h o | vclmulh h o =>
    cases hp
    exact vecBinary_completes hi _ _ (vrOk_dest (limits_of_header hwf))
  | vmov h o =>
    cases hp
    exact vecBinary_completes hi _ _ (vmovOk_dest (limits_of_header hwf))
  | vpopc h ew o | vclz h ew o | vabs h ew o =>
    cases hp
    exact vecUnary_completes hi _ _ (vrUnOk_dest (limits_of_header hwf))
  | vperm h o =>
    cases hp
    exact execVperm_completes hi (vrOk_dest (limits_of_header hwf))
  | vsel h o =>
    cases hp
    exact execVsel_completes hi (vmOk_dest (limits_of_header hwf))
  | mand h o | mor h o | mxor h o | mnot h o =>
    cases hp
    exact maskForm_completes hi o _
  | vseed h o =>
    cases hp
    exact execVseed_completes hi o
  | vaddi h ew o =>
    cases hp
    exact vecImm_completes hi _ (viOk_dest (limits_of_header hwf))
  | vshli h ew o | vshri h ew o =>
    cases hp
    exact vecImm_completes hi _ (viOk_dest (limits_of_header (Bool.and_eq_true_iff.1 hwf).1))
  | vmovi h ew o =>
    cases hp
    exact vecImm_completes hi _ (Bool.and_eq_true_iff.1 hwf).2
  | vfadd h o | vfsub h o | vfmul h o | vfma h o | vfms h o | vfnma h o =>
    cases hp
    exact vecFloat_completes hi _ _ (vfOk_dest (limits_of_header hwf))
  | vfmin h o | vfmax h o =>
    cases hp
    exact vecFloat_completes hi _ _ (vfOk_dest (limits_of_header (Bool.and_eq_true_iff.1 hwf).1))
  | vfabs h o | vfneg h o =>
    cases hp
    exact vecFloat_completes hi _ _ (vfUnOk_dest (limits_of_header (Bool.and_eq_true_iff.1 hwf).1))
  | vexp2 h o | vlog2 h o | vrcp h o | vrsq h o | vtanh h o =>
    cases hp
    exact vecFloat_completes hi _ _ (vfUnOk_dest (limits_of_header hwf))
  | vcmp h o =>
    cases hp
    exact execVcmp_completes hi o
  | vrsum h o =>
    cases hp
    exact execVrsum_completes hi (Bool.and_eq_true_iff.1 hwf).2
  | vpsum h o =>
    cases hp
    exact execVpsum_completes hi (Bool.and_eq_true_iff.1 hwf).2
  | vrmax h o | vrmin h o | vargmax h o =>
    cases hp
    exact segmentResult_completes hi _ _ (Bool.and_eq_true_iff.1 hwf).2
  | vtopk h o =>
    cases hp
    exact execVtopk_completes hi (Bool.and_eq_true_iff.1 hwf).2
  | vexts h o =>
    cases hp
    exact execVexts_completes hi o
  | vinss h o =>
    cases hp
    exact execVinss_completes hi o
  | vcvtf h o | vcvtn h o | vcvti h o | vcvtif h o => exact absurd (hconv h o) (by simp)
  | illegalOpcode h c o x => exact absurd rfl (hill h c o x)
  | _ => cases hp

/-- A syllable that does not end its bundle leaves the units and the memory as its effect does. -/
theorem after_of_not_end (he : h.e = false) (d : Dev) : (s.after h d).dev = d ∧ (s.after h d).mem = s.mem := by
  simp [State.after, State.closeSyllable, hi.1, he]

end

/-- Bytes that an agent reads rest on the memory and on the stores on their way alone. -/
theorem readByte_of_stores_eq (m : Memory) {d d' : Dev} (h : d'.stores = d.stores) (agent pa : Nat) :
    readByte m d' agent pa = readByte m d agent pa := by
  rw [readByte, readByte, h]

/-- Settles O60: every form of the two classes runs a wrapper that only sends results to its destinations. -/
theorem registerOnlyFrame : Obligations.RegisterOnlyFrame := by
  rintro i s b h hwf - hi ⟨cls, opc, ops, hp, hc⟩ hill hconv
  have hcomp : Completes s b h (destsOf i) (exec i s) := by
    obtain rfl | rfl := hc
    · exact classS_completes hi hwf hp hill
    · exact classV_completes hi hwf hp hill hconv
  obtain ⟨d, hd, hs⟩ := hcomp
  have hstores : d.stores = s.dev.stores := by
    have hunits := congrArg Dev.stores hs.units
    exact hunits
  refine ⟨d, hd, fun he => after_of_not_end hi he d, hs.others, hs.units, ⟨hs.core.kept, hs.core.results⟩,
    readByte_of_stores_eq s.mem hstores⟩

end Sys2Proof.Machine

/-!
SUPPORT. The values of a beat that are integers (R88, R100): their products and sums are exact integers, and the
obligation about a push of bytes follows.
-/

namespace Sys2Proof.Machine

/-! ## Integer values -/

/-- A finite value whose unit is 1: a sign and a whole magnitude. Both zeros are such values. -/
def FVal.IsInteger (x : FVal) : Prop := ∃ neg mag, x = .fin neg mag 0

@[simp] theorem scaled_fin_zero (neg : Bool) (mag : Nat) :
    (FVal.fin neg mag 0).scaled 0 = if neg then -(mag : Int) else mag := by simp [FVal.scaled]

theorem isInteger_ofInt (z : Int) : (FVal.ofInt z 0).IsInteger := ⟨_, _, rfl⟩

@[simp] theorem scaled_ofInt (z : Int) : (FVal.ofInt z 0).scaled 0 = z := by
  rw [FVal.ofInt, scaled_fin_zero]
  by_cases hz : z < 0
  · rw [if_pos (decide_eq_true hz)]
    omega
  · rw [if_neg (by simpa using hz)]
    omega

theorem isInteger_oneVal : oneVal.IsInteger := ⟨_, _, rfl⟩

@[simp] theorem scaled_oneVal : oneVal.scaled 0 = 1 := rfl

theorem FVal.IsInteger.mul {x y : FVal} (hx : x.IsInteger) (hy : y.IsInteger) : (x.mul y).IsInteger := by
  obtain ⟨s, m, rfl⟩ := hx
  obtain ⟨s', m', rfl⟩ := hy
  exact ⟨_, _, rfl⟩

theorem FVal.IsInteger.scaled_mul {x y : FVal} (hx : x.IsInteger) (hy : y.IsInteger) :
    (x.mul y).scaled 0 = x.scaled 0 * y.scaled 0 := by
  obtain ⟨s, m, rfl⟩ := hx
  obtain ⟨s', m', rfl⟩ := hy
  cases s <;> cases s' <;> simp [FVal.mul, FVal.negative]

section
variable {l : List FVal} (h : ∀ x ∈ l, x.IsInteger)
include h

/-- No term of a list of integers has an exponent but 0. -/
theorem lowest_of_isInteger : lowest l = 0 := by
  have hmin : ∀ l : List FVal, (∀ x ∈ l, x.IsInteger) → l.foldl (fun a x => min a x.exp) 0 = 0 := by
    intro l hl
    induction l with
    | nil => rfl
    | cons x t ih =>
      obtain ⟨s, m, rfl⟩ := hl x (List.mem_cons_self ..)
      simpa [FVal.exp] using ih fun x hx => hl x (List.mem_cons_of_mem _ hx)
  exact hmin _ fun x hx => h x (List.mem_filter.1 hx).1

/-- Integers hold no NaN and no infinity, so their sum is the finite case of R95, at exponent 0. -/
theorem sum_of_isInteger : FVal.sum l =
    if (l.map (·.scaled 0)).sum = 0 then .fin (l.all (·.negative)) 0 0 else .ofInt (l.map (·.scaled 0)).sum 0 := by
  have hnan : l.any FVal.isNan = false := List.any_eq_false.2 fun x hx => by
    obtain ⟨s, m, rfl⟩ := h x hx
    simp [FVal.isNan]
  have hinf (p : FVal → Bool) : (l.any fun x => x.isInf && p x) = false := List.any_eq_false.2 fun x hx => by
    obtain ⟨s, m, rfl⟩ := h x hx
    simp [FVal.isInf]
  have hterms : (l.map fun x => if x.isZero then 0 else x.scaled 0) = l.map (·.scaled 0) :=
    List.map_congr_left fun x hx => by
      obtain ⟨s, m, rfl⟩ := h x hx
      by_cases hm : m = 0 <;> simp [FVal.isZero, hm]
  simp [FVal.sum, hnan, hinf, lowest_of_isInteger h, hterms]

theorem isInteger_sum : (FVal.sum l).IsInteger := by
  rw [sum_of_isInteger h]
  split
  · exact ⟨_, _, rfl⟩
  · exact isInteger_ofInt _

theorem scaled_sum : (FVal.sum l).scaled 0 = (l.map (·.scaled 0)).sum := by
  rw [sum_of_isInteger h]
  split <;> simp_all

end

/-! ## Bytes as integers (R86, R88) -/

/-- An element in a container of 8 bits is its byte. -/
theorem field_eight (bs : List Byte) (i : Nat) : field bs 8 i = (nth bs i 0).toNat := by
  rw [field, Nat.mul_div_cancel_left _ (by decide), nth, ← List.head?_drop]
  cases bs.drop i with
  | nil => simp [ofBytes, fld]
  | cons b t => simp [ofBytes, fld, Nat.mod_eq_of_lt b.isLt]

theorem decode_fmtInt_eight (b : Byte) : (fmtInt 8).decode b.toNat = .ofInt b.toInt 0 := by
  have hsigned : signedOf 8 b.toNat = b.toInt := by
    rw [signedOf, Nat.mod_eq_of_lt b.isLt, BitVec.toInt]
    split <;> split <;> omega
  exact congrArg (FVal.ofInt · 0) hsigned

section
variable {q : MatCfg}

theorem activation_of_fmtInt_eight (h : q.af = fmtInt 8) (row : List Byte) (k : Nat) :
    q.activation row k = .ofInt (nth row k 0).toInt 0 := by
  rw [MatCfg.activation, h, show (fmtInt 8).c = 8 from rfl, field_eight, decode_fmtInt_eight]

theorem weight_of_fmtInt_eight (h : q.wf = fmtInt 8) (plane : Tab PlaneRow) (k j : Nat) :
    q.weight plane k j = .ofInt (nth (planeRow plane (k / q.g)).bytes (k % q.g * q.n + j) 0).toInt 0 := by
  rw [MatCfg.weight, h, show (fmtInt 8).c = 8 from rfl, field_eight, decode_fmtInt_eight]

/-! ## The sum of a beat (R100) -/

/-- Without scales the whole row is one block, whose sum both absent scales leave as it is. -/
theorem beatSum_of_unscaled (ha : q.ba = 0) (hw : q.bw = 0) (hk : 0 < q.k) (plane : Tab PlaneRow) (row : List Byte)
    (j : Nat) : q.beatSum plane row j =
      .sum [((FVal.sum ((List.range q.k).map fun i => (q.activation row i).mul (q.weight plane i j))).mul oneVal).mul
        oneVal] := by
  simp [MatCfg.beatSum, MatCfg.block, MatCfg.activationScale, MatCfg.weightScale, ha, hw, Nat.div_self hk]

/-- The sum of an unscaled beat over integers is the integer dot product. -/
theorem scaled_beatSum_of_isInteger (ha : q.ba = 0) (hw : q.bw = 0) (hk : 0 < q.k) {plane : Tab PlaneRow}
    {row : List Byte} {j : Nat} (hA : ∀ i, (q.activation row i).IsInteger)
    (hW : ∀ i, (q.weight plane i j).IsInteger) : (q.beatSum plane row j).scaled 0 =
      ((List.range q.k).map fun i => (q.activation row i).scaled 0 * (q.weight plane i j).scaled 0).sum := by
  have hterms : ∀ x ∈ (List.range q.k).map fun i => (q.activation row i).mul (q.weight plane i j), x.IsInteger :=
    List.forall_mem_map.2 fun i _ => (hA i).mul (hW i)
  have hsum := isInteger_sum hterms
  have hone := hsum.mul isInteger_oneVal
  rw [beatSum_of_unscaled ha hw hk, scaled_sum (List.forall_mem_singleton.2 (hone.mul isInteger_oneVal)),
    List.map_singleton, List.sum_singleton, hone.scaled_mul isInteger_oneVal, hsum.scaled_mul isInteger_oneVal,
    scaled_oneVal, mul_one, mul_one, scaled_sum hterms, List.map_map]
  exact congrArg List.sum (List.map_congr_left fun i _ => (hA i).scaled_mul (hW i))

/-- A push to an INT32 accumulator carries the exact sum of each column (R102). -/
theorem nth_pushValues_int {plane : Tab PlaneRow} {row : List Byte} {ak : BitVec 2} {j : Nat} (hak : ak ≠ 0)
    (hj : j < q.n) : nth (q.pushValues plane row ak) j 0 = (q.beatSum plane row j).scaled 0 := by
  have hvalue : (q.pushValues plane row ak)[j]? = some ((q.beatSum plane row j).scaled 0) := by
    rw [MatCfg.pushValues, List.getElem?_map, List.getElem?_range hj, Option.map_some, if_neg hak]
  rw [nth, hvalue, Option.getD_some]

end

/-- Settles O31: bytes decode to integers, and the one block of an unscaled beat sums integers exactly. -/
theorem integerBeatIsDotProduct : Obligations.IntegerBeatIsDotProduct := by
  intro q plane row ak j hwf haf hba hbw hk hak hj
  have hA := activation_of_fmtInt_eight haf row
  have hW := weight_of_fmtInt_eight hwf plane (j := j)
  have hg : q.g = 2 := by rw [MatCfg.g, hk]
  rw [nth_pushValues_int hak hj, scaled_beatSum_of_isInteger hba hbw (by omega)
    (fun i => hA i ▸ isInteger_ofInt _) (fun i => hW i ▸ isInteger_ofInt _), hk]
  simp only [hA, hW, hg, scaled_ofInt]

end Sys2Proof.Machine

/-!
SUPPORT. The addresses of a scalar access (05_memory_and_ordering.md): the one part that it has, what its checks come
to, and where a part in the aperture lies. The obligations about local addresses and scalar loads follow.
-/

namespace Sys2Proof.Machine

/-! ## Parts in the aperture (R107, R224) -/

section
variable {m : Memory} {d : Dev} {n : Nat} {acc : Access} {slots whole : Bool} {p : Piece}

theorem locate_of_inAperture (hc : wfld p.ea 57 7 = 0) (ha : inAperture p.ea.toNat = true) :
    locate m d n acc slots whole p = locateLocal d n acc slots whole p := by
  rw [locate, if_neg (not_not_intro hc), if_pos ha]

theorem locateLocal_of_isGeneral (hn : isGeneral n = true) :
    locateLocal d n acc slots whole p = .error (.event (quotaFault p.ea 3)) := by
  rw [locateLocal, if_pos hn]

variable {x : Ctx} (hn : isGeneral n = false) (hx : (d.ctxOfCore n).bind d.ctx = some x)
include hn hx

theorem locateLocal_of_outside (ho : p.ea.toNat - apertureBase < x.qbase * 65536 ∨
    (x.qbase + x.qsize) * 65536 ≤ p.ea.toNat - apertureBase) :
    locateLocal d n acc slots whole p =
      .error (.event (quotaFault p.ea (if spmSize ≤ p.ea.toNat - apertureBase then 2 else 1))) := by
  simp [locateLocal, hn, hx, ho]

/-- Within the quota and outside the window only the granule's error decides. -/
theorem locateLocal_of_inside (hlo : x.qbase * 65536 ≤ p.ea.toNat - apertureBase)
    (hhi : p.ea.toNat - apertureBase < (x.qbase + x.qsize) * 65536)
    (hs : x.slotAt (p.ea.toNat - apertureBase) = none) :
    locateLocal d n acc slots whole p =
      if ((d.cluster (clusterOf n)).spmBad.contains ((p.ea.toNat - apertureBase) / 8) &&
          (acc = Access.read || !whole)) = true then
        .error (.event (mkFault 0x39 (toW (p.ea.toNat / 8 * 8)) (toW (p.elem % 1024 * 65536))))
      else .ok (.here (spmBase (clusterOf n) + (p.ea.toNat - apertureBase))) := by
  have ho : ¬(p.ea.toNat - apertureBase < x.qbase * 65536 ∨
      (x.qbase + x.qsize) * 65536 ≤ p.ea.toNat - apertureBase) := by omega
  simp [locateLocal, hn, hx, ho, hs]

end

/-- Settles O23: the quota of the core's context decides in the aperture, then the granule's error. -/
theorem localAddresses : Obligations.LocalAddresses := by
  intro m d n acc slots whole p off hc ha
  rw [locate_of_inAperture hc ha]
  refine ⟨locateLocal_of_isGeneral, fun x hn hx => ⟨locateLocal_of_outside hn hx, fun hlo hhi hs => ⟨?_, ?_⟩⟩⟩
  · intro hgood
    rw [locateLocal_of_inside hn hx hlo hhi hs, hgood]
    rfl
  · intro hbad hread
    rw [locateLocal_of_inside hn hx hlo hhi hs, hbad, hread]
    rfl

/-! ## Scalar accesses (R227, R229) -/

/-- The one part of a scalar access of w bytes. -/
def Core.scalarPiece (c : Core) (o : LM) (w : Nat) : Piece := { ea := c.lmAddress o, len := w, elem := 0 }

section
variable {c : Core} {o : LM} {w : Nat}

theorem Core.scalarAccess_parts : (c.scalarAccess o w).parts = [c.scalarPiece o w] := rfl

theorem Core.scalarAccess_local_iff : (c.scalarAccess o w).local = true ↔
    wfld (c.lmAddress o) 57 7 = 0 ∧ inAperture (c.lmAddress o).toNat = true := by
  simp [Accesses.local, Core.scalarAccess_parts, Core.scalarPiece]

theorem Core.scalarAccess_misaligned_of_ne (h : (c.lmAddress o).toNat % w ≠ 0) :
    (c.scalarAccess o w).misaligned = some (mkFault 0x36 (c.lmAddress o) 0) := by
  simp [Accesses.misaligned, Core.scalarAccess, elementParts, h, toW]

theorem Core.scalarAccess_misaligned_of_eq (h : (c.lmAddress o).toNat % w = 0) :
    (c.scalarAccess o w).misaligned = none := by
  simp [Accesses.misaligned, Core.scalarAccess, elementParts, h]

variable {m : Memory} {d : Dev} {n : Nat} {acc : Access} {slots : Bool}

theorem Core.scalarAccess_locate_of_straddles (h : straddles (c.lmAddress o) w = true) :
    (c.scalarAccess o w).locate m d n acc slots = .error (.event (noncanonical (c.lmAddress o) 0 acc)) := by
  simp [Accesses.locate, Core.scalarAccess, h]

/-- A scalar access that straddles nothing lies where its one part does. -/
theorem Core.scalarAccess_locate (h : straddles (c.lmAddress o) w = false) :
    (c.scalarAccess o w).locate m d n acc slots =
      (Machine.locate m d n acc slots ((c.scalarAccess o w).covers (c.scalarPiece o w)) (c.scalarPiece o w)).map
        fun l => [(c.scalarPiece o w, l)] := by
  have hrange : (c.scalarAccess o w).range = some (c.lmAddress o, w) := rfl
  simp only [Accesses.locate, hrange, h, Bool.false_eq_true, if_false, Core.scalarAccess_parts, List.mapM_cons,
    List.mapM_nil]
  cases Machine.locate m d n acc slots ((c.scalarAccess o w).covers (c.scalarPiece o w)) (c.scalarPiece o w) <;> rfl

end

/-! ## What the checks of an access come to (R127, R229, R319) -/

section
variable {s : State} {b : Bundle} {h : Hdr} {f : State → Bundle → Core → Out} {g : Bundle → Bundle}

theorem ctlSyllable_stall {r : Nat} (hi : Issuing s b h) (hf : f s b b.issuer = .stall r) :
    ctlSyllable h f g s = .next (s.stallBundle b.base r) := by
  rw [ctlSyllable, bundleSyllable_issuing hi, hf]

theorem ctlSyllable_missed {x : Miss} (hi : Issuing s b h) (hf : f s b b.issuer = x.out b s.time) :
    ctlSyllable h f g s = .next (s.missed b x) := by
  rw [ctlSyllable, bundleSyllable_issuing hi, hf]
  cases x <;> rfl

variable {a : Accesses} {acc : Access} {slots : Bool} {k : List (Piece × Loc) → Out} {parts : List (Piece × Loc)}

theorem Accesses.checked_of_misaligned {e : Event} (hm : a.misaligned = some e) :
    a.checked s b acc slots k = .raise e := by
  rw [Accesses.checked, hm]

theorem Accesses.checked_of_error {x : Miss} (hm : a.misaligned = none)
    (hl : a.locate s.mem s.dev b.core acc slots = .error x) : a.checked s b acc slots k = x.out b s.time := by
  simp only [Accesses.checked, hm, hl]

theorem Accesses.checked_of_ok (hm : a.misaligned = none)
    (hl : a.locate s.mem s.dev b.core acc slots = .ok parts) : a.checked s b acc slots k = afterRow b parts k := by
  simp only [Accesses.checked, hm, hl]

theorem afterRow_of_busy (hb : b.issuer.rowBusyOn b.cycle parts = true) : afterRow b parts k = .stall 9 :=
  if_pos hb

theorem afterRow_of_away (hb : b.issuer.rowBusyOn b.cycle parts = false) (ha : b.base.awayOn b.core parts = true) :
    afterRow b parts k = .stall 11 :=
  (if_neg (Bool.eq_false_iff.1 hb)).trans (if_pos ha)

theorem afterRow_of_free (hb : b.issuer.rowBusyOn b.cycle parts = false) (ha : b.base.awayOn b.core parts = false) :
    afterRow b parts k = k parts :=
  (if_neg (Bool.eq_false_iff.1 hb)).trans (if_neg (Bool.eq_false_iff.1 ha))

end

/-! ## The checks of a scalar access -/

section
variable {s : State} {b : Bundle} {o : LM} {w : Nat} {acc : Access} {slots : Bool} {k : List (Piece × Loc) → Out}
  (hm : (b.issuer.lmAddress o).toNat % w = 0) (hs : straddles (b.issuer.lmAddress o) w = false)
include hm hs

theorem Core.scalarAccess_checked_of_error {x : Miss} (hl : locate s.mem s.dev b.core acc slots
    ((b.issuer.scalarAccess o w).covers (b.issuer.scalarPiece o w)) (b.issuer.scalarPiece o w) = .error x) :
    (b.issuer.scalarAccess o w).checked s b acc slots k = x.out b s.time :=
  Accesses.checked_of_error (Core.scalarAccess_misaligned_of_eq hm)
    ((Core.scalarAccess_locate hs).trans (congrArg _ hl))

theorem Core.scalarAccess_checked_of_ok {l : Loc} (hl : locate s.mem s.dev b.core acc slots
    ((b.issuer.scalarAccess o w).covers (b.issuer.scalarPiece o w)) (b.issuer.scalarPiece o w) = .ok l) :
    (b.issuer.scalarAccess o w).checked s b acc slots k = afterRow b [(b.issuer.scalarPiece o w, l)] k :=
  Accesses.checked_of_ok (Core.scalarAccess_misaligned_of_eq hm)
    ((Core.scalarAccess_locate hs).trans (congrArg _ hl))

end

@[simp] theorem Core.rowBusyOn_here (c : Core) (cycle : Nat) (p : Piece) (pa : Nat) :
    c.rowBusyOn cycle [(p, .here pa)] = c.rowBusyAt cycle pa p.len := by
  simp [Core.rowBusyOn]

@[simp] theorem Core.rowBusyOn_away (c : Core) (cycle : Nat) (p : Piece) (pkg pa : Nat) :
    c.rowBusyOn cycle [(p, .away pkg pa)] = false := by
  simp [Core.rowBusyOn]

@[simp] theorem Dev.awayOn_away (d : Dev) (n : Nat) (p : Piece) (pkg pa : Nat) :
    d.awayOn n [(p, .away pkg pa)] = false := by
  simp [Dev.awayOn]

theorem loadValue_partBytes (s : State) (n : Nat) (p : Piece) (pa : Nat) (signed : Bool) :
    loadValue (partBytes s n p pa) signed =
      let x := ofBytes ((List.range p.len).map fun k => s.reads n (pa + k))
      if signed = true then sextN (8 * p.len) x else toW x := by
  simp [loadValue, partBytes, readBytes, State.reads]

/-! ## Scalar loads (R227) -/

section
variable {s : State} {b : Bundle} {h : Hdr} {o : LM} {w : Nat} {signed : Bool} (hi : Issuing s b h)
include hi

theorem loadScalar_misaligned (hm : (b.issuer.lmAddress o).toNat % w ≠ 0) :
    loadScalar h o w signed s = .next (s.faultBundle b.base (mkFault 0x36 (b.issuer.lmAddress o) 0)) :=
  ctlSyllable_raise hi (Accesses.checked_of_misaligned (Core.scalarAccess_misaligned_of_ne hm))

variable (hm : (b.issuer.lmAddress o).toNat % w = 0)
include hm

theorem loadScalar_straddles (hs : straddles (b.issuer.lmAddress o) w = true) :
    loadScalar h o w signed s = .next (s.faultBundle b.base (noncanonical (b.issuer.lmAddress o) 0 .read)) :=
  ctlSyllable_raise hi (Accesses.checked_of_error (Core.scalarAccess_misaligned_of_eq hm)
    (Core.scalarAccess_locate_of_straddles hs))

variable (hs : straddles (b.issuer.lmAddress o) w = false)
include hs

theorem loadScalar_missed {x : Miss} (hl : locate s.mem s.dev b.core .read true
    ((b.issuer.scalarAccess o w).covers (b.issuer.scalarPiece o w)) (b.issuer.scalarPiece o w) = .error x) :
    loadScalar h o w signed s = .next (s.missed b x) :=
  ctlSyllable_missed hi (Core.scalarAccess_checked_of_error hm hs hl)

section
variable {pa : Nat} (hl : locate s.mem s.dev b.core .read true
  ((b.issuer.scalarAccess o w).covers (b.issuer.scalarPiece o w)) (b.issuer.scalarPiece o w) = .ok (.here pa))
include hl

theorem loadScalar_busy (hb : b.issuer.rowBusyAt b.cycle pa w = true) :
    loadScalar h o w signed s = .next (s.stallBundle b.base 9) :=
  ctlSyllable_stall hi ((Core.scalarAccess_checked_of_ok hm hs hl).trans
    (afterRow_of_busy ((Core.rowBusyOn_here ..).trans hb)))

variable (hb : b.issuer.rowBusyAt b.cycle pa w = false)
include hb

theorem loadScalar_awaited (ha : b.base.awayOn b.core [(b.issuer.scalarPiece o w, .here pa)] = true) :
    loadScalar h o w signed s = .next (s.stallBundle b.base 11) :=
  ctlSyllable_stall hi ((Core.scalarAccess_checked_of_ok hm hs hl).trans
    (afterRow_of_away ((Core.rowBusyOn_here ..).trans hb) ha))

/-- The bytes of this package that a scalar load reads are in flight to sd. -/
theorem loadScalar_here (ha : b.base.awayOn b.core [(b.issuer.scalarPiece o w, .here pa)] = false) :
    loadScalar h o w signed s = .next (s.afterWith h
      (let d := s.dev.updCore b.core fun x => x.count 0x0F 1
       let v := loadValue (partBytes s b.core (b.issuer.scalarPiece o w) pa) signed
       if (b.issuer.scalarAccess o w).local = true then sendS d b b.issuer o.d.toNat v 8
       else sendLate d b (.s (physSV b.issuer.lp o.d.toNat) v) true 0)
      (b.watched [(b.issuer.lmAddress o, w)] false)) :=
  ctlSyllable_ok hi ((Core.scalarAccess_checked_of_ok hm hs hl).trans
    (afterRow_of_free ((Core.rowBusyOn_here ..).trans hb) ha))

end

/-- A scalar load of a page of another package is sent there. -/
theorem loadScalar_away {pkg pa : Nat} (hl : locate s.mem s.dev b.core .read true
    ((b.issuer.scalarAccess o w).covers (b.issuer.scalarPiece o w)) (b.issuer.scalarPiece o w) = .ok (.away pkg pa)) :
    loadScalar h o w signed s = .next (s.afterWith h
      ((s.dev.updCore b.core fun x => x.count 0x0F 1).loadRemote b (.s (physSV b.issuer.lp o.d.toNat) 0) pkg pa w
        (b.issuer.lmAddress o) 0 signed s.time)
      (b.watched [(b.issuer.lmAddress o, w)] false)) :=
  ctlSyllable_ok hi ((Core.scalarAccess_checked_of_ok hm hs hl).trans
    (afterRow_of_free (Core.rowBusyOn_away ..) (Dev.awayOn_away ..)))

end

/-- Settles O16: alignment, then the canonical range, then the one part's place decide what a scalar load does. -/
theorem scalarLoads : Obligations.ScalarLoads := by
  intro s b h o hi c ea i w signed hmem p at' d bundle
  have hexec : exec i s = loadScalar h o w signed s := by
    simp only [List.mem_cons, Prod.mk.injEq, List.not_mem_nil, or_false] at hmem
    rcases hmem with ⟨rfl, rfl, rfl⟩ | ⟨rfl, rfl, rfl⟩ | ⟨rfl, rfl, rfl⟩ | ⟨rfl, rfl, rfl⟩ | ⟨rfl, rfl, rfl⟩ |
      ⟨rfl, rfl, rfl⟩ | ⟨rfl, rfl, rfl⟩ <;> rfl
  rw [hexec]
  refine ⟨loadScalar_misaligned hi, loadScalar_straddles hi, fun hm hs =>
    ⟨fun pa hl hb ha => ?_, fun pa => loadScalar_busy hi hm hs, fun pa => loadScalar_awaited hi hm hs,
      fun pkg pa => loadScalar_away hi hm hs, fun x => loadScalar_missed hi hm hs⟩⟩
  rw [loadScalar_here hi hm hs hl hb ha, loadValue_partBytes]
  exact ⟨fun hlocal => by rw [if_pos (Core.scalarAccess_local_iff.2 hlocal)]; rfl,
    fun hfar => by rw [if_neg (mt Core.scalarAccess_local_iff.1 hfar)]; rfl⟩

end Sys2Proof.Machine

/-!
SUPPORT. A scalar store beside an entry of the running phase that names one byte twice (R124, R127): the core reads the
first of the two before the store, and the entry that the store leaves holds the second. The obligation about scalar
stores fails there.
-/

namespace Sys2Proof.Machine

/-- What core 0 reads at an address after an outcome. -/
def readAfter (r : Host.Outcome State Fault Refusal) (pa : Nat) : Option Byte :=
  match r with
  | .next t => some (t.reads 0 pa)
  | _ => none

/-- A header without guard and edge, of a syllable that is not its bundle's last. -/
def storeHdr : Hdr := { e := false, wait := 0, gn := false, gp := 0, edge := 0, elvl := 0 }

/-- Such a syllable leaves its bundle open, and memory and the units as its effect leaves them. -/
theorem readAfter_afterWith (s : State) (d : Dev) (b : Bundle) (pa : Nat) :
    readAfter (.next (s.afterWith storeHdr d b)) pa = some (readByte s.mem d 0 pa) := rfl

/-- A store of the running phase of core 0 to the first granule of its scratchpad; byte 1 stands in it twice. -/
def twiceNamed : StoreEnt :=
  { owner := 0, phase := 0, ended := false, gran := 0x2000000000, cells := [(1, 5), (1, 6)], all := false, seen := []
    applied := false, inval := [] }

/-- Core 0 in a task, with that store and with s4 at the base of the aperture. -/
def twiceDev : Dev :=
  { State.reset.dev.readyCore.updCore 0 fun c => { c with r := { c.r with s := [(4, 0x01FFFFFF00000000)] } } with
    stores := [twiceNamed] }

def twiceBundle : Bundle :=
  { core := 0, addr := 0x1000, words := [], next := 0x1008, src := 1, cycle := 10, wmax := 0, idx := 0, ran := 0
    ctl := .none, phaseEnd := false, stop := none, base := twiceDev }

def twiceState : State :=
  { mem := { cells := [] }, dev := twiceDev, time := 0, free := 0, agenda := [], cur := 0, bundle := some twiceBundle }

/-- The operands of a store of s1 at s4. -/
def storeOperands : LM := { d := 1, a := 4, nq := 0, disp := 0 }

/-- Refutes O18: a store to byte 0 of a granule changes what the core reads at byte 1, from 5 to 6, where the entry of
the running phase with which it merges names byte 1 twice. -/
theorem not_scalarStores : ¬ Obligations.ScalarStores := by
  intro h
  obtain ⟨-, -, hstore⟩ := h twiceState twiceBundle storeHdr storeOperands ⟨rfl, rfl⟩ (.sts8 storeHdr storeOperands) 1
    (List.mem_cons_self ..)
  obtain ⟨-, -, -, -, hhere⟩ := hstore (by decide +kernel) (by decide +kernel)
  obtain ⟨d, hexec, -, hother, -⟩ := hhere 0x10000000000 (by decide +kernel) (by decide +kernel) (by decide +kernel)
  have hbefore : twiceState.reads 0 0x10000000001 = 5 := by decide +kernel
  have hsame : readByte twiceState.mem d 0 0x10000000001 = 5 := (hother 0x10000000001 (by decide)).trans hbefore
  have hafter : readAfter (exec (.sts8 storeHdr storeOperands) twiceState) 0x10000000001 = some 6 := by decide +kernel
  rw [hexec, readAfter_afterWith, hsame] at hafter
  exact absurd hafter (by decide)

end Sys2Proof.Machine

/-!
SUPPORT. Events taken by a tensor core (06_core_sequencer.md, R181-R183): the record that it keeps, and what its task
and its registers become. The obligation about them follows.
-/

namespace Sys2Proof.Machine

/-! ## The record that a core keeps (R176) -/

/-- SEQNO and FREC of a core. -/
def Core.record (c : Core) : BitVec 32 × List Word := (c.seq.seqno, c.seq.frec)

section
variable (m : Memory) (d : Dev) (n outcome time : Nat)

@[simp] theorem Core.record_keepRecord (c : Core) (no : BitVec 32) (words : List Word) :
    (c.keepRecord no words).record = (no, words) := rfl

theorem coreRecord_length (no : BitVec 32) (c : Core) (ctx : Nat) (baddr : Word) (e : Event) :
    (coreRecord no c ctx n baddr e time).length = 8 := rfl

@[simp] theorem Core.record_charge (c : Core) (cls why k : Nat) : (c.charge cls why k).record = c.record := by
  have hcount (x : Core) (e k : Nat) : (x.count e k).record = x.record := rfl
  have hcc (x : Core) (t : Tab Nat) : ({ x with cc := t } : Core).record = x.record := rfl
  simp only [Core.charge, apply_ite Core.record, hcount, hcc, ite_self]

@[simp] theorem Dev.core_endPhase_record : ((d.endPhase n).core n).record = (d.core n).record := by
  simp [Dev.endPhase, Core.record]

@[simp] theorem Dev.core_dropHandles_record : ((d.dropHandles n).core n).record = (d.core n).record := by
  unfold Dev.dropHandles
  simp only [Dev.core_updCore_same]
  split <;> rfl

/-- A trace record takes the core's next number and changes nothing else of it (R486). -/
theorem Dev.core_traceCore (c : Core) (baddr : Word) (type sub cls : Nat) (payload : Word) : ∃ q : BitVec 32,
    (d.traceCore m n c baddr type sub cls payload time).core n = { d.core n with tseq := q } := by
  unfold Dev.traceCore
  split
  · exact ⟨_, rfl⟩
  · exact ⟨_, by rw [Dev.core_traceAppend, Dev.core_updCore_same]⟩

theorem Dev.core_traceCore_record (c : Core) (baddr : Word) (type sub cls : Nat) (payload : Word) :
    ((d.traceCore m n c baddr type sub cls payload time).core n).record = (d.core n).record := by
  obtain ⟨q, hq⟩ := d.core_traceCore m n time c baddr type sub cls payload
  rw [hq]
  rfl

theorem Dev.core_ite_record {p : Prop} [Decidable p] {d d' : Dev} (h : (d'.core n).record = (d.core n).record) :
    ((if p then d' else d).core n).record = (d.core n).record := by
  split
  · exact h
  · rfl

/-- Failed remote accesses that a task leaves are the only records that its end writes (R467). -/
theorem Dev.core_reportLeft_record (ctx : Nat) (hr : (d.core n).remFails = []) :
    ((d.reportLeft n ctx time).core n).record = (d.core n).record := by
  simp [Dev.reportLeft, hr, Core.record]

/-- A core's last record keeps its eight words through the records of failed remote accesses. -/
theorem Dev.core_reportLeft_record_length (ctx : Nat) (hf : (d.core n).record.2.length = 8) :
    ((d.reportLeft n ctx time).core n).record.2.length = 8 := by
  unfold Dev.reportLeft
  refine List.foldlRecOn (motive := fun x : Dev => (x.core n).record.2.length = 8) _ _ ?_ fun x _ e _ => ?_
  · rw [Dev.core_updCore_same]
    exact hf
  · dsimp only
    split <;> simp [coreRecord_length]

/-- The units of a core whose task ends, when its failed remote accesses are to be reported. -/
def Dev.ended (d : Dev) (n : Nat) : Dev :=
  d.updCore n fun c =>
    let last := max (c.mat.landedBy c.ready) c.charged
    { (c.charge 4 14 (last - c.charged)) with
      ready := last, charged := last, gaps := []
      mat := { (c.mat.landPushes c.mat.pushes.length) with recent := [] } }

theorem Dev.core_ended_record : ((d.ended n).core n).record = (d.core n).record := by
  rw [Dev.ended, Dev.core_updCore_same]
  exact Core.record_charge ..

theorem Dev.core_ended_remFails : ((d.ended n).core n).remFails = (d.core n).remFails := by
  rw [Dev.ended, Dev.core_updCore_same]
  exact (congrArg Core.remFails (Core.work_charge ..) :)

/-- After the records of failed remote accesses the end of a task writes no other. -/
theorem Dev.taskEnd_record_of_no_store {t : Task} (ht : (d.core n).task = some t) (ha : storesAway d n = false) :
    ((d.taskEnd m n outcome time).core n).record = (((d.ended n).reportLeft n t.ctx time).core n).record := by
  simp only [Dev.taskEnd, ht, ha, Dev.core_updCore_same, Bool.false_eq_true, if_false]
  refine (Dev.core_ite_record n (by rw [Dev.core_noteHalt])).trans ?_
  refine (Dev.core_ite_record n (by rw [Dev.core_leaveGroup])).trans ?_
  refine (Dev.core_ite_record n (Dev.core_traceCore_record ..)).trans ?_
  simp only [Dev.core_noteEnded, core_completionAdd, Dev.core_dropHandles_record, Dev.core_endPhase_record]
  rfl

/-- The end of a task leaves the record of the core, or writes those of its failed remote accesses. -/
theorem Dev.taskEnd_record : ((d.taskEnd m n outcome time).core n).record = (d.core n).record ∨
    ∃ ctx, ((d.taskEnd m n outcome time).core n).record = (((d.ended n).reportLeft n ctx time).core n).record := by
  cases ht : (d.core n).task with
  | none => exact .inl (by simp only [Dev.taskEnd, ht])
  | some t =>
    cases ha : storesAway d n with
    | false => exact .inr ⟨t.ctx, d.taskEnd_record_of_no_store m n outcome time ht ha⟩
    | true => exact .inl (by simp [Dev.taskEnd, ht, ha, Core.record])

theorem Dev.taskEnd_record_of_no_fails (hr : (d.core n).remFails = []) :
    ((d.taskEnd m n outcome time).core n).record = (d.core n).record := by
  obtain h | ⟨ctx, h⟩ := d.taskEnd_record m n outcome time
  · exact h
  · rw [h, Dev.core_reportLeft_record _ _ _ _ ((d.core_ended_remFails n).trans hr), Dev.core_ended_record]

theorem Dev.taskEnd_record_length (hf : (d.core n).record.2.length = 8) :
    ((d.taskEnd m n outcome time).core n).record.2.length = 8 := by
  obtain h | ⟨ctx, h⟩ := d.taskEnd_record m n outcome time
  · rw [h, hf]
  · rw [h]
    exact Dev.core_reportLeft_record_length _ _ _ _ (by rw [Dev.core_ended_record, hf])

/-- A core whose task waits for its stores in other packages goes on with it and with its registers (log entry 106). -/
theorem Dev.taskEnd_waits {t : Task} (ht : (d.core n).task = some t) (ha : storesAway d n = true) :
    ((d.taskEnd m n outcome time).core n).r = (d.core n).r ∧
      ((d.taskEnd m n outcome time).core n).run = .running := by
  simp [Dev.taskEnd, ht, ha]

end

/-! ## Taking an event (R181-R183) -/

/-- The units after a tensor core's record: it is counted, kept by the core and sent to the fault queue (R183, R188). -/
def Dev.recorded (d : Dev) (n : Nat) (words : List Word) : Dev :=
  let d' := (d.countRecord n).updCore n fun c => c.keepRecord (d.seqnoOf n) words
  match d'.partOfDie (dieOf n) with
  | some p => d'.toPartQueue n p words
  | none => d'

/-- The record of an event that core n takes (R188). -/
def Dev.eventWords (d : Dev) (n : Nat) (b : Core) (baddr : Word) (e : Event) (time : Nat) : List Word :=
  coreRecord (d.seqnoOf n) { b with seq := { b.seq with priv := (d.core n).seq.priv } } ((d.ctxOfCore n).getD 0) n
    baddr e time

section
variable (d : Dev) (n : Nat) (words : List Word)

@[simp] theorem Dev.core_recorded :
    (d.recorded n words).core n = (d.core n).keepRecord (d.seqnoOf n) words := by
  unfold Dev.recorded
  dsimp only
  split <;> simp

@[simp] theorem Dev.toPartQueue_remote (p : Nat) : (d.toPartQueue n p words).remote = d.remote :=
  (Dev.Accounted.toPartQueue n d p words).remote

@[simp] theorem Dev.toPartQueue_seqnos (p : Nat) : (d.toPartQueue n p words).seqnos = d.seqnos := by
  unfold Dev.toPartQueue
  split
  · rfl
  · split <;> rfl

@[simp] theorem Dev.recorded_remote : (d.recorded n words).remote = d.remote := by
  unfold Dev.recorded
  dsimp only
  split <;> simp [Dev.countRecord]

@[simp] theorem Dev.recorded_seqnos : (d.recorded n words).seqnos = tset d.seqnos n (d.seqnoOf n + 1) := by
  unfold Dev.recorded
  dsimp only
  split <;> simp [Dev.countRecord]

@[simp] theorem Dev.traceAppend_seqnos (m : Memory) (u ctx : Nat) :
    (d.traceAppend m u ctx words).seqnos = d.seqnos := by
  unfold Dev.traceAppend
  split
  · rfl
  · dsimp only
    split
    · rfl
    · split <;> rfl

@[simp] theorem Dev.traceCore_seqnos (m : Memory) (time : Nat) (c : Core) (baddr : Word) (type sub cls : Nat)
    (payload : Word) : (d.traceCore m n c baddr type sub cls payload time).seqnos = d.seqnos := by
  unfold Dev.traceCore
  split <;> simp

end

/-- A core whose event is no fault. -/
def Core.heldFor (c : Core) (e : Event) : Core := { (if e.kind = EvKind.stop then c else c.begun) with run := .held e }

/-- A held core keeps its registers, its place, its task, what is in flight and its record. -/
theorem Core.heldFor_keeps (c : Core) (e : Event) :
    (c.heldFor e).run = .held e ∧ (c.heldFor e).r = c.r ∧ (c.heldFor e).pc = c.pc ∧ (c.heldFor e).task = c.task ∧
      (c.heldFor e).pend = c.pend ∧ (c.heldFor e).seq = c.seq := by
  unfold Core.heldFor
  split <;> exact ⟨rfl, rfl, rfl, rfl, rfl, rfl⟩

section
variable {m : Memory} {d : Dev} {n : Nat} {b : Core} {baddr next : Word} {e : Event} {time : Nat}
  (hn : isGeneral n = false)
include hn

section
variable (he : e.kind = .fault)
include he

/-- A fault ends the task of the core, behind its record. -/
theorem Dev.takeEvent_eq_taskEnd : d.takeEvent m n b baddr next e time =
    (d.recorded n (d.eventWords n b baddr e time)).taskEnd m n 3 time := by
  simp only [Dev.takeEvent, hn, he, Bool.false_eq_true, if_false]
  rfl

theorem Dev.takeEvent_fault_seqno (hr : (d.core n).remFails = []) :
    ((d.takeEvent m n b baddr next e time).core n).seq.seqno = d.seqnoOf n := by
  rw [Dev.takeEvent_eq_taskEnd hn he]
  refine congrArg Prod.fst (Dev.taskEnd_record_of_no_fails m _ n 3 time ?_) |>.trans ?_
  · rw [Dev.core_recorded]
    exact hr
  · rw [Dev.core_recorded]
    rfl

theorem Dev.takeEvent_fault_frec_length :
    ((d.takeEvent m n b baddr next e time).core n).seq.frec.length = 8 := by
  rw [Dev.takeEvent_eq_taskEnd hn he]
  refine Dev.taskEnd_record_length m _ n 3 time ?_
  rw [Dev.core_recorded]
  exact coreRecord_length ..

variable {task : Task} (htask : (d.core n).task = some task)
include htask

theorem Dev.takeEvent_fault_ends (ha : storesAway d n = false) :
    ((d.takeEvent m n b baddr next e time).core n).task = none ∧
      ((d.takeEvent m n b baddr next e time).core n).run = if (d.core n).preempt = true then .halted else .idle := by
  rw [Dev.takeEvent_eq_taskEnd hn he]
  have hend := Dev.taskEnd_of_no_store m (d.recorded n (d.eventWords n b baddr e time)) n 3 time (t := task)
    (by rw [Dev.core_recorded]; exact htask) (by rw [storesAway, Dev.recorded_remote]; exact ha)
  rwa [Dev.core_recorded] at hend

theorem Dev.takeEvent_fault_waits (ha : storesAway d n = true) :
    ((d.takeEvent m n b baddr next e time).core n).task = some task ∧
      ((d.takeEvent m n b baddr next e time).core n).r = (d.core n).r ∧
      ((d.takeEvent m n b baddr next e time).core n).run = .running ∧
      Wait.ending 3 ∈ ((d.takeEvent m n b baddr next e time).core n).waits := by
  rw [Dev.takeEvent_eq_taskEnd hn he]
  have ht : ((d.recorded n (d.eventWords n b baddr e time)).core n).task = some task := by
    rw [Dev.core_recorded]
    exact htask
  have ha' : storesAway (d.recorded n (d.eventWords n b baddr e time)) n = true := by
    rw [storesAway, Dev.recorded_remote]
    exact ha
  obtain ⟨htask', hwait⟩ := Dev.taskEnd_of_store m _ n 3 time ht ha'
  obtain ⟨hr, hrun⟩ := Dev.taskEnd_waits m _ n 3 time ht ha'
  exact ⟨htask', hr.trans (by rw [Dev.core_recorded]; rfl), hrun, hwait⟩

end

/-- Any other event holds the core, and a trace record of it may follow (R181, R187). -/
theorem Dev.takeEvent_held (he : e.kind ≠ .fault) : ∃ q : BitVec 32,
    (d.takeEvent m n b baddr next e time).core n =
      { (((d.core n).keepRecord (d.seqnoOf n) (d.eventWords n b baddr e time)).heldFor e) with tseq := q } ∧
    (d.takeEvent m n b baddr next e time).seqnos = tset d.seqnos n (d.seqnoOf n + 1) := by
  generalize hd : (d.recorded n (d.eventWords n b baddr e time)).updCore n (fun c => c.heldFor e) = d'
  have hcore : d'.core n = ((d.core n).keepRecord (d.seqnoOf n) (d.eventWords n b baddr e time)).heldFor e := by
    rw [← hd, Dev.core_updCore_same, Dev.core_recorded]
  have hseqnos : d'.seqnos = tset d.seqnos n (d.seqnoOf n + 1) := by simp [← hd]
  have hheld : ∃ dbg : Bool, d.takeEvent m n b baddr next e time =
      if dbg then d'.traceCore m n b baddr 4 e.cause.toNat 0 e.info0 time else d' := by
    subst hd
    obtain ⟨cause, kind, info0, info1, sidx⟩ := e
    cases kind with
    | fault => exact absurd rfl he
    | replayable | stop => rw [Dev.takeEvent, if_neg (Bool.eq_false_iff.1 hn)]; exact ⟨_, rfl⟩
  obtain ⟨dbg, hheld⟩ := hheld
  rw [hheld, ← hcore]
  split
  · obtain ⟨q, hq⟩ := d'.core_traceCore m n time b baddr 4 e.cause.toNat 0 e.info0
    exact ⟨q, hq, (Dev.traceCore_seqnos ..).trans hseqnos⟩
  · exact ⟨(d'.core n).tseq, rfl, hseqnos⟩

end

/-- Settles O47: an event other than a fault holds the core with its record, a fault ends the task behind it. -/
theorem tensorCoreEvents : Obligations.TensorCoreEvents := by
  constructor
  · intro m d n b baddr next e time hn c t
    by_cases he : e.kind = .fault
    · refine ⟨fun hr => Dev.takeEvent_fault_seqno hn he (hr.resolve_left (absurd he)),
        Dev.takeEvent_fault_frec_length hn he, absurd he, fun _ hs hno => ?_, fun _ hs hst => ?_⟩
      all_goals obtain ⟨task, htask⟩ := Option.isSome_iff_exists.1 hs
      · exact Dev.takeEvent_fault_ends hn he htask
          (storesAway_eq_false_iff.2 fun ⟨r, hr, hsrc, hkind⟩ => hno r hr hsrc hkind)
      · rw [htask]
        exact Dev.takeEvent_fault_waits hn he htask (storesAway_iff.2 hst)
    · obtain ⟨q, hcore, hseqnos⟩ := Dev.takeEvent_held (m := m) (b := b) (baddr := baddr) (next := next) (time := time)
        hn he
      obtain ⟨hrun, hr, hpc, htask, hpend, hseq⟩ := Core.heldFor_keeps
        ((d.core n).keepRecord (d.seqnoOf n) (d.eventWords n b baddr e time)) e
      have ht : t = _ := hcore
      rw [ht]
      dsimp only
      rw [hrun, hr, hpc, htask, hpend, hseq]
      exact ⟨fun _ => rfl, rfl, fun _ => ⟨hseqnos, rfl, rfl, rfl, rfl, rfl⟩, (absurd · he), (absurd · he)⟩
  · intro s b h cls opc w hb
    simp [exec_illegalOpcode, execIllegalOpcode, State.opened_of_some hb, hb]

end Sys2Proof.Machine

/-!
SUPPORT. A window fill beside a write of its own unit to the block (R134, R237): the fill's write shows that one too,
whose invalidation makes the entry stale before the fill has landed. The obligation about events of fetching and memory
fails there.
-/

namespace Sys2Proof.Machine

/-! ## Tables whose entries are changed or dropped -/

theorem tget_map {α β : Type} {f : Nat × α → Nat × β} (hf : ∀ x, (f x).1 = x.1) (t : Tab α) (k : Nat) :
    tget (t.map f) k = (tget t k).map fun v => (f (k, v)).2 := by
  induction t with
  | nil => rfl
  | cons x t ih =>
    obtain ⟨a, v⟩ := x
    have hfx : f (a, v) = (a, (f (a, v)).2) := Prod.ext (hf _) rfl
    rw [List.map_cons, hfx, tget, tget]
    split
    · subst a; rfl
    · exact ih

theorem tget_filter_of_kept {α : Type} {p : Nat × α → Bool} {t : Tab α} {k : Nat} {v : α} (h : tget t k = some v)
    (hp : p (k, v) = true) : tget (t.filter p) k = some v := by
  induction t with
  | nil => cases h
  | cons x t ih =>
    obtain ⟨a, w⟩ := x
    by_cases ha : a = k
    · subst ha
      have hw : w = v := by simpa [tget] using h
      subst hw
      simp [hp, tget]
    · rw [tget, if_neg ha] at h
      by_cases hx : p (a, w) = true
      · rw [List.filter_cons_of_pos hx, tget, if_neg ha]
        exact ih h
      · rw [List.filter_cons_of_neg hx]
        exact ih h

/-! ## Invalidations of a pinned entry (R233, R234) -/

/-- An entry that is stale and pinned stands under a key. -/
def Cluster.HoldsStale (x : Cluster) (key : Nat) : Prop := ∃ e, tget x.tags key = some e ∧ e.pins ≠ 0 ∧ e.st = .stale

theorem TagEnt.makeStale_pins (cores : Nat → List Nat) (clock : Nat) (e : TagEnt) :
    (e.makeStale cores clock).pins = e.pins := by
  unfold TagEnt.makeStale
  split <;> rfl

theorem TagEnt.makeStale_st (cores : Nat → List Nat) (clock : Nat) (e : TagEnt) :
    (e.makeStale cores clock).st = .stale := by
  unfold TagEnt.makeStale
  split
  · assumption
  · rfl

section
variable {x : Cluster} {key : Nat} {e : TagEnt}

theorem Cluster.tget_sweep (he : tget x.tags key = some e) (hk : e.pins ≠ 0) : tget x.sweep.tags key = some e :=
  tget_filter_of_kept he (by simp [hk])

/-- The invalidation of a block makes the pinned entry of that block stale and leaves every other one. -/
theorem Cluster.tget_invalidate (he : tget x.tags key = some e) (hk : e.pins ≠ 0) (cores : Nat → List Nat)
    (block : Nat) : tget (x.invalidate cores block).tags key =
      some (if e.block = block then e.makeStale cores x.tagClock else e) := by
  refine Cluster.tget_sweep ?_ ?_
  · refine (tget_map (fun y => ?_) x.tags key).trans ?_
    · by_cases h : y.2.block = block <;> simp [h]
    · rw [he, Option.map_some]
      by_cases h : e.block = block <;> simp [h]
  · split
    · rw [TagEnt.makeStale_pins]; exact hk
    · exact hk

theorem Cluster.HoldsStale.invalidate (h : x.HoldsStale key) (cores : Nat → List Nat) (block : Nat) :
    (x.invalidate cores block).HoldsStale key := by
  obtain ⟨e, he, hk, hs⟩ := h
  refine ⟨_, Cluster.tget_invalidate he hk cores block, ?_⟩
  split
  · exact ⟨by rw [TagEnt.makeStale_pins]; exact hk, TagEnt.makeStale_st ..⟩
  · exact ⟨hk, hs⟩

/-- Invalidations that reach the block of a pinned entry leave it stale. -/
theorem Cluster.holdsStale_of_mem {cores : Nat → List Nat} {blocks : List Nat} (he : tget x.tags key = some e)
    (hk : e.pins ≠ 0) (hb : e.block ∈ blocks) :
    (blocks.foldl (fun c k => c.invalidate cores k) x).HoldsStale key := by
  induction blocks generalizing x with
  | nil => cases hb
  | cons k t ih =>
    by_cases hek : e.block = k
    · refine List.foldlRecOn (motive := fun c : Cluster => c.HoldsStale key) t _ ?_
        fun c hc k _ => hc.invalidate cores k
      refine ⟨_, Cluster.tget_invalidate he hk cores k, ?_⟩
      rw [if_pos hek]
      exact ⟨by rw [TagEnt.makeStale_pins]; exact hk, TagEnt.makeStale_st ..⟩
    · have hkeep := Cluster.tget_invalidate he hk cores k
      rw [if_neg hek] at hkeep
      exact ih hkeep ((List.mem_cons.1 hb).resolve_left hek)

end

/-! ## What a write shows (R126, R134) -/

section
variable {d : Dev} {g key : Nat} {e : TagEnt}

/-- The blocks whose invalidations by the writes chosen a cluster has not had. -/
def Dev.dueBlocks (d : Dev) (p : StoreEnt → Bool) (g : Nat) : List Nat :=
  ((d.stores.filter fun q => p q && q.gran * 8 < hbmTop && !q.inval.contains g).map fun q => q.gran / 512).dedup

theorem Dev.mem_dueBlocks {p : StoreEnt → Bool} {q : StoreEnt} (hq : q ∈ d.stores) (hp : p q = true)
    (hh : q.gran * 8 < hbmTop) (hi : g ∉ q.inval) : q.gran / 512 ∈ d.dueBlocks p g :=
  List.mem_dedup.2 (List.mem_map.2 ⟨q, List.mem_filter.2 ⟨hq, by simp [hp, hh, hi]⟩, rfl⟩)

/-- A cluster that the writes chosen reach takes the invalidation of each of these blocks. -/
theorem Dev.applyWrites_cluster {p : StoreEnt → Bool} {gs : List Nat} {c : Cluster} (hc : tget d.clusters g = some c)
    (hg : g ∈ gs) : (d.applyWrites p gs).cluster g =
      (d.dueBlocks p g).foldl (fun c k => c.invalidate (d.inPhase g) k) c := by
  have hmap : tget (d.applyWrites p gs).clusters g =
      some ((d.dueBlocks p g).foldl (fun c k => c.invalidate (d.inPhase g) k) c) := by
    refine (tget_map ?_ d.clusters g).trans ?_
    · exact fun _ => rfl
    · simp [hc, hg, Dev.dueBlocks]
  rw [Dev.cluster, hmap]
  rfl

/-- Writes to the block of a pinned entry that are applied leave it stale in a cluster that they had not reached. -/
theorem Dev.applyWrites_holdsStale {p : StoreEnt → Bool} {gs : List Nat} {q : StoreEnt}
    (he : tget (d.cluster g).tags key = some e) (hk : e.pins ≠ 0) (hg : g ∈ gs) (hq : q ∈ d.stores) (hp : p q = true)
    (hb : q.gran / 512 = e.block) (hh : q.gran * 8 < hbmTop) (hi : g ∉ q.inval) :
    ((d.applyWrites p gs).cluster g).HoldsStale key := by
  cases hc : tget d.clusters g with
  | none =>
    rw [Dev.cluster, hc] at he
    cases he
  | some c =>
    rw [Dev.cluster, hc] at he
    rw [Dev.applyWrites_cluster hc hg]
    exact Cluster.holdsStale_of_mem he hk (hb ▸ Dev.mem_dueBlocks hq hp hh hi)

theorem Dev.mem_store {owner phase pa : Nat} {bs : List Byte} {q : StoreEnt} (hq : q ∈ d.stores) :
    q ∈ (d.store owner phase true pa bs).stores := by
  refine List.foldlRecOn (motive := fun l : List StoreEnt => q ∈ l) _ _ hq fun l hl x _ => ?_
  simp [addGranule, hl]

/-- A write that every agent sees at once shows its unit's earlier writes too, with their invalidations. -/
theorem Dev.writeAll_holdsStale {owner pa : Nat} {bs : List Byte} {q : StoreEnt}
    (he : tget (d.cluster g).tags key = some e) (hk : e.pins ≠ 0) (hg : g < 32) (hq : q ∈ d.stores)
    (ho : q.owner = owner) (hended : q.ended = true) (hb : q.gran / 512 = e.block) (hh : q.gran * 8 < hbmTop)
    (hi : g ∉ q.inval) : ((d.writeAll owner pa bs).cluster g).HoldsStale key :=
  Dev.applyWrites_holdsStale (d := d.store owner 0 true pa bs) he hk (List.mem_range.2 hg) (Dev.mem_store hq)
    (by simp [ho, hended]) hb hh hi

theorem Dev.clearGranules_tags (pa n : Nat) : ((d.clearGranules pa n).cluster g).tags = (d.cluster g).tags := by
  unfold Dev.clearGranules
  split
  · rename_i g' off _
    split
    · rfl
    · by_cases hg : g = g'
      · subst hg
        simp
      · simp [Dev.cluster_updCluster_other _ _ _ _ hg]
  · rfl

end

/-! ## A window fill (R237) -/

theorem fillErrors_of_unpoisoned {d : Dev} {pa fresh : Nat} (h : ∀ i, i < 64 → d.poisoned (pa + 64 * i) = false) :
    fillErrors d pa fresh false = [] := by
  have hnone : (List.range 64).filter (fun i => d.poisoned (pa + 64 * i) || (false && i = fresh % 64)) = [] :=
    List.filter_eq_nil_iff.2 fun i hi => by simp [h i (List.mem_range.1 hi)]
  rw [fillErrors, hnone, List.map_nil]

/-- The units after the 4 KiB of a block have landed in a slot of cluster g, for the entry under a key. -/
def Dev.landFill (d : Dev) (g key slot : Nat) (bs : List Byte) : Dev :=
  ((d.writeAll (288 + g) slot bs).clearGranules slot 4096).updCluster g fun y =>
    ({ y with tags := y.tags.map fun (k, (e : TagEnt)) =>
        if k = key then (k, { e with
          filled := true
          again := none
          poisoned := false
          st := match e.st with | .filling => .full | q => q }) else (k, e) }).sweep

theorem execWindowFill_of_filling {s : State} {g set way : Nat} {e : TagEnt} {x : Ctx} (hl : s.Live)
    (he : tget (s.dev.cluster g).tags (tagKey set way) = some e) (hx : s.dev.ctx e.ctx = some x)
    (hf : e.filled = false) (ha : e.again = none) (hp : s.dev.poison = []) : ∃ slot bs,
    exec (.windowFill g set way false) s = .next (s.happened (s.dev.landFill g (tagKey set way) slot bs)) := by
  have herrs (fresh : Nat) : fillErrors s.dev (e.block * 4096) fresh false = [] :=
    fillErrors_of_unpoisoned fun i _ => by simp [Dev.poisoned, hp]
  refine ⟨spmBase g + x.slotOffset set way, readApplied s.mem s.dev (e.block * 4096) 4096, ?_⟩
  rw [exec_windowFill, execWindowFill]
  refine happening_some hl ?_
  simp only [he, hx, hf, ha, herrs, Option.isSome_none, Bool.false_eq_true, if_false, Option.map_none, Option.getD_none,
    List.foldl_nil, List.map_nil, List.isEmpty_nil, Bool.not_true]
  rfl

/-- An entry that is stale when its fill lands stays stale. -/
theorem Dev.landFill_holdsStale {d : Dev} {g key slot : Nat} {bs : List Byte}
    (h : ((d.writeAll (288 + g) slot bs).cluster g).HoldsStale key) :
    ((d.landFill g key slot bs).cluster g).HoldsStale key := by
  obtain ⟨e, he, hk, hs⟩ := h
  rw [Dev.landFill, Dev.cluster_updCluster_same]
  refine ⟨{ e with filled := true, again := none, poisoned := false }, Cluster.tget_sweep ?_ hk, hk, hs⟩
  refine (tget_map (fun y => ?_) _ key).trans ?_
  · by_cases hy : y.1 = key <;> simp [hy]
  · rw [Dev.clearGranules_tags, he]
    simp [hs]

/-! ## Such a fill -/

/-- Context 0 with the whole scratchpad and a window of one way. -/
def windowCtx : Ctx := newCtx 0 0 (List.replicate 23 0 ++ [0x30000000000, 0x2040, 0])

/-- The block at 1 MiB is to fill a pinned slot. -/
def fillingEnt : TagEnt :=
  { ctx := 0, block := 256, st := .filling, filled := false, poisoned := false, recency := 0, seenBy := []
    staleAt := 0, pins := 1 }

/-- A write of the task engine of cluster 0 to that block (R417), which no other agent sees yet. -/
def engineStoreEnt : StoreEnt :=
  { owner := 288, phase := 0, ended := true, gran := 0x20000, cells := [(0, 7)], all := false, seen := []
    applied := false, inval := [] }

/-- Cluster 0 runs context 0 and fills the slot while that write is under way. -/
def fillBesideWrite : State :=
  { mem := { cells := [] }
    dev := { (State.reset.dev.readyCore.setCtx 0 windowCtx).updCluster 0
        (fun x => { x with tags := [(tagKey 0 0, fillingEnt)] }) with stores := [engineStoreEnt] }
    time := 0, free := 0, agenda := [], cur := 0, bundle := none }

theorem fillBesideWrite_entry : tget (fillBesideWrite.dev.cluster 0).tags (tagKey 0 0) = some fillingEnt := by decide

theorem fillBesideWrite_ctx : fillBesideWrite.dev.ctx fillingEnt.ctx = some windowCtx := by decide

theorem fillBesideWrite_poison : fillBesideWrite.dev.poison = [] := by decide

/-- The fill's own write shows the engine's, so that the entry ends stale whatever lands in the slot. -/
theorem fillBesideWrite_holdsStale (slot : Nat) (bs : List Byte) :
    ((fillBesideWrite.dev.landFill 0 (tagKey 0 0) slot bs).cluster 0).HoldsStale (tagKey 0 0) :=
  Dev.landFill_holdsStale (Dev.writeAll_holdsStale (q := engineStoreEnt) fillBesideWrite_entry (by decide) (by decide)
    (List.mem_singleton.2 rfl) rfl rfl (by decide) (by decide) (by decide))

/-- Refutes O50: a window fill during an earlier write of its unit to the block leaves the entry stale, not full. -/
theorem not_fetchAndMemoryEvents : ¬ Obligations.FetchAndMemoryEvents := by
  intro h
  have hlive : fillBesideWrite.Live := rfl
  obtain ⟨-, -, -, -, -, -, -, hfill, -⟩ := h fillBesideWrite hlive
  obtain ⟨d, hexec, -, hfull⟩ := hfill 0 0 0 fillingEnt windowCtx fillBesideWrite_entry fillBesideWrite_ctx rfl rfl rfl
    fun i _ => by simp [Dev.poisoned, fillBesideWrite_poison]
  obtain ⟨slot, bs, hlanded⟩ := execWindowFill_of_filling (g := 0) hlive fillBesideWrite_entry fillBesideWrite_ctx rfl
    rfl fillBesideWrite_poison
  have hclusters : (fillBesideWrite.dev.landFill 0 (tagKey 0 0) slot bs).clusters = d.clusters :=
    congrArg (fun t => t.dev.clusters) (Host.Outcome.next.inj (hlanded.symm.trans hexec))
  obtain ⟨e, he, -, hstale⟩ := fillBesideWrite_holdsStale slot bs
  rw [Dev.cluster, hclusters] at he
  rw [Dev.cluster, he] at hfull
  cases hfull
  cases hstale

end Sys2Proof.Machine

/-!
SUPPORT. Syllables of the S class (R139-R149): the one result that each shared form sends, what the bit operations give bit
by bit, and the obligations about them.
-/

namespace Sys2Proof.Machine

/-! ## The shared forms -/

section
variable {s : State} {b : Bundle} {h : Hdr} (hi : Issuing s b h)
include hi

theorem scalarResult_issuing (d : BitVec 6) (lat : Nat) (val : Core → Word) :
    scalarResult h d lat val s = .next (s.after h (sendS s.dev b b.issuer d.toNat (val b.issuer) lat)) :=
  syllable_ok hi rfl

theorem scalarRR_issuing (o : SRR) (lat : Nat) (op : Word → Word → Word) : scalarRR h o lat op s =
    .next (s.after h (sendS s.dev b b.issuer o.d.toNat (op (b.issuer.s o.a.toNat) (b.issuer.s o.b.toNat)) lat)) :=
  scalarResult_issuing hi ..

theorem scalarR1_issuing (o : SR1) (op : Word → Word) : scalarR1 h o op s =
    .next (s.after h (sendS s.dev b b.issuer o.d.toNat (op (b.issuer.s o.a.toNat)) 1)) :=
  scalarResult_issuing hi ..

theorem scalarRI_issuing (o : SRI) (lat : Nat) (op : Word → Word → Word) : scalarRI h o lat op s =
    .next (s.after h (sendS s.dev b b.issuer o.d.toNat (op (b.issuer.s o.a.toNat) (o.imm.signExtend 64)) lat)) :=
  scalarResult_issuing hi ..

theorem compareRR_issuing (o : SPR) (r : Rel) : compareRR h o r s =
    .next (s.after h (sendP s.dev b o.pd.toNat (r.holds (b.issuer.s o.a.toNat) (b.issuer.s o.b.toNat)) 1)) :=
  syllable_ok hi rfl

theorem compareRI_issuing (o : SPI) (r : Rel) : compareRI h o r s =
    .next (s.after h (sendP s.dev b o.pd.toNat (r.holds (b.issuer.s o.a.toNat) (o.imm.signExtend 64)) 1)) :=
  syllable_ok hi rfl

theorem predicateLogic_issuing (o : SPP) (op : Bool → Bool → Bool) : predicateLogic h o op s =
    .next (s.after h (sendP s.dev b o.pd.toNat (op (b.issuer.p o.pa.toNat) (b.issuer.p o.pb.toNat)) 1)) :=
  syllable_ok hi rfl

end

/-! ## Counts of bits (R141) -/

/-- The place of the first number below n that p holds of, or n where there is none. -/
theorem find?_range_getD_spec (p : Nat → Bool) (n : Nat) :
    ((List.range n).find? p).getD n ≤ n ∧ (∀ j < ((List.range n).find? p).getD n, p j = false) ∧
      (((List.range n).find? p).getD n < n → p (((List.range n).find? p).getD n) = true) := by
  cases hf : (List.range n).find? p with
  | none => simpa using List.find?_range_eq_none.1 hf
  | some i =>
    obtain ⟨hp, hin, hbelow⟩ := List.find?_range_eq_some.1 hf
    exact ⟨(List.mem_range.1 hin).le, by simpa using hbelow, fun _ => hp⟩

theorem popcW_eq_card (x : Word) :
    popcW x = BitVec.ofNat 64 ((Finset.range 64).filter fun i => x.getLsbD i = true).card := by
  simp [popcW, Finset.card, Finset.filter, Finset.range, Multiset.range, toW]

/-! ## Bits and bytes in reverse (R141) -/

/-- The first n bits that p gives, the first of them highest. -/
def highFirst (p : Nat → Bool) : Nat → Nat
  | 0 => 0
  | n + 1 => 2 * highFirst p n + (p n).toNat

theorem testBit_highFirst (p : Nat → Bool) (n i : Nat) :
    (highFirst p n).testBit i = (decide (i < n) && p (n - 1 - i)) := by
  induction n generalizing i with
  | zero => simp [highFirst]
  | succ n ih =>
    have hbit : highFirst p (n + 1) = Nat.bit (p n) (highFirst p n) := by rw [highFirst, Nat.bit_val]
    rw [hbit]
    cases i with
    | zero => simp
    | succ i => rw [Nat.testBit_bit_succ, ih]; simp [show n - (i + 1) = n - 1 - i by omega]

theorem foldl_reversed_bits (p : Nat → Bool) (k n : Nat) :
    (List.range n).foldl (fun a i => if p i = true then a + 2 ^ (n + k - 1 - i) else a) 0 = 2 ^ k * highFirst p n := by
  induction n generalizing k with
  | zero => simp [highFirst]
  | succ n ih =>
    rw [List.range_succ, List.foldl_concat, show n + 1 + k = n + (k + 1) by omega, ih (k + 1), highFirst,
      show n + (k + 1) - 1 - n = k by omega]
    have hadd : (if p n = true then 2 ^ (k + 1) * highFirst p n + 2 ^ k else 2 ^ (k + 1) * highFirst p n) =
        2 ^ (k + 1) * highFirst p n + 2 ^ k * (p n).toNat := by cases p n <;> simp
    rw [hadd]
    ring

theorem getLsbD_brevW (x : Word) {i : Nat} (hi : i < 64) : (brevW x).getLsbD i = x.getLsbD (63 - i) := by
  rw [brevW, toW, foldl_reversed_bits x.getLsbD 0 64, BitVec.getLsbD_ofNat, Nat.pow_zero, Nat.one_mul,
    testBit_highFirst]
  simp [hi]

theorem ofBytes_eq_packNat (l : List Byte) : ofBytes l = packNat 8 (l.map BitVec.toNat) := by
  induction l with
  | nil => rfl
  | cons b t ih => rw [ofBytes, ih, List.map_cons, packNat, Nat.mod_eq_of_lt b.isLt]; rfl

theorem fld_ofBytes (l : List Byte) (i : Nat) (hi : i < l.length) : fld (ofBytes l) (i * 8) 8 = l[i].toNat := by
  rw [ofBytes_eq_packNat, fld_packNat _ _ _ (by simpa using hi), List.getElem_map, Nat.mod_eq_of_lt l[i].isLt]

theorem toNat_getElem_toBytes (n v i : Nat) (hi : i < (toBytes n v).length) :
    (toBytes n v)[i].toNat = fld v (i * 8) 8 := by
  induction n generalizing v i with
  | zero => cases hi
  | succ n ih =>
    cases i with
    | zero => simp [toBytes, fld]
    | succ i =>
      simp only [toBytes, List.getElem_cons_succ, ih, fld]
      rw [show 256 = 2 ^ 8 from rfl, Nat.div_div_eq_div_mul, ← Nat.pow_add, Nat.succ_mul, Nat.add_comm]

theorem toNat_extractLsb'_eight (x : Word) (j : Nat) : (x.extractLsb' (8 * j) 8).toNat = fld x.toNat (j * 8) 8 := by
  rw [BitVec.extractLsb'_toNat, Nat.shiftRight_eq_div_pow, fld, Nat.mul_comm]

theorem extractLsb'_bswapW (x : Word) {j : Nat} (hj : j < 8) :
    (bswapW x).extractLsb' (8 * j) 8 = x.extractLsb' (8 * (7 - j)) 8 := by
  have hlen : (toBytes 8 x.toNat).reverse.length = 8 := by simp
  have hlt : ofBytes (toBytes 8 x.toNat).reverse < 2 ^ 64 := by
    rw [ofBytes_eq_packNat]
    simpa using packNat_lt 8 ((toBytes 8 x.toNat).reverse.map BitVec.toNat)
  apply BitVec.eq_of_toNat_eq
  rw [toNat_extractLsb'_eight, toNat_extractLsb'_eight, bswapW, toW, BitVec.toNat_ofNat, Nat.mod_eq_of_lt hlt,
    fld_ofBytes _ _ (by omega), List.getElem_reverse, toNat_getElem_toBytes]
  simp

/-! ## Bit fields (R142) -/

theorem getLsbD_bextW (x : Word) (p : Nat) {l : Nat} (hl : l ≤ 64) (i : Nat) :
    (bextW x p l).getLsbD i = (decide (i < l) && x.getLsbD (p + i)) := by
  rw [bextW, toW, BitVec.getLsbD_ofNat, fld, Nat.testBit_mod_two_pow, Nat.testBit_div_two_pow, BitVec.testBit_toNat,
    Nat.add_comm]
  by_cases hil : i < l
  · simp [hil, hil.trans_le hl]
  · simp [hil]

/-- The ones of the field of l bits at p. -/
theorem getLsbD_fieldOnes (p l : Nat) {i : Nat} (hi : i < 64) :
    (toW ((2 ^ l - 1) * 2 ^ p)).getLsbD i = decide (p ≤ i ∧ i < p + l) := by
  rw [toW, BitVec.getLsbD_ofNat, Nat.testBit_mul_two_pow, Nat.testBit_two_pow_sub_one, decide_eq_true hi, Bool.true_and,
    ← Bool.decide_and, decide_eq_decide]
  omega

theorem getLsbD_binsW (d x : Word) (p l : Nat) {i : Nat} (hi : i < 64) :
    (binsW d x p l).getLsbD i = if p ≤ i ∧ i < p + l then x.getLsbD (i - p) else d.getLsbD i := by
  simp only [binsW, BitVec.getLsbD_or, BitVec.getLsbD_and, BitVec.getLsbD_not, BitVec.getLsbD_shiftLeft,
    getLsbD_fieldOnes p l hi, decide_eq_true hi]
  by_cases hf : p ≤ i ∧ i < p + l
  · simp [hf, Nat.not_lt.2 hf.1]
  · simp [hf]

/-- Settles O3: each form sends its operation's value, whose bits the lemmas above give. -/
theorem scalarBitOperations : Obligations.ScalarBitOperations := by
  unfold Obligations.ScalarBitOperations
  intro s b h hi
  refine ⟨fun o => ⟨?clz, ?ctz, ?popc, ?brev, ?bswap⟩, fun o hlimit => ⟨?bext, ?bins⟩⟩
  case clz =>
    obtain ⟨hle, hbelow, hat⟩ := find?_range_getD_spec (fun i => (b.issuer.s o.a.toNat).getLsbD (63 - i)) 64
    exact ⟨_, hle, (exec_clz h o s).trans (scalarR1_issuing hi o clzW), hbelow, hat⟩
  case ctz =>
    obtain ⟨hle, hbelow, hat⟩ := find?_range_getD_spec (b.issuer.s o.a.toNat).getLsbD 64
    exact ⟨_, hle, (exec_ctz h o s).trans (scalarR1_issuing hi o ctzW), hbelow, hat⟩
  case popc =>
    rw [← popcW_eq_card]
    exact (exec_popc h o s).trans (scalarR1_issuing hi o popcW)
  case brev => exact ⟨_, (exec_brev h o s).trans (scalarR1_issuing hi o brevW), fun i hlt => getLsbD_brevW _ hlt⟩
  case bswap => exact ⟨_, (exec_bswap h o s).trans (scalarR1_issuing hi o bswapW), fun j hlt => extractLsb'_bswapW _ hlt⟩
  case bext =>
    exact ⟨_, (exec_bext h o s).trans (scalarResult_issuing hi ..), getLsbD_bextW _ _ (Nat.le_of_add_left_le hlimit)⟩
  case bins =>
    exact ⟨_, (exec_bins h o s).trans (scalarResult_issuing hi ..), fun i hlt => getLsbD_binsW _ _ _ _ hlt⟩

/-! ## Two sources (R140) -/

/-- The SRR forms with their operations and latencies. -/
def srrForms (h : Hdr) (o : SRR) : List (Instr × (Word → Word → Word) × Nat) :=
  [(.add h o, (· + ·), 1), (.sub h o, (· - ·), 1), (.and h o, (· &&& ·), 1), (.or h o, (· ||| ·), 1),
    (.xor h o, (· ^^^ ·), 1), (.andn h o, fun x y => x &&& ~~~y, 1), (.shl h o, shlW, 1), (.shr h o, shrW, 1),
    (.sra h o, sraW, 1), (.rol h o, rolW, 1), (.mul h o, (· * ·), 3), (.mulh h o, mulhW, 3), (.mulhn h o, mulhnW, 3),
    (.min h o, minW, 1), (.max h o, maxW, 1), (.minn h o, minnW, 1), (.maxn h o, maxnW, 1)]

theorem exec_srrForms (h : Hdr) (o : SRR) (s : State) :
    ∀ f ∈ srrForms h o, exec f.1 s = scalarRR h o f.2.2 f.2.1 s := by
  simp only [srrForms, List.forall_mem_cons, List.not_mem_nil, false_implies, implies_true]
  exact ⟨exec_add h o s, exec_sub h o s, exec_and h o s, exec_or h o s, exec_xor h o s, exec_andn h o s, exec_shl h o s,
    exec_shr h o s, exec_sra h o s, exec_rol h o s, exec_mul h o s, exec_mulh h o s, exec_mulhn h o s, exec_min h o s,
    exec_max h o s, exec_minn h o s, exec_maxn h o s, trivial⟩

/-- Settles O1: every form of the family sends its operation's value of the two registers. -/
theorem scalarTwoSourceResults : Obligations.ScalarTwoSourceResults := by
  unfold Obligations.ScalarTwoSourceResults
  intro s b h o hi x y i v lat hm
  obtain ⟨f, hf, heq⟩ := List.mem_map.1
    (show (i, v, lat) ∈ (srrForms h o).map fun f => (f.1, f.2.1 x y, f.2.2) from hm)
  cases heq
  exact (exec_srrForms h o s f hf).trans (scalarRR_issuing hi ..)

/-! ## One source, immediates and the long immediate (R141-R143, R149) -/

/-- Two fields of which the lower ends where the upper begins do not overlap. -/
theorem toW_or_of_lt {k y : Nat} (hy : y < 2 ^ k) (x : Nat) : toW (x * 2 ^ k) ||| toW y = toW (x * 2 ^ k + y) := by
  rw [Nat.mul_comm, Nat.two_pow_add_eq_or_of_lt hy]
  exact BitVec.ofNat_or.symm

/-- LIMML takes LIMMH's result back where it is the last in flight, and sends the whole (R149). -/
theorem execLimml_issuing {s : State} {b : Bundle} {h : Hdr} (hi : Issuing s b h) (o : SLI) {p : List Pend}
    {hw : BitVec 32} (hp : (s.dev.core b.core).pend =
      p ++ [b.pend (.s (physSV b.issuer.lp o.d.toNat) (toW (hw.toNat * 2 ^ 32))) 1]) :
    execLimml h o s = .next (s.after h (sendS (s.dev.updCore b.core fun c => { c with pend := p }) b b.issuer o.d.toNat
      (toW (hw.toNat * 2 ^ 32 + o.imm.toNat)) 1)) := by
  refine syllable_ok hi ?_
  have hdrop : (s.dev.updCore b.core fun x => { x with pend := x.pend.dropLast }) =
      s.dev.updCore b.core fun c => { c with pend := p } :=
    Dev.updCore_congr (by rw [hp, List.dropLast_concat])
  have hsent := congrArg (sendS (s.dev.updCore b.core fun c => { c with pend := p }) b b.issuer o.d.toNat · 1)
    (toW_or_of_lt o.imm.isLt hw.toNat)
  simpa [hp, Bundle.pend, Result.ref, hdrop, Option.filter] using hsent

/-- Settles O2: each form sends its operation's value, and LIMML that of the pair. -/
theorem scalarOneSourceAndImmediateResults : Obligations.ScalarOneSourceAndImmediateResults := by
  unfold Obligations.ScalarOneSourceAndImmediateResults
  refine ⟨fun s b h hi => ⟨fun o => ?oneSource, fun o => ?bitField, fun o => ?immediate, fun o => ?high⟩,
    fun s b h o p hw hi hp => (exec_limml h o s).trans (execLimml_issuing hi o hp)⟩
  case oneSource =>
    have hsends (op : Word → Word) := scalarR1_issuing hi o op
    exact ⟨(exec_clz h o s).trans (hsends _), (exec_ctz h o s).trans (hsends _), (exec_popc h o s).trans (hsends _),
      (exec_brev h o s).trans (hsends _), (exec_bswap h o s).trans (hsends _)⟩
  case bitField =>
    exact ⟨(exec_bext h o s).trans (scalarResult_issuing hi ..), (exec_bins h o s).trans (scalarResult_issuing hi ..)⟩
  case immediate =>
    have hsends (lat : Nat) (op : Word → Word → Word) := scalarRI_issuing hi o lat op
    exact ⟨(exec_addi h o s).trans (hsends ..), (exec_andi h o s).trans (hsends ..), (exec_ori h o s).trans (hsends ..),
      (exec_xori h o s).trans (hsends ..), (exec_shli h o s).trans (hsends ..), (exec_shri h o s).trans (hsends ..),
      (exec_srai h o s).trans (hsends ..), (exec_muli h o s).trans (hsends ..)⟩
  case high => exact (exec_limmh h o s).trans (scalarResult_issuing hi ..)

/-! ## Compares and predicate logic (R144, R145) -/

/-- Settles O4: each compare sends its relation, each logic form its operation, of what the core reads. -/
theorem comparesAndPredicateLogic : Obligations.ComparesAndPredicateLogic := by
  unfold Obligations.ComparesAndPredicateLogic
  refine ⟨fun s b h hi => ⟨fun o => ?registers, fun o => ?immediate, fun o => ?logic⟩,
    fun r md v n => ⟨rfl, fun hn => by simp [Regs.land, hn]⟩⟩
  case registers =>
    have hsends (r : Rel) := compareRR_issuing hi o r
    exact ⟨(exec_ceq h o s).trans (hsends .eq), (exec_cne h o s).trans (hsends .ne), (exec_clt h o s).trans (hsends .lt),
      (exec_cle h o s).trans (hsends .le), (exec_cltn h o s).trans (hsends .ltn), (exec_clen h o s).trans (hsends .len)⟩
  case immediate =>
    have hsends (r : Rel) := compareRI_issuing hi o r
    exact ⟨(exec_ceqi h o s).trans (hsends .eq), (exec_cnei h o s).trans (hsends .ne),
      (exec_clti h o s).trans (hsends .lt), (exec_clei h o s).trans (hsends .le),
      (exec_cltni h o s).trans (hsends .ltn), (exec_cleni h o s).trans (hsends .len)⟩
  case logic =>
    have hsends (op : Bool → Bool → Bool) := predicateLogic_issuing hi o op
    exact ⟨(exec_pand h o s).trans (hsends _), (exec_por h o s).trans (hsends _), (exec_pxor h o s).trans (hsends _),
      (exec_pandn h o s).trans (hsends _)⟩

/-! ## Selects and moves (R146-R148) -/

/-- The selectors from 8 on read a loop level (R62). -/
theorem Core.selected_level (c : Core) (n : Nat) {sel : Nat} (hsel : 8 ≤ sel) :
    c.selected n sel = if (c.lp.level (sel % 8)).active = false then 0
      else if sel < 0x18 then toW ((c.lp.level (sel % 8)).index.toNat % 2 ^ 32)
      else toW ((c.lp.level (sel % 8)).count.toNat % 2 ^ 32) := by
  unfold Core.selected
  iterate 8 rw [if_neg (by omega)]
  simp

section
variable (c : Core) (n : Nat) {l : Nat} (hl : l < 6)
include hl

theorem Core.selected_index : c.selected n (16 + l) =
    if (c.lp.level l).active = false then 0 else toW ((c.lp.level l).index.toNat % 2 ^ 32) := by
  rw [Core.selected_level c n (by omega), show (16 + l) % 8 = l by omega, if_pos (show 16 + l < 0x18 by omega)]

theorem Core.selected_count : c.selected n (24 + l) =
    if (c.lp.level l).active = false then 0 else toW ((c.lp.level l).count.toNat % 2 ^ 32) := by
  rw [Core.selected_level c n (by omega), show (24 + l) % 8 = l by omega, if_neg (show ¬24 + l < 0x18 by omega)]

end

/-- Bits [12:0] of a word, clamped to 4096, are what MTX writes to lr (R62). -/
theorem lrOf_eq (x : Word) : lrOf x = BitVec.ofNat 16 (min (x.toNat % 8192) 4096) := by
  rw [lrOf, wfld, fld, Nat.pow_zero, Nat.div_one]; rfl

/-- Settles O5: each form sends one value, and the selectors of R62 are read off one by one. -/
theorem selectsAndMoves : Obligations.SelectsAndMoves := by
  unfold Obligations.SelectsAndMoves
  intro s b h hi
  refine ⟨fun o => (exec_sel h o s).trans (scalarResult_issuing hi ..),
    fun o => (exec_mfx h o s).trans (syllable_ok hi rfl), fun o hsel => ?mtxLr, fun o hsel => ?mtxPredicates,
    fun o => (exec_mfb h o s).trans (scalarResult_issuing hi ..), fun o => (exec_mtb h o s).trans (syllable_ok hi rfl),
    fun n sel hsel => ?selectors, fun n l hl hinactive => ?inactive, fun n l hl hactive => ?active, fun _ => rfl⟩
  case mtxLr => exact (exec_mtx h o s).trans (syllable_ok hi (congrArg Out.ok ((if_pos hsel).trans (by rw [lrOf_eq]))))
  case mtxPredicates => exact (exec_mtx h o s).trans (syllable_ok hi (congrArg Out.ok (if_neg hsel)))
  case selectors => interval_cases sel <;> rfl
  case inactive =>
    rw [Core.selected_index _ _ hl, Core.selected_count _ _ hl, if_pos hinactive, if_pos hinactive]
    exact ⟨rfl, rfl⟩
  case active =>
    rw [Core.selected_index _ _ hl, Core.selected_count _ _ hl, hactive]
    exact ⟨rfl, rfl⟩

end Sys2Proof.Machine

/-!
SUPPORT. Branches, stops and ends of tasks (R150-R159, R208): what each form answers and leaves of its bundle, and the
obligations about them.
-/

namespace Sys2Proof.Machine

/-! ## Branches (R150-R155) -/

section
variable {s : State} {b : Bundle} {h : Hdr} (hi : Issuing s b h) (n : Nat) (w : Word)
  (also : Dev → Bundle → Core → Dev)
include hi

theorem branch_outsideLoops (hin : b.issuer.lp.innermost = none) : branch h n w also s =
    .next (s.afterWith h (also s.dev b b.issuer) { b with ctl := .branch (b.issuer.b n) (b.issuer.penalty n) }) :=
  ctlSyllable_ok hi (by simp only [hin])

theorem branch_insideLoop {l : Nat} (hin : b.issuer.lp.innermost = some l) :
    branch h n w also s = .next (s.faultBundle b.base (mkFault 0x0A w (toW l))) :=
  ctlSyllable_raise hi (by simp only [hin])

end

/-- Settles O7: the three branches are one form, which asks whether a level is active. -/
theorem branchesAndNop : Obligations.BranchesAndNop := by
  unfold Obligations.BranchesAndNop
  intro s b h hi
  refine ⟨(exec_nop h s).trans (syllable_ok hi rfl), fun o => (exec_pbt h o s).trans (syllable_ok hi rfl),
    fun hin => ⟨fun o => ⟨?brt, ?ret⟩, fun o => ?call⟩,
    fun l hin => ⟨fun o => ⟨?brtLoop, ?retLoop⟩, fun o => ?callLoop⟩,
    fun x a p code => ⟨rfl, Nat.le_max_right ..⟩⟩
  case brt => exact (exec_brt h o s).trans (branch_outsideLoops hi _ _ _ hin)
  case ret => exact (exec_ret h o s).trans (branch_outsideLoops hi _ _ _ hin)
  case call => exact (exec_call h o s).trans (branch_outsideLoops hi _ _ _ hin)
  case brtLoop => exact (exec_brt h o s).trans (branch_insideLoop hi _ _ _ hin)
  case retLoop => exact (exec_ret h o s).trans (branch_insideLoop hi _ _ _ hin)
  case callLoop => exact (exec_call h o s).trans (branch_insideLoop hi _ _ _ hin)

/-! ## Stops and ends (R157-R159, R208) -/

section
variable {s : State} {b : Bundle} {h : Hdr} (hi : Issuing s b h)
include hi

theorem execHalt_sleeps (hp : (isGeneral b.core && b.issuer.seq.priv) = true) :
    execHalt h s = .next (s.afterWith h s.dev { b with phaseEnd := true, ctl := .sleep }) :=
  (ctlSyllable_ok hi rfl).trans (congrArg (Host.Outcome.next <| s.afterWith h s.dev ·) (if_pos hp))

theorem execHalt_stops (hp : (isGeneral b.core && b.issuer.seq.priv) = false) :
    execHalt h s = .next (s.afterWith h s.dev ({ b with phaseEnd := true }.withStop (mkStop 0x11 0 0))) :=
  (ctlSyllable_ok hi rfl).trans 
    (congrArg (Host.Outcome.next <| s.afterWith h s.dev ·) (if_neg (Bool.eq_false_iff.1 hp)))

theorem execExit_leaves (hg : isGeneral b.core = false) (hr : b.issuer.seq.region ≠ .none) :
    execExit h s = .next (s.afterWith h s.dev { b with ctl := .exit }) :=
  ctlSyllable_ok hi (if_neg (by simp [hg, hr]))

theorem execExit_faults (hr : isGeneral b.core = true ∨ b.issuer.seq.region = .none) :
    execExit h s = .next (s.faultBundle b.base (mkFault 0x0B 0 0)) :=
  ctlSyllable_raise hi (if_pos (by simpa using hr))

theorem execDetach_tensor (hg : isGeneral b.core = false) : execDetach h s =
    .next (s.afterWith h s.dev (if b.issuer.attached = true then { b with ctl := .detach } else b)) :=
  ctlSyllable_ok hi (if_neg (Bool.eq_false_iff.1 hg))

theorem execDetach_general (hg : isGeneral b.core = true) :
    execDetach h s = .next (s.faultBundle b.base (mkFault 0x20 b.addr (toW (7 * 2 ^ 32)))) :=
  ctlSyllable_raise hi (if_pos hg)

end

/-- Settles O8: HALT by its core's mode, EXIT by its region, DETACH by its kind of core. -/
theorem stopsAndEnds : Obligations.StopsAndEnds := by
  unfold Obligations.StopsAndEnds
  intro s b h hi
  rw [exec_halt, exec_exit, exec_detach]
  exact ⟨fun o => (exec_trap h o s).trans (ctlSyllable_ok hi rfl), execHalt_sleeps hi, execHalt_stops hi,
    execExit_leaves hi, execExit_faults hi, execDetach_tensor hi, execDetach_general hi⟩

end Sys2Proof.Machine

/-!
SUPPORT. Loops (R160-R173): what the loop syllables answer, what completing their bundle leaves of a level, and the
obligation about them.
-/

namespace Sys2Proof.Machine

/-! ## Loop levels -/

section
variable (c : Core)

@[simp] theorem Core.level_setLevel_same (l : Nat) (v : LoopLevel) : (c.setLevel l v).lp.level l = v := by
  simp [Core.setLevel, LoopCtx.level, tget_tset_same]

theorem Core.level_setLevel_other {k l : Nat} (v : LoopLevel) (hk : k ≠ l) :
    (c.setLevel l v).lp.level k = c.lp.level k := by
  simp [Core.setLevel, LoopCtx.level, tget_tset_other _ _ _ _ hk]

/-- Ending a level leaves every level as setting it inactive does; an ending modulo loop changes no level. -/
theorem Core.levels_endLevel (l : Nat) : (c.endLevel l).lp.levels =
    (c.setLevel l { c.lp.level l with active := false, count := 0, index := 0 }).lp.levels := by
  unfold Core.endLevel
  dsimp only
  split
  · split <;> rfl
  · rfl

theorem Core.active_endLevel_same (l : Nat) : ((c.endLevel l).lp.level l).active = false := by
  rw [LoopCtx.level, Core.levels_endLevel, ← LoopCtx.level, Core.level_setLevel_same]

theorem Core.active_endLevel_of_inactive {k l : Nat} (hk : (c.lp.level k).active = false) :
    ((c.endLevel l).lp.level k).active = false := by
  obtain rfl | hne := eq_or_ne k l
  · exact c.active_endLevel_same k
  · rw [LoopCtx.level, Core.levels_endLevel, ← LoopCtx.level, Core.level_setLevel_other c _ hne]
    exact hk

/-- Levels that end one after another are inactive, and those inactive before stay so. -/
theorem Core.active_foldl_endLevel {k : Nat} {ls : List Nat} (hk : k ∈ ls ∨ (c.lp.level k).active = false) :
    ((ls.foldl (fun c l => c.endLevel l) c).lp.level k).active = false := by
  induction ls generalizing c with
  | nil => simpa using hk
  | cons l ls ih =>
    refine ih (c.endLevel l) ?_
    obtain hmem | hoff := hk
    · obtain rfl | htail := List.mem_cons.1 hmem
      · exact .inr (c.active_endLevel_same k)
      · exact .inl htail
    · exact .inr (c.active_endLevel_of_inactive hoff)

theorem Core.active_endAbove {k l : Nat} (hlk : l < k) (hk : k < 6) : ((c.endAbove l).lp.level k).active = false := by
  refine c.active_foldl_endLevel ?_
  cases hactive : (c.lp.level k).active with
  | false => exact .inr rfl
  | true =>
    have hmem : k ∈ ([5, 4, 3, 2, 1, 0] : List Nat) := by simp; omega
    exact .inl (List.mem_filter.2 ⟨hmem, by simp [hlk, hactive]⟩)

end

/-- Moving the places of the levels moves nothing else. -/
theorem LoopCtx.active_shift (lp : LoopCtx) (p : Int) (k : Nat) : ((lp.shift p).level k).active = (lp.level k).active := by
  rw [LoopCtx.level, LoopCtx.level, LoopCtx.shift, tget_map (fun x => by dsimp only; split <;> rfl)]
  cases tget lp.levels k with
  | none => rfl
  | some v =>
    dsimp only [Option.map_some, Option.getD_some]
    split <;> rfl

section
variable (c : Core) (k : Nat)

theorem Core.active_passBy (f : Fetched) : ((c.passBy f).lp.level k).active = (c.lp.level k).active := by
  unfold Core.passBy
  dsimp only
  split
  · rfl
  · exact LoopCtx.active_shift { c.lp with buffer := _ } 1 k

theorem Core.active_passBuffered (n : Nat) : ((c.passBuffered n).lp.level k).active = (c.lp.level k).active := by
  induction n generalizing c with
  | zero => rfl
  | succ n ih =>
    unfold Core.passBuffered
    split
    · rfl
    · split
      · exact (ih _).trans (c.active_passBy k _)
      · rfl

theorem Core.active_skipping (n : Nat) : ((c.skipping n).lp.level k).active = (c.lp.level k).active :=
  Core.active_passBuffered _ k n

end

/-! ## Completing a loop syllable's bundle (R160, R166, R169) -/

section
variable (c : Core) (b : Bundle) (code : Word → Option Word)

/-- The level that a bundle opens begins at index 0 of its body, which is the next bundle, with the strides set before. -/
theorem Core.level_flow_withLoop (lv : Nat) {trips : Nat} (len : Nat) (mo : Option ModLoop) (dp : Nat) (w : Word)
    (ht : trips ≠ 0) : (c.flow (b.withLoop lv trips len mo dp w) code).lp.level lv =
      { (c.toNext b.next).lp.level lv with
        active := true, index := 0, body := b.next, len := len, pos := 0, decl := b.addr, syl := w
        count := BitVec.ofNat 33 (match mo with | some q => q.n + q.stages - 1 | none => trips) } := by
  simp only [Core.flow, Bundle.withLoop, if_neg ht]
  cases mo with
  | none => exact Core.level_setLevel_same ..
  | some q =>
    dsimp only
    split <;> exact Core.level_setLevel_same ..

/-- A level that a bundle leaves by LBRK, and every level above it, is inactive. -/
theorem Core.active_flow_lbrk {lv k : Nat} (hlv : lv ≤ k) (hk : k < 6) :
    ((c.flow { b with ctl := .lbrk lv } code).lp.level k).active = false := by
  refine (Core.active_skipping _ k _).trans ((LoopCtx.active_shift _ 1 k).trans ?_)
  obtain rfl | hlt := hlv.eq_or_lt
  · exact Core.active_endLevel_same ..
  · exact Core.active_endLevel_of_inactive _ (c.active_endAbove hlt hk)

end

/-! ## What the loop syllables answer -/

section
variable {s : State} {b : Bundle} {h : Hdr} (hi : Issuing s b h)
include hi

theorem execLoop_taskSource {o : CL} (hsrc : o.src = 3) : execLoop h o s =
    .next (s.faultBundle b.base (mkFault 0x09 (sylWord (.loop h o)) (toW o.lv.toNat))) :=
  ctlSyllable_raise hi (if_pos hsrc)

theorem execLoop_nestBad {o : CL} (hsrc : o.src ≠ 3) (hn : b.issuer.nestBad o.lv.toNat (o.len.toNat + 1) = true) :
    execLoop h o s = .next (s.faultBundle b.base (mkFault 0x08 (sylWord (.loop h o)) (toW o.lv.toNat))) :=
  ctlSyllable_raise hi ((if_neg hsrc).trans (if_pos hn))

theorem execLoop_opens {o : CL} (hsrc : o.src ≠ 3) (hn : b.issuer.nestBad o.lv.toNat (o.len.toNat + 1) = false) :
    execLoop h o s = .next (s.afterWith h s.dev (b.withLoop o.lv.toNat
      (b.issuer.loopCount o.src o.cnt.toNat (o.cnt.toNat / 2 ^ 14) o.mq) (o.len.toNat + 1) none 0
      (sylWord (.loop h o)))) :=
  ctlSyllable_ok hi ((if_neg hsrc).trans (if_neg (Bool.eq_false_iff.1 hn)))

end

/-- The trip count of an MLOOP (R160, R169). -/
def Core.mloopCount (c : Core) (o : CM) : Nat := c.loopCount o.src 0 o.a.toNat o.mq

/-- A task loop may stand where an MLOOP is, and its iterations fit (R173). -/
def taskLoopStands (s : State) (b : Bundle) (c : Core) (o : CM) : Prop :=
  taskLoopFault s.mem s.dev b c (o.len.toNat + 1) = none ∧ taskLoopOk s.mem s.dev b c (o.len.toNat + 1) = true ∧
    (c.mloopCount o = 0 ∨ c.mloopCount o + o.sc.toNat < 2 ^ 32)

/-- The bundle of an MLOOP that opens its level. -/
def Bundle.withMloop (b : Bundle) (h : Hdr) (o : CM) : Bundle :=
  b.withLoop o.lv.toNat (b.issuer.mloopCount o) (o.len.toNat + 1)
    (some { level := o.lv.toNat, n := b.issuer.mloopCount o, stages := o.sc.toNat + 1
            ii := max o.ii.toNat (o.len.toNat + 1), task := decide (o.src = 3) })
    (o.dp.toNat + 1) (sylWord (.mloop h o))

section
variable {s : State} {b : Bundle} {h : Hdr} {o : CM} (hi : Issuing s b h)
include hi

theorem execMloop_fetchFault {e : Event} (hsrc : o.src = 3)
    (he : taskLoopFault s.mem s.dev b b.issuer (o.len.toNat + 1) = some e) :
    execMloop h o s = .next (s.faultBundle b.base e) :=
  ctlSyllable_raise hi (by simp only [if_pos hsrc, he])

theorem execMloop_notStanding (hsrc : o.src = 3)
    (he : taskLoopFault s.mem s.dev b b.issuer (o.len.toNat + 1) = none) (hs : ¬taskLoopStands s b b.issuer o) :
    execMloop h o s = .next (s.faultBundle b.base (mkFault 0x09 (sylWord (.mloop h o)) (toW o.lv.toNat))) := by
  refine ctlSyllable_raise hi ?_
  simp only [if_pos hsrc, he]
  exact if_pos (by simpa [taskLoopStands, Core.mloopCount, he, hsrc, imp_iff_not_or] using hs)

/-- With a source and a place that allow it, only the nesting is left to ask. -/
theorem execMloop_passed (hs : o.src ≠ 3 ∨ taskLoopStands s b b.issuer o) :
    execMloop h o s = s.concluded h b (b.withMloop h o)
      (if b.issuer.nestBad o.lv.toNat (o.len.toNat + 1) = true then
        .raise (mkFault 0x08 (sylWord (.mloop h o)) (toW o.lv.toNat)) else .ok s.dev) := by
  refine (ctlSyllable_concluded hi).trans (congrArg (s.concluded h b (b.withMloop h o)) ?_)
  have hfault : (if o.src = 3 then taskLoopFault s.mem s.dev b b.issuer (o.len.toNat + 1) else none) = none :=
    ite_eq_right_iff.2 fun hsrc => (hs.resolve_left (not_not.2 hsrc)).1
  simp only [hfault]
  refine if_neg fun hbad => ?_
  obtain ⟨hsrc, hwhy⟩ : o.src = 3 ∧ (taskLoopOk s.mem s.dev b b.issuer (o.len.toNat + 1) = false ∨
      b.issuer.mloopCount o ≠ 0 ∧ 2 ^ 32 ≤ b.issuer.mloopCount o + o.sc.toNat) := by
    simpa [Core.mloopCount] using hbad
  obtain ⟨-, hok, hcount⟩ := hs.resolve_left (not_not.2 hsrc)
  obtain hno | ⟨hpos, hlong⟩ := hwhy
  · exact absurd hok (Bool.eq_false_iff.1 hno)
  · omega

end

/-- LBRK and LNEXT are refused at an inactive level and at the task loop's (R167). -/
theorem Core.levelBad_iff (c : Core) (lv : Nat) : c.levelBad lv = true ↔
    (c.lp.level lv).active = false ∨ ∃ q, c.lp.mloop = some q ∧ q.level = lv ∧ q.task = true := by
  unfold Core.levelBad
  cases c.lp.mloop with
  | none => simp
  | some q => simp [and_comm]

section
variable {s : State} {b : Bundle} {h : Hdr} {o : CV} (hi : Issuing s b h)
include hi

theorem execLbrk_leaves (hok : b.issuer.levelBad o.lv.toNat = false) :
    execLbrk h o s = .next (s.afterWith h s.dev { b with ctl := .lbrk o.lv.toNat }) :=
  ctlSyllable_ok hi (if_neg (Bool.eq_false_iff.1 hok))

theorem execLbrk_faults (hbad : b.issuer.levelBad o.lv.toNat = true) : execLbrk h o s =
    .next (s.faultBundle b.base (mkFault 0x09 (sylWord (.lbrk h o)) (toW o.lv.toNat))) :=
  ctlSyllable_raise hi (if_pos hbad)

theorem execLnext_goesOn (hok : b.issuer.levelBad o.lv.toNat = false) :
    execLnext h o s = .next (s.afterWith h s.dev { b with ctl := .lnext o.lv.toNat }) :=
  ctlSyllable_ok hi (if_neg (Bool.eq_false_iff.1 hok))

theorem execLnext_faults (hbad : b.issuer.levelBad o.lv.toNat = true) : execLnext h o s =
    .next (s.faultBundle b.base (mkFault 0x09 (sylWord (.lnext h o)) (toW o.lv.toNat))) :=
  ctlSyllable_raise hi (if_pos hbad)

end

/-- Settles O9: each form by the checks that it makes in their order, and the levels as completing its bundle leaves
them. -/
theorem loopSyllables : Obligations.LoopSyllables := by
  unfold Obligations.LoopSyllables
  intro s b h hi
  refine ⟨fun o => ?loop, fun o => ?mloop, fun x lv trips len mo dp w code ht => ?opened, fun _ _ _ _ _ _ => rfl,
    fun o => (exec_lstri h o s).trans (syllable_ok hi rfl), fun o => (exec_lstrr h o s).trans (syllable_ok hi rfl),
    fun o => ?breaks, fun x lv k code hlv hk => x.active_flow_lbrk b code hlv hk⟩
  case loop =>
    rw [exec_loop]
    exact ⟨execLoop_opens hi, execLoop_nestBad hi, execLoop_taskSource hi⟩
  case mloop =>
    rw [exec_mloop]
    refine ⟨fun hs hn => ?opens, fun hs hn => ?nests, execMloop_notStanding hi, fun _ => execMloop_fetchFault hi⟩
    case opens =>
      rw [execMloop_passed hi hs, if_neg (Bool.eq_false_iff.1 hn)]
      rfl
    case nests =>
      rw [execMloop_passed hi hs, if_pos hn]
      rfl
  case opened =>
    dsimp only
    rw [Core.level_flow_withLoop x b code lv len mo dp w ht]
    refine ⟨rfl, rfl, rfl, rfl, ?_, ?_⟩
    · rintro rfl
      rfl
    · rintro q rfl
      rfl
  case breaks =>
    rw [exec_lbrk, exec_lnext]
    refine ⟨fun hactive htask => ?allowed, fun hbad => ?refused⟩
    case allowed =>
      have hok : b.issuer.levelBad o.lv.toNat = false :=
        Bool.eq_false_iff.2 fun hbad => ((b.issuer.levelBad_iff _).1 hbad).elim (by simp [hactive]) htask
      exact ⟨execLbrk_leaves hi hok, execLnext_goesOn hi hok⟩
    case refused =>
      have hbad := (b.issuer.levelBad_iff _).2 hbad
      exact ⟨execLbrk_faults hi hbad, execLnext_faults hi hbad⟩

end Sys2Proof.Machine

/-!
SUPPORT. Trap entry and the return from it (R184-R186): what each leaves of a core, and the obligations about them.
-/

namespace Sys2Proof.Machine

/-! ## Taking an event on a general core -/

@[simp] theorem Dev.core_toSystemPath (d : Dev) (src : Nat) (words : List Word) (k : Nat) :
    (d.toSystemPath src words).core k = d.core k := by
  unfold Dev.toSystemPath
  dsimp only
  split <;> rfl

section
variable {m : Memory} {d : Dev} {n : Nat} {b : Core} {baddr next : Word} {e : Event} {time : Nat}

/-- On a general core in privileged mode an event stops the core (R186). -/
theorem Dev.takeEvent_stops (hn : isGeneral n = true) (hp : (d.core n).seq.priv = true) :
    ∃ no words src w, d.takeEvent m n b baddr next e time =
      ((d.countRecord n).updCore n fun c => { c.keepRecord no words with run := .stopped }).toSystemPath src w := by
  simp only [Dev.takeEvent, hn, hp, if_true]
  exact ⟨_, _, _, _, rfl⟩

end

theorem Core.trapEntry_epc (c : Core) (e : Event) (baddr next : Word) (no : BitVec 32) (words : List Word) :
    (c.trapEntry e baddr next no words).seq.epc = bundleAddr (if e.kind = EvKind.stop then next else baddr) := by
  dsimp only [Core.trapEntry]
  cases e.kind <;> rfl

/-- Settles O45: trap entry by its fields, and what taking an event runs by the core's mode. -/
theorem trapEntry : Obligations.TrapEntry := by
  unfold Obligations.TrapEntry
  refine ⟨fun c e baddr next no words => ?entry, fun m d n b baddr next e time hn => ?taken⟩
  case entry =>
    exact ⟨Core.trapEntry_epc .., rfl, rfl, rfl, rfl, rfl, rfl, rfl, fun _ => ⟨rfl, rfl⟩, rfl, rfl, rfl, rfl, rfl, rfl,
      rfl, rfl, rfl, rfl⟩
  case taken =>
    cases hp : (d.core n).seq.priv with
    | false =>
      obtain ⟨words, ht⟩ :=
        Dev.takeEvent_trap (m := m) (b := b) (baddr := baddr) (next := next) (e := e) (time := time) hn hp
      rw [ht]
      refine ⟨fun _ => ⟨words, ?_⟩, nofun, fun k hk => ?_⟩
      · rw [Dev.core_updCore_same, Dev.core_countRecord]
      · rw [Dev.core_updCore_other _ _ _ _ hk, Dev.core_countRecord]
    | true =>
      obtain ⟨no, words, src, w, ht⟩ :=
        Dev.takeEvent_stops (m := m) (b := b) (baddr := baddr) (next := next) (e := e) (time := time) hn hp
      rw [ht]
      refine ⟨nofun, fun _ => ?_, fun k hk => ?_⟩
      · rw [Dev.core_toSystemPath, Dev.core_updCore_same]
        exact ⟨rfl, rfl⟩
      · rw [Dev.core_toSystemPath, Dev.core_updCore_other _ _ _ _ hk, Dev.core_countRecord]

/-! ## Returning from an event (R185) -/

section
variable {s : State} {b : Bundle} {h : Hdr} (hi : Issuing s b h)
include hi

theorem execTret_returns (hp : (isGeneral b.core && b.issuer.seq.priv) = true) :
    execTret h s = .next (s.afterWith h s.dev { b with ctl := .tret (decide (b.ctl = .sleep)) }) := by
  have hsleep : (match b.ctl with | .sleep => true | _ => false) = decide (b.ctl = .sleep) := by cases b.ctl <;> rfl
  exact (ctlSyllable_ok hi (if_pos hp)).trans
    (congrArg (fun t => Host.Outcome.next (s.afterWith h s.dev { b with ctl := .tret t })) hsleep)

theorem execTret_faults (hp : ¬(isGeneral b.core && b.issuer.seq.priv) = true) :
    execTret h s = .next (s.faultBundle b.base (mkFault 0x0C 0 0)) :=
  ctlSyllable_raise hi (if_neg hp)

end

/-- A return restores every level that trap entry set aside, but for its place in the loop. -/
theorem Core.level_returnFromEvent (c : Core) (code : Word → Option Word) (l : Nat) :
    ∃ pos, (c.returnFromEvent code).lp.level l = { c.lpSaved.level l with pos := pos } := by
  simp only [Core.returnFromEvent, LoopCtx.level]
  rw [tget_map (fun x => by split <;> rfl)]
  cases tget c.lpSaved.levels l with
  | none => exact ⟨LoopLevel.reset.pos, rfl⟩
  | some v =>
    dsimp only [Option.map_some, Option.getD_some]
    split
    · exact ⟨_, rfl⟩
    · exact ⟨v.pos, rfl⟩

/-- A bundle that ends in a return leaves the core returned, asleep where a HALT stands beside its TRET. -/
theorem Core.flow_tret {c : Core} {b : Bundle} {sleeps : Bool} (code : Word → Option Word) (hb : b.ctl = .tret sleeps) :
    c.flow b code = { c.returnFromEvent code with run := if sleeps = true then .asleep else c.run } := by
  simp only [Core.flow, hb]
  cases sleeps <;> rfl

/-- Settles O46: TRET asks for its core's mode, and the return reads what trap entry saved. -/
theorem returnFromEvent : Obligations.ReturnFromEvent := by
  unfold Obligations.ReturnFromEvent
  refine ⟨fun s b h hi hg hp => ?privileged, fun s b h hi hno => ?elsewhere, fun c b sleeps code hb => ?flow,
    fun c e baddr next no words _ => ⟨rfl, rfl, c.trapEntry_epc e baddr next no words, rfl⟩⟩
  case privileged => exact (exec_tret h s).trans (execTret_returns hi (by rw [hg, hp]; rfl))
  case elsewhere => exact (exec_tret h s).trans (execTret_faults hi (by simpa using hno))
  case flow =>
    rw [Core.flow_tret code hb]
    refine ⟨rfl, rfl, rfl, rfl, rfl, rfl, rfl, rfl, rfl, rfl, fun l => ?_, rfl, rfl, rfl⟩
    obtain ⟨pos, hl⟩ := c.level_returnFromEvent code l
    dsimp only
    rw [hl]
    exact ⟨rfl, rfl, rfl, rfl, rfl, rfl, rfl, rfl, rfl⟩

end Sys2Proof.Machine

/-!
SUPPORT. The control registers that keep what is written (R176, R180, R339, R340, R370): which fields of a core each reads
and writes, the fields of a written word, and the obligation about them.
-/

namespace Sys2Proof.Machine

/-! ## Fields of a word under a mask -/

/-- A mask of n ones at lo leaves that field of a word. -/
theorem and_fieldMask (w : Word) (lo n : Nat) : w &&& toW ((2 ^ n - 1) * 2 ^ lo) = toW (wfld w lo n * 2 ^ lo) := by
  apply BitVec.eq_of_getLsbD_eq
  intro i hi
  rw [BitVec.getLsbD_and, toW, toW, BitVec.getLsbD_ofNat, BitVec.getLsbD_ofNat, Nat.testBit_mul_two_pow,
    Nat.testBit_mul_two_pow, Nat.testBit_two_pow_sub_one, wfld, fld, Nat.testBit_mod_two_pow, Nat.testBit_div_two_pow,
    BitVec.testBit_toNat]
  by_cases hlo : lo ≤ i
  · simp [hi, hlo, Nat.sub_add_cancel hlo, Bool.and_comm]
  · simp [hlo]

theorem and_lowMask (w : Word) (n : Nat) : w &&& toW (2 ^ n - 1) = toW (wfld w 0 n) := by
  simpa using and_fieldMask w 0 n

theorem wfld_lt (w : Word) (lo n : Nat) : wfld w lo n < 2 ^ n := fld_lt ..

theorem bitAt_getLsbD (w : Word) (i : Nat) : bitAt (w.getLsbD i) i = wfld w i 1 * 2 ^ i := by
  rw [← BitVec.testBit_toNat, Nat.testBit_eq_decide_div_mod_eq, wfld, fld, Nat.pow_one, bitAt]
  obtain h0 | h1 := Nat.mod_two_eq_zero_or_one (w.toNat / 2 ^ i)
  · simp [h0]
  · simp [h1]

theorem bitAt_lt (b : Bool) (i : Nat) : bitAt b i < 2 ^ (i + 1) := by
  cases b <;> simp [bitAt, Nat.pow_lt_pow_right]

theorem wfld_toW {x : Nat} (hx : x < 2 ^ 64) (lo n : Nat) : wfld (toW x) lo n = fld x lo n := by
  rw [wfld, toW, BitVec.toNat_ofNat, Nat.mod_eq_of_lt hx]

theorem shiftRight_and_eq_three_iff (w : Word) : (w >>> (20 : Nat)) &&& 3 = 3 ↔ wfld w 20 2 = 3 := by
  have hfield : (w >>> (20 : Nat)) &&& 3 = toW (wfld w 20 2) := by
    refine (and_fieldMask (w >>> (20 : Nat)) 0 2).trans ?_
    simp [wfld, fld, Nat.shiftRight_eq_div_pow]
  have hlt : wfld w 20 2 < 2 ^ 64 := (wfld_lt ..).trans (by decide)
  rw [hfield, ← BitVec.toNat_inj, toW, BitVec.toNat_ofNat, Nat.mod_eq_of_lt hlt]
  rfl

/-! ## The registers -/

/-- A register that keeps what is written (R176, R339, R340, R370). -/
inductive KeptReg where
  | sb | tvec | epc | estat | scr (i : Fin 4) | rlen | dbase | thr (i : Fin 4) | drain

namespace KeptReg

/-- Its number (R63). -/
def number : KeptReg → Nat
  | sb => 0x0000
  | tvec => 0x0020
  | epc => 0x0021
  | estat => 0x0022
  | scr i => 0x0023 + i
  | rlen => 0x5001
  | dbase => 0x5002
  | thr i => 0x5004 + i
  | drain => 0x6002

/-- What it reads of its core. -/
def read (c : Core) : KeptReg → Word
  | sb => toW (bitAt c.seq.sb 0)
  | tvec => c.seq.tvec
  | epc => c.seq.epc
  | estat => toW (c.seq.cause.toNat * 256 + bitAt c.seq.pie 2 + bitAt c.seq.ie 1 + bitAt c.seq.ppriv 0)
  | scr i => tgetD c.seq.scr i 0
  | rlen => toW (c.row.rlen % 512)
  | dbase => c.row.dbase
  | thr i => tgetD c.row.thr i 0
  | drain => toW (bitAt c.mat.drainSat 22 + c.mat.drainRm.toNat * 2 ^ 20 + c.mat.drainFmt % 16 * 2 ^ 16 +
      c.mat.drainCidx % 4096)

/-- What a write of a word leaves of its core. -/
def write (v : Word) (c : Core) : KeptReg → Core
  | sb => { c with seq := { c.seq with sb := v.getLsbD 0 } }
  | tvec => { c with seq := { c.seq with tvec := bundleAddr v } }
  | epc => { c with seq := { c.seq with epc := bundleAddr v } }
  | estat => { c with seq := { c.seq with pie := v.getLsbD 2, ie := v.getLsbD 1, ppriv := v.getLsbD 0 } }
  | scr i => { c with seq := { c.seq with scr := tset c.seq.scr i v } }
  | rlen => { c with row := { c.row with rlen := wfld v 0 9 } }
  | dbase => { c with row := { c.row with dbase := masked v 0xFFFFFFFFFFFFFFC0 } }
  | thr i => { c with row := { c.row with thr := tset c.row.thr i (masked v 0xFF000000FFFFFFFF) } }
  | drain => { c with mat := { c.mat with
      drainSat := v.getLsbD 22
      drainRm := if wfld v 20 2 = 3 then c.mat.drainRm else BitVec.ofNat 2 (wfld v 20 2)
      drainFmt := wfld v 16 4
      drainCidx := wfld v 0 12 } }

/-- What it keeps of a written word; old is what it read before. -/
def kept (v old : Word) : KeptReg → Word
  | sb => v &&& 1
  | tvec | epc => bundleAddr v
  | estat => (v &&& 7) ||| (old &&& 0xFF00)
  | scr _ => v
  | rlen => v &&& 0x1FF
  | dbase => v &&& ~~~(63 : Word)
  | thr _ => v &&& 0xFF000000FFFFFFFF
  | drain => if (v >>> (20 : Nat)) &&& 3 = 3 then (v &&& 0x4F0FFF) ||| (old &&& 0x300000) else v &&& 0x7F0FFF

theorem csrValue_number (x : CsrAt) (d : Dev) (r : KeptReg) : csrValue x d r.number = r.read (d.core x.core) := by
  cases r with
  | scr i => fin_cases i <;> rfl
  | thr i => fin_cases i <;> rfl
  | sb | tvec | epc | estat | rlen | dbase | drain => rfl

theorem csrStore_number (x : CsrAt) (d : Dev) (r : KeptReg) (v : Word) :
    csrStore x d r.number v = d.updCore x.core fun c => r.write v c := by
  cases r with
  | scr i => fin_cases i <;> rfl
  | thr i => fin_cases i <;> rfl
  | sb | tvec | epc | estat | rlen | dbase | drain => rfl

/-- A register reads as before after a write of another. -/
theorem read_write_other {q r : KeptReg} (hne : q ≠ r) (v : Word) (c : Core) : r.read (q.write v c) = r.read c := by
  cases q <;> cases r
  case scr.scr i j => exact tgetD_tset_other _ _ _ _ _ fun hij => hne (congrArg scr (Fin.ext hij.symm))
  case thr.thr i j => exact tgetD_tset_other _ _ _ _ _ fun hij => hne (congrArg thr (Fin.ext hij.symm))
  case sb.sb | tvec.tvec | epc.epc | estat.estat | rlen.rlen | dbase.dbase | drain.drain => exact absurd rfl hne
  all_goals rfl

/-! ## What a write leaves in the register itself -/

theorem read_write_estat (v : Word) (c : Core) : estat.read (estat.write v c) = estat.kept v (estat.read c) := by
  have hcause := c.seq.cause.isLt
  have hpie := bitAt_lt c.seq.pie 2
  have hie := bitAt_lt c.seq.ie 1
  have hppriv := bitAt_lt c.seq.ppriv 0
  have hmode : v &&& 7 = toW (wfld v 0 3) := and_lowMask v 3
  have hold : estat.read c &&& 0xFF00 = toW (c.seq.cause.toNat * 2 ^ 8) := by
    refine (and_fieldMask _ 8 8).trans ?_
    rw [read, wfld_toW (by omega), fld]
    exact congrArg toW (by omega)
  rw [kept, hmode, hold, BitVec.or_comm, toW_or_of_lt ((wfld_lt v 0 3).trans (by decide))]
  simp only [read, write, bitAt_getLsbD]
  exact congrArg toW (by simp only [wfld, fld]; omega)

theorem read_write_rlen (v : Word) (c : Core) : rlen.read (rlen.write v c) = rlen.kept v (rlen.read c) := by
  have hfield : v &&& 0x1FF = toW (wfld v 0 9) := and_lowMask v 9
  rw [kept, hfield]
  exact congrArg toW (Nat.mod_eq_of_lt (wfld_lt ..))

theorem read_write_drain (v : Word) (c : Core) : drain.read (drain.write v c) = drain.kept v (drain.read c) := by
  have hcounter : v &&& 0xFFF = toW (wfld v 0 12) := and_lowMask v 12
  have hcidx := wfld_lt v 0 12
  have hbelow : wfld v 0 12 < 2 ^ 16 := hcidx.trans (by decide)
  rw [kept]
  split
  · next hrm =>
    rw [shiftRight_and_eq_three_iff] at hrm
    have hsat : v &&& 0x400000 = toW (wfld v 22 1 * 2 ^ 22) := and_fieldMask v 22 1
    have hformat : v &&& 0xF0000 = toW (wfld v 16 4 * 2 ^ 16) := and_fieldMask v 16 4
    have hmask : (0x4F0FFF : Word) = 0x400000 ||| (0xF0000 ||| 0xFFF) := by decide
    have hold : drain.read c &&& 0x300000 = toW (c.mat.drainRm.toNat * 2 ^ 20) := by
      have hbit := bitAt_lt c.mat.drainSat 22
      have hrange := c.mat.drainRm.isLt
      refine (and_fieldMask _ 20 2).trans ?_
      rw [read, wfld_toW (by omega), fld]
      have hdiv : bitAt c.mat.drainSat 22 = bitAt c.mat.drainSat 0 * 2 ^ 22 := by cases c.mat.drainSat <;> rfl
      exact congrArg toW (by omega)
    have hfmt := wfld_lt v 16 4
    have hrange := c.mat.drainRm.isLt
    rw [hmask, BitVec.and_or_distrib_left, BitVec.and_or_distrib_left, hsat, hformat, hcounter, hold,
      toW_or_of_lt hbelow, BitVec.or_assoc, BitVec.or_comm (toW (_ + _)), toW_or_of_lt (by omega),
      toW_or_of_lt (by omega)]
    simp only [read, write, if_pos hrm, bitAt_getLsbD]
    exact congrArg toW (by omega)
  · next hrm =>
    rw [shiftRight_and_eq_three_iff] at hrm
    have hupper : v &&& 0x7F0000 = toW (wfld v 16 7 * 2 ^ 16) := and_fieldMask v 16 7
    have hmask : (0x7F0FFF : Word) = 0x7F0000 ||| 0xFFF := by decide
    have hmode := wfld_lt v 20 2
    rw [hmask, BitVec.and_or_distrib_left, hupper, hcounter, toW_or_of_lt hbelow]
    simp only [read, write, if_neg hrm, bitAt_getLsbD, BitVec.toNat_ofNat, Nat.mod_eq_of_lt hmode]
    exact congrArg toW (by simp only [wfld, fld]; omega)

/-- A register reads back what it keeps of a written word. -/
theorem read_write_same (r : KeptReg) (v : Word) (c : Core) : r.read (r.write v c) = r.kept v (r.read c) := by
  cases r with
  | sb => exact (congrArg toW (bitAt_getLsbD v 0)).trans (and_fieldMask v 0 1).symm
  | scr i => exact tgetD_tset_same ..
  | thr i => exact tgetD_tset_same ..
  | estat => exact read_write_estat v c
  | rlen => exact read_write_rlen v c
  | drain => exact read_write_drain v c
  | tvec | epc | dbase => rfl

/-- The registers in the order of their numbers. -/
def all : List KeptReg :=
  [sb, tvec, epc, estat, scr 0, scr 1, scr 2, scr 3, rlen, dbase, thr 0, thr 1, thr 2, thr 3, drain]

end KeptReg

/-- Settles O41: the registers listed are those that keep what is written, each by its own fields of its core. -/
theorem specialRegistersReadBack : Obligations.SpecialRegistersReadBack := by
  unfold Obligations.SpecialRegistersReadBack
  intro x d v regs
  have hregs : ∀ q ∈ regs, ∃ r : KeptReg, q = (r.number, r.kept v (csrValue x d r.number)) := by
    intro q hq
    have hmap : q ∈ KeptReg.all.map fun r => (r.number, r.kept v (csrValue x d r.number)) := hq
    obtain ⟨r, -, rfl⟩ := List.mem_map.1 hmap
    exact ⟨r, rfl⟩
  refine ⟨fun q hq => ?same, fun q hq k hk hne => ?other, rfl⟩
  case same =>
    obtain ⟨r, rfl⟩ := hregs q hq
    rw [KeptReg.csrStore_number, KeptReg.csrValue_number, KeptReg.csrValue_number, Dev.core_updCore_same]
    exact r.read_write_same v _
  case other =>
    obtain ⟨r, rfl⟩ := hregs q hq
    obtain ⟨r', rfl⟩ := hregs k hk
    rw [KeptReg.csrStore_number, KeptReg.csrValue_number, KeptReg.csrValue_number, Dev.core_updCore_same]
    exact KeptReg.read_write_other (fun heq => hne (congrArg KeptReg.number heq)) v _

end Sys2Proof.Machine

/-!
SUPPORT. A spill memory that is not in its canonical form, with one byte listed twice (R174, R230): a store of zero takes
out the first of the two, and the core then reads the second. The obligation about spill memory, which asks for every
state, fails there.
-/

namespace Sys2Proof.Machine

/-- What a core reads of its spill memory after an outcome. -/
def spilledAfter (r : Host.Outcome State Fault Refusal) (n off : Nat) : Option Byte :=
  match r with
  | .next t => some ((t.dev.core n).spill.read off)
  | _ => none

/-- A syllable that is not its bundle's last leaves the units as its effect leaves them. -/
theorem spilledAfter_after (s : State) (b : Bundle) (hb : s.bundle = some b) (d : Dev) (n off : Nat) :
    spilledAfter (.next (s.after storeHdr d)) n off = some ((d.core n).spill.read off) := by
  simp [State.after, State.closeSyllable, hb, storeHdr, spilledAfter]

/-- Core 0 in a task; byte 0 of its spill memory is listed twice. -/
def twiceSpilledDev : Dev := State.reset.dev.readyCore.updCore 0 fun c => { c with spill := { cells := [(0, 1), (0, 2)] } }

def twiceSpilledBundle : Bundle := { twiceBundle with base := twiceSpilledDev }

def twiceSpilledState : State := { twiceState with dev := twiceSpilledDev, bundle := some twiceSpilledBundle }

/-- The operands of a spill store of s0 at offset 0. -/
def spillOperands : LK := { d := 0, off := 0 }

/-- Refutes O21: after a store of zeros at offset 0 of the spill memory the core reads 2 there. -/
theorem not_spillMemory : ¬ Obligations.SpillMemory := by
  intro h
  obtain ⟨-, -, hstore⟩ := h twiceSpilledState twiceSpilledBundle storeHdr spillOperands ⟨rfl, rfl⟩
  obtain ⟨d, hexec, hread, -⟩ := hstore (.spsts storeHdr spillOperands) 8 _ (List.mem_cons_self ..)
  have hzero : (d.core 0).spill.read 0 = 0 := (hread 0).trans (by decide +kernel)
  have hafter : spilledAfter (exec (.spsts storeHdr spillOperands) twiceSpilledState) 0 0 = some 2 := by decide +kernel
  rw [hexec, spilledAfter_after _ _ rfl, hzero] at hafter
  exact absurd hafter (by decide)

end Sys2Proof.Machine

/-!
SUPPORT. A vector store beside the store entry of `twiceNamed`, which names one byte twice (R124, R127): the group lies
beside that byte, which the core reads as the first of the two before the store and as the second after it. The
obligation about vector stores fails there.
-/

namespace Sys2Proof.Machine

/-- The operands of a vector store of 16 elements from 4 bytes above s4, beside the byte named twice. -/
def groupStoreOperands : LM := { d := 0, a := 4, nq := 1, disp := 4 }

/-- The elements of that store with their places in scratchpad 0. -/
def groupStoreSpots : List (Piece × Nat) :=
  (twiceBundle.issuer.vectorAccess groupStoreOperands).parts.map fun p => (p, spmBase 0 + (p.ea.toNat - apertureBase))

theorem groupStore_located : (twiceBundle.issuer.vectorAccess groupStoreOperands).locate twiceState.mem twiceState.dev
    twiceBundle.core .write false = .ok (groupStoreSpots.map fun (p, pa) => (p, .here pa)) := by decide +kernel

/-- Refutes O19: a vector store to bytes 4 to 67 from a granule's start changes what the core reads at byte 1, from 5 to
6, where the entry of the running phase with which it merges names byte 1 twice. -/
theorem not_vectorStores : ¬ Obligations.VectorStores := by
  intro h
  obtain ⟨-, hstore⟩ := h twiceState twiceBundle storeHdr ⟨rfl, rfl⟩ (.stv storeHdr groupStoreOperands) _ _
    (.inl ⟨groupStoreOperands, rfl, rfl, rfl⟩)
  obtain ⟨hhere, -⟩ := hstore (by decide +kernel)
  obtain ⟨d, hexec, hread, -⟩ := hhere groupStoreSpots groupStore_located (by decide +kernel) (by decide +kernel)
    (by decide +kernel)
  have hsame : readByte twiceState.mem d 0 0x10000000001 = 5 := (hread 0x10000000001).trans (by decide +kernel)
  have hafter : readAfter (exec (.stv storeHdr groupStoreOperands) twiceState) 0x10000000001 = some 6 := by
    decide +kernel
  rw [hexec, readAfter_afterWith, hsame] at hafter
  exact absurd hafter (by decide)

end Sys2Proof.Machine

/-!
SUPPORT. Vector loads (R228): the group that elements of this package fill, and what a load leaves of the registers and
stores. The obligation about vector loads follows.
-/

namespace Sys2Proof.Machine

/-! ## Masks of a group (R56, R57) -/

/-- Fields of ones pack to a number of ones. -/
theorem packNat_replicate_ones (w k : Nat) : packNat w (List.replicate k (2 ^ w - 1)) = 2 ^ (w * k) - 1 := by
  induction k with
  | zero => rfl
  | succ k ih =>
    have hw : 0 < 2 ^ w := Nat.two_pow_pos w
    have hk : 0 < 2 ^ (w * k) := Nat.two_pow_pos (w * k)
    have hle : 2 ^ w ≤ 2 ^ w * 2 ^ (w * k) := Nat.le_mul_of_pos_right _ hk
    rw [List.replicate_succ, packNat, ih, Nat.mod_eq_of_lt (Nat.sub_lt hw Nat.one_pos), Nat.mul_succ, Nat.pow_add,
      Nat.mul_comm (2 ^ (w * k)), Nat.mul_sub_one]
    omega

/-- Keeping every element keeps the bits that the group writes. -/
theorem keepMask_all (w : Nat) (vals : List Nat) :
    keepMask w (List.replicate vals.length true) = (packGroup w vals).map (·.2) := by
  simp [keepMask, packGroup, packNat_replicate_ones]

theorem packGroup_kept (w : Nat) (vals : List Nat) :
    List.zipWith (fun (v, m) k => (v, m &&& k)) (packGroup w vals) (keepMask w (List.replicate vals.length true)) =
      packGroup w vals := by
  rw [keepMask_all, List.zipWith_map_right, List.zipWith_self]
  refine List.map_id'' (fun x => ?_) _
  exact Prod.ext rfl BitVec.and_self

/-! ## Accesses whose parts lie in this package -/

/-- The parts of an access with their places in this package. -/
abbrev placedHere (l : List (Piece × Nat)) : List (Piece × Loc) := l.map fun (p, pa) => (p, .here pa)

theorem Core.rowBusyOn_placedHere {c : Core} {cycle : Nat} {l : List (Piece × Nat)}
    (hfree : ∀ x ∈ l, c.rowBusyAt cycle x.2 x.1.len = false) : c.rowBusyOn cycle (placedHere l) = false := by
  rw [Core.rowBusyOn, List.any_map, List.any_eq_false]
  exact fun x hx => Bool.eq_false_iff.1 (hfree x hx)

/-! ## Registers and stores under results and requests -/

/-- From d to d' every register of every core and every store keeps what it holds. -/
structure Dev.KeepsRegsAndStores (d d' : Dev) : Prop where
  regs : ∀ n, (d'.core n).r = (d.core n).r
  stores : d'.stores = d.stores

namespace Dev.KeepsRegsAndStores

variable {d d' d'' : Dev}

theorem refl (d : Dev) : KeepsRegsAndStores d d := ⟨fun _ => rfl, rfl⟩

theorem trans (h : KeepsRegsAndStores d d') (h' : KeepsRegsAndStores d' d'') : KeepsRegsAndStores d d'' :=
  ⟨fun n => (h'.regs n).trans (h.regs n), h'.stores.trans h.stores⟩

theorem updCore (d : Dev) (n : Nat) {f : Core → Core} (hf : ∀ c, (f c).r = c.r) :
    KeepsRegsAndStores d (d.updCore n f) where
  regs k := by
    rcases eq_or_ne k n with rfl | hk
    · rw [Dev.core_updCore_same, hf]
    · rw [Dev.core_updCore_other _ _ _ _ hk]
  stores := rfl

theorem foldl {α : Type} {f : Dev → α → Dev} (h : ∀ e x, KeepsRegsAndStores e (f e x)) (l : List α) (d : Dev) :
    KeepsRegsAndStores d (l.foldl f d) :=
  List.foldlRecOn (motive := KeepsRegsAndStores d) _ _ (refl d) fun _ hb x _ => hb.trans (h _ x)

theorem sendV (d : Dev) (b : Bundle) (c : Core) (n : Nat) (vals : List (VWord × VWord)) (lat : Nat) :
    KeepsRegsAndStores d (sendV d b c n vals lat) :=
  foldl (f := fun d (x : Nat × VWord × VWord) => sendIn d b (.v (physSV c.lp (n + x.1)) x.2.1 x.2.2) lat)
    (fun e _ => updCore e b.core fun c => Core.push_r c _) _ d

theorem sendLate (d : Dev) (b : Bundle) (res : Result) (ready : Bool) (tag : Nat) :
    KeepsRegsAndStores d (sendLate d b res ready tag) :=
  updCore d b.core fun c => Core.push_r c _

theorem loadRemote (d : Dev) (b : Bundle) (res : Result) (pkg pa len : Nat) (va : Word) (off : Nat) (signed : Bool)
    (time : Nat) : KeepsRegsAndStores d (d.loadRemote b res pkg pa len va off signed time) := by
  let tag := (d.core b.core).nextTag
  have hsent : KeepsRegsAndStores d
      ((Machine.sendLate d b res false tag).updCore b.core fun c => { c with nextTag := tag + 1 }) :=
    (sendLate d b res false tag).trans (updCore _ b.core fun _ => rfl)
  exact ⟨hsent.regs, hsent.stores⟩

end Dev.KeepsRegsAndStores

/-! ## Vector loads (R228) -/

/-- Does a part lie in this package? -/
def Loc.isHere : Loc → Bool
  | .here _ => true
  | .away _ _ => false

/-- An element as the core reads it, 0 where it lies in another package. -/
def elementRead (s : State) (b : Bundle) (p : Piece) : Loc → Nat
  | .here pa => ofBytes (partBytes s b.core p pa)
  | .away _ _ => 0

/-- The registers of a group of w-bit elements, with the bits that the parts of this package give. -/
def groupRead (s : State) (b : Bundle) (w : Nat) (parts : List (Piece × Loc)) : List (VWord × VWord) :=
  List.zipWith (fun (v, m) k => (v, m &&& k)) (packGroup w (parts.map fun x => elementRead s b x.1 x.2))
    (keepMask w (parts.map fun x => x.2.isHere))

/-- A group in flight to vd as interlocked results (R50). -/
def sendGroupLate (d : Dev) (b : Bundle) (vd : Nat) (vals : List (VWord × VWord)) : Dev :=
  ((List.range vals.length).zip vals).foldl (fun d (q, val, mask) =>
    sendLate d b (.v (physSV b.issuer.lp (vd + q)) val mask) true 0) d

/-- The requests for the parts of a group that lie in other packages (R467). -/
def askGroup (s : State) (b : Bundle) (vd w : Nat) (parts : List (Piece × Loc)) (d : Dev) : Dev :=
  parts.foldl (fun d (p, l) => match l with
    | .here _ => d
    | .away pkg pa =>
      d.loadRemote b (.v (physSV b.issuer.lp (vd + p.elem * w / 2048)) 0
        (BitVec.ofNat 2048 ((2 ^ w - 1) * 2 ^ (p.elem * w % 2048)))) pkg pa p.len p.ea (p.elem * w % 2048) false s.time)
    d

/-- Bits of an element of a vector access. -/
def Accesses.elementBits (a : Accesses) : Nat := 8 * (match a.parts with | p :: _ => p.len | [] => 4)

/-- The units that a vector load leaves. -/
def groupLoaded (s : State) (b : Bundle) (vd : Nat) (a : Accesses) (parts : List (Piece × Loc)) : Dev :=
  let vals := groupRead s b a.elementBits parts
  let d := s.dev.updCore b.core fun c => c.count 0x0F 1
  if a.local then sendV d b b.issuer vd vals 8 else askGroup s b vd a.elementBits parts (sendGroupLate d b vd vals)

theorem groupLoaded_keeps (s : State) (b : Bundle) (vd : Nat) (a : Accesses) (parts : List (Piece × Loc)) :
    s.dev.KeepsRegsAndStores (groupLoaded s b vd a parts) := by
  refine .trans (.updCore s.dev b.core (f := fun c => c.count 0x0F 1) fun _ => rfl) ?_
  unfold groupLoaded
  split
  · exact .sendV ..
  · refine .trans (.foldl (fun e _ => .sendLate e ..) _ _) (.foldl (fun e x => ?_) _ _)
    obtain ⟨p, l⟩ := x
    cases l with
    | here pa => exact .refl e
    | away pkg pa => exact .loadRemote e ..

/-- Of parts of this package the group is packed from the bytes that the core reads there. -/
theorem groupRead_placedHere (s : State) (b : Bundle) (w : Nat) (l : List (Piece × Nat)) :
    groupRead s b w (placedHere l) = packGroup w (l.map fun x => ofBytes (partBytes s b.core x.1 x.2)) := by
  set vals := l.map fun x => ofBytes (partBytes s b.core x.1 x.2) with hvals
  have hread : (placedHere l).map (fun x => elementRead s b x.1 x.2) = vals := List.map_map
  have hkeep : (placedHere l).map (fun x => x.2.isHere) = List.replicate vals.length true := by
    rw [List.map_map, hvals, List.length_map]
    exact List.map_const ..
  rw [groupRead, hread, hkeep, packGroup_kept]

theorem askGroup_placedHere (s : State) (b : Bundle) (vd w : Nat) (l : List (Piece × Nat)) (d : Dev) :
    askGroup s b vd w (placedHere l) d = d := by
  rw [askGroup, List.foldl_map]
  exact List.foldl_fixed ..

section
variable {s : State} {b : Bundle} {h : Hdr} {vd : BitVec 6} {acc : Core → Accesses} (hi : Issuing s b h)
include hi

theorem loadGroup_misaligned {e : Event} (hm : (acc b.issuer).misaligned = some e) :
    loadGroup h vd acc s = .next (s.faultBundle b.base e) :=
  ctlSyllable_raise hi (Accesses.checked_of_misaligned hm)

variable (hm : (acc b.issuer).misaligned = none)
include hm

theorem loadGroup_missed {x : Miss} (hl : (acc b.issuer).locate s.mem s.dev b.core .read true = .error x) :
    loadGroup h vd acc s = .next (s.missed b x) :=
  ctlSyllable_missed hi (Accesses.checked_of_error hm hl)

variable {parts : List (Piece × Loc)} (hl : (acc b.issuer).locate s.mem s.dev b.core .read true = .ok parts)
include hl

theorem loadGroup_busy (hb : b.issuer.rowBusyOn b.cycle parts = true) :
    loadGroup h vd acc s = .next (s.stallBundle b.base 9) :=
  ctlSyllable_stall hi ((Accesses.checked_of_ok hm hl).trans (afterRow_of_busy hb))

variable (hb : b.issuer.rowBusyOn b.cycle parts = false)
include hb

theorem loadGroup_awaited (ha : b.base.awayOn b.core parts = true) :
    loadGroup h vd acc s = .next (s.stallBundle b.base 11) :=
  ctlSyllable_stall hi ((Accesses.checked_of_ok hm hl).trans (afterRow_of_away hb ha))

theorem loadGroup_free (ha : b.base.awayOn b.core parts = false) : loadGroup h vd acc s =
    .next (s.afterWith h (groupLoaded s b vd.toNat (acc b.issuer) parts) (b.watched (acc b.issuer).ranges false)) := by
  refine ctlSyllable_ok hi ((Accesses.checked_of_ok hm hl).trans ((afterRow_of_free hb ha).trans ?_))
  exact (apply_ite Out.ok _ _ _).symm

end

/-- Bits of an element of a vector access whose elements have w bytes. -/
theorem elementBits_of_elementParts {a : Accesses} {n w : Nat} {at' : Nat → Word}
    (hp : a.parts = elementParts n w at') (hne : a.parts ≠ []) : a.elementBits = 8 * w := by
  obtain ⟨p, t, ht⟩ := List.exists_cons_of_ne_nil hne
  have hmem : p ∈ elementParts n w at' := hp ▸ ht ▸ List.mem_cons_self ..
  obtain ⟨i, -, rfl⟩ := List.mem_map.1 hmem
  rw [Accesses.elementBits, ht]

/-- Settles O17: every vector load is one form of load group, which packs the parts of this package and asks for the
others. -/
theorem vectorLoads : Obligations.VectorLoads := by
  intro s b h hi c i vd a w hform found
  obtain ⟨acc, n, at', rfl, hexec, hparts⟩ : ∃ (acc : Core → Accesses) (n : Nat) (at' : Nat → Word),
      a = acc b.issuer ∧ exec i s = loadGroup h vd acc s ∧ (acc b.issuer).parts = elementParts n w at' := by
    rcases hform with ⟨o, rfl, rfl, rfl, rfl⟩ | ⟨o, rfl, rfl, rfl, rfl⟩ | ⟨o, rfl, rfl, rfl, rfl⟩
    · exact ⟨fun c => c.vectorAccess o, _, _, rfl, rfl, rfl⟩
    · exact ⟨fun c => c.strideAccess o, _, _, rfl, rfl, rfl⟩
    · exact ⟨fun c => c.indexAccess o, _, _, rfl, rfl, rfl⟩
  rw [hexec]
  refine ⟨fun e => loadGroup_misaligned hi, fun hm => ⟨fun l hne hl hfree ha => ?_, fun parts hl hb ha => ?_,
    fun parts => loadGroup_busy hi hm, fun parts => loadGroup_awaited hi hm, fun x => loadGroup_missed hi hm⟩⟩
  · rw [loadGroup_free hi hm hl (Core.rowBusyOn_placedHere hfree) ha, groupLoaded,
      elementBits_of_elementParts hparts hne, groupRead_placedHere, askGroup_placedHere]
    exact ⟨fun hlocal => by rw [if_pos hlocal]; rfl, fun hfar => by rw [if_neg (Bool.eq_false_iff.1 hfar)]; rfl⟩
  · obtain ⟨hregs, hstores⟩ := groupLoaded_keeps s b vd.toNat (acc b.issuer) parts
    exact ⟨_, loadGroup_free hi hm hl hb ha, hregs, hstores⟩

end Sys2Proof.Machine

/-!
SUPPORT. What the wrapper of a syllable makes of each answer of its effect.
-/

namespace Sys2Proof.Machine

/-- The state after a syllable of bundle b whose effect answers r, leaving the bundle b' where it completes. -/
def State.answered (s : State) (h : Hdr) (b b' : Bundle) : Out → State
  | .ok d => s.afterWith h d b'
  | .raise e => s.faultBundle b.base e
  | .raiseIn d e => s.faultBundle d e
  | .stall r => s.stallBundle b.base r
  | .stallIn d r => s.stallBundle d r

section
variable {s : State} {b : Bundle} {h : Hdr} {f : State → Bundle → Core → Out} {r : Out}

theorem bundleSyllable_answered {g : State → Bundle → Bundle} (hi : Issuing s b h) (hf : f s b b.issuer = r) :
    bundleSyllable h f g s = .next (s.answered h b (g s b) r) := by
  rw [bundleSyllable_issuing hi, hf]
  cases r <;> rfl

theorem bundleSyllable_raise {g : State → Bundle → Bundle} {e : Event} (hi : Issuing s b h)
    (hf : f s b b.issuer = .raise e) : bundleSyllable h f g s = .next (s.faultBundle b.base e) :=
  bundleSyllable_answered hi hf

end

end Sys2Proof.Machine

/-!
SUPPORT. STZ and LDZ (R246, R247): the checks that each makes, in their order, and what it leaves. The obligation about
compressed images follows.
-/

namespace Sys2Proof.Machine

/-- Capacity that STZ and LDZ are given (R245). -/
def Core.imageCapacity (c : Core) (o : LS) : Nat := wfld (c.s o.b.toNat) 0 32

/-- Width code that STZ and LDZ are given (R245). -/
def Core.imageCode (c : Core) (o : LS) : Nat := wfld (c.s o.b.toNat) 48 2

/-! ## STZ (R246) -/

section
variable {s : State} {b : Bundle} {h : Hdr} {o : LS} (hi : Issuing s b h)
include hi

theorem execStz_misaligned (ha : (b.issuer.s o.a.toNat).toNat % 64 ≠ 0) :
    execStz h o s = .next (s.faultBundle b.base (mkFault 0x36 (b.issuer.s o.a.toNat) 0)) :=
  ctlSyllable_raise hi (if_pos ha)

variable (ha : (b.issuer.s o.a.toNat).toNat % 64 = 0)
include ha

theorem execStz_badCode (hc : b.issuer.imageCode o = 3) : execStz h o s =
    .next (s.faultBundle b.base (sparseFault (b.issuer.s o.a.toNat) 2 0 (b.issuer.imageCapacity o))) :=
  ctlSyllable_raise hi ((if_neg (not_not_intro ha)).trans (if_pos hc))

variable (hc : b.issuer.imageCode o ≠ 3)
include hc

theorem execStz_overrun (ht : b.issuer.imageCapacity o < (stzImage b.issuer o).length) :
    execStz h o s = .next (s.faultBundle b.base
      (sparseFault (b.issuer.s o.a.toNat) 1 (stzImage b.issuer o).length (b.issuer.imageCapacity o))) :=
  ctlSyllable_raise hi ((if_neg (not_not_intro ha)).trans ((if_neg hc).trans (if_pos ht)))

/-- An image that fits is stored part by part. -/
theorem execStz_stores {parts : List (Piece × Loc)} (ht : (stzImage b.issuer o).length ≤ b.issuer.imageCapacity o)
    (hl : (imageAccess (b.issuer.s o.a.toNat) (stzImage b.issuer o).length).locate s.mem s.dev b.core .write false =
      .ok parts)
    (hb : b.issuer.rowBusyOn b.cycle parts = false) (hw : b.base.awayOn b.core parts = false) :
    execStz h o s =
      let a := b.issuer.s o.a.toNat
      let img := stzImage b.issuer o
      let x := imageAccess a img.length
      .next (s.afterWith h (storeParts s.time b x parts
        (x.parts.map fun p => (img.drop (p.ea.toNat - a.toNat)).take p.len)
        (s.dev.updCore b.core fun c => c.count 0x10 1)) (b.watched [(a, img.length)] true)) := by
  refine ctlSyllable_ok hi ((if_neg (not_not_intro ha)).trans ((if_neg hc).trans ((if_neg (Nat.not_lt.2 ht)).trans ?_)))
  dsimp only
  rw [hl]
  exact afterRow_of_free hb hw

end

/-! ## LDZ (R247) -/

/-- Is a header that of a group of n elements under a width code (R247)? -/
def HeaderFits (head n code : Nat) : Prop :=
  head < 2 ^ 34 ∧ fld head 32 2 ≠ 3 ∧ fld head 16 16 = n ∧ fld head 32 2 = code

/-- Is a mask that of n elements of which the header says how many are not zero (R247)? -/
def MaskFits (head n bits : Nat) : Prop :=
  ((List.range n).filter fun k => bits.testBit k).length = fld head 0 16 ∧ bits < 2 ^ n

theorem headerFits_iff {head n code : Nat} : HeaderFits head n code ↔
    ¬(head / 2 ^ 34 ≠ 0 || fld head 32 2 = 3 || fld head 16 16 ≠ n || fld head 32 2 ≠ code) = true := by
  simp only [HeaderFits, Bool.or_eq_true, decide_eq_true_eq, not_or, not_not, and_assoc, ne_eq,
    Nat.div_eq_zero_iff_lt (Nat.two_pow_pos 34)]

theorem maskFits_iff {head n bits : Nat} : MaskFits head n bits ↔
    ¬(((List.range n).filter fun k => bits.testBit k).length ≠ fld head 0 16 || bits / 2 ^ n ≠ 0) = true := by
  simp only [MaskFits, Bool.or_eq_true, decide_eq_true_eq, not_or, not_not, ne_eq,
    Nat.div_eq_zero_iff_lt (Nat.two_pow_pos n)]

section
variable (s : State) (b : Bundle) (o : LS) (head : Nat)

/-- SPARSE_OVERRUN of LDZ for the image that a header tells of. -/
def ldzFault (reason : Nat) : Event :=
  sparseFault (b.issuer.s o.a.toNat) reason (headerSize head) (b.issuer.imageCapacity o)

/-- The registers of the group that an image's mask and packed elements expand to. -/
def ldzGroup (body : List Byte) : List (VWord × VWord) :=
  let n := elemCount o.nq
  let w := imageWidth (fld head 32 2)
  packGroup w (expand (ofBytes (body.take (maskBytes n))) w n 0 (body.drop (maskBytes n)))

/-- What LDZ answers once it has the mask and the packed elements. -/
def ldzBody (body : List Byte) : Out :=
  let n := elemCount o.nq
  let bits := ofBytes (body.take (maskBytes n))
  let d := s.dev.updCore b.core fun c => c.count 0x0F 1
  if ((List.range n).filter fun k => bits.testBit k).length ≠ fld head 0 16 || bits / 2 ^ n ≠ 0 then
    .raise (ldzFault b o head 3)
  else if inAperture (b.issuer.s o.a.toNat).toNat then .ok (sendV d b b.issuer o.d.toNat (ldzGroup o head body) 8)
  else .ok (sendGroupLate d b o.d.toNat (ldzGroup o head body))

/-- What LDZ answers once it has the header. -/
def ldzHeader : Out :=
  if head / 2 ^ 34 ≠ 0 || fld head 32 2 = 3 || fld head 16 16 ≠ elemCount o.nq ||
      fld head 32 2 ≠ b.issuer.imageCode o then
    .raise (ldzFault b o head 3)
  else if b.issuer.imageCapacity o < headerSize head then .raise (ldzFault b o head 1)
  else readImage s b b.issuer false (b.issuer.s o.a.toNat + 64) (headerSize head - 64) (ldzBody s b o head)

variable {s b o head}

section
variable {body : List Byte}

theorem ldzBody_misfit (hm : ¬MaskFits head (elemCount o.nq) (ofBytes (body.take (maskBytes (elemCount o.nq))))) :
    ldzBody s b o head body = .raise (ldzFault b o head 3) :=
  if_pos (not_not.1 (mt maskFits_iff.2 hm))

variable (hm : MaskFits head (elemCount o.nq) (ofBytes (body.take (maskBytes (elemCount o.nq)))))
include hm

theorem ldzBody_near (ha : inAperture (b.issuer.s o.a.toNat).toNat = true) : ldzBody s b o head body =
    .ok (sendV (s.dev.updCore b.core fun c => c.count 0x0F 1) b b.issuer o.d.toNat (ldzGroup o head body) 8) :=
  (if_neg (maskFits_iff.1 hm)).trans (if_pos ha)

theorem ldzBody_far (ha : inAperture (b.issuer.s o.a.toNat).toNat = false) : ldzBody s b o head body =
    .ok (sendGroupLate (s.dev.updCore b.core fun c => c.count 0x0F 1) b o.d.toNat (ldzGroup o head body)) :=
  (if_neg (maskFits_iff.1 hm)).trans (if_neg (Bool.eq_false_iff.1 ha))

end

theorem ldzHeader_misfit (hg : ¬HeaderFits head (elemCount o.nq) (b.issuer.imageCode o)) :
    ldzHeader s b o head = .raise (ldzFault b o head 3) :=
  if_pos (not_not.1 (mt headerFits_iff.2 hg))

variable (hg : HeaderFits head (elemCount o.nq) (b.issuer.imageCode o))
include hg

theorem ldzHeader_overrun (ht : b.issuer.imageCapacity o < headerSize head) :
    ldzHeader s b o head = .raise (ldzFault b o head 1) :=
  (if_neg (headerFits_iff.1 hg)).trans (if_pos ht)

/-- A header that fits, of an image within the capacity, is followed by the mask and the packed elements. -/
theorem ldzHeader_reads {body : List Byte} (ht : headerSize head ≤ b.issuer.imageCapacity o)
    (hbody : ∀ f, readImage s b b.issuer false (b.issuer.s o.a.toNat + 64) (headerSize head - 64) f = f body) :
    ldzHeader s b o head = ldzBody s b o head body :=
  (if_neg (headerFits_iff.1 hg)).trans ((if_neg (Nat.not_lt.2 ht)).trans (hbody _))

end

section
variable {s : State} {b : Bundle} {h : Hdr} {o : LS} (hi : Issuing s b h)
include hi

theorem execLdz_misaligned (ha : (b.issuer.s o.a.toNat).toNat % 64 ≠ 0) :
    execLdz h o s = .next (s.faultBundle b.base (mkFault 0x36 (b.issuer.s o.a.toNat) 0)) :=
  bundleSyllable_raise hi (if_pos ha)

theorem execLdz_of_header {head : Nat} (ha : (b.issuer.s o.a.toNat).toNat % 64 = 0) (hw : head < 2 ^ 64)
    (hh : ∀ f, readImage s b b.issuer false (b.issuer.s o.a.toNat) 8 f = f (toBytes 8 head)) :
    execLdz h o s = .next (s.answered h b
      (b.watched [(b.issuer.s o.a.toNat, ldzExtent s b b.issuer (b.issuer.s o.a.toNat))] false)
      (ldzHeader s b o head)) := by
  refine bundleSyllable_answered hi ((if_neg (not_not_intro ha)).trans ((hh _).trans ?_))
  dsimp only
  rw [ofBytes_toBytes (n := 8) hw]
  rfl

end

/-- Settles O20: STZ's checks come in their order; LDZ goes on from its header to its body as long as each fits. -/
theorem compressedImages : Obligations.CompressedImages := by
  intro s b h o hi c a ob cap code n img
  refine ⟨fun ha => ⟨execStz_misaligned hi ha, execLdz_misaligned hi ha⟩, execStz_badCode hi, execStz_overrun hi,
    fun parts ha hc ht hl hb hw => execStz_stores hi ha hc ht hl hb hw, fun head ha hw hh => ?_⟩
  intro t good
  rw [exec_ldz, execLdz_of_header hi ha hw hh]
  refine ⟨fun hg => by rw [ldzHeader_misfit hg]; rfl, fun hg ht => by rw [ldzHeader_overrun hg ht]; rfl,
    fun body hg ht hbody => ?_⟩
  rw [ldzHeader_reads hg ht hbody]
  have ⟨_, _, _, hcode⟩ := hg
  intro bits fits vals
  have hvals : ldzGroup o head body = vals := by rw [ldzGroup, hcode]
  refine ⟨fun hm => by rw [ldzBody_misfit hm]; rfl, fun hm hnear => ?_, fun hm hfar => ?_⟩
  · rw [ldzBody_near hm hnear, hvals]; rfl
  · rw [ldzBody_far hm hfar, hvals]; rfl

end Sys2Proof.Machine

/-!
SUPPORT. The trace and debug forms (R495, R498-R500) and tag-table invalidation by a core (R234), each answer said once.
The obligation about them follows.
-/

namespace Sys2Proof.Machine

section
variable {s : State} {b : Bundle} {h : Hdr} (hi : Issuing s b h)
include hi

theorem execTmark_issuing (o : ZI) : execTmark h o s = .next (s.after h
    (s.dev.traceCore s.mem b.core b.issuer.inBundle b.addr 2 (o.imm.toNat % 256) 0 (b.issuer.s o.a.toNat) s.time)) :=
  syllable_ok hi rfl

/-! ## Sampling (R500) -/

theorem execSmpctl_of_none (o : ZI) (hk : s.dev.ctxOfCore b.core = none) : execSmpctl h o s = .next (s.after h s.dev) :=
  syllable_ok hi (by simp only [hk])

theorem execSmpctl_of_some (o : ZI) {k : Nat} (hk : s.dev.ctxOfCore b.core = some k) : execSmpctl h o s =
    .next (s.after h (s.dev.changeSampling b.core k (b.cycle + 1) s.time fun x =>
      x.setSampling (o.imm.getLsbD 0) (o.imm.getLsbD 1) (wfld (b.issuer.s o.a.toNat) 0 32))) :=
  syllable_ok hi (by simp only [hk])

/-! ## Breakpoints and watchpoints (R498, R499) -/

theorem execBkpt_of_debuggable (o : ZI) (hd : s.dev.debuggable b.core = true) : execBkpt h o s =
    .next (s.afterWith h s.dev (b.withStop (mkStop 0xD1 (toW o.imm.toNat) 1))) :=
  ctlSyllable_ok hi (if_pos hd)

theorem execBkpt_refused (o : ZI) (hd : s.dev.debuggable b.core = false) : execBkpt h o s =
    .next (s.faultBundle b.base (mkFault 0xD0 (sylWord (.bkpt h o)) 1)) :=
  ctlSyllable_raise hi (if_neg (Bool.eq_false_iff.1 hd))

theorem execWpset_of_debuggable (o : ZG) (hd : s.dev.debuggable b.core = true) : execWpset h o s =
    .next (s.after h (s.dev.setWatch b.core s.time fun t => tset t (o.imm.toNat % 4)
      { addr := b.issuer.s o.x.toNat, len := min (max (b.issuer.s o.y.toNat).toNat 1) (2 ^ 32)
        kind := o.imm.extractLsb' 2 2 })) :=
  syllable_ok hi (if_neg (by simp [hd]))

theorem execWpset_refused (o : ZG) (hd : s.dev.debuggable b.core = false) : execWpset h o s =
    .next (s.faultBundle b.base (mkFault 0xD0 (sylWord (.wpset h o)) 2)) :=
  syllable_raise hi (if_pos (by simp [hd]))

theorem execWpclr_issuing (o : ZI) : execWpclr h o s = .next (s.after h (s.dev.setWatch b.core s.time fun t =>
    if o.imm.getLsbD 2 = true then [] else tdel t (o.imm.toNat % 4))) :=
  syllable_ok hi rfl

/-! ## Invalidation (R234) -/

theorem execTaginv_of_isGeneral (o : ZG) (hn : isGeneral b.core = true) : execTaginv h o s = .next (s.after h s.dev) :=
  syllable_ok hi (if_pos (by simp [hn]))

theorem execTaginv_translated (o : ZG) {t : TOk} (hn : isGeneral b.core = false)
    (hc : wfld (b.issuer.s o.x.toNat) 57 7 = 0) (ha : inAperture (b.issuer.s o.x.toNat).toNat = false)
    (ht : translate s.mem s.dev (walkBad s.dev) ((s.dev.ctxOfCore b.core).getD noContext) (some (clusterOf b.core))
      (b.issuer.s o.x.toNat) .read = .ok t) (hr : t.remote = none) :
    execTaginv h o s = .next (s.after h (s.dev.updCluster (clusterOf b.core) fun x =>
      x.makeStale (s.dev.inPhase (clusterOf b.core)) fun e =>
        decide (e.ctx = (s.dev.ctxOfCore b.core).getD noContext ∧ e.block = t.pa / 4096))) :=
  syllable_ok hi (by simp [hn, hc, ha, ht, hr])

theorem execTagflush_of_isGeneral (hn : isGeneral b.core = true) : execTagflush h s = .next (s.after h s.dev) :=
  syllable_ok hi (if_pos hn)

theorem execTagflush_of_tensor (hn : isGeneral b.core = false) : execTagflush h s =
    .next (s.after h (s.dev.updCluster (clusterOf b.core) fun x =>
      x.makeStale (s.dev.inPhase (clusterOf b.core)) fun e =>
        decide (e.ctx = (s.dev.ctxOfCore b.core).getD noContext))) :=
  syllable_ok hi (if_neg (Bool.eq_false_iff.1 hn))

end

theorem wfld_zero (v : Word) (k : Nat) : wfld v 0 k = v.toNat % 2 ^ k := by simp [wfld, fld]

/-- Settles O42: each form's answer where its core is general or not, debuggable or not, and in a context or not. -/
theorem traceAndDebugSyllables : Obligations.TraceAndDebugSyllables := by
  intro s b h hi c n debuggable g ctx
  refine ⟨execTmark_issuing hi, fun o => ⟨fun k hk => ?_, execSmpctl_of_none hi o⟩,
    fun o => ⟨execBkpt_of_debuggable hi o, execBkpt_refused hi o⟩,
    fun o => ⟨execWpset_of_debuggable hi o, execWpset_refused hi o⟩, execWpclr_issuing hi,
    fun o => ⟨execTaginv_of_isGeneral hi o, fun t hn hc ha ht hr => execTaginv_translated hi o hn hc ha ht hr⟩,
    execTagflush_of_isGeneral hi, execTagflush_of_tensor hi⟩
  rw [← wfld_zero]
  exact execSmpctl_of_some hi o hk

end Sys2Proof.Machine

/-!
SUPPORT. PROBE, PREF, HREL and HCLAIM (R231, R236, R242, R243): each answer by what the handle holds and what the
address comes to. The obligation about them follows.
-/

namespace Sys2Proof.Machine

@[simp] theorem Bundle.watched_core (b : Bundle) (ranges : List (Word × Nat)) (write : Bool) :
    (b.watched ranges write).core = b.core := by
  unfold Bundle.watched
  dsimp only
  generalize List.findSome? _ _ = hit
  rcases hit with _ | ⟨i, a⟩ <;> rfl

/-! ## PROBE (R236) -/

theorem missBranches_iff (c : Core) : missBranches c = true ↔ c.attached = false ∧ c.lp.innermost = none := by
  simp [missBranches]

section
variable (s : State) (b : Bundle) (o : LP)

/-- The answer of a PROBE of an unbound handle, by what its address comes to. -/
def probeAnswer : ProbeRes → Out
  | .fault e => .raise e
  | .full => .stall 8
  | .hit k _ => .ok (sendLate ((s.dev.updCluster (clusterOf b.core) fun x => x.pin k b.core).updCore b.core
      fun x => { (x.count 0x09 1) with hit := satInc x.hit }) b (.h o.h.toNat (.window (k / 8) (k % 8))) false 0)
  | .miss set way block => .ok (sendLate
      ((s.dev.fillWay s.mem b.core ((s.dev.ctxOfCore b.core).getD noContext) block set way 1).updCore b.core
        fun x => { (x.count 0x0A 1) with miss := satInc x.miss }) b (.h o.h.toNat (.window set way)) false 0)

/-- The bundle of a completing PROBE: one that misses branches outside loops on a core that is not attached. -/
def probeBundle : ProbeRes → Bundle
  | .miss _ _ _ =>
    if b.issuer.attached = false ∧ b.issuer.lp.innermost = none then
      { b.watched [(b.issuer.s o.a.toNat, 1)] false with
        ctl := .branch (b.issuer.b o.bt.toNat) (b.issuer.penalty o.bt.toNat) }
    else b.watched [(b.issuer.s o.a.toNat, 1)] false
  | _ => b.watched [(b.issuer.s o.a.toNat, 1)] false

end

/-! ## Rings and handles -/

section
variable (s : State) (b : Bundle) (o : LH)

/-- The core's handle becomes unbound. -/
def handleGone : Dev := s.dev.updCore b.core fun x => { x with r := { x.r with h := tdel x.r.h o.h.toNat } }

/-- The answer of an HREL on a tensor core, by what its handle holds. -/
def releaseAnswer : Handle → Out
  | .unbound | .pending => .raise (handleFault 0 o.h.toNat 1)
  | .window set way =>
    .ok ((handleGone s b o).updCluster (clusterOf b.core) fun x => x.unpin (tagKey set way) b.core)
  | .ring .. => .ok (s.dev.updCore b.core fun x => { x with waits := x.waits ++ [Wait.release o.h.toNat] })
  | .fills die es => if fillsEnded s.dev die es then .ok (handleGone s b o) else .stall 8

/-- The bundle of a completing HREL: the release of fills ends the phase. -/
def releaseBundle : Handle → Bundle
  | .fills _ _ => { b with phaseEnd := true }
  | _ => b

end

section
variable {s : State} {b : Bundle} {h : Hdr} (hi : Issuing s b h)
include hi

theorem execProbe_bound (o : LP) (hh : b.issuer.h o.h.toNat ≠ .unbound) :
    execProbe h o s = .next (s.faultBundle b.base (handleFault 0 o.h.toNat 1)) := by
  rw [execProbe, bundleSyllable_raise hi (if_pos hh)]

/-- A PROBE of an unbound handle answers by what its address comes to. -/
theorem execProbe_unbound (o : LP) (r : ProbeRes) (hh : b.issuer.h o.h.toNat = .unbound)
    (hp : probeFor s.mem s.dev b.core o.h.toNat (b.issuer.s o.a.toNat) .probe = r) :
    execProbe h o s = .next (s.answered h b (probeBundle b o r) (probeAnswer s b o r)) := by
  have hbundle : probeFor s.mem s.dev (b.watched [(b.issuer.s o.a.toNat, 1)] false).core o.h.toNat
      (b.issuer.s o.a.toNat) .probe = r := by rw [Bundle.watched_core, hp]
  have hbranch := missBranches_iff b.issuer
  rw [execProbe, bundleSyllable_answered hi (if_neg (not_not_intro hh))]
  simp only [Bundle.issuer] at hp hbundle hbranch ⊢
  simp only [hp, hbundle, hbranch]
  cases r <;> rfl

/-! ## PREF (R231) -/

theorem execPref_miss (o : LM) {set way block : Nat}
    (hp : probeFor s.mem s.dev b.core 0 (b.issuer.lmAddress o) .read = .miss set way block) :
    execPref h o s = .next (s.afterWith h
      (s.dev.fillWay s.mem b.core ((s.dev.ctxOfCore b.core).getD noContext) block set way 0)
      (b.watched [(b.issuer.lmAddress o, 1)] false)) :=
  ctlSyllable_ok hi (by simp only [hp])

theorem execPref_else (o : LM)
    (hp : ∀ set way block, probeFor s.mem s.dev b.core 0 (b.issuer.lmAddress o) .read ≠ .miss set way block) :
    execPref h o s = .next (s.afterWith h s.dev (b.watched [(b.issuer.lmAddress o, 1)] false)) := by
  refine ctlSyllable_ok hi ?_
  dsimp only
  split
  · next heq => exact absurd heq (hp _ _ _)
  · rfl

/-! ## HREL (R243, R440) -/

theorem execHrel_of_isGeneral (o : LH) (hn : isGeneral b.core = true) :
    execHrel h o s = .next (s.faultBundle b.base (quotaFault 0 3)) := by
  rw [execHrel, ctlSyllable_raise hi (if_pos hn)]

/-- On a tensor core HREL answers by what its handle holds. -/
theorem execHrel_of_tensor (o : LH) (hn : isGeneral b.core = false) {r : Handle} (hr : b.issuer.h o.h.toNat = r) :
    execHrel h o s = .next (s.answered h b (releaseBundle b r) (releaseAnswer s b o r)) := by
  simp only [Bundle.issuer] at hr
  rw [execHrel, ctlSyllable, bundleSyllable_answered hi (if_neg (Bool.eq_false_iff.1 hn))]
  simp only [Bundle.issuer, hr]
  cases r <;> rfl

/-! ## HCLAIM (R242) -/

section
variable (o : LH)

theorem execHclaim_bound (hh : b.issuer.h o.h.toNat ≠ .unbound) :
    execHclaim h o s = .next (s.faultBundle b.base (handleFault 0 o.h.toNat 1)) := by
  rw [execHclaim, syllable_raise hi (if_pos hh)]

variable (hh : b.issuer.h o.h.toNat = .unbound)
include hh

theorem execHclaim_of_isGeneral (hn : isGeneral b.core = true) : execHclaim h o s =
    .next (s.faultBundle b.base (quotaFault (b.issuer.s o.a.toNat &&& ~~~(1 : Word)) 3)) := by
  rw [execHclaim, syllable_raise hi ((if_neg (not_not_intro hh)).trans (if_pos hn))]

variable (hn : isGeneral b.core = false)
include hn

theorem execHclaim_misaligned (ha : (b.issuer.s o.a.toNat &&& ~~~(1 : Word)).toNat % 64 ≠ 0) : execHclaim h o s =
    .next (s.faultBundle b.base (mkFault 0x36 (b.issuer.s o.a.toNat &&& ~~~(1 : Word)) 0)) := by
  rw [execHclaim, syllable_raise hi
    ((if_neg (not_not_intro hh)).trans ((if_neg (Bool.eq_false_iff.1 hn)).trans (if_pos ha)))]

/-- A claim of a valid ring leaves the handle pending and the core waiting for the grant. -/
theorem execHclaim_claims {l : List (Piece × Nat)} {x : Ctx} {r : RingDesc}
    (ha : (b.issuer.s o.a.toNat &&& ~~~(1 : Word)).toNat % 64 = 0)
    (hap : inAperture (b.issuer.s o.a.toNat &&& ~~~(1 : Word)).toNat = true)
    (hl : (imageAccess (b.issuer.s o.a.toNat &&& ~~~(1 : Word)) 64).locate s.mem s.dev b.core .read true =
      .ok (placedHere l))
    (hb : b.issuer.rowBusyOn b.cycle (placedHere l) = false) (hw : b.base.awayOn b.core (placedHere l) = false)
    (hx : s.dev.ctx ((s.dev.ctxOfCore b.core).getD noContext) = some x)
    (hr : ringOf x (wordsOf 8 (l.flatMap fun (p, pa) => partBytes s b.core p pa)) = some r)
    (hf : ringCounterFault s.dev ((s.dev.ctxOfCore b.core).getD noContext) r = none) :
    execHclaim h o s = .next (s.after h (s.dev.updCore b.core fun y => { y with
      waits := y.waits ++ [Wait.claim o.h.toNat r.cf r.f r.cd r.dr r.base r.size r.nslot
        ((b.issuer.s o.a.toNat).getLsbD 0) b.addr b.idx]
      r := { y.r with h := tset y.r.h o.h.toNat .pending } })) := by
  rw [execHclaim]
  refine syllable_ok hi ((if_neg (not_not_intro hh)).trans ((if_neg (Bool.eq_false_iff.1 hn)).trans
    ((if_neg (not_not_intro ha)).trans ((if_neg ?_).trans ?_))))
  · rw [hap, Bool.not_true, Bool.and_false]
    exact Bool.false_ne_true
  · simp only [hl, placedHere, List.flatMap_map, hx, Option.bind_some, hr, hf]
    exact afterRow_of_free hb hw

end

end

/-- Settles O22: a PROBE answers by what its handle and its address come to, an HREL by what its handle holds; HCLAIM's
checks come in their order. -/
theorem windowSyllables : Obligations.WindowSyllables := by
  intro s b h hi c g ctx
  refine ⟨fun o => ⟨execProbe_bound hi o, fun e => execProbe_unbound hi o (.fault e), execProbe_unbound hi o .full,
      fun k block => execProbe_unbound hi o (.hit k block),
      fun set way block => execProbe_unbound hi o (.miss set way block)⟩,
    fun o => ⟨fun set way block => execPref_miss hi o, execPref_else hi o⟩,
    fun o => ⟨fun ht hh => ?_, fun set way ht hh => ?_, fun cf f cd dr base size nslot j drain ht hh => ?_,
      fun die es ht hh => ⟨fun he => ?_, fun he => ?_⟩, execHrel_of_isGeneral hi o⟩,
    fun o => ⟨execHclaim_bound hi o, execHclaim_of_isGeneral hi o, execHclaim_misaligned hi o⟩,
    fun o l x r hn hh ha _ hap hl hb hw hx hr hf =>
      execHclaim_claims hi o hh hn ha hap hl (Core.rowBusyOn_placedHere hb) hw hx hr hf⟩
  · rcases hh with hh | hh <;> exact execHrel_of_tensor hi o ht hh
  · exact (execHrel_of_tensor hi o ht hh).trans (congrArg _ (State.afterWith_same hi.1 ..))
  · exact (execHrel_of_tensor hi o ht hh).trans (congrArg _ (State.afterWith_same hi.1 ..))
  · rw [exec_hrel, execHrel_of_tensor hi o ht hh, releaseAnswer, if_pos he]
    rfl
  · rw [exec_hrel, execHrel_of_tensor hi o ht hh, releaseAnswer, if_neg (Bool.eq_false_iff.1 he)]
    rfl

end Sys2Proof.Machine

/-!
SUPPORT. Counter syllables (R260-R265): what the handle, the counter and the answer of another package come to; each
form answers by these.
-/

namespace Sys2Proof.Machine

/-! ## One operation on a counter (R255, R260, R262) -/

section
variable {m : Memory} {d : Dev} {ctx k i : Nat} {v : Word}

theorem counterOp_add_of_lt (hv : (counterGet m d ctx k i).toNat + v.toNat < 2 ^ 64) :
    counterOp m d ctx k i (.add v) =
      (counterSet d ctx k i (counterGet m d ctx k i + v), counterGet m d ctx k i, true) :=
  if_pos hv

/-- An add that would overflow leaves the counter as it is. -/
theorem counterOp_add_of_le (hv : 2 ^ 64 ≤ (counterGet m d ctx k i).toNat + v.toNat) :
    counterOp m d ctx k i (.add v) = (counterSet d ctx k i (counterGet m d ctx k i), counterGet m d ctx k i, false) :=
  if_neg (Nat.not_lt.2 hv)

end

/-! ## The handle and the other package (R256, R262, R468) -/

section
variable {s : State} {b : Bundle} {c : Core} {w : Word} {k : Nat} {f : Word → CounterRef → Out}

theorem withCounter_of_unbound (hk : c.k k = none) : withCounter s b c w k f = .raise (unboundFault w c k) := by
  rw [withCounter, hk]

theorem withCounter_of_outOfRange {id : Word} {r : Nat} (hk : c.k k = some id)
    (hr : resolveCounter s.dev ((s.dev.ctxOfCore b.core).getD noContext) id = .error r) :
    withCounter s b c w k f = .raise (mkFault 0x42 id (toW r)) := by
  simp only [withCounter, hk, hr]

theorem withCounter_of_resolved {id : Word} {q : CounterRef} (hk : c.k k = some id)
    (hr : resolveCounter s.dev ((s.dev.ctxOfCore b.core).getD noContext) id = .ok q) :
    withCounter s b c w k f = f id q := by
  simp only [withCounter, hk, hr]

/-- A request that the other package has answered without a failure goes on with its answer. -/
theorem withReply_of_answered {d : Dev} {pkg : Nat} {kind : RemoteKind} {ident val x : Word} {pa len time : Nat}
    {g : Word → Out}
    (h : ((c.remOps.find? fun q => q.kind = kind && q.ident = ident && q.val = val).bind (·.answer)) = some (0, x)) :
    withReply d b c pkg kind ident val pa len time g = g x := by
  obtain ⟨q, hq, ha⟩ := Option.bind_eq_some_iff.1 h
  simp only [withReply, hq, ha]

end

/-! ## The forms with a counter handle (R260) -/

section
variable {s : State} {b : Bundle} {h : Hdr} (hi : Issuing s b h) (o : YK)
include hi

/-- CADD, CMAX, CREAD and CWAIT go on with the counter of their handle. -/
theorem exec_counterForm {i : Instr} (hm : i ∈ [Instr.cadd h o, .cmax h o, .cread h o, .cwait h o]) :
    ∃ f, exec i s = s.concluded h b (b.ordered o.ord) (withCounter s b b.issuer (sylWord i) o.k.toNat f) := by
  simp only [List.mem_cons, List.not_mem_nil, or_false] at hm
  obtain rfl | rfl | rfl | rfl := hm
  · exact ⟨_, (exec_cadd ..).trans (by rw [execCadd, changeCounter, ctlSyllable_concluded hi])⟩
  · exact ⟨_, (exec_cmax ..).trans (by rw [execCmax, changeCounter, ctlSyllable_concluded hi])⟩
  · exact ⟨_, (exec_cread ..).trans (by rw [execCread, ctlSyllable_concluded hi])⟩
  · exact ⟨_, (exec_cwait ..).trans (by rw [execCwait, ctlSyllable_concluded hi])⟩

theorem exec_counterForm_unbound {i : Instr} (hm : i ∈ [Instr.cadd h o, .cmax h o, .cread h o, .cwait h o])
    (hk : b.issuer.k o.k.toNat = none) :
    exec i s = .next (s.faultBundle b.base (unboundFault (sylWord i) b.issuer o.k.toNat)) := by
  obtain ⟨f, hf⟩ := exec_counterForm hi o hm
  rw [hf, withCounter_of_unbound hk]
  rfl

theorem exec_counterForm_outOfRange {i : Instr} (hm : i ∈ [Instr.cadd h o, .cmax h o, .cread h o, .cwait h o])
    {id : Word} {r : Nat} (hk : b.issuer.k o.k.toNat = some id)
    (hr : resolveCounter s.dev ((s.dev.ctxOfCore b.core).getD noContext) id = .error r) :
    exec i s = .next (s.faultBundle b.base (mkFault 0x42 id (toW r))) := by
  obtain ⟨f, hf⟩ := exec_counterForm hi o hm
  rw [hf, withCounter_of_outOfRange hk hr]
  rfl

variable {id : Word} (hk : b.issuer.k o.k.toNat = some id)
include hk

section
variable {k j : Nat}
  (hr : resolveCounter s.dev ((s.dev.ctxOfCore b.core).getD noContext) id = .ok (.here k j))
  {old : Word} (hold : counterGet s.mem (s.dev.releaseFor b.core o.ord o.scp)
    ((s.dev.ctxOfCore b.core).getD noContext) k j = old)
include hr hold

theorem execCadd_here (hv : old.toNat + (b.issuer.counterArg o).toNat < 2 ^ 64) :
    execCadd h o s = .next (s.afterWith h (awaitAnswer (counterSet (s.dev.releaseFor b.core o.ord o.scp)
      ((s.dev.ctxOfCore b.core).getD noContext) k j (old + b.issuer.counterArg o)) b.core) (b.ordered o.ord)) := by
  subst hold
  rw [execCadd, changeCounter, ctlSyllable_concluded hi, withCounter_of_resolved hk hr]
  simp only [counterOp_add_of_lt hv, if_true]
  rfl

theorem execCadd_overflows (hv : 2 ^ 64 ≤ old.toNat + (b.issuer.counterArg o).toNat) :
    execCadd h o s = .next (s.faultBundle (counterOp s.mem (b.base.releaseFor b.core o.ord o.scp)
      ((s.dev.ctxOfCore b.core).getD noContext) k j .read).1 (mkFault 0x40 id (b.issuer.counterArg o))) := by
  subst hold
  rw [execCadd, changeCounter, ctlSyllable_concluded hi, withCounter_of_resolved hk hr]
  simp only [counterOp_add_of_le hv, Bool.false_eq_true, if_false]
  rfl

theorem execCmax_here :
    execCmax h o s = .next (s.afterWith h (awaitAnswer (counterSet (s.dev.releaseFor b.core o.ord o.scp)
      ((s.dev.ctxOfCore b.core).getD noContext) k j
      (if old.toNat < (b.issuer.counterArg o).toNat then b.issuer.counterArg o else old)) b.core)
      (b.ordered o.ord)) := by
  subst hold
  rw [execCmax, changeCounter, ctlSyllable_concluded hi, withCounter_of_resolved hk hr]
  rfl

theorem execCread_here :
    execCread h o s = .next (s.afterWith h (awaitAnswer (sendLate (counterSet (s.dev.releaseFor b.core o.ord o.scp)
      ((s.dev.ctxOfCore b.core).getD noContext) k j old) b (.s (physSV b.issuer.lp o.a.toNat) old) true 0) b.core)
      (b.ordered o.ord)) := by
  subst hold
  rw [execCread, ctlSyllable_concluded hi, withCounter_of_resolved hk hr]
  rfl

theorem execCwait_reached (hv : (b.issuer.counterArg o).toNat ≤ old.toNat) :
    execCwait h o s = .next (s.afterWith h (counterSet
      ((s.dev.releaseFor b.core o.ord o.scp).updCore b.core fun y => y.count 0x12 1)
      ((s.dev.ctxOfCore b.core).getD noContext) k j old) (b.ordered o.ord)) := by
  subst hold
  rw [execCwait, ctlSyllable_concluded hi, withCounter_of_resolved hk hr]
  exact congrArg (s.concluded h b _) (if_neg (Nat.not_lt.2 hv))

theorem execCwait_below (hv : old.toNat < (b.issuer.counterArg o).toNat) :
    execCwait h o s = .next (s.stallBundle (waitOn s.mem (b.base.releaseFor b.core o.ord o.scp) b.core
      ((s.dev.ctxOfCore b.core).getD noContext) k j) 7) := by
  subst hold
  rw [execCwait, ctlSyllable_concluded hi, withCounter_of_resolved hk hr]
  exact congrArg (s.concluded h b _) (if_pos hv)

end

/-- A request of the core has been answered without a failure, with the value w. -/
def Core.Replied (c : Core) (kind : RemoteKind) (id val w : Word) : Prop :=
  ((c.remOps.find? fun q => q.kind = kind && q.ident = id && q.val = val).bind (·.answer)) = some (0, w)

variable {pkg : Nat} {w : Word}
  (hr : resolveCounter s.dev ((s.dev.ctxOfCore b.core).getD noContext) id = .ok (.remote pkg))
include hr

theorem execCadd_remote (ha : b.issuer.Replied .counterAdd id (b.issuer.counterArg o) w) :
    execCadd h o s = .next (s.afterWith h
      ((s.dev.releaseFor b.core o.ord o.scp).updCore b.core fun y => y.count 0x12 1) (b.ordered o.ord)) := by
  rw [execCadd, changeCounter, ctlSyllable_concluded hi, withCounter_of_resolved hk hr]
  exact congrArg (s.concluded h b _) (withReply_of_answered ha)

theorem execCmax_remote (ha : b.issuer.Replied .counterMax id (b.issuer.counterArg o) w) :
    execCmax h o s = .next (s.afterWith h
      ((s.dev.releaseFor b.core o.ord o.scp).updCore b.core fun y => y.count 0x12 1) (b.ordered o.ord)) := by
  rw [execCmax, changeCounter, ctlSyllable_concluded hi, withCounter_of_resolved hk hr]
  exact congrArg (s.concluded h b _) (withReply_of_answered ha)

theorem execCwait_remote (ha : b.issuer.Replied .counterRead id (b.issuer.counterArg o) w) :
    execCwait h o s = .next (s.afterWith h
      ((s.dev.releaseFor b.core o.ord o.scp).updCore b.core fun y => y.count 0x12 1) (b.ordered o.ord)) := by
  rw [execCwait, ctlSyllable_concluded hi, withCounter_of_resolved hk hr]
  exact congrArg (s.concluded h b _) (withReply_of_answered ha)

theorem execCread_remote (ha : b.issuer.Replied .counterRead id 0 w) :
    execCread h o s = .next (s.afterWith h ((sendLate (s.dev.releaseFor b.core o.ord o.scp) b
      (.s (physSV b.issuer.lp o.a.toNat) w) true 0).updCore b.core fun y => y.count 0x12 1) (b.ordered o.ord)) := by
  rw [execCread, ctlSyllable_concluded hi, withCounter_of_resolved hk hr]
  exact congrArg (s.concluded h b _) (withReply_of_answered ha)

end

/-! ## CBIND (R261) -/

section
variable {s : State} {b : Bundle} {h : Hdr} (hi : Issuing s b h) (o : YK)
include hi

theorem execCbind_valid {q : CounterRef}
    (hr : resolveCounter s.dev ((s.dev.ctxOfCore b.core).getD noContext) (b.issuer.counterArg o) = .ok q) :
    execCbind h o s = .next (s.after h (s.dev.updCore b.core fun x =>
      { x with r := { x.r with k := tset x.r.k (physK b.issuer.lp o.k.toNat) (some (b.issuer.counterArg o)) } })) := by
  rw [execCbind]
  exact syllable_ok hi (by simp only [hr])

theorem execCbind_outOfRange {r : Nat}
    (hr : resolveCounter s.dev ((s.dev.ctxOfCore b.core).getD noContext) (b.issuer.counterArg o) = .error r) :
    execCbind h o s = .next (s.faultBundle b.base (mkFault 0x42 (b.issuer.counterArg o) (toW r))) := by
  rw [execCbind]
  exact syllable_raise hi (by simp only [hr])

end

/-! ## PHASE (R133, R265) -/

theorem execPhase_ends {s : State} {b : Bundle} {h : Hdr} (hi : Issuing s b h) (o : YN) :
    execPhase h o s = .next (s.afterWith h (s.dev.releaseFor b.core o.ord o.scp) { b with phaseEnd := true }) := by
  rw [execPhase]
  exact ctlSyllable_ok hi rfl

/-! ## CWANY (R263) -/

theorem CondState.faultOf_of_ne {x : CondState} (h : ∀ e, x ≠ .fault e) (cls : Nat) : x.faultOf cls = none := by
  cases x with
  | fault e => exact absurd rfl (h e)
  | holds | below | open' | ask => rfl

/-- Conditions none of which is a fault raise none of any class. -/
theorem findSome?_faultOf_eq_none {st : List (Cond × CondState)} (h : ∀ x ∈ st, ∀ e, x.2 ≠ .fault e) (l : List Nat) :
    (l.findSome? fun k => st.findSome? fun x => x.2.faultOf k) = none := by
  simp only [List.findSome?_eq_none_iff]
  exact fun k _ x hx => CondState.faultOf_of_ne (h x hx) k

/-- The round order finds the first place from the start at which the test holds. -/
theorem find?_range_map_eq_some {p : Nat → Bool} {g : Nat → Nat} {n k : Nat} (hk : k < n) (hp : p (g k) = true)
    (hq : ∀ j < k, p (g j) = false) : ((List.range n).map g).find? p = some (g k) := by
  rw [List.find?_map, (List.find?_range_eq_some (i := k)).2 ⟨hp, List.mem_range.2 hk, fun j hj => by simp [hq j hj]⟩]
  rfl

section
variable {s : State} {b : Bundle} {h : Hdr} (hi : Issuing s b h) (o : YW)

/-- The conditions of a CWANY in issue, each as it stands. -/
def condStates (s : State) (b : Bundle) (h : Hdr) (o : YW) : List (Cond × CondState) :=
  (b.issuer.conds o).map fun q => (q, b.issuer.cond s.mem s.dev b.core (sylWord (.cwany h o)) q)

/-- Condition number i of those that stand so holds. -/
def CondHolds (st : List (Cond × CondState)) (i : Nat) : Prop := ∃ q, (q, CondState.holds) ∈ st ∧ q.i = i

theorem any_holds_iff {st : List (Cond × CondState)} {i : Nat} :
    (st.any fun x => decide (x.1.i = i) && decide (x.2 = .holds)) = true ↔ CondHolds st i := by
  simp only [List.any_eq_true, Bool.and_eq_true, decide_eq_true_eq, CondHolds, Prod.exists]
  exact ⟨fun ⟨q, _, hm, hi, rfl⟩ => ⟨q, hm, hi⟩, fun ⟨q, hm, hi⟩ => ⟨q, _, hm, hi, rfl⟩⟩

/-- What CWANY answers by the number of the condition found: it is sent, or the core waits for every condition. -/
def cwanyAnswer (s : State) (b : Bundle) (h : Hdr) (o : YW) : Option Nat → Out
  | some i => .ok (sendLate ((b.issuer.touchConds s.mem (s.dev.releaseFor b.core o.ord o.scp)
      ((s.dev.ctxOfCore b.core).getD noContext) (b.issuer.conds o)).updCore b.core fun x =>
        { (x.count 0x12 1) with wanyNext := (i + 1) % 8 }) b (.s (physSV b.issuer.lp o.d.toNat) (toW i)) true 0)
  | none => .stallIn ((condStates s b h o).foldl (fun d (q, x) => match x with
      | .ask pkg id => d.askRemote b.core pkg .counterRead id q.v 0 0 s.time
      | .below k i => waitOn s.mem d b.core ((s.dev.ctxOfCore b.core).getD noContext) k i
      | _ => d) (b.base.releaseFor b.core o.ord o.scp)) 7

/-- Where no condition is a fault, the first that holds in the round decides. -/
theorem execCwany_of_no_fault (hi : Issuing s b h) (hf : ∀ x ∈ condStates s b h o, ∀ e, x.2 ≠ .fault e)
    {r : Option Nat} (hr : (((List.range 8).map fun q => (b.issuer.wanyNext + q) % 8).find? fun i =>
      (condStates s b h o).any fun x => decide (x.1.i = i) && decide (x.2 = .holds)) = r) :
    execCwany h o s = s.concluded h b (b.ordered o.ord) (cwanyAnswer s b h o r) := by
  rw [execCwany, ctlSyllable_concluded hi]
  have hnone := findSome?_faultOf_eq_none hf [0, 1, 2]
  unfold condStates at hnone hr
  simp only [hnone, hr]
  cases r <;> rfl

end

/-- Settles O33: the forms with a handle answer by its counter, here or in another package; CWANY by the first of its
conditions that holds in its round. -/
theorem counterSyllables : Obligations.CounterSyllables := by
  unfold Obligations.CounterSyllables
  refine ⟨fun s b h o hi => ⟨fun i hm => ⟨exec_counterForm_unbound hi o hm, fun id r hk hr =>
      exec_counterForm_outOfRange hi o hm hk hr⟩, fun id k j hk hr => ?here, fun id pkg w hk hr => ?remote,
      fun q hr => execCbind_valid hi o hr, fun r hr => execCbind_outOfRange hi o hr⟩,
    fun s b h hi => ⟨fun o => execPhase_ends hi o, fun o hf => ⟨fun k hk hh hn => ?found, fun hn => ?none⟩⟩⟩
  case here =>
    exact ⟨execCadd_here hi o hk hr rfl, execCadd_overflows hi o hk hr rfl, execCmax_here hi o hk hr rfl,
      execCread_here hi o hk hr rfl, execCwait_reached hi o hk hr rfl, execCwait_below hi o hk hr rfl⟩
  case remote =>
    exact ⟨execCadd_remote hi o hk hr, execCmax_remote hi o hk hr, execCwait_remote hi o hk hr,
      execCread_remote hi o hk hr⟩
  case found =>
    refine execCwany_of_no_fault o hi hf (find?_range_map_eq_some (g := fun q => (b.issuer.wanyNext + q) % 8) hk
      (any_holds_iff.2 hh) fun j hj => ?_)
    exact Bool.eq_false_iff.2 fun hj' => hn j hj (any_holds_iff.1 hj')
  case none =>
    refine ⟨_, execCwany_of_no_fault o hi hf (r := none) ?_⟩
    refine List.find?_eq_none.2 fun i _ hi' => ?_
    obtain ⟨q, hq, -⟩ := any_holds_iff.1 hi'
    exact (hn _ hq (mkFault 0 0 0)).2 rfl

end Sys2Proof.Machine

/-!
SUPPORT. Task syllables (R414-R430): what the record's bytes, the place of a new task, the newest entry of a deque and a
stream come to; each form answers by these.
-/

namespace Sys2Proof.Machine

/-! ## The record that a task syllable reads (R414, R429) -/

theorem wordsOf_bytesOfWords (w : List Word) : wordsOf w.length (bytesOfWords w) = w := by
  induction w with
  | nil => rfl
  | cons x w ih =>
    have hx : toW (ofBytes (toBytes 8 x.toNat)) = x := by
      rw [ofBytes_toBytes x.isLt, toW, BitVec.ofNat_toNat, BitVec.setWidth_eq]
    have hb : bytesOfWords (x :: w) = toBytes 8 x.toNat ++ bytesOfWords w := rfl
    rw [List.length_cons, wordsOf, hb, List.take_left' (toBytes_length ..), List.drop_left' (toBytes_length ..), hx, ih]

/-- The eight words w can be read at an address by the core of a bundle in issue: in its scratchpad by a tensor core,
at a device virtual address by a general core. -/
def TaskReads (s : State) (b : Bundle) (a : Word) (w : List Word) : Prop :=
  w.length = 8 ∧
    ((isGeneral b.core = false ∧ rangeFault s.dev b.core a 64 64 .read = none ∧ rangeBad s.dev b.core a 64 = none ∧
        w = spmWords s.mem s.dev b.core a) ∨
      (isGeneral b.core = true ∧ a.toNat % 64 = 0 ∧
        ∀ f, readImage s b b.issuer true a 64 f = f (bytesOfWords w)))

theorem TaskReads.taskBytes {s : State} {b : Bundle} {a : Word} {w : List Word} (hw : TaskReads s b a w)
    (f : List Word → Out) : taskBytes s b b.issuer a f = f w := by
  obtain ⟨hlen, ⟨hn, hf, hb, rfl⟩ | ⟨hn, ha, hr⟩⟩ := hw
  · simp only [Machine.taskBytes, hn, hf, hb]
    rfl
  · have hw := wordsOf_bytesOfWords w
    rw [hlen] at hw
    simp only [Machine.taskBytes, hn, if_true, if_neg (not_not_intro ha), hr, hw]

/-! ## A creation (R274, R414, R429) -/

section
variable {s : State} {b : Bundle} {h : Hdr} {o : YG} {g : Nat} {w : List Word}

/-- What a creation answers by the place of its task: the stake is entered where the Moraine has room. -/
def creationAnswer (s : State) (b : Bundle) (o : YG) (g : Nat) (w : List Word) (id : Word) : Placed → Out
  | .ok d =>
    let ctx := (s.dev.ctxOfCore b.core).getD noContext
    let die := moraineDie s.dev b.core ctx
    if moraineRoom s.dev die ctx [recDelta w 1] then
      .ok (sendLate (enterDeltas d b.core die ctx [recDelta w 1] s.time) b (.s (physSV b.issuer.lp o.y.toNat) id)
        true 0)
    else .stallIn (b.base.reportFull die ctx s.time) 7
  | .full k => .raiseIn (b.base.releaseFor b.core o.ord o.scp)
      (mkFault 0xA2 (b.issuer.s o.x.toNat) (toW (g * 2 ^ 32 + k)))
  | .wait => .stall 11
  | .fault x => .stallIn (b.base.spillFault g ((s.dev.ctxOfCore b.core).getD noContext) x s.time) 11

section
variable (hw : TaskReads s b (b.issuer.s o.x.toNat) w)
include hw

theorem createTask_of_badRecord {e : Event} {place : Dev → QEntry → Placed}
    (he : recRange s.mem s.dev ((s.dev.ctxOfCore b.core).getD noContext) w = some e) :
    createTask s b b.issuer o g place = .raise e := by
  rw [createTask, hw.taskBytes]
  simp only [he]

theorem createTask_of_record {place : Dev → QEntry → Placed}
    (he : recRange s.mem s.dev ((s.dev.ctxOfCore b.core).getD noContext) w = none) :
    createTask s b b.issuer o g place =
      (let made := newId (s.dev.releaseFor b.core o.ord o.scp) g
       creationAnswer s b o g w made.1
        (place made.2 { words := w, id := made.1, ctx := (s.dev.ctxOfCore b.core).getD noContext })) := by
  rw [createTask, hw.taskBytes]
  simp only [he]
  split
  · next d hd =>
    rw [hd, creationAnswer]
    split
    · next hroom => rw [if_neg (by simpa using hroom)]
    · next hroom => rw [if_pos (by simpa using hroom)]
  · next hd => rw [hd]; rfl
  · next hd => rw [hd]; rfl
  · next hd => rw [hd]; rfl

end

variable (hi : Issuing s b h)
include hi

/-- TQADD creates at the cluster that it names: of the context's partition, or its own. -/
theorem execTqadd_creates (hown : o.imm.getLsbD 5 = false → isGeneral b.core = false ∧ g = clusterOf b.core)
    (hnamed : o.imm.getLsbD 5 = true → (((s.dev.partOfCtx ((s.dev.ctxOfCore b.core).getD noContext)).map
      (·.clusters)).getD [])[o.imm.toNat % 32]? = some g) :
    execTqadd h o s = s.concluded h b (b.ordered o.ord)
      (createTask s b b.issuer o g fun d e => appendQueue s.mem d g e s.time) := by
  rw [execTqadd, ctlSyllable_concluded hi]
  cases h5 : o.imm.getLsbD 5 with
  | false =>
    obtain ⟨hn, rfl⟩ := hown h5
    simp only [hn, Bool.false_eq_true, if_false]
  | true => simp only [hnamed h5, if_true]

/-- Where TDQADD puts a new task: on the core's deque below eight entries, else in its cluster's queue. -/
def pushPlace (m : Memory) (n g time : Nat) (d : Dev) (e : QEntry) : Placed :=
  if (d.core n).deque.length < 8 then .ok (d.updCore n fun c => { c with deque := c.deque ++ [e] })
  else appendQueue m d g e time

theorem execTdqadd_creates (hn : isGeneral b.core = false) :
    execTdqadd h o s = s.concluded h b (b.ordered o.ord)
      (createTask s b b.issuer o (clusterOf b.core) (pushPlace s.mem b.core (clusterOf b.core) s.time)) := by
  rw [execTdqadd, ctlSyllable_concluded hi]
  exact congrArg (s.concluded h b _) (if_neg (Bool.eq_false_iff.1 hn))

theorem execTdqadd_of_isGeneral (hn : isGeneral b.core = true) :
    execTdqadd h o s = .next (s.faultBundle b.base (mkFault 0xA3 (sylWord (.tdqadd h o)) 1)) := by
  rw [execTdqadd, ctlSyllable_concluded hi]
  exact congrArg (s.concluded h b _) (if_pos hn)

end

/-! ## The cluster queue and its spill ring (R416, R417) -/

section
variable {m : Memory} {d : Dev} {g time : Nat} {e : QEntry} {q : List QEntry} (hq : d.queueOf g e.ctx = some q)
include hq

theorem appendQueue_of_direct
    (hr : ((d.cluster g).ringOf e.ctx).swr = ((d.cluster g).ringOf e.ctx).srd ∧ q.length < 32) :
    appendQueue m d g e time = .ok (d.updQueue g e.ctx fun l => l ++ [e]) := by
  simp only [appendQueue, hq, hr, decide_true, Bool.and_self, if_true]

variable (hr : ¬(((d.cluster g).ringOf e.ctx).swr = ((d.cluster g).ringOf e.ctx).srd ∧ q.length < 32))
include hr

theorem appendQueue_of_full (hl : 2 ^ ((d.cluster g).ringOf e.ctx).log2 ≤
      (((d.cluster g).ringOf e.ctx).swr - ((d.cluster g).ringOf e.ctx).srd).toNat) :
    appendQueue m d g e time = .full ((d.cluster g).ringOf e.ctx).log2 := by
  simp only [appendQueue, hq]
  rw [if_neg (by simpa using hr), if_neg (Nat.not_lt.2 hl)]

variable (hl : (((d.cluster g).ringOf e.ctx).swr - ((d.cluster g).ringOf e.ctx).srd).toNat <
  2 ^ ((d.cluster g).ringOf e.ctx).log2)
include hl

theorem appendQueue_of_suspended (hs : (d.cluster g).spillStop = true) : appendQueue m d g e time = .wait := by
  simp only [appendQueue, hq]
  rw [if_neg (by simpa using hr), if_pos hl, if_pos hs]

theorem appendQueue_of_spilled {d' : Dev} (hs : (d.cluster g).spillStop = false)
    (hd : engineStore m d (taskEngine g) e.ctx
      (((d.cluster g).ringOf e.ctx).entryVa ((d.cluster g).ringOf e.ctx).swr.toNat) (spillEntry e false) none time =
        .ok d') :
    appendQueue m d g e time =
      .ok (d'.updRing g e.ctx fun r => { r with swr := r.swr + 1, ids := r.ids ++ [e.id] }) := by
  simp only [appendQueue, hq]
  rw [if_neg (by simpa using hr), if_pos hl, if_neg (Bool.eq_false_iff.1 hs), hd]

end

/-! ## TDQTAKE (R426) -/

section
variable {s : State} {b : Bundle} {h : Hdr} {o : YG} (hi : Issuing s b h)
include hi

theorem execTdqtake_of_isGeneral (hn : isGeneral b.core = true) :
    execTdqtake h o s = .next (s.faultBundle b.base (mkFault 0xA3 (sylWord (.tdqtake h o)) 1)) := by
  rw [execTdqtake]
  exact syllable_raise hi (if_pos hn)

variable (hn : isGeneral b.core = false) (hf : rangeFault s.dev b.core (b.issuer.s o.x.toNat) 64 64 .write = none)
include hn hf

theorem execTdqtake_empty (hd : (s.dev.core b.core).deque = []) :
    execTdqtake h o s = .next (s.after h (sendLate s.dev b (.s (physSV b.issuer.lp o.y.toNat) 0) true 0)) := by
  rw [execTdqtake]
  refine syllable_ok hi ?_
  simp only [hn, hf, hd]
  rfl

variable {l : List QEntry} {q : QEntry} (hd : (s.dev.core b.core).deque = l ++ [q])
include hd

theorem execTdqtake_takes (hr : moraineRoom s.dev (dieOf b.core) q.ctx [recDelta q.words (-1)] = true) :
    execTdqtake h o s = .next (s.after h (sendLate ((spmWrite (s.dev.updCore b.core fun x => { x with deque := l })
      b.core (b.issuer.s o.x.toNat) (bytesOfWords q.words)).endUnstarted s.mem (clusterOf b.core) q 2 s.time) b
      (.s (physSV b.issuer.lp o.y.toNat) q.id) true 0)) := by
  have hpop : (s.dev.updCore b.core fun c => { c with deque := c.deque.dropLast }) =
      s.dev.updCore b.core fun x => { x with deque := l } :=
    Dev.updCore_congr (by simp only [hd, List.dropLast_concat])
  rw [execTdqtake]
  refine syllable_ok hi ?_
  simp only [hn, hf, hd, List.getLast?_concat, hr, hpop]
  rfl

theorem execTdqtake_waits (hr : moraineRoom s.dev (dieOf b.core) q.ctx [recDelta q.words (-1)] = false) :
    execTdqtake h o s = .next (s.stallBundle (b.base.reportFull (dieOf b.core) q.ctx s.time) 7) := by
  rw [execTdqtake, syllable, bundleSyllable_issuing hi]
  simp only [hn, hf, hd, List.getLast?_concat, hr]
  rfl

end

/-! ## TCANCEL and TLAUNCH (R423, R427) -/

section
variable {s : State} {b : Bundle} {h : Hdr} {o : YG} (hi : Issuing s b h)
include hi

theorem execTcancel_done {d : Dev} {v : Nat} (hc : cancelTask s.mem (s.dev.releaseFor b.core o.ord o.scp)
      ((s.dev.ctxOfCore b.core).getD noContext) (b.issuer.s o.x.toNat) s.time = .done d v) :
    execTcancel h o s = .next (s.afterWith h (sendLate d b (.s (physSV b.issuer.lp o.y.toNat) (toW v)) true 0)
      (b.ordered o.ord)) := by
  rw [execTcancel]
  exact ctlSyllable_ok hi (by simp only [hc])

variable {x : Ctx} (hx : s.dev.ctx ((s.dev.ctxOfCore b.core).getD noContext) = some x)
include hx

theorem execTlaunch_unset (hk : (x.stream (o.imm.toNat % 16)).log2 = 0) :
    execTlaunch h o s = .next (s.faultBundle b.base (mkFault 0xA3 (sylWord (.tlaunch h o)) 4)) := by
  rw [execTlaunch]
  refine ctlSyllable_raise hi ?_
  simp only [hx, hk]
  rfl

/-- A launch appends its descriptor to the stream's waiting ones, and those that find space are written. -/
theorem execTlaunch_appends {w : List Word} (hk : (x.stream (o.imm.toNat % 16)).log2 ≠ 0)
    (hw : TaskReads s b (b.issuer.s o.x.toNat) w) :
    execTlaunch h o s = .next (s.afterWith h
      (pumpAppends s.mem ((s.dev.ctxOfCore b.core).getD noContext) (o.imm.toNat % 16) s.time 1024
        (((sendLate (s.dev.releaseFor b.core o.ord o.scp) b (.s (physSV b.issuer.lp o.y.toNat) 0) false
            (s.dev.core b.core).nextTag).updCore b.core fun y =>
          { y with nextTag := (s.dev.core b.core).nextTag + 1 }).updStream ((s.dev.ctxOfCore b.core).getD noContext)
            (o.imm.toNat % 16) fun q =>
          { q with appends := q.appends ++ [{ core := b.core, tag := (s.dev.core b.core).nextTag, words := w }] }))
      (b.ordered o.ord)) := by
  rw [execTlaunch]
  refine ctlSyllable_ok hi ?_
  simp only [hx, hk, ne_eq, not_false_eq_true, decide_true, Bool.not_true, Bool.false_eq_true, if_false, hw.taskBytes]

end

/-- Settles O37: a creation answers by the place that its record finds, TDQTAKE by the newest entry of the deque,
TCANCEL by what the cancel comes to and TLAUNCH by its stream. -/
theorem taskSyllables : Obligations.TaskSyllables := by
  unfold Obligations.TaskSyllables
  intro s b h o hi c n ctx a bo now die send reads
  refine ⟨fun hn => ⟨execTdqadd_of_isGeneral hi hn, execTdqtake_of_isGeneral hi hn⟩, fun w g hw => ?creation,
    fun hn hf => ⟨execTdqtake_empty hi hn hf, fun l q hd => execTdqtake_takes hi hn hf hd,
      fun l q hd => execTdqtake_waits hi hn hf hd⟩,
    fun d v hc => execTcancel_done hi hc, fun x k hx hk => ?launch⟩
  case creation =>
    intro made e x ring tail push
    refine ⟨fun i p hp => ?answer, fun q hq => ?queue, fun hres => ⟨if_pos hres, if_pos hres⟩⟩
    case answer =>
      obtain ⟨place, hexec, rfl⟩ :
          ∃ place, exec i s = s.concluded h b bo (createTask s b c o g place) ∧ place made.2 e = p := by
        obtain ⟨rfl, rfl, hown, hnamed⟩ | ⟨rfl, rfl, hn, rfl⟩ := hp
        · exact ⟨_, execTqadd_creates hi hown hnamed, rfl⟩
        · exact ⟨_, execTdqadd_creates hi hn, rfl⟩
      rw [hexec]
      refine ⟨fun f hf => congrArg (s.concluded h b bo) (createTask_of_badRecord hw hf), fun hf => ?_⟩
      rw [createTask_of_record hw hf]
      have answers {r : Placed} (hd : place made.2 e = r) :
          s.concluded h b bo (creationAnswer s b o g w made.1 (place made.2 e)) =
            s.concluded h b bo (creationAnswer s b o g w made.1 r) := by rw [hd]
      exact ⟨fun d hd hroom => (answers hd).trans (congrArg (s.concluded h b bo) (if_pos hroom)),
        fun d hd hroom => (answers hd).trans (congrArg (s.concluded h b bo) (if_neg (Bool.eq_false_iff.1 hroom))),
        fun k hd => answers hd, fun hd => answers hd, fun f hd => answers hd⟩
    case queue =>
      exact ⟨appendQueue_of_direct (e := e) hq, appendQueue_of_full (e := e) hq,
        fun hr hl => ⟨appendQueue_of_suspended (e := e) hq hr hl, fun d => appendQueue_of_spilled (e := e) hq hr hl⟩⟩
  case launch =>
    subst hk
    exact ⟨execTlaunch_unset hi hx, fun w hk hw => execTlaunch_appends hi hx hk hw⟩

end Sys2Proof.Machine

/-!
SUPPORT. Events of counters, the Moraine, the Gravers and their commands (R255, R274, R375-R391): what one event comes to
where its condition holds, and what the publications of a batch and the accesses of a tile leave alone.
-/

namespace Sys2Proof.Machine

/-! ## Counters (R255, R262) -/

section
variable {s : State} (hl : s.Live) {ctx : Nat} {id v : Word} {k j : Nat}
  (hr : resolveCounter s.dev ctx id = .ok (.here k j))
include hl hr

theorem execCounterOperation_add
    (hv : (counterGet s.mem s.dev ctx k j).toNat + v.toNat < 2 ^ 64) : execCounterOperation ctx id false v s =
      .next (s.happened (counterSet s.dev ctx k j (counterGet s.mem s.dev ctx k j + v))) := by
  rw [execCounterOperation]
  refine happening_some hl ?_
  simp only [hr, Bool.false_eq_true, if_false, counterOp_add_of_lt hv, if_true]

/-- An add that overflows leaves the counter, and the sync engine records it. -/
theorem execCounterOperation_overflows
    (hv : 2 ^ 64 ≤ (counterGet s.mem s.dev ctx k j).toNat + v.toNat) :
    execCounterOperation ctx id false v s = .next (s.happened
      (let d := counterSet s.dev ctx k j (counterGet s.mem s.dev ctx k j)
       d.engineReport (352 + d.dieOfCtx ctx k) ctx 0x40 .fault 0 id v s.time)) := by
  rw [execCounterOperation]
  refine happening_some hl ?_
  simp only [hr, Bool.false_eq_true, if_false, counterOp_add_of_le hv]

theorem execCounterOperation_raise : execCounterOperation ctx id true v s = .next (s.happened
    (counterSet s.dev ctx k j (if (counterGet s.mem s.dev ctx k j).toNat < v.toNat then v
      else counterGet s.mem s.dev ctx k j))) := by
  rw [execCounterOperation]
  refine happening_some hl ?_
  simp only [hr]
  rfl

end

/-! ## Batches of the Moraine (R274, R275) -/

theorem MoraineCtx.close_of_ne_nil {q : MoraineCtx} (hq : q.openDeltas ≠ []) :
    q.close = { q with openDeltas := [], unsent := q.unsent ++ [q.openDeltas] } :=
  if_neg (by simpa using hq)

theorem execMoraineBatchTimeout_closes {s : State} (hl : s.Live) {die ctx : Nat}
    (hq : ((s.dev.die die).moraineOf ctx).openDeltas ≠ []) :
    execMoraineBatchTimeout die ctx s = .next (s.happened (s.dev.updDie die fun x => x.setMoraine ctx
      { (s.dev.die die).moraineOf ctx with
        openDeltas := []
        unsent := ((s.dev.die die).moraineOf ctx).unsent ++ [((s.dev.die die).moraineOf ctx).openDeltas] })) := by
  rw [execMoraineBatchTimeout]
  refine happening_some hl ?_
  rw [← MoraineCtx.close_of_ne_nil hq]
  exact if_neg (by simpa using hq)

theorem execBatchApply_next {s : State} (hl : s.Live) {ctx die : Nat} {x : Ctx} {b : Batch}
    (hx : s.dev.ctx ctx = some x) (hf : x.root.frozen = false) (hb : x.root.next die = some b) :
    execBatchApply ctx die s = .next (s.happened (applyBatch s.mem s.dev ctx x b s.time)) := by
  have hsent : s.dev.batchSent ctx die = s.dev := by simp [Dev.batchSent, hx, hb]
  rw [execBatchApply]
  refine happening_some hl ?_
  simp [hsent, hx, hf, hb]

/-! ### Publications leave the batches applied and the net counts (R277) -/

/-- The batches that a context's root has applied, and its net counts. -/
def Root.tally (r : Root) : Tab Nat × List (Nat × Word × Int) := (r.applied, r.net)

def Dev.tally (d : Dev) (ctx : Nat) : Option (Tab Nat × List (Nat × Word × Int)) := (d.ctx ctx).map (·.root.tally)

theorem Dev.tally_of_ctxs {d d' : Dev} (h : d'.ctxs = d.ctxs) (ctx : Nat) : d'.tally ctx = d.tally ctx := by
  rw [Dev.tally, Dev.tally, Dev.ctx, Dev.ctx, h]

theorem Dev.ctx_setCtx_same (d : Dev) (ctx : Nat) (c : Ctx) : (d.setCtx ctx c).ctx ctx = some c := tget_tset_same ..

/-- A record of a context that changes nothing of its root's tally. -/
theorem Dev.tally_setCtx {d : Dev} {k : Nat} {c x : Ctx} (hc : d.ctx k = some c) (hx : x.root.tally = c.root.tally)
    (ctx : Nat) : (d.setCtx k x).tally ctx = d.tally ctx := by
  by_cases h : ctx = k
  · subst h
    rw [Dev.tally, Dev.tally, Dev.ctx_setCtx_same, hc, Option.map_some, Option.map_some, hx]
  · exact congrArg (Option.map _) (tget_tset_other _ _ _ _ h)

theorem Dev.tally_updCtx (d : Dev) (k ctx : Nat) {f : Ctx → Ctx} (hf : ∀ c, (f c).root.tally = c.root.tally) :
    (d.updCtx k f).tally ctx = d.tally ctx := by
  unfold Dev.updCtx
  split
  · next c hc => exact Dev.tally_setCtx hc (hf c) ctx
  · rfl

@[simp] theorem Dev.release_ctxs (d : Dev) (a scope : Nat) : (d.release a scope).ctxs = d.ctxs := by
  unfold Dev.release
  split <;> rfl

@[simp] theorem counterSet_ctxs (d : Dev) (ctx k i : Nat) (v : Word) : (counterSet d ctx k i v).ctxs = d.ctxs := by
  unfold counterSet
  dsimp only
  split <;> rfl

@[simp] theorem counterOp_ctxs (m : Memory) (d : Dev) (ctx k i : Nat) (op : CounterOp) :
    (counterOp m d ctx k i op).1.ctxs = d.ctxs := by
  cases op with
  | add v =>
    simp only [counterOp]
    split <;> exact counterSet_ctxs ..
  | raise v => exact counterSet_ctxs ..
  | read => exact counterSet_ctxs ..

theorem Dev.tally_engineReport (d : Dev) (src k : Nat) (cause : BitVec 8) (kind : EvKind) (baddr info0 info1 : Word)
    (time ctx : Nat) : (d.engineReport src k cause kind baddr info0 info1 time).tally ctx = d.tally ctx := by
  unfold Dev.engineReport Dev.toRing
  split
  · rfl
  · next c hc => exact Dev.tally_setCtx (d := d.countRecord src) (x := { c with frCount := c.frCount + 1 }) hc rfl ctx

section
variable (m : Memory) (d : Dev) (ctx : Nat)

theorem tally_publish (stage : Nat) (id v : Word) (time : Nat) :
    (publish m d ctx stage id v time).tally ctx = d.tally ctx := by
  unfold publish
  dsimp only
  split
  · exact Dev.tally_of_ctxs (by simp) ctx
  · exact Dev.tally_of_ctxs (Dev.release_ctxs ..) ctx
  · split
    · rfl
    · next c hc =>
      split
      · rfl
      · refine (Dev.tally_engineReport ..).trans ?_
        refine Dev.tally_setCtx hc ?_ ctx
        rfl

theorem tally_publishStage (net : List (Nat × Word × Int)) (time stage : Nat) :
    (publishStage m ctx net time d stage).tally ctx = d.tally ctx := by
  have hshown : ((publish m d ctx stage (stageWord m d ctx stage 0) (frontier m d ctx net stage) time).updCtx ctx
      fun c => { c with root := c.root.published stage (frontier m d ctx net stage) }).tally ctx = d.tally ctx := by
    refine (Dev.tally_updCtx _ _ _ ?_).trans (tally_publish ..)
    exact fun _ => rfl
  unfold publishStage
  dsimp only
  split
  · exact (tally_publish ..).trans hshown
  · exact hshown

theorem tally_publications (net : List (Nat × Word × Int)) (time : Nat) (stages : List Nat) :
    (stages.foldl (publishStage m ctx net time) d).tally ctx = d.tally ctx :=
  List.foldlRecOn (motive := fun e : Dev => e.tally ctx = d.tally ctx) stages _ rfl
    fun _ h _ _ => (tally_publishStage ..).trans h

/-- A batch whose net counts stay in range is applied: its number, and the counts that are not zero. -/
theorem applyBatch_tally {x : Ctx} {b : Batch} (time : Nat)
    (hnet : ∀ e ∈ b.deltas.foldl addNet x.root.net, -((2 : Int) ^ 47) ≤ e.2.2 ∧ e.2.2 < (2 : Int) ^ 47) :
    (applyBatch m d ctx x b time).tally ctx = some (tset x.root.applied b.die b.seq,
      (b.deltas.foldl addNet x.root.net).filter fun e => decide (e.2.2 ≠ 0)) := by
  have hin : (b.deltas.foldl addNet x.root.net).any
      (fun (_, _, n) => (2 : Int) ^ 47 ≤ n || n < -((2 : Int) ^ 47)) = false := by
    refine List.any_eq_false.2 fun e he => ?_
    obtain ⟨hlow, hhigh⟩ := hnet e he
    simp only [Bool.or_eq_true, decide_eq_true_eq, not_or, not_le, not_lt]
    exact ⟨hhigh, hlow⟩
  unfold applyBatch
  dsimp only
  rw [hin, if_neg Bool.false_ne_true, tally_publications, Dev.tally, Dev.ctx_setCtx_same]
  rfl

end

/-! ## Queues and buses of a Graver (R375-R377) -/

section
variable {s : State} (hl : s.Live) {st : Nat} (hst : st < 16)
include hl hst

section
variable {unit ctx : Nat} {data : Option (BitVec 512 × BitVec 64)} {tag : BitVec 32} (hu : unit < 2 ^ 30)
  (hq : (tgetD (s.dev.grav st).queues (unit % 64) []).length < 32)
include hu hq

theorem execGraverAccept_enters
    (ht : (data.isSome && s.dev.staleTag ctx (stackAddress st (64 * unit)) tag.toNat) = false) :
    execGraverAccept st unit ctx data tag s = .next (s.happened ((s.dev.setGrav st { s.dev.grav st with
      queues := tset (s.dev.grav st).queues (unit % 64)
        (tgetD (s.dev.grav st).queues (unit % 64) [] ++ [{ unit := unit, ctx := ctx, data := data }]) }).entryWrite st
          { unit := unit, ctx := ctx, data := data } s.time)) := by
  rw [execGraverAccept]
  refine happening_some hl ?_
  dsimp only
  rw [if_neg (by simp; omega), if_neg (Bool.eq_false_iff.1 ht)]

/-- A tagged write of a generation that is past is dropped and counted. -/
theorem execGraverAccept_drops
    (ht : (data.isSome && s.dev.staleTag ctx (stackAddress st (64 * unit)) tag.toNat) = true) :
    execGraverAccept st unit ctx data tag s = .next (s.happened (s.dev.setGrav st
      { s.dev.grav st with stale := satInc (s.dev.grav st).stale })) := by
  rw [execGraverAccept]
  refine happening_some hl ?_
  dsimp only
  rw [if_neg (by simp; omega), if_pos ht]

end

theorem execRefresh_closes {ch : Nat} (hch : ch < 32) :
    execRefresh st ch s = .next (s.happened (s.dev.setGrav st { s.dev.grav st with
      rows := (s.dev.grav st).rows.filter fun q => decide (q.1 / 32 ≠ ch) })) := by
  rw [execRefresh]
  refine happening_some hl ?_
  dsimp only
  rw [if_neg (by simp; omega)]

end

/-- A queue that has an idle bank to activate, or a row to precharge, has a row command, whatever the free choice. -/
theorem Grav.exists_rowCommand {g : Grav} {p : Nat} (h : g.idle p ≠ [] ∨ g.blocked p ≠ none) (pick : Nat) :
    ∃ g', g.rowCommand p pick = some g' := by
  unfold Grav.rowCommand
  cases hi : g.idle p with
  | cons e t => exact ⟨_, rfl⟩
  | nil =>
    obtain ⟨x, hx⟩ := Option.ne_none_iff_exists'.1 (h.resolve_left (not_not_intro hi))
    exact ⟨_, congrArg (Option.map _) hx⟩

theorem Grav.lt_length_of_mem_columnPlaces {g : Grav} {p i : Nat} (hi : i ∈ g.columnPlaces p) :
    i < (tgetD g.queues p []).length := by
  obtain ⟨⟨k, e⟩, hm, hk⟩ := List.mem_filterMap.1 hi
  have hk : k = i := by
    dsimp only at hk
    split at hk
    · exact Option.some.inj hk
    · cases hk
  exact hk ▸ List.mem_range.1 (List.of_mem_zip hm).1

/-- A queue with an entry whose row is open has a column command, whatever the free choice. -/
theorem exists_columnCommand {d : Dev} {st p : Nat} (h : (d.grav st).columnPlaces p ≠ []) (pick : Nat)
    (ecc : EccOutcome) (time : Nat) : ∃ d', columnCommand d st p pick ecc time = some d' := by
  have hlt : pick % ((d.grav st).columnPlaces p).length < ((d.grav st).columnPlaces p).length :=
    Nat.mod_lt _ (List.length_pos_iff.2 h)
  have hq := Grav.lt_length_of_mem_columnPlaces (List.getElem_mem hlt)
  simp only [columnCommand, Grav.columnEntry, List.getElem?_eq_getElem hlt, Option.bind_some,
    List.getElem?_eq_getElem hq, Option.map_some]
  exact ⟨_, rfl⟩

section
variable {s : State} (hl : s.Live) {st ch : Nat} (hst : st < 16) (hch : ch < 32) {col r0 r1 u : Bool}
  {ecc : EccOutcome}

/-- The bus of a channel is used by a pseudo-channel: its run goes on or begins. -/
def Dev.busUsed (d : Dev) (st k : Nat) (last : Bool × Nat) (u : Bool) : Dev :=
  d.setGrav st { (d.grav st) with
    runs := tset (d.grav st).runs k (u, if u = last.1 then last.2 + 1 else 1) }

include hl hst hch

theorem execGraverCommand_row
    (hu : busUser (tgetD (s.dev.grav st).runs (2 * ch) (false, 0)).1
      (tgetD (s.dev.grav st).runs (2 * ch) (false, 0)).2 r0 r1 = some u) {g : Grav}
    (hg : (s.dev.grav st).rowCommand (2 * ch + (if u = true then 1 else 0)) (Config.freeCycles s.free) = some g) :
    execGraverCommand st ch false r0 r1 ecc s = .next (s.happened
      ((s.dev.setGrav st g).busUsed st (2 * ch) (tgetD (s.dev.grav st).runs (2 * ch) (false, 0)) u)) := by
  rw [execGraverCommand]
  refine happening_some hl ?_
  simp only [Bool.false_eq_true, if_false, Nat.add_zero, hu, hg]
  rw [if_neg (by simp; omega)]
  rfl

theorem execGraverCommand_column
    (hu : busUser (tgetD (s.dev.grav st).runs (2 * ch + 1) (false, 0)).1
      (tgetD (s.dev.grav st).runs (2 * ch + 1) (false, 0)).2 r0 r1 = some u) {d : Dev}
    (hd : columnCommand s.dev st (2 * ch + (if u = true then 1 else 0)) (Config.freeCycles s.free) ecc s.time =
      some d) :
    execGraverCommand st ch true r0 r1 ecc s = .next (s.happened
      (d.busUsed st (2 * ch + 1) (tgetD (s.dev.grav st).runs (2 * ch + 1) (false, 0)) u)) := by
  rw [execGraverCommand]
  refine happening_some hl ?_
  simp only [if_true, hu, hd]
  rw [if_neg (by simp; omega)]
  rfl

end

/-! ## The scrubber (R388, R390, R391) -/

section
variable {s : State} (hl : s.Live) {st : Nat} (hst : st < 16)
include hl hst

section
variable (hen : (s.dev.grav st).en = true)
include hen

theorem execScrubPassStart_begins (hp : (s.dev.grav st).passing = false) :
    execScrubPassStart st s = .next (s.happened (s.dev.setGrav st
      { s.dev.grav st with passing := true, pos := 0, level := 0 })) := by
  rw [execScrubPassStart]
  refine happening_some hl ?_
  dsimp only
  rw [if_neg (by simp [hen]; omega), if_neg (Bool.eq_false_iff.1 hp)]

/-- A pass that still runs goes on, and the period's begin is recorded as late. -/
theorem execScrubPassStart_late (hp : (s.dev.grav st).passing = true) :
    execScrubPassStart st s = .next (s.happened (s.dev.setGrav st
      ((s.dev.grav st).record 5 0 ((s.dev.grav st).pos / 64) s.time))) := by
  rw [execScrubPassStart]
  refine happening_some hl ?_
  dsimp only
  rw [if_neg (by simp [hen]; omega), if_pos hp]

theorem execScrubLevelCheck_enabled (t : Nat) :
    execScrubLevelCheck st t s = .next (s.happened (s.dev.setGrav st
      { s.dev.grav st with level := (s.dev.grav st).nextLevel t })) := by
  rw [execScrubLevelCheck]
  refine happening_some hl ?_
  dsimp only
  rw [if_neg (by simp [hen]; omega)]

end

variable (hs : (s.dev.grav st).mayScrub = true) (hq : (s.dev.grav st).queued ((s.dev.grav st).pos / 64) = false)
  (hp : s.dev.poisoned (stackAddress st (s.dev.grav st).pos) = false) (hpos : (s.dev.grav st).pos + 64 < 2 ^ 36)
include hs hq hp hpos

theorem execScrubRead_clean : execScrubRead st .clean s = .next (s.happened (s.dev.setGrav st
    { s.dev.grav st with pos := (s.dev.grav st).pos + 64 })) := by
  rw [execScrubRead]
  refine happening_some hl ?_
  dsimp only
  rw [if_neg (by simp [hs, hq]; omega), if_neg (Bool.eq_false_iff.1 hp), if_neg (Nat.not_le.2 hpos)]

/-- A corrected unit is recorded and counted. -/
theorem execScrubRead_corrected : execScrubRead st .corrected s = .next (s.happened (s.dev.setGrav st
    { (s.dev.grav st).record 3 0 ((s.dev.grav st).pos / 64) s.time with
      eccScrub := satInc (s.dev.grav st).eccScrub, pos := (s.dev.grav st).pos + 64 })) := by
  rw [execScrubRead]
  refine happening_some hl ?_
  dsimp only
  rw [if_neg (by simp [hs, hq]; omega), if_neg (Bool.eq_false_iff.1 hp), if_neg (Nat.not_le.2 hpos)]

/-- An uncorrectable unit is recorded and poisoned. -/
theorem execScrubRead_uncorrectable : execScrubRead st .uncorrectable s = .next (s.happened
    ({ s.dev with poison := stackAddress st (s.dev.grav st).pos / 64 :: s.dev.poison }.setGrav st
      { (s.dev.grav st).record 4 0 ((s.dev.grav st).pos / 64) s.time with pos := (s.dev.grav st).pos + 64 })) := by
  rw [execScrubRead]
  refine happening_some hl ?_
  dsimp only
  rw [if_neg (by simp [hs, hq]; omega), if_neg (Bool.eq_false_iff.1 hp), if_neg (Nat.not_le.2 hpos)]

end

/-! ## What a command's accesses leave: the table of commands (R379) -/

section
variable (d : Dev) (src ctx pa time : Nat)

@[simp] theorem Dev.release_dies (scope : Nat) : (d.release src scope).dies = d.dies := by
  unfold Dev.release
  split <;> rfl

@[simp] theorem Dev.engineReport_dies (cause : BitVec 8) (kind : EvKind) (baddr info0 info1 : Word) :
    (d.engineReport src ctx cause kind baddr info0 info1 time).dies = d.dies := by
  unfold Dev.engineReport Dev.toRing
  split <;> rfl

theorem Dev.writeAll_dies (bs : List Byte) : (d.writeAll src pa bs).dies = d.dies := rfl

theorem Dev.clearGranules_dies (n : Nat) : (d.clearGranules pa n).dies = d.dies := by
  unfold Dev.clearGranules
  split
  · split <;> rfl
  · rfl

/-- A write within a unit leaves the dies where entering its bytes does. -/
theorem Dev.unitWrite_dies {w : Dev → Dev} (hw : ∀ e, (w e).dies = e.dies) (bs : List Byte) :
    (d.unitWrite ctx pa bs time w).dies = d.dies := by
  unfold Dev.unitWrite
  split
  · split
    · exact hw _
    · rfl
  · exact hw d

@[simp] theorem Dev.writeBytes_dies (bs : List Byte) : (d.writeBytes src ctx pa bs time).dies = d.dies :=
  List.foldlRecOn (motive := fun e : Dev => e.dies = d.dies) _ _ rfl fun _ h x _ =>
    (Dev.clearGranules_dies ..).trans ((Dev.unitWrite_dies (w := fun d => d.engineWrite src x.1 _) _ _ _ _
      (fun _ => rfl) _).trans h)

@[simp] theorem Dev.taggedWrite_dies (tag : Nat) (bs : List Byte) :
    (d.taggedWrite src ctx tag pa bs time).dies = d.dies := by
  refine List.foldlRecOn (motive := fun e : Dev => e.dies = d.dies) _ _ rfl fun e h x _ => ?_
  dsimp only
  split
  · exact h
  · exact (Dev.writeBytes_dies ..).trans h

end

/-- The commands of a die's home Graver. -/
def Dev.subs (d : Dev) (die : Nat) : Tab SubEnt := (d.die die).subs

theorem Dev.subs_of_dies {d d' : Dev} (h : d'.dies = d.dies) (die : Nat) : d'.subs die = d.subs die := by
  rw [Dev.subs, Dev.subs, Dev.die, Dev.die, h]

/-- A change of a die that leaves its commands. -/
theorem Dev.subs_setDie {d : Dev} {k : Nat} {x : Die} (hx : x.subs = (d.die k).subs) (die : Nat) :
    (d.setDie k x).subs die = d.subs die := by
  by_cases h : die = k
  · subst h
    rw [Dev.subs, Dev.die_setDie_same, hx, Dev.subs]
  · rw [Dev.subs, Dev.die_setDie_other _ _ _ _ h, Dev.subs]

section
variable (m : Memory) (d : Dev) (ctx : Nat) (die : Nat)

theorem subs_counterSet (k i : Nat) (v : Word) : (counterSet d ctx k i v).subs die = d.subs die := by
  have hset (l : List CounterEnt) (c : BitVec 32) : (d.setDie (d.dieOfCtx ctx k)
      { d.die (d.dieOfCtx ctx k) with sram := l, cmiss := c }).subs die = d.subs die := by
    refine Dev.subs_setDie ?_ die
    rfl
  unfold counterSet
  dsimp only
  split
  · exact hset _ _
  · exact (Dev.subs_of_dies (Dev.writeAll_dies ..) die).trans (hset _ _)

theorem subs_counterOp (k i : Nat) (op : CounterOp) : (counterOp m d ctx k i op).1.subs die = d.subs die := by
  cases op with
  | add v =>
    simp only [counterOp]
    split <;> exact subs_counterSet ..
  | raise v => exact subs_counterSet ..
  | read => exact subs_counterSet ..

theorem subs_readCounter (id : Word) : (d.readCounter m ctx id).subs die = d.subs die := by
  unfold Dev.readCounter
  split
  · exact subs_counterOp ..
  · rfl

theorem Dev.subs_enterTlb (k : Nat) (e : TlbEnt) : (d.enterTlb k e).subs die = d.subs die := by
  have hcluster : (if k < 32 then d.updCluster k fun x => { x with tlb := addTlb x.tlb e 2048 } else d).dies =
      d.dies := by
    split <;> rfl
  refine Eq.trans (Dev.subs_setDie ?_ die) (Dev.subs_of_dies hcluster die)
  rfl

theorem Dev.subs_useTlb (bad : Nat → Bool) (cl : Option Nat) (va : Word) :
    (d.useTlb m bad ctx cl va).subs die = d.subs die := by
  unfold Dev.useTlb
  split
  · split
    · rfl
    · dsimp only
      split
      · rfl
      · split
        · exact Dev.subs_enterTlb ..
        · split
          · exact Dev.subs_enterTlb ..
          · rfl
  · rfl

variable {m d ctx}

theorem subs_engineStore {src : Nat} {va : Word} {bs : List Byte} {tag : Option Nat} {time : Nat} {d' : Dev}
    (h : engineStore m d src ctx va bs tag time = .ok d') : d'.subs die = d.subs die := by
  unfold engineStore at h
  split at h
  · cases h
  · cases h
    refine Eq.trans (Dev.subs_of_dies ?_ die) (Dev.subs_useTlb m d ctx die (walkBad d) (cacheOf src) va)
    refine List.foldlRecOn (motive := fun e : Dev => e.dies = _) _ _ rfl fun e he x _ => ?_
    cases tag with
    | some t => exact (Dev.taggedWrite_dies ..).trans he
    | none => exact (Dev.writeBytes_dies ..).trans he

theorem subs_ringClaim {r : RingDesc} {drain : Bool} {x : Dev × Nat} (h : ringClaim m d ctx r drain = some x) :
    x.1.subs die = d.subs die := by
  obtain ⟨id, -, h⟩ := Option.bind_eq_some_iff.1 h
  split at h
  · dsimp only at h
    obtain ⟨-, h⟩ := Option.ite_none_right_eq_some.1 h
    obtain rfl := Option.some.inj h
    exact (subs_counterOp ..).trans (subs_readCounter ..)
  · cases h

theorem subs_ringRelease {id : Word} {j : Nat} {d' : Dev} (h : ringRelease m d ctx id j = some d') :
    d'.subs die = d.subs die := by
  unfold ringRelease at h
  split at h
  · obtain ⟨-, h⟩ := Option.ite_none_right_eq_some.1 h
    dsimp only at h
    obtain ⟨-, h⟩ := Option.ite_none_right_eq_some.1 h
    obtain rfl := Option.some.inj h
    exact subs_counterOp ..
  · cases h

end

/-! ## Tiles (R380) -/

/-- Command k of a die has tile n as its next one to claim. -/
def Dev.NextTile (d : Dev) (die k n : Nat) : Prop := ∃ e, tget (d.die die).subs k = some e ∧ e.next = n

section
variable {m : Memory} {d d' : Dev} {die k n : Nat}

theorem Dev.NextTile.of_subs (hn : d.NextTile die k n) (h : d'.subs die = d.subs die) : d'.NextTile die k n := by
  obtain ⟨e, he, hen⟩ := hn
  exact ⟨e, (congrArg (tget · k) h).trans he, hen⟩

theorem Dev.tget_updSub {e : SubEnt} (he : tget (d.die die).subs k = some e) (f : SubEnt → SubEnt) :
    tget ((d.updSub die k f).die die).subs k = some (f e) := by
  rw [Dev.updSub, Dev.die_updDie_same, he]
  exact tget_tset_same ..

theorem Dev.NextTile.updSub (hn : d.NextTile die k n) {f : SubEnt → SubEnt} (hf : ∀ e, (f e).next = e.next) :
    (d.updSub die k f).NextTile die k n := by
  obtain ⟨e, he, rfl⟩ := hn
  exact ⟨f e, Dev.tget_updSub he f, hf e⟩

theorem Dev.NextTile.engineReport (hn : d.NextTile die k n) (src ctx : Nat) (cause : BitVec 8) (kind : EvKind)
    (baddr info0 info1 : Word) (time : Nat) :
    (d.engineReport src ctx cause kind baddr info0 info1 time).NextTile die k n :=
  hn.of_subs (Dev.subs_of_dies (Dev.engineReport_dies ..) die)

/-- A fault suspends or ends a command; it claims nothing. -/
theorem Dev.NextTile.subFault (hn : d.NextTile die k n) (src : Nat) (e : SubEnt) (x : EngFault) (i time : Nat) :
    (d.subFault src die k e x i time).NextTile die k n := by
  have hrep := hn.engineReport src e.ctx
  have ends {c : Dev} (hc : c.NextTile die k n) :
      (c.updSub die k fun e => { e with bad := true, flight := [] }).NextTile die k n := hc.updSub fun _ => rfl
  cases x with
  | trans va acc f =>
    unfold Dev.subFault
    dsimp only
    split
    · exact Dev.NextTile.updSub (hrep ..) fun _ => rfl
    · exact ends (hrep ..)
  | bad pa =>
    unfold Dev.subFault
    dsimp only
    split
    · exact ends (Dev.NextTile.engineReport (d := d.history 2 e.ctx pa time) hn ..)
    · exact ends (hrep ..)
  | unset | noEngine | scales | notHbm | away => exact ends (hrep ..)

theorem Dev.NextTile.writeBytes (hn : d.NextTile die k n) (src ctx pa : Nat) (bs : List Byte) (time : Nat) :
    (d.writeBytes src ctx pa bs time).NextTile die k n :=
  hn.of_subs (Dev.subs_of_dies (Dev.writeBytes_dies ..) die)

section
variable {e : SubEnt} {r : RingDesc} {j u top time : Nat}

theorem Dev.NextTile.pushTile (hn : d.NextTile die k n) (h : pushTile m d die e r j u time = .ok d') :
    d'.NextTile die k n := by
  unfold Machine.pushTile at h
  dsimp only at h
  split at h
  · cases h
  · cases h
  · cases h
  · split at h
    · cases h
      exact hn.writeBytes ..
    · split at h
      · cases h
      · split at h
        · cases h
        · cases h
          exact (hn.writeBytes ..).writeBytes ..

theorem Dev.NextTile.pullTile (hn : d.NextTile die k n) (h : pullTile m d die k e r j u top time = .ok d') :
    d'.NextTile die k n := by
  unfold Machine.pullTile at h
  dsimp only at h
  split at h
  · cases h
  · cases h
  · split at h
    · cases h
    · cases h
    · next hs =>
      cases h
      exact (hn.of_subs (subs_engineStore die hs)).updSub fun _ => rfl

/-- Moving and releasing a tile claims none. -/
theorem Dev.NextTile.subMove (hn : d.NextTile die k n) (h : subMove m d die k e r time = some d') :
    d'.NextTile die k n := by
  unfold Machine.subMove at h
  split at h
  · cases h
  · next j u t _ =>
    obtain ⟨-, h⟩ := Option.ite_none_left_eq_some.1 h
    generalize hmoved : (if (nth e.words 5 0).getLsbD 0 = true then
      Machine.pullTile m d die k e r j u (wfld (nth e.words 5 0) 32 32) time
        else Machine.pushTile m d die e r j u time) = moved at h
    cases moved with
    | error x =>
      obtain rfl := Option.some.inj h
      exact hn.subFault ..
    | ok c =>
      obtain ⟨c', hc, rfl⟩ := Option.map_eq_some_iff.1 h
      refine Dev.NextTile.updSub ?_ fun _ => rfl
      refine Dev.NextTile.of_subs ?_ ((subs_ringRelease die hc).trans (Dev.subs_of_dies (Dev.release_dies ..) die))
      split at hmoved
      · exact hn.pullTile hmoved
      · exact hn.pushTile hmoved

/-- A claim counts the tile claimed. -/
theorem nextTile_of_subClaim (he : tget (d.die die).subs k = some e) (h : subClaim m d die k e r = some d') :
    d'.NextTile die k (e.next + 1) := by
  obtain ⟨-, h⟩ := Option.ite_none_left_eq_some.1 h
  obtain ⟨⟨c, u⟩, hc, rfl⟩ := Option.map_eq_some_iff.1 h
  exact ⟨_, Dev.tget_updSub ((congrArg (tget · k) (subs_ringClaim die hc)).trans he) _, rfl⟩

theorem subClaim_eq_none (h : e.cancelled = true ∨ wfld (nth e.words 1 0) 0 32 ≤ e.next ∨ 4 ≤ e.flight.length) :
    subClaim m d die k e r = none :=
  if_pos (by simpa [or_assoc] using h)

end

end

section
variable {s : State} (hl : s.Live) {die k : Nat} {e : SubEnt} (he : tget (s.dev.die die).subs k = some e)
include hl he

section
variable (hred : e.isRed = false) (hsusp : e.susp = false) (hbad : e.bad = false) {r : RingDesc}
  (hr : ((s.dev.ctx e.ctx).bind fun c => ringOf c e.ring) = some r)
include hred hsusp hbad hr

theorem execSubscriptionTile_claims {d : Dev} (hc : subClaim s.mem s.dev die k e r = some d) :
    ∃ d', execSubscriptionTile die k s = .next (s.happened d') ∧ d'.NextTile die k (e.next + 1) := by
  have hn := nextTile_of_subClaim he hc
  have ⟨e', he', _⟩ := hn
  have hex {d' : Dev} (hd : ((subMove s.mem d die k e' r s.time).orElse fun _ => some d) = some d') :
      execSubscriptionTile die k s = .next (s.happened d') := by
    rw [execSubscriptionTile]
    refine happening_some hl ?_
    simp only [he, hred, hsusp, hbad, hr, hc, Option.getD_some, he', Bool.or_self, Bool.false_eq_true, if_false, hd]
  cases hm : subMove s.mem d die k e' r s.time with
  | none => exact ⟨d, hex (by rw [hm]; rfl), hn⟩
  | some d' => exact ⟨d', hex (by rw [hm]; rfl), hn.subMove hm⟩

theorem execSubscriptionTile_moves
    (hc : e.cancelled = true ∨ wfld (nth e.words 1 0) 0 32 ≤ e.next ∨ 4 ≤ e.flight.length) {d : Dev}
    (hm : subMove s.mem s.dev die k e r s.time = some d) :
    execSubscriptionTile die k s = .next (s.happened d) := by
  rw [execSubscriptionTile]
  refine happening_some hl ?_
  simp only [he, hred, hsusp, hbad, hr, subClaim_eq_none hc, Option.getD_none, Bool.or_self, Bool.false_eq_true,
    if_false, hm]
  rfl

end

/-! ## Reductions and completions (R380, R385) -/

theorem execGraverReduction_block {f : Fmt} (hf : e.dfmt s.dev = some f) (hred : e.isRed = true)
    (hsusp : e.susp = false) (hbad : e.bad = false) (hn : e.next < redBlocks e.words f.c) :
    execGraverReduction die k s = .next (s.happened (redBlock s.mem s.dev die k e f s.time)) := by
  rw [execGraverReduction]
  refine happening_some hl ?_
  simp only [he, hf]
  rw [if_neg (by simp [hred, hsusp, hbad, hn])]

theorem execSubscriptionComplete_ends {out : Nat} (ho : e.outcome s.dev = some out) :
    execSubscriptionComplete die k s = .next (s.happened
      (let d := s.dev.updDie die fun y => { y with subs := tdel y.subs k }
       let movers := if e.isRed then (List.range 16).map (336 + ·) else [homeGraver die]
       engineAdd s.mem (if (nth e.words 5 0).getLsbD 7 then
           movers.foldl (fun d a => d.release a (wfld (nth e.words 5 0) 8 3)) d else d)
         (homeGraver die) e.ctx (nth e.words (if e.isRed then 4 else 3) 0) (outcomeValue out) s.time)) := by
  rw [execSubscriptionComplete]
  refine happening_some hl ?_
  simp only [he, ho, Option.map_some]

end

/-- Settles O51: each event by what its condition makes of the counter, the batch, the queue, the scrubber or the
command. -/
theorem syncAndGraverEvents : Obligations.SyncAndGraverEvents := by
  unfold Obligations.SyncAndGraverEvents
  intro s hl
  refine ⟨fun ctx id mx v k j hr => ?counter, fun die ctx => execMoraineBatchTimeout_closes hl,
    fun ctx die x b hx hf hb => ?batch, fun st unit ctx data tag => ?accept,
    fun st ch col r0 r1 ecc hst hch u => ?command,
    fun st ch hst hch => execRefresh_closes hl hst hch, fun st hst => ?scrub,
    fun die k e r d he hred hsusp hbad hr => ⟨fun hc => ?claim, fun hc hm =>
      execSubscriptionTile_moves hl he hred hsusp hbad hr hc hm⟩,
    fun die k e f he hf hred hsusp hbad hn => execGraverReduction_block hl he hf hred hsusp hbad hn,
    fun die k e out he ho => execSubscriptionComplete_ends hl he ho⟩
  case counter =>
    intro old
    refine ⟨?_, ?_, ?_⟩
    · rintro rfl
      exact execCounterOperation_add hl hr
    · rintro rfl
      exact execCounterOperation_overflows hl hr
    · rintro rfl
      exact execCounterOperation_raise hl hr
  case batch =>
    intro t net
    refine ⟨execBatchApply_next hl hx hf hb, fun hnet => ?_⟩
    obtain ⟨y, hy, hty⟩ := Option.map_eq_some_iff.1 (applyBatch_tally s.mem s.dev ctx s.time hnet)
    obtain ⟨happ, hcount⟩ := Prod.mk.inj hty
    have hdie : b.die = die := by
      have := List.find?_some hb
      simp only [Bool.and_eq_true, decide_eq_true_eq] at this
      exact this.1
    refine ⟨y, hy, ?_, hcount⟩
    rw [happ, hdie]
    exact tget_tset_same ..
  case accept =>
    intro g q pa hst hu hq
    exact ⟨execGraverAccept_enters hl hst hu hq, execGraverAccept_drops hl hst hu hq⟩
  case command =>
    intro k last hu p used
    refine ⟨?_, ?_⟩
    · rintro rfl hrow
      obtain ⟨g, hg⟩ := Grav.exists_rowCommand hrow (Config.freeCycles s.free)
      exact ⟨_, g, hg, execGraverCommand_row hl hst hch hu hg⟩
    · rintro rfl hcol
      obtain ⟨d, hd⟩ := exists_columnCommand hcol (Config.freeCycles s.free) ecc s.time
      exact ⟨_, d, hd, execGraverCommand_column hl hst hch hu hd⟩
  case scrub =>
    intro g hen
    exact ⟨execScrubPassStart_begins hl hst hen, execScrubPassStart_late hl hst hen,
      execScrubLevelCheck_enabled hl hst hen, fun hs hq hp hpos => ⟨execScrubRead_clean hl hst hs hq hp hpos,
        execScrubRead_corrected hl hst hs hq hp hpos, _, execScrubRead_uncorrectable hl hst hs hq hp hpos, rfl⟩⟩
  case claim =>
    obtain ⟨d', hd, e', he', hn⟩ := execSubscriptionTile_claims hl he hred hsusp hbad hr hc
    exact ⟨d', e', hd, he', hn⟩

end Sys2Proof.Machine

/-!
SUPPORT. Syllables of the V class (R291-R301, R308, R309): the group, the mask or the element that each shared form sends,
and the obligations about them.
-/

namespace Sys2Proof.Machine

/-! ## The shared forms -/

/-- The elements that a VF form makes of the decoded elements of a, b and d, each rounded once under the draw x. -/
def vfElems (c : Core) (o : VF) (op : FVal → FVal → FVal → FVal) (x : Word) : List Nat :=
  let f := vfFmt o.ty
  let n := elemCount o.nq
  (List.range n).map fun k => f.encode (roundingOf o.rm o.sat x k)
    (op (f.decode (nth (c.elems o.a.toNat n f.c) k 0)) (f.decode (nth (c.second o.bs o.b 0 n f.c) k 0))
      (f.decode (nth (c.elems o.d.toNat n f.c) k 0)))

section
variable {s : State} {b : Bundle} {h : Hdr} (hi : Issuing s b h)
include hi

theorem vecBinary_issuing (o : VR) (w lat : Nat) (op : Nat → Nat → Nat) : vecBinary h o w lat op s =
    .next (s.after h (sendV s.dev b b.issuer o.d.toNat (packGroup w (List.zipWith op
      (b.issuer.elems o.a.toNat (elemCount o.nq) w) (b.issuer.second o.bs o.b o.mdf (elemCount o.nq) w))) lat)) :=
  vecResult_issuing hi ..

theorem vecUnary_issuing (o : VR) (w lat : Nat) (op : Nat → Nat) : vecUnary h o w lat op s =
    .next (s.after h (sendV s.dev b b.issuer o.d.toNat
      (packGroup w ((b.issuer.elems o.a.toNat (elemCount o.nq) w).map op)) lat)) :=
  vecResult_issuing hi ..

theorem vecImm_issuing (o : VI) (w : Nat) (op : Nat → Nat) : vecImm h o w op s =
    .next (s.after h (sendV s.dev b b.issuer o.d.toNat
      (packGroup w ((b.issuer.elems o.a.toNat (elemCount o.nq) w).map op)) 2)) :=
  vecResult_issuing hi ..

theorem maskForm_issuing (o : VMM) (op : MWord → MWord → MWord) : maskForm h o op s =
    .next (s.after h (sendM s.dev b o.md.toNat (op (b.issuer.m o.ma.toNat) (b.issuer.m o.mb.toNat)) 2)) :=
  syllable_ok hi rfl

/-- A VF form draws first, under its RM, and sends what it drew with (R98, R299). -/
theorem vecFloat_issuing (o : VF) (lat : Nat) (op : FVal → FVal → FVal → FVal) : vecFloat h o lat op s =
    .next (s.after h (sendV (drawIn s.dev b.core o.rm).1 b b.issuer o.d.toNat
      (packGroup (vfFmt o.ty).c (vfElems b.issuer o op (drawIn s.dev b.core o.rm).2)) lat)) :=
  syllable_ok hi rfl

end

/-! ## Integer forms (R291-R294) -/

/-- The width-coded forms of two sources with their operations and latencies. -/
def widthForms (h : Hdr) (ew : BitVec 2) (o : VR) : List (Instr × (Nat → Nat → Nat) × Nat) :=
  let w := widthOf ew
  [(.vadd h ew o, eAdd w, 2), (.vsub h ew o, eSub w, 2), (.vmul h ew o, eMul w, 3), (.vmulh h ew o, eMulh w, 3),
    (.vmin h ew o, min, 2), (.vmax h ew o, max, 2), (.vminn h ew o, eMinn w, 2), (.vmaxn h ew o, eMaxn w, 2),
    (.vshl h ew o, eShl w, 2), (.vshr h ew o, eShr w, 2), (.vsra h ew o, eSra w, 2), (.vadds h ew o, eAdds w, 2),
    (.vsubs h ew o, eSubs w, 2)]

theorem exec_widthForms (h : Hdr) (ew : BitVec 2) (o : VR) (s : State) :
    ∀ f ∈ widthForms h ew o, exec f.1 s = vecBinary h o (widthOf ew) f.2.2 f.2.1 s := by
  simp only [widthForms, List.forall_mem_cons, List.not_mem_nil, false_implies, implies_true]
  exact ⟨exec_vadd h ew o s, exec_vsub h ew o s, exec_vmul h ew o s, exec_vmulh h ew o s, exec_vmin h ew o s,
    exec_vmax h ew o s, exec_vminn h ew o s, exec_vmaxn h ew o s, exec_vshl h ew o s, exec_vshr h ew o s,
    exec_vsra h ew o s, exec_vadds h ew o s, exec_vsubs h ew o s, trivial⟩

/-- Settles O11: every form packs its operation's values of the elements of its sources. -/
theorem vectorIntegerResults : Obligations.VectorIntegerResults := by
  unfold Obligations.VectorIntegerResults
  intro s b h hi
  refine ⟨fun o ew => ⟨fun i f lat hm => ?twoSources, ?popc, ?clz, ?abs⟩, fun o => ?fixedWidth, fun o ew => ?immediate⟩
  case twoSources => exact (exec_widthForms h ew o s (i, f, lat) hm).trans (vecBinary_issuing hi ..)
  case popc => exact (exec_vpopc h ew o s).trans (vecUnary_issuing hi ..)
  case clz => exact (exec_vclz h ew o s).trans (vecUnary_issuing hi ..)
  case abs => exact (exec_vabs h ew o s).trans (vecUnary_issuing hi ..)
  case fixedWidth =>
    have hsends (w lat : Nat) (op : Nat → Nat → Nat) := vecBinary_issuing hi o w lat op
    exact ⟨(exec_vand h o s).trans (hsends ..), (exec_vor h o s).trans (hsends ..), (exec_vxor h o s).trans (hsends ..),
      (exec_vandn h o s).trans (hsends ..), (exec_vmov h o s).trans (hsends ..), (exec_vclmull h o s).trans (hsends ..),
      (exec_vclmulh h o s).trans (hsends ..), (exec_vperm h o s).trans (vecResult_issuing hi ..)⟩
  case immediate =>
    have hsends (op : Nat → Nat) := vecImm_issuing hi o (widthOf ew) op
    exact ⟨(exec_vaddi h ew o s).trans (hsends _), (exec_vshli h ew o s).trans (hsends _),
      (exec_vshri h ew o s).trans (hsends _), (exec_vmovi h ew o s).trans (hsends _)⟩

/-! ## Extract and insert (R308) -/

theorem elemPlace_inside {first n w j : Nat} (hj : j < n) (hr : first + j * w / 2048 ≤ 63) :
    elemPlace first n w j = some (first + j * w / 2048, j * w % 2048) := by
  simp [elemPlace, hj, hr]

theorem elemPlace_beyond {first n w j : Nat} (hj : n ≤ j) : elemPlace first n w j = none := by
  simp [elemPlace, hj]

section
variable {s : State} {b : Bundle} {h : Hdr} (hi : Issuing s b h) {o : VS}
include hi

theorem execVexts_inside {r k : Nat}
    (hp : elemPlace o.a.toNat (elemCount o.nq) (tyWidth o.ty) ((b.issuer.s o.b.toNat).toNat % 2 ^ 32) = some (r, k)) :
    execVexts h o s = .next (s.after h
      (sendS s.dev b b.issuer o.d.toNat (toW (fld (b.issuer.v r).toNat k (tyWidth o.ty))) 6)) :=
  syllable_ok hi (by simp only [wfld_zero, hp])

theorem execVexts_beyond
    (hp : elemPlace o.a.toNat (elemCount o.nq) (tyWidth o.ty) ((b.issuer.s o.b.toNat).toNat % 2 ^ 32) = none) :
    execVexts h o s = .next (s.after h (sendS s.dev b b.issuer o.d.toNat 0 6)) :=
  syllable_ok hi (by simp only [wfld_zero, hp])

theorem execVinss_inside {r k : Nat}
    (hp : elemPlace o.d.toNat (elemCount o.nq) (tyWidth o.ty) ((b.issuer.s o.b.toNat).toNat % 2 ^ 32) = some (r, k)) :
    execVinss h o s = .next (s.after h (sendV s.dev b b.issuer r
      [(BitVec.ofNat 2048 ((b.issuer.s o.a.toNat).toNat % 2 ^ tyWidth o.ty * 2 ^ k),
        BitVec.ofNat 2048 ((2 ^ tyWidth o.ty - 1) * 2 ^ k))] 2)) :=
  syllable_ok hi (by simp only [wfld_zero, hp])

theorem execVinss_beyond
    (hp : elemPlace o.d.toNat (elemCount o.nq) (tyWidth o.ty) ((b.issuer.s o.b.toNat).toNat % 2 ^ 32) = none) :
    execVinss h o s = .next (s.after h s.dev) :=
  syllable_ok hi (by simp only [wfld_zero, hp])

end

/-! ## Selection, masks, compares and the seed (R295-R298, R309) -/

/-- Settles O12: each form sends its one group, mask or word; VEXTS and VINSS ask first where their element lies. -/
theorem masksSelectionAndSeed : Obligations.MasksSelectionAndSeed := by
  unfold Obligations.MasksSelectionAndSeed
  intro s b h hi
  refine ⟨fun o => (exec_vsel h o s).trans (syllable_ok hi rfl), fun o => ?masks,
    fun o => (exec_vcmp h o s).trans (syllable_ok hi rfl), fun o => ?element,
    fun o => (exec_vseed h o s).trans (syllable_ok hi rfl)⟩
  case masks =>
    have hsends (op : MWord → MWord → MWord) := maskForm_issuing hi o op
    exact ⟨(exec_mand h o s).trans (hsends _), (exec_mor h o s).trans (hsends _), (exec_mxor h o s).trans (hsends _),
      (exec_mnot h o s).trans (hsends _)⟩
  case element =>
    exact ⟨fun hj hr => (exec_vexts h o s).trans (execVexts_inside hi (elemPlace_inside hj hr)),
      fun hj => (exec_vexts h o s).trans (execVexts_beyond hi (elemPlace_beyond hj)),
      fun hj hr => (exec_vinss h o s).trans (execVinss_inside hi (elemPlace_inside hj hr)),
      fun hj => (exec_vinss h o s).trans (execVinss_beyond hi (elemPlace_beyond hj))⟩

/-! ## Floating-point arithmetic and approximations (R299-R301) -/

/-- The VF forms with their latencies and their operations on decoded elements of a, b and d. -/
def vfForms (h : Hdr) (o : VF) : List (Instr × Nat × (FVal → FVal → FVal → FVal)) :=
  [(.vfadd h o, 4, fun a b _ => a.add b), (.vfsub h o, 4, fun a b _ => a.add b.neg),
    (.vfmul h o, 4, fun a b _ => a.mul b), (.vfma h o, 4, fun a b d => (a.mul b).add d),
    (.vfms h o, 4, fun a b d => (a.mul b).add d.neg), (.vfnma h o, 4, fun a b d => (a.mul b).neg.add d),
    (.vfmin h o, 4, fun a b _ => fMin a b), (.vfmax h o, 4, fun a b _ => fMax a b), (.vfabs h o, 4, fun a _ _ => a.abs),
    (.vfneg h o, 4, fun a _ _ => a.neg), (.vexp2 h o, 6, fun a _ _ => round16 (exp2Val a)),
    (.vlog2 h o, 6, fun a _ _ => round16 (log2Val a)), (.vrcp h o, 6, fun a _ _ => round16 (rcpVal a)),
    (.vrsq h o, 6, fun a _ _ => round16 (rsqVal a)), (.vtanh h o, 6, fun a _ _ => round16 (tanhVal a))]

theorem exec_vfForms (h : Hdr) (o : VF) (s : State) :
    ∀ f ∈ vfForms h o, exec f.1 s = vecFloat h o f.2.1 f.2.2 s := by
  simp only [vfForms, List.forall_mem_cons, List.not_mem_nil, false_implies, implies_true]
  exact ⟨exec_vfadd h o s, exec_vfsub h o s, exec_vfmul h o s, exec_vfma h o s, exec_vfms h o s, exec_vfnma h o s,
    exec_vfmin h o s, exec_vfmax h o s, exec_vfabs h o s, exec_vfneg h o s, exec_vexp2 h o s, exec_vlog2 h o s,
    exec_vrcp h o s, exec_vrsq h o s, exec_vtanh h o s, trivial⟩

/-- Settles O13: every form of the family encodes its operation's value of the decoded elements, once for each. -/
theorem vectorFloatResults : Obligations.VectorFloatResults := by
  unfold Obligations.VectorFloatResults
  intro s b h o hi c f n x el y i lat op hm
  exact (exec_vfForms h o s (i, lat, op) hm).trans (vecFloat_issuing hi ..)

end Sys2Proof.Machine

/-!
SUPPORT. The row engine beside the store entry of `twiceNamed`, which names one byte twice (R124, R127): a row moved, a
control word stored or a trace stored to bytes of that granule changes what the core reads at that byte. The obligations
about them, which ask for every state, fail there.
-/

namespace Sys2Proof.Machine

/-- Refutes O27: a row of one byte moved to byte 0 of a granule changes what the core reads at byte 1, from 5 to 6,
where the entry of the running phase with which it merges names byte 1 twice. -/
theorem not_movedRows : ¬ Obligations.MovedRows := by
  intro h
  obtain ⟨-, hother, -⟩ := h { cells := [] } twiceDev 0 1 [(0x01FFFFFF00000008, 0x01FFFFFF00000000)]
    (List.pairwise_singleton ..)
  exact absurd (hother 0x10000000001 (List.forall_mem_singleton.2 (by decide +kernel))) (by decide +kernel)

/-- Core 0 with that store, with s4 at byte 4 of its granule, one control word and a trace of one entry. -/
def oneRowDev : Dev :=
  twiceDev.updCore 0 fun c => { c with
    r := { c.r with s := [(4, 0x01FFFFFF00000004)] }
    row := { c.row with nrow := 1, tlen := 1, plen := 1, tvalid := true } }

def oneRowBundle : Bundle := { twiceBundle with base := oneRowDev }

def oneRowState : State := { twiceState with dev := oneRowDev, bundle := some oneRowBundle }

/-- The operands of a row-engine store at s4. -/
def rowStoreOperands : WR := { d := 0, a := 4, b := 0, mq := 0, blk := 0 }

/-- What core 0 reads at an address after a syllable of that bundle, read off the units that its effect leaves. -/
theorem oneRow_reads_after {i : Instr} {d : Dev} {pa : Nat} {v : Byte}
    (hafter : readAfter (exec i oneRowState) pa = some v)
    (hexec : exec i oneRowState = .next (oneRowState.after storeHdr d)) : readByte oneRowState.mem d 0 pa = v := by
  rw [hexec, ← State.afterWith_same (b := oneRowBundle) rfl, readAfter_afterWith] at hafter
  exact Option.some.inj hafter

/-- Refutes O24: a control word stored at bytes 4 to 7 of a granule changes what the core reads at byte 1, from 5 to 6,
where the entry of the running phase with which it merges names byte 1 twice. -/
theorem not_rowWords : ¬ Obligations.RowWords := by
  intro h
  obtain ⟨-, hfree⟩ := h oneRowState oneRowBundle storeHdr ⟨rfl, rfl⟩
  obtain ⟨-, hstore, -⟩ := hfree (by decide +kernel)
  obtain ⟨d, hexec, hread, -⟩ := hstore rowStoreOperands (by decide +kernel)
  have hsame : readByte oneRowState.mem d 0 0x10000000001 = 5 := (hread 0x10000000001).trans (by decide +kernel)
  exact absurd (hsame.symm.trans (oneRow_reads_after (v := 6) (by decide +kernel) hexec)) (by decide)

/-- Refutes O28: a trace entry stored at bytes 4 and 5 of a granule changes what the core reads at byte 1, from 5 to 6,
where the entry of the running phase with which it merges names byte 1 twice. -/
theorem not_rowTracesAndMasks : ¬ Obligations.RowTracesAndMasks := by
  intro h
  obtain ⟨-, hstore, -⟩ := h oneRowState oneRowBundle storeHdr ⟨rfl, rfl⟩ (by decide +kernel)
  obtain ⟨d, hexec, hread, -⟩ := hstore rowStoreOperands (by decide +kernel) (by decide +kernel)
  have hsame : readByte oneRowState.mem d 0 0x10000000001 = 5 := (hread 0x10000000001).trans (by decide +kernel)
  exact absurd (hsame.symm.trans (oneRow_reads_after (v := 6) (by decide +kernel) hexec)) (by decide)

end Sys2Proof.Machine

/-!
SUPPORT. The row engine (R313-R337): checks in order, what a W syllable that issues leaves, and the control words after
rows have been given new ones.
-/

namespace Sys2Proof.Machine

/-! ## Checks in order (R336) -/

theorem firstOf_nil : firstOf [] = none := rfl
@[simp] theorem firstOf_none (l : List (Option Event)) : firstOf (none :: l) = firstOf l := rfl
@[simp] theorem firstOf_some (e : Event) (l : List (Option Event)) : firstOf (some e :: l) = some e := rfl

theorem firstOf_eq_none_iff {l : List (Option Event)} : firstOf l = none ↔ ∀ x ∈ l, x = none :=
  List.findSome?_eq_none_iff

theorem checkedRow_ok {l : List (Option Event)} (hl : firstOf l = none) (x : Dev × Nat) : checkedRow l x = .ok x := by
  rw [checkedRow, hl]

theorem checkedRow_error {l : List (Option Event)} {e : Event} (hl : firstOf l = some e) (x : Dev × Nat) :
    checkedRow l x = .error e := by
  rw [checkedRow, hl]

/-! ## A W syllable that issues (R318, R319) -/

/-- The units after a W syllable whose effect leaves d: its event is counted, and its core's engine is busy until a
cycle and accesses some bytes meanwhile. -/
def Dev.engaged (d : Dev) (n cycle : Nat) (touched : List (Nat × Nat)) : Dev :=
  d.updCore n fun x => { (x.count 0x11 1) with row := { x.row with busyUntil := cycle, touched := touched } }

section
variable (d : Dev) (n cycle : Nat) (touched : List (Nat × Nat))

@[simp] theorem Dev.engaged_stores : (d.engaged n cycle touched).stores = d.stores := rfl

@[simp] theorem Dev.core_engaged_pend : ((d.engaged n cycle touched).core n).pend = (d.core n).pend := by
  rw [engaged, Dev.core_updCore_same]; rfl

@[simp] theorem Dev.core_engaged_r : ((d.engaged n cycle touched).core n).r = (d.core n).r := by
  rw [engaged, Dev.core_updCore_same]; rfl

@[simp] theorem Dev.core_engaged_row : ((d.engaged n cycle touched).core n).row =
    { (d.core n).row with busyUntil := cycle, touched := touched } := by
  rw [engaged, Dev.core_updCore_same]

variable (r : RowState)

@[simp] theorem Dev.setRow_stores : (d.setRow n r).stores = d.stores := rfl

@[simp] theorem Dev.core_setRow : (d.setRow n r).core n = { d.core n with row := r } := by
  rw [setRow, Dev.core_updCore_same]

end

/-- Cycles by which a W syllable starts later than it issues (R318). -/
def Bundle.rowLate (b : Bundle) (d : Dev) : Nat := max b.cycle (d.core b.core).row.busyUntil - b.cycle

section
variable {s : State} {b : Bundle} {h : Hdr} {touch : Core → List (Word × Nat)}
  {f : State → Bundle → Core → Nat → Except Event (Dev × Nat)} (hi : Issuing s b h)
  (hfree : b.issuer.row.busyUntil ≤ b.cycle)
include hi hfree

theorem rowSyllable_ok {d : Dev} {busy : Nat} (hf : f s b b.issuer (b.rowLate s.dev) = .ok (d, busy)) :
    rowSyllable h touch f s = .next (s.after h (d.engaged b.core (max b.cycle (s.dev.core b.core).row.busyUntil + busy)
      ((touch b.issuer).map fun (a, n) => (spmOf b.core a, n)))) := by
  rw [Bundle.rowLate] at hf
  refine syllable_ok hi ?_
  simp only [if_neg (Nat.not_lt.2 hfree), hf]
  rfl

theorem rowSyllable_error {e : Event} (hf : f s b b.issuer (b.rowLate s.dev) = .error e) :
    rowSyllable h touch f s = .next (s.faultBundle b.base e) := by
  rw [Bundle.rowLate] at hf
  refine syllable_raise hi ?_
  simp only [if_neg (Nat.not_lt.2 hfree), hf]

end

@[simp] theorem core_sendS (d : Dev) (b : Bundle) (c : Core) (n : Nat) (v : Word) (lat : Nat) :
    (sendS d b c n v lat).core b.core = (d.core b.core).push (b.pend (.s (physSV c.lp n) v) lat) :=
  sendIn_core ..

/-! ## Control words (R314, R315) -/

@[simp] theorem RowState.word_setWord_same (r : RowState) (i : Nat) (w : BitVec 32) : (r.setWord i w).word i = w :=
  tgetD_tset_same ..

theorem RowState.word_setWord_other (r : RowState) {i k : Nat} (w : BitVec 32) (hk : k ≠ i) :
    (r.setWord i w).word k = r.word k :=
  tgetD_tset_other _ _ _ _ _ hk

/-- The words of some rows replaced. -/
def RowState.put (r : RowState) (new : Nat → BitVec 32) (l : List Nat) : RowState :=
  l.foldl (fun r i => r.setWord i (new i)) r

section
variable (r : RowState) (new : Nat → BitVec 32) (l : List Nat)

theorem RowState.put_concat (i : Nat) : r.put new (l ++ [i]) = (r.put new l).setWord i (new i) :=
  List.foldl_concat ..

theorem RowState.word_put (k : Nat) : (r.put new l).word k = if k ∈ l then new k else r.word k := by
  induction l using List.reverseRecOn with
  | nil => rfl
  | append_singleton l i ih =>
    rw [put_concat]
    rcases eq_or_ne k i with rfl | hk
    · simp
    · simp [word_setWord_other _ _ hk, ih, hk]

/-- Nothing but control words changes. -/
theorem RowState.put_rest : { r.put new l with cwa := r.cwa } = r := by
  induction l using List.reverseRecOn with
  | nil => rfl
  | append_singleton l i ih => rw [put_concat]; exact ih

@[simp] theorem RowState.put_nrow : (r.put new l).nrow = r.nrow := (congrArg RowState.nrow (r.put_rest new l) :)
@[simp] theorem RowState.put_live : (r.put new l).live = r.live := (congrArg RowState.live (r.put_rest new l) :)
@[simp] theorem RowState.put_thr : (r.put new l).thr = r.thr := (congrArg RowState.thr (r.put_rest new l) :)
@[simp] theorem RowState.put_exits : (r.put new l).exits = r.exits := (congrArg RowState.exits (r.put_rest new l) :)

@[simp] theorem RowState.put_isLive (k : Nat) : (r.put new l).isLive k = r.isLive k := by
  rw [isLive, put_live, isLive]

end

/-- A fold over distinct entries whose value after each part of them is known. -/
theorem foldl_eq_of_done {α : Type} {step : α → Nat → α} {value : List Nat → α} {l : List Nat} (hl : l.Nodup)
    (hstep : ∀ done, ∀ i ∈ l, i ∉ done → step (value done) i = value (done ++ [i])) :
    l.foldl step (value []) = value l := by
  suffices hrest : ∀ todo done, done ++ todo = l → todo.foldl step (value done) = value l from hrest l [] rfl
  intro todo
  induction todo with
  | nil => intro done hsplit; rw [← hsplit, List.append_nil]; rfl
  | cons i todo ih =>
    intro done hsplit
    have hnew : i ∉ done := fun hin =>
      List.disjoint_of_nodup_append (hsplit ▸ hl) hin List.mem_cons_self
    rw [List.foldl_cons, hstep done i (hsplit ▸ by simp) hnew]
    exact ih _ (by rw [← hsplit, List.append_assoc]; rfl)

end Sys2Proof.Machine

/-!
SUPPORT. Updates of control words (R323-R325, R330), each fold of the model as the words that its rows get. The
obligation about them follows.
-/

namespace Sys2Proof.Machine

/-! ## ROWUPD (R324) -/

section
variable (r : RowState) (blk first n : Nat) (scores : List Nat)

/-- Does an update rewrite a row? A live row of its tile, below NROW, with ACT 0. -/
def RowState.updates (k : Nat) : Bool :=
  decide (first ≤ k ∧ k < first + n ∧ k < r.nrow) && r.isLive k && cwAct (r.word k) == 0

/-- The new word of a row that an update rewrites, and whether it exits. -/
def RowState.updated (k : Nat) : BitVec 32 × Bool := updateRow r (r.word k) blk (nth scores (k - first) 0)

/-- One row of an update, with the rows that have exited so far. -/
def updateStep (acc : RowState × Nat) (i : Nat) : RowState × Nat :=
  let k := first + i
  if k < acc.1.nrow && acc.1.isLive k && cwAct (acc.1.word k) = 0 then
    let (v, out) := updateRow acc.1 (acc.1.word k) blk (nth scores i 0)
    (acc.1.setWord k v, if out then acc.2 + 1 else acc.2)
  else acc

/-- The words and the exits after an update of some rows of the tile. -/
def RowState.afterUpdate (rows : List Nat) : RowState × Nat :=
  let hit := (rows.map (first + ·)).filter (r.updates first n)
  (r.put (fun k => (r.updated blk first scores k).1) hit, hit.countP fun k => (r.updated blk first scores k).2)

variable {r blk first n scores}

theorem RowState.afterUpdate_concat (done : List Nat) (i : Nat) : r.afterUpdate blk first n scores (done ++ [i]) =
    if r.updates first n (first + i) then
      ((r.afterUpdate blk first n scores done).1.setWord (first + i) (r.updated blk first scores (first + i)).1,
        if (r.updated blk first scores (first + i)).2 then (r.afterUpdate blk first n scores done).2 + 1
        else (r.afterUpdate blk first n scores done).2)
    else r.afterUpdate blk first n scores done := by
  by_cases hm : r.updates first n (first + i) = true
  · by_cases hout : (r.updated blk first scores (first + i)).2 = true <;>
      simp [afterUpdate, hm, hout, put_concat]
  · simp [afterUpdate, hm]

/-- A row of the tile is updated as it was before the update. -/
theorem updateStep_afterUpdate {done : List Nat} {i : Nat} (hi : i < n) (hnew : i ∉ done) :
    updateStep blk first scores (r.afterUpdate blk first n scores done) i =
      r.afterUpdate blk first n scores (done ++ [i]) := by
  have hword : (r.afterUpdate blk first n scores done).1.word (first + i) = r.word (first + i) := by
    rw [RowState.afterUpdate, RowState.word_put, if_neg (by simp [hnew])]
  have hthr (w : BitVec 32) (v : Nat) :
      updateRow (r.afterUpdate blk first n scores done).1 w blk v = updateRow r w blk v := by
    simp only [updateRow, RowState.afterUpdate, RowState.put_thr]
  have hnrow : (r.afterUpdate blk first n scores done).1.nrow = r.nrow := RowState.put_nrow ..
  have hlive : (r.afterUpdate blk first n scores done).1.isLive (first + i) = r.isLive (first + i) :=
    RowState.put_isLive ..
  have hmeets : r.updates first n (first + i) =
      (decide (first + i < r.nrow) && r.isLive (first + i) && decide (cwAct (r.word (first + i)) = 0)) := by
    simp [RowState.updates, hi, Bool.beq_eq_decide_eq]
  have hscore : r.updated blk first scores (first + i) = updateRow r (r.word (first + i)) blk (nth scores i 0) := by
    rw [RowState.updated, Nat.add_sub_cancel_left]
  simp only [updateStep, hword, hthr, hnrow, hlive, RowState.afterUpdate_concat, hmeets, hscore]

theorem foldl_updateStep (r : RowState) (blk first n : Nat) (scores : List Nat) :
    (List.range n).foldl (updateStep blk first scores) (r, 0) = r.afterUpdate blk first n scores (List.range n) :=
  foldl_eq_of_done (value := r.afterUpdate blk first n scores) List.nodup_range fun _ _ hi hnew =>
    updateStep_afterUpdate (List.mem_range.1 hi) hnew

theorem RowState.in_tile_of_updates {k : Nat} (hk : r.updates first n k = true) :
    first ≤ k ∧ k < first + n ∧ k < r.nrow :=
  of_decide_eq_true (Bool.and_eq_true_iff.1 (Bool.and_eq_true_iff.1 hk).1).1

/-- The rows of a tile that an update rewrites. -/
theorem mem_updates {k : Nat} : k ∈ ((List.range n).map (first + ·)).filter (r.updates first n) ↔
    r.updates first n k = true := by
  rw [List.mem_filter, and_iff_right_iff_imp, ← List.range'_eq_map_range, List.mem_range'_1]
  intro hk
  obtain ⟨hle, hlt, -⟩ := RowState.in_tile_of_updates hk
  exact ⟨hle, hlt⟩

theorem RowState.word_afterUpdate (k : Nat) : (r.afterUpdate blk first n scores (List.range n)).1.word k =
    if r.updates first n k = true then (r.updated blk first scores k).1 else r.word k := by
  rw [afterUpdate, word_put]
  simp only [mem_updates]

/-- The exits are the rows rewritten that exit, counted over all rows. -/
theorem RowState.exits_afterUpdate : (r.afterUpdate blk first n scores (List.range n)).2 =
    ((List.range r.nrow).filter fun k => r.updates first n k && (r.updated blk first scores k).2).length := by
  rw [afterUpdate, List.countP_eq_length_filter]
  refine List.Perm.length_eq ((List.perm_ext_iff_of_nodup ?_ (List.nodup_range.filter _)).2 fun k => ?_)
  · exact ((List.nodup_range.map (add_right_injective first)).filter _).filter _
  · rw [List.mem_filter, mem_updates, List.mem_filter, Bool.and_eq_true, and_iff_right_of_imp (b := _ ∧ _)]
    rintro ⟨hk, -⟩
    obtain ⟨-, -, hrow⟩ := in_tile_of_updates hk
    exact List.mem_range.2 hrow

end

section
variable {s : State} {b : Bundle} {h : Hdr} (hi : Issuing s b h) (hfree : b.issuer.row.busyUntil ≤ b.cycle)
include hi hfree

/-- The rows of a tile that a ROWUPD rewrites get their new words, and their exits are sent and counted. -/
theorem execRowupd_traced (o : WR) (ht : b.issuer.row.tvalid = true) :
    let u := b.issuer.row.afterUpdate o.blk.toNat (b.issuer.s o.b.toNat).toNat (tileRows o.mq)
      (b.issuer.elems o.a.toNat (tileRows o.mq) 32) (List.range (tileRows o.mq))
    execRowupd h o s = .next (s.after h ((sendS (s.dev.setRow b.core { u.1 with exits := satAdd u.1.exits u.2 }) b
      b.issuer o.d.toNat (toW u.2) (4 + b.rowLate s.dev)).engaged b.core
        (max b.cycle (s.dev.core b.core).row.busyUntil + 4) [])) := by
  intro u
  have hfold : (List.range (tileRows o.mq)).foldl (updateStep o.blk.toNat (b.issuer.s o.b.toNat).toNat
      (b.issuer.elems o.a.toNat (tileRows o.mq) 32)) (b.issuer.row, 0) = u := foldl_updateStep ..
  rw [← hfold]
  unfold execRowupd
  exact rowSyllable_ok hi hfree (checkedRow_ok (by rw [if_pos ht]; rfl) _)

theorem execRowupd_untraced (o : WR) (ht : b.issuer.row.tvalid = false) :
    execRowupd h o s = .next (s.faultBundle b.base (mkFault 0x61 (sylWord (.rowupd h o)) 0)) := by
  unfold execRowupd
  exact rowSyllable_error hi hfree (checkedRow_error (by rw [if_neg (by simp [ht])]; rfl) _)

end

/-! ## ROWREC (R325) -/

section
variable (r : RowState) (first n : Nat) (vals : List Nat)

/-- The word that a ROWREC gives a row with ACT 3: its count set, or at 0 its action reset. -/
def RowState.recursed (k : Nat) : BitVec 32 :=
  let v := min (nth vals (k - first) 0) 15
  if v = 0 then cwWith (r.word k) 0 0 0 else cwWith (r.word k) (cwBlk (r.word k)) v 3

/-- One row of a ROWREC. -/
def recurseStep (r : RowState) (i : Nat) : RowState :=
  let x := r.word (first + i)
  let k := min (nth vals i 0) 15
  if cwAct x ≠ 3 then r
  else r.setWord (first + i) (if k = 0 then cwWith x 0 0 0 else cwWith x (cwBlk x) k 3)

/-- The words after a ROWREC of some rows of its range. -/
def RowState.afterRecurse (rows : List Nat) : RowState :=
  r.put (r.recursed first vals) ((rows.map (first + ·)).filter fun k => cwAct (r.word k) = 3)

variable {r first n vals}

theorem recurseStep_afterRecurse {done : List Nat} {i : Nat} (hnew : i ∉ done) :
    recurseStep first vals (r.afterRecurse first vals done) i = r.afterRecurse first vals (done ++ [i]) := by
  have hword : (r.afterRecurse first vals done).word (first + i) = r.word (first + i) := by
    rw [RowState.afterRecurse, RowState.word_put, if_neg (by simp [hnew])]
  have hvalue : r.recursed first vals (first + i) = (let v := min (nth vals i 0) 15
      if v = 0 then cwWith (r.word (first + i)) 0 0 0
      else cwWith (r.word (first + i)) (cwBlk (r.word (first + i))) v 3) := by
    rw [RowState.recursed, Nat.add_sub_cancel_left]
  rw [recurseStep, hword]
  by_cases hact : cwAct (r.word (first + i)) = 3
  · simp [RowState.afterRecurse, hact, RowState.put_concat, hvalue]
  · simp [RowState.afterRecurse, hact]

theorem foldl_recurseStep (r : RowState) (first n : Nat) (vals : List Nat) :
    (List.range n).foldl (recurseStep first vals) r = r.afterRecurse first vals (List.range n) :=
  foldl_eq_of_done (value := r.afterRecurse first vals) List.nodup_range fun _ _ _ hnew =>
    recurseStep_afterRecurse hnew

theorem RowState.word_afterRecurse (k : Nat) : (r.afterRecurse first vals (List.range n)).word k =
    if first ≤ k ∧ k < first + n ∧ cwAct (r.word k) = 3 then r.recursed first vals k else r.word k := by
  rw [afterRecurse, word_put]
  simp only [← List.range'_eq_map_range, List.mem_filter, List.mem_range'_1, decide_eq_true_eq, and_assoc]

end

/-! ## ROWRDEC (R330) -/

section
variable (r : RowState)

/-- Does a ROWRDEC count a row down? A live row below NROW with ACT 3. -/
def RowState.counts (k : Nat) : Bool := r.isLive k && decide (cwAct (r.word k) = 3)

/-- The word of a row counted down: its action is reset at the last count. -/
def countedDown (x : BitVec 32) : BitVec 32 :=
  if cwRem x ≤ 1 then cwWith x 0 0 0 else cwWith x (cwBlk x) (cwRem x - 1) 3

/-- The words after some rows have been counted down. -/
def RowState.afterCount (rows : List Nat) : RowState := r.put (fun k => countedDown (r.word k)) rows

/-- The rows that a ROWRDEC of some rows leaves: with ACT 3, a count of at least 1, and the block of one of them. -/
def RowState.leftAfter (rows : List Nat) : List Nat :=
  let after := r.afterCount rows
  (List.range after.nrow).filter fun i => decide (cwAct (after.word i) = 3) &&
    (rows.map fun i => cwBlk (r.word i)).contains (cwBlk (after.word i)) && decide (1 ≤ cwRem (after.word i))

theorem RowState.mem_leftAfter {r : RowState} {rows : List Nat} {k : Nat} : k ∈ r.leftAfter rows ↔
    k < r.nrow ∧ cwAct ((r.afterCount rows).word k) = 3 ∧
      (∃ i ∈ rows, cwBlk (r.word i) = cwBlk ((r.afterCount rows).word k)) ∧ 1 ≤ cwRem ((r.afterCount rows).word k) := by
  have hnrow : (r.afterCount rows).nrow = r.nrow := put_nrow ..
  simp [leftAfter, and_assoc, hnrow]

theorem foldl_countedDown {rows : List Nat} (hrows : rows.Nodup) :
    rows.foldl (fun r i => r.setWord i (countedDown (r.word i))) r = r.afterCount rows := by
  refine foldl_eq_of_done (value := r.afterCount) hrows fun done i _ hnew => ?_
  rw [RowState.afterCount, RowState.word_put, if_neg hnew, ← RowState.put_concat, RowState.afterCount]

end

section
variable {s : State} {b : Bundle} {h : Hdr} (hi : Issuing s b h) (hfree : b.issuer.row.busyUntil ≤ b.cycle)
include hi hfree

theorem execRowrec_beyond (o : WI) (hn : b.issuer.row.nrow < (b.issuer.s o.a.toNat).toNat + o.imm.toNat) :
    execRowrec h o s = .next (s.faultBundle b.base
      (traceRange (sylWord (.rowrec h o)) (b.issuer.s o.a.toNat).toNat 5 b.issuer.row)) := by
  unfold execRowrec
  exact rowSyllable_error hi hfree (checkedRow_error (by rw [if_pos hn]; rfl) _)

theorem execRowrec_within (o : WI) (hn : (b.issuer.s o.a.toNat).toNat + o.imm.toNat ≤ b.issuer.row.nrow) :
    let first := (b.issuer.s o.a.toNat).toNat
    execRowrec h o s = .next (s.after h ((s.dev.setRow b.core (b.issuer.row.afterRecurse first
      (b.issuer.elems o.d.toNat o.imm.toNat 32) (List.range o.imm.toNat))).engaged b.core
        (max b.cycle (s.dev.core b.core).row.busyUntil + 4) [])) := by
  intro first
  have hfold : (List.range o.imm.toNat).foldl (recurseStep first (b.issuer.elems o.d.toNat o.imm.toNat 32))
      b.issuer.row = _ := foldl_recurseStep ..
  rw [← hfold]
  unfold execRowrec
  exact rowSyllable_ok hi hfree (checkedRow_ok (by rw [if_neg (Nat.not_lt.2 hn)]; rfl) _)

/-- Rows that a ROWRDEC counts down. -/
theorem execRowrdec_traced (o : WR) (ht : b.issuer.row.tvalid = true) :
    let rows := (List.range b.issuer.row.nrow).filter b.issuer.row.counts
    execRowrdec h o s = .next (s.after h ((sendS (s.dev.setRow b.core (b.issuer.row.afterCount rows)) b b.issuer
      o.d.toNat (toW (b.issuer.row.leftAfter rows).length) (4 + b.rowLate s.dev)).engaged b.core
        (max b.cycle (s.dev.core b.core).row.busyUntil + 4) [])) := by
  intro rows
  have hfold : rows.foldl (fun r i => r.setWord i (countedDown (r.word i))) b.issuer.row = _ :=
    foldl_countedDown _ (List.nodup_range.filter _)
  rw [RowState.leftAfter, ← hfold]
  unfold execRowrdec
  exact rowSyllable_ok hi hfree (checkedRow_ok (by rw [if_pos ht]; rfl) _)

theorem execRowrdec_untraced (o : WR) (ht : b.issuer.row.tvalid = false) :
    execRowrdec h o s = .next (s.faultBundle b.base (mkFault 0x61 (sylWord (.rowrdec h o)) 0)) := by
  unfold execRowrdec
  exact rowSyllable_error hi hfree (checkedRow_error (by rw [if_neg (by simp [ht])]; rfl) _)

end

/-- Settles O25: each fold over rows gives its rows new words, formed from the words before it. -/
theorem rowUpdates : Obligations.RowUpdates := by
  unfold Obligations.RowUpdates
  intro s b h hi c r now late hfree row
  refine ⟨fun o => ?update, fun o => ?recurse, fun o => ?count⟩
  case update =>
    intro n first score hit
    refine ⟨fun ht => ⟨_, _, (exec_rowupd h o s).trans (execRowupd_traced hi hfree o ht), fun k => ?_,
      RowState.exits_afterUpdate, ?_, ?_⟩, fun ht => (exec_rowupd h o s).trans (execRowupd_untraced hi hfree o ht)⟩
    · simp only [row, Dev.core_engaged_row, core_sendS, Core.push_row, Dev.core_setRow]
      exact RowState.word_afterUpdate k
    · simp only [row, Dev.core_engaged_row, core_sendS, Core.push_row, Dev.core_setRow]
      rw [RowState.afterUpdate, RowState.put_exits]
    · rw [Dev.core_engaged_pend, core_sendS, Core.push_pend, Dev.core_setRow]
      rfl
  case recurse =>
    intro first n v
    refine ⟨fun hn => (exec_rowrec h o s).trans (execRowrec_beyond hi hfree o hn), fun hn =>
      ⟨_, (exec_rowrec h o s).trans (execRowrec_within hi hfree o hn), fun k => ?_, ?_⟩⟩
    · simp only [row, Dev.core_engaged_row, Dev.core_setRow]
      exact RowState.word_afterRecurse k
    · rw [Dev.core_engaged_r, Dev.core_setRow]
  case count =>
    intro hit shared
    have hhit (k : Nat) : k ∈ (List.range r.nrow).filter r.counts ↔ hit k = true := by
      simp [hit, RowState.counts, and_assoc]
    refine ⟨fun ht => ⟨_, _, (exec_rowrdec h o s).trans (execRowrdec_traced hi hfree o ht), fun k => ?_,
      ⟨r.leftAfter ((List.range r.nrow).filter r.counts), List.nodup_range.filter _, rfl, fun k => ?_⟩, ?_⟩,
      fun ht => (exec_rowrdec h o s).trans (execRowrdec_untraced hi hfree o ht)⟩
    · simp only [row, Dev.core_engaged_row, core_sendS, Core.push_row, Dev.core_setRow]
      exact (RowState.word_put ..).trans (if_congr (hhit k) rfl rfl)
    · simp only [row, Dev.core_engaged_row, core_sendS, Core.push_row, Dev.core_setRow]
      exact RowState.mem_leftAfter.trans (and_congr_right fun _ => and_congr_right fun _ => and_congr_left'
        (exists_congr fun i => and_congr_left' (hhit i)))
    · rw [Dev.core_engaged_pend, core_sendS, Core.push_pend, Dev.core_setRow]
      rfl

end Sys2Proof.Machine

/-!
SUPPORT. Rows selected, traced and moved (R316, R319, R326, R327): what the scratchpad writes of an engine leave of the
units, and each answer said once. The obligation about them follows.
-/

namespace Sys2Proof.Machine

/-! ## Tables of rows -/

theorem tget_zip_range' {α : Type} (l : List α) (m k : Nat) :
    tget ((List.range' m l.length).zip l) (m + k) = l[k]? := by
  induction l generalizing m k with
  | nil => rfl
  | cons x l ih =>
    rw [List.length_cons, List.range'_succ, List.zip_cons_cons, tget]
    cases k with
    | zero => simp
    | succ k => rw [if_neg (by omega), show m + (k + 1) = m + 1 + k by omega, ih, List.getElem?_cons_succ]

@[simp] theorem tget_tabOf {α : Type} (l : List α) (k : Nat) : tget (tabOf l) k = l[k]? := by
  have hzip := tget_zip_range' l 0 k
  rwa [Nat.zero_add, ← List.range_eq_range'] at hzip

theorem tgetD_map_true_iff {l : List Nat} {k : Nat} : tgetD (l.map fun i => (i, true)) k false = true ↔ k ∈ l := by
  induction l with
  | nil => simp [tgetD, tget]
  | cons i l ih =>
    rcases eq_or_ne i k with rfl | hk
    · simp [tgetD, tget]
    · rw [List.map_cons, tgetD, tget, if_neg hk, List.mem_cons, or_iff_right hk.symm]
      exact ih

/-! ## Scratchpad writes of an engine (R319) -/

section
variable (d : Dev) (n k pa : Nat) (a : Word) (bs : List Byte)

@[simp] theorem Dev.core_coreStore : (d.coreStore n pa bs).core k = d.core k := rfl

@[simp] theorem Dev.core_clearGranules (len : Nat) : (d.clearGranules pa len).core k = d.core k := by
  unfold clearGranules
  repeat' split
  all_goals rfl

@[simp] theorem Dev.clearGranules_stores (len : Nat) : (d.clearGranules pa len).stores = d.stores := by
  unfold clearGranules
  repeat' split
  all_goals rfl

@[simp] theorem core_spmWrite : (spmWrite d n a bs).core k = d.core k := by
  rw [spmWrite, Dev.core_clearGranules, Dev.core_coreStore]

theorem spmWrite_stores : (spmWrite d n a bs).stores = (d.coreStore n (spmOf n a) bs).stores :=
  Dev.clearGranules_stores ..

@[simp] theorem core_moveRows (m : Memory) (len : Nat) (moves : List (Word × Word)) (d' : Dev) :
    (moveRows m d n len moves d').core k = d'.core k := by
  refine List.foldlRecOn (motive := fun e : Dev => e.core k = d'.core k) _ _ rfl fun e he x _ => ?_
  dsimp only
  split
  · rw [core_spmWrite, he]
  · rw [Dev.core_updCluster, core_spmWrite, he]

end

@[simp] theorem core_sendLr (d : Dev) (b : Bundle) (v cycle : Nat) : (sendLr d b v cycle).core b.core =
    (d.core b.core).push { b.interlocked (.lr (BitVec.ofNat 16 v)) true 0 with after := cycle } :=
  Dev.core_updCore_same ..

@[simp] theorem sendLr_stores (d : Dev) (b : Bundle) (v cycle : Nat) : (sendLr d b v cycle).stores = d.stores := rfl

theorem RowState.geometry_of_length {r : RowState} (h0 : r.rlen ≠ 0) (h256 : r.rlen ≤ 256) (w : Word) :
    r.geometry w = none :=
  if_neg (by simp [h0, h256])

/-! ## ROWCNT and ROWPACK (R326) -/

@[simp] theorem RowState.nrow_rewrite (r : RowState) (blk : Nat) (rec' : Bool) : (r.rewrite blk rec').nrow = r.nrow :=
  List.foldlRecOn (motive := fun x : RowState => x.nrow = r.nrow) _ _ rfl fun _ hx _ _ => hx

/-- The row engine after a ROWPACK with a tile of some rows (R316, R326). -/
def RowState.packed (r : RowState) (blk rows : Nat) (rec' : Bool) : RowState :=
  let live := r.selected blk rec'
  { r.rewrite blk rec' with
    live := live.map fun i => (i, true)
    tm := tabOf (live.map fun i => BitVec.ofNat 16 i)
    tlen := live.length
    plen := rows * ((live.length + rows - 1) / rows)
    tvalid := true
    recurse := rec' }

theorem RowState.trace_packed {r : RowState} {blk rows : Nat} {rec' : Bool} {k : Nat}
    (hk : k < (r.selected blk rec').length) (h4096 : k < 4096) :
    (r.packed blk rows rec').trace k = BitVec.ofNat 16 (nth (r.selected blk rec') k 0) := by
  simp [trace, packed, h4096, tgetD, nth, hk]

/-- Rows that a ROWPACK moves: from their own places to those of the trace. -/
def RowState.packMoves (r : RowState) (live : List Nat) (src dst : Word) : List (Word × Word) :=
  ((List.range live.length).zip (live.map (r.rowAt src))).map fun (k, a) => (a, r.rowAt dst k)

/-- The units after a ROWPACK has moved the rows given and zeroed the padding. -/
def RowState.packRows (m : Memory) (d : Dev) (n : Nat) (r : RowState) (live : List Nat) (plen : Nat) (src dst : Word) :
    Dev :=
  let moved := moveRows m d n r.rowBytes (r.packMoves live src dst) d
  if plen = live.length then moved
  else spmWrite moved n (r.rowAt dst live.length) (List.replicate ((plen - live.length) * r.rowBytes) 0)

@[simp] theorem RowState.core_packRows (m : Memory) (d : Dev) (n k : Nat) (r : RowState) (live : List Nat) (plen : Nat)
    (src dst : Word) : (packRows m d n r live plen src dst).core k = d.core k := by
  unfold packRows
  dsimp only
  split <;> simp

section
variable {s : State} {b : Bundle} {h : Hdr} (hi : Issuing s b h) (hfree : b.issuer.row.busyUntil ≤ b.cycle) {o : WR}
include hi hfree

theorem execRowcnt_bad {k : Nat} (hk : b.issuer.row.badRow o.blk.toNat (o.d = 1) = some k) :
    execRowcnt h o s =
      .next (s.faultBundle b.base (recursionState (sylWord (.rowcnt h o)) b.issuer.row k)) := by
  unfold execRowcnt
  exact rowSyllable_error hi hfree (checkedRow_error (by rw [hk]; rfl) _)

theorem execRowcnt_good (hgood : b.issuer.row.badRow o.blk.toNat (o.d = 1) = none) : execRowcnt h o s = .next (s.after h
    ((sendLr s.dev b (b.issuer.row.selected o.blk.toNat (o.d = 1)).length
      (b.cycle + b.rowLate s.dev + (4 + (b.issuer.row.nrow + 255) / 256))).engaged b.core
        (max b.cycle (s.dev.core b.core).row.busyUntil + (4 + (b.issuer.row.nrow + 255) / 256)) [])) := by
  unfold execRowcnt
  exact rowSyllable_ok hi hfree (checkedRow_ok (by rw [hgood]; rfl) _)

/-- A ROWPACK traces the selected rows; with a source it moves them, where its ranges are free of faults. -/
theorem execRowpack_good {r : RowState} {live : List Nat} {plen : Nat} {src dst : Word} (hr : b.issuer.row = r)
    (hgood : r.badRow o.blk.toNat (o.d = 1) = none) (hlive : r.selected o.blk.toNat (o.d = 1) = live)
    (hplen : tileRows o.mq * ((live.length + tileRows o.mq - 1) / tileRows o.mq) = plen)
    (hsrc : b.issuer.s o.a.toNat = src) (hdst : b.issuer.s o.b.toNat = dst)
    (hmove : o.a ≠ 0 → r.rlen ≠ 0 ∧ r.rlen ≤ 256 ∧ rangeFault s.dev b.core src 0 64 .read = none ∧
      (∀ i ∈ live, rangeFault s.dev b.core (r.rowAt src i) r.rowBytes 64 .read = none) ∧
      rangeFault s.dev b.core dst (plen * r.rowBytes) 64 .write = none) :
    ∃ cycle touched, execRowpack h o s = .next (s.after h
      ((sendLr ((if o.a ≠ 0 then RowState.packRows s.mem s.dev b.core r live plen src dst else s.dev).setRow b.core
        (r.packed o.blk.toNat (tileRows o.mq) (o.d = 1))) b live.length
          (b.cycle + b.rowLate s.dev + (4 + (r.nrow + 255) / 256))).engaged b.core cycle touched)) := by
  subst hr hlive hplen hsrc hdst
  unfold execRowpack
  refine ⟨_, _, rowSyllable_ok hi hfree (checkedRow_ok ?_ _)⟩
  simp only [firstOf_eq_none_iff (l := _ :: _ :: _), List.forall_mem_cons, List.not_mem_nil, false_implies,
    implies_true, and_true, hgood, Option.map_none, true_and]
  rcases eq_or_ne o.a 0 with ha | ha
  · simp only [if_neg (not_not.2 ha), and_self]
  · obtain ⟨h0, h256, hbase, hrows, hdst⟩ := hmove ha
    have hsrcs : firstOf (rangeFault s.dev b.core (b.issuer.s o.a.toNat) 0 64 .read ::
        ((b.issuer.row.selected o.blk.toNat (o.d = 1)).map (b.issuer.row.rowAt (b.issuer.s o.a.toNat))).map
          fun a => rangeFault s.dev b.core a b.issuer.row.rowBytes 64 .read) = none := by
      simpa [firstOf_eq_none_iff, hbase] using hrows
    simp only [if_pos ha, RowState.geometry_of_length h0 h256, hsrcs, hdst, and_self]

end

theorem RowState.packMoves_eq (r : RowState) (live : List Nat) (src dst : Word) : r.packMoves live src dst =
    ((List.range live.length).zip live).map fun (k, i) => (r.rowAt src i, r.rowAt dst k) := by
  rw [packMoves, List.zip_map_right, List.map_map]
  rfl

/-- The moves of a ROWPACK are those of its trace, and the padding follows them. -/
theorem RowState.packRows_stores (m : Memory) (d : Dev) (n : Nat) (r : RowState) (live : List Nat) (plen : Nat)
    (src dst : Word) :
    let moved := moveRows m d n r.rowBytes
      (((List.range live.length).zip live).map fun (k, i) => (r.rowAt src i, r.rowAt dst k)) d
    (live.length = plen → (r.packRows m d n live plen src dst).stores = moved.stores) ∧
    (live.length < plen → (r.packRows m d n live plen src dst).stores = (spmWrite moved n (r.rowAt dst live.length)
      (List.replicate ((plen - live.length) * r.rowBytes) 0)).stores) := by
  rw [packRows, packMoves_eq]
  exact ⟨fun hlen => by rw [if_pos hlen.symm], fun hlen => by rw [if_neg hlen.ne']⟩

/-! ## ROWRESTORE (R327) -/

/-- Rows that a ROWRESTORE moves: from their places in the trace to their own. -/
def RowState.restoreMoves (r : RowState) (src dst : Word) : List (Word × Word) :=
  (List.range r.tlen).map fun i => (r.rowAt src i, r.rowAt dst (r.trace i).toNat)

theorem RowState.zip_traced (r : RowState) (src dst : Word) :
    (((List.range r.tlen).zip r.traced).map fun (i, k) => (r.rowAt src i, r.rowAt dst k)) = r.restoreMoves src dst := by
  rw [traced, ← List.map_id (List.range r.tlen), List.map_map, List.zip_map', List.map_map]
  rfl

section
variable {s : State} {b : Bundle} {h : Hdr} (hi : Issuing s b h) (hfree : b.issuer.row.busyUntil ≤ b.cycle) {o : WR}
include hi hfree

theorem execRowrestore_untraced (ht : b.issuer.row.tvalid = false) :
    execRowrestore h o s = .next (s.faultBundle b.base (mkFault 0x61 (sylWord (.rowrestore h o)) 0)) := by
  unfold execRowrestore
  exact rowSyllable_error hi hfree (checkedRow_error (by rw [if_neg (by simp [ht])]; rfl) _)

theorem execRowrestore_traced {r : RowState} {src dst : Word} (hr : b.issuer.row = r)
    (hsrc : b.issuer.s o.a.toNat = src) (hdst : b.issuer.s o.b.toNat = dst) (ht : r.tvalid = true) (h0 : r.rlen ≠ 0) (h256 : r.rlen ≤ 256)
    (hread : rangeFault s.dev b.core src (r.tlen * r.rowBytes) 64 .read = none)
    (hbase : rangeFault s.dev b.core dst 0 64 .write = none)
    (hrows : ∀ x ∈ r.restoreMoves src dst, rangeFault s.dev b.core x.2 r.rowBytes 64 .write = none) :
    ∃ cycle touched, execRowrestore h o s = .next (s.after h
      ((sendLr (moveRows s.mem s.dev b.core r.rowBytes (r.restoreMoves src dst) s.dev) b r.tlen
        (b.cycle + b.rowLate s.dev + 4)).engaged b.core cycle touched)) := by
  subst hr hsrc hdst
  have hsorted : firstOf ((b.issuer.row.traced.insertionSort (· ≤ ·)).map fun k =>
      rangeFault s.dev b.core (b.issuer.row.rowAt (b.issuer.s o.b.toNat) k) b.issuer.row.rowBytes 64 .write) =
        none := by
    simpa [firstOf_eq_none_iff, RowState.traced, RowState.restoreMoves] using hrows
  rw [← RowState.zip_traced]
  unfold execRowrestore
  refine ⟨_, _, rowSyllable_ok hi hfree (checkedRow_ok ?_ _)⟩
  simp only [if_pos ht, RowState.geometry_of_length h0 h256, hread, hbase, hsorted, firstOf_none, firstOf_nil]

end

/-- Settles O26: the three syllables answer through the rows selected and the rows moved. -/
theorem rowSelections : Obligations.RowSelections := by
  unfold Obligations.RowSelections
  intro s b h hi c r n late hfree row pick lr
  refine ⟨fun o k hk => (exec_rowcnt h o s).trans (execRowcnt_bad hi hfree hk),
    fun o hgood => ⟨_, (exec_rowcnt h o s).trans (execRowcnt_good hi hfree hgood), ?_, ?_, rfl⟩, fun o => ?pack,
    fun o => ?restore⟩
  · exact Dev.core_engaged_pend ..
  · simp only [row, n, Dev.core_engaged_row, core_sendLr, Core.push_row]
  case pack =>
    intro live rb src dst rows plen hgood hmove
    obtain ⟨cycle, touched, hexec⟩ := execRowpack_good hi hfree (r := r) (live := live) (plen := plen) (src := src)
      (dst := dst) rfl hgood rfl rfl rfl rfl hmove
    refine ⟨_, (exec_rowpack h o s).trans hexec, ?_⟩
    simp only [row, lr, n, Dev.core_engaged_row, Dev.core_engaged_pend, core_sendLr, Core.push_row, Core.push_pend,
      Dev.core_setRow, Dev.engaged_stores, sendLr_stores, Dev.setRow_stores]
    refine ⟨rfl, rfl, rfl, rfl, fun k hk h4096 => RowState.trace_packed (rows := rows) hk h4096,
      fun k => tgetD_map_true_iff, RowState.nrow_rewrite .., ?_, fun ha => by rw [if_neg (not_not.2 ha)], fun ha => ?_⟩
    · split
      · rw [RowState.core_packRows]; rfl
      · rfl
    · rw [if_pos ha]
      exact RowState.packRows_stores ..
  case restore =>
    intro rb src dst moves
    refine ⟨fun ht => (exec_rowrestore h o s).trans (execRowrestore_untraced hi hfree ht),
      fun ht h0 h256 hread hbase hrows => ?_⟩
    obtain ⟨cycle, touched, hexec⟩ := execRowrestore_traced hi hfree rfl rfl rfl ht h0 h256 hread hbase hrows
    refine ⟨_, (exec_rowrestore h o s).trans hexec, rfl, ?_, ?_⟩
    · simp only [lr, n, Dev.core_engaged_pend, core_sendLr, Core.push_pend, core_moveRows]
      rfl
    · simp only [row, n, Dev.core_engaged_row, core_sendLr, Core.push_row, core_moveRows]

end Sys2Proof.Machine

/-!
SUPPORT. Beats of the matrix engine (R347-R355, R363): the order in which a beat waits, faults and acts, and what its
push, its shift and its drain leave. The obligation about them follows.
-/

namespace Sys2Proof.Machine

/-! ## The order of a beat (R349, R352, R355, R363) -/

/-- The row that a beat drains (R348). -/
def Core.drainRow (c : Core) (o : MB) : Nat := (o.drb.toNat + c.beatRow o.m) % 128

/-- The ranges that a beat reads. -/
def Core.beatReads (c : Core) (o : MB) (q : MatCfg) : List (Word × Nat) :=
  (if o.aop ≠ 0 then [(c.s (4 + o.aw.toNat), q.aLen)] else []) ++
    (if o.wop ≠ 0 then [(c.s (6 + o.ww.toNat), q.wLen c.mat.wp)] else [])

/-- A test meets a range that a beat reads: that of its push or that of its shift. -/
theorem Core.any_beatReads {c : Core} {o : MB} {q : MatCfg} (p : Word × Nat → Bool) :
    (c.beatReads o q).any p = true ↔ (o.aop ≠ 0 ∧ p (c.s (4 + o.aw.toNat), q.aLen) = true) ∨
      (o.wop ≠ 0 ∧ p (c.s (6 + o.ww.toNat), q.wLen c.mat.wp) = true) := by
  rw [beatReads, List.any_append, Bool.or_eq_true]
  by_cases ha : o.aop = 0 <;> by_cases hw : o.wop = 0 <;> simp [ha, hw]

/-- Does a range that a beat reads lie in a slot that is still filling? -/
def beatFills (s : State) (b : Bundle) (c : Core) (o : MB) (q : MatCfg) : Bool :=
  (c.beatReads o q).any fun (a, len) => beatFilling s.dev c b.core a len

/-- Does a busy W syllable access a range that a beat reads? -/
def beatMeetsRow (b : Bundle) (c : Core) (o : MB) (q : MatCfg) : Bool :=
  (c.beatReads o q).any fun (a, len) => c.rowBusyAt b.cycle (spmOf b.core a) len

/-- The units after a beat that passes its checks: its drain is delivered, its push is in flight, its shift is done. -/
def beatEffect (s : State) (b : Bundle) (c : Core) (o : MB) (q : MatCfg) : Dev :=
  let d := drainPart b c o q s.dev
  d.setMat b.core (shiftPart s b c o q (pushPart s b c o q (d.core b.core).mat))

/-- What a beat answers once it waits for no push and no row engine, under the configuration in force. -/
def beatOut (h : Hdr) (o : MB) (s : State) (b : Bundle) (c : Core) : Option MatCfg → Out
  | none => .raise (mkFault 0x73 (sylWord (.beat h o)) 0)
  | some q =>
    if beatFills s b c o q then .stall 8
    else if beatMeetsRow b c o q then .stall 9
    else match firstOf (beatChecks s b c o (sylWord (.beat h o)) q) with
      | some e => .raise e
      | none => .ok (beatEffect s b c o q)

theorem execBeat_eq (h : Hdr) (o : MB) (s : State) : execBeat h o s = syllable h (fun s b c =>
    if o.aop = 0 && o.wop = 0 && o.dop = 0 then .ok s.dev
    else if o.dop ≠ 0 && c.mat.waits o.ds.toNat (some (c.drainRow o)) then .stall 10
    else if o.dop = 2 && b.cycle < c.row.busyUntil then .stall 9
    else beatOut h o s b c (s.dev.matCfg b.core c.mat)) s := by
  unfold execBeat beatOut
  rfl

section
variable {s : State} {b : Bundle} {h : Hdr} {o : MB} (hi : Issuing s b h)
include hi

theorem execBeat_idle (ha : o.aop = 0) (hw : o.wop = 0) (hd : o.dop = 0) : execBeat h o s = .next (s.after h s.dev) :=
  (execBeat_eq h o s).trans (syllable_ok hi (if_pos (by rw [ha, hw, hd]; rfl)))

theorem execBeat_awaitsPushes (hd : o.dop ≠ 0)
    (hp : b.issuer.mat.waits o.ds.toNat (some (b.issuer.drainRow o)) = true) :
    execBeat h o s = .next (s.stallBundle b.base 10) := by
  refine (execBeat_eq h o s).trans (syllable_stall hi ?_)
  rw [if_neg (by simpa using fun _ _ => hd), if_pos (by rw [hp]; simpa using hd)]

theorem execBeat_awaitsRowEngine (hd : o.dop = 2)
    (hp : b.issuer.mat.waits o.ds.toNat (some (b.issuer.drainRow o)) = false) (hr : b.cycle < b.issuer.row.busyUntil) :
    execBeat h o s = .next (s.stallBundle b.base 9) := by
  refine (execBeat_eq h o s).trans (syllable_stall hi ?_)
  rw [if_neg (by simp [hd]), if_neg (by simp [hp]), if_pos (by simp [hd, hr])]

variable (hacts : ¬(o.aop = 0 ∧ o.wop = 0 ∧ o.dop = 0))
  (hpushed : o.dop ≠ 0 → b.issuer.mat.waits o.ds.toNat (some (b.issuer.drainRow o)) = false)
  (hfree : o.dop = 2 → b.issuer.row.busyUntil ≤ b.cycle)
include hacts hpushed hfree

/-- A beat that does something, and whose drain waits for nothing, goes on. -/
theorem execBeat_goes : execBeat h o s =
    syllable h (fun _ _ _ => beatOut h o s b b.issuer (s.dev.matCfg b.core b.issuer.mat)) s := by
  rw [execBeat_eq, syllable, syllable, bundleSyllable_issuing hi, bundleSyllable_issuing hi,
    if_neg (by simpa [and_assoc] using hacts), if_neg (by simpa using hpushed), if_neg (by simpa using hfree)]

theorem execBeat_unconfigured (hq : s.dev.matCfg b.core b.issuer.mat = none) :
    execBeat h o s = .next (s.faultBundle b.base (mkFault 0x73 (sylWord (.beat h o)) 0)) :=
  (execBeat_goes hi hacts hpushed hfree).trans (syllable_raise hi (by rw [hq, beatOut]))

variable {q : MatCfg} (hq : s.dev.matCfg b.core b.issuer.mat = some q)
include hq

theorem execBeat_awaitsFill (hf : beatFills s b b.issuer o q = true) :
    execBeat h o s = .next (s.stallBundle b.base 8) :=
  (execBeat_goes hi hacts hpushed hfree).trans (syllable_stall hi (by rw [hq, beatOut, if_pos hf]))

variable (hf : beatFills s b b.issuer o q = false)
include hf

theorem execBeat_awaitsRow (hr : beatMeetsRow b b.issuer o q = true) :
    execBeat h o s = .next (s.stallBundle b.base 9) :=
  (execBeat_goes hi hacts hpushed hfree).trans (syllable_stall hi (by
    rw [hq, beatOut, if_neg (Bool.eq_false_iff.1 hf), if_pos hr]))

variable (hr : beatMeetsRow b b.issuer o q = false)
include hr

theorem execBeat_faults {e : Event} (hc : firstOf (beatChecks s b b.issuer o (sylWord (.beat h o)) q) = some e) :
    execBeat h o s = .next (s.faultBundle b.base e) :=
  (execBeat_goes hi hacts hpushed hfree).trans (syllable_raise hi (by
    rw [hq, beatOut, if_neg (Bool.eq_false_iff.1 hf), if_neg (Bool.eq_false_iff.1 hr), hc]))

theorem execBeat_performs (hc : firstOf (beatChecks s b b.issuer o (sylWord (.beat h o)) q) = none) :
    execBeat h o s = .next (s.after h (beatEffect s b b.issuer o q)) :=
  (execBeat_goes hi hacts hpushed hfree).trans (syllable_ok hi (by
    rw [hq, beatOut, if_neg (Bool.eq_false_iff.1 hf), if_neg (Bool.eq_false_iff.1 hr), hc]))

end

/-! ## The push (R350) -/

theorem MatState.bind_pushes (x : MatState) (a : Nat) : (x.bind a).pushes = x.pushes := by
  unfold MatState.bind
  split <;> rfl

section
variable (s : State) (b : Bundle) (c : Core) {o : MB} (q : MatCfg)

/-- A push carries the values that its row and the active plane form, and lands after 136 cycles. -/
theorem pushPart_pushes (x : MatState) (ha : o.aop ≠ 0) : (pushPart s b c o q x).pushes = x.pushes ++
    [{ slot := tgetD (x.bind o.aslot.toNat).names o.aslot.toNat 0, row := (o.arb.toNat + c.beatRow o.m) % 128
       acc := decide (o.aop = 2), ak := (x.bind o.aslot.toNat).ak
       vals := q.pushValues c.mat.active (spmRead s.mem s.dev b.core (c.s (4 + o.aw.toNat)) q.aLen)
         (x.bind o.aslot.toNat).ak
       due := b.cycle + 136 }] := by
  rw [pushPart, if_neg ha]
  exact congrArg (· ++ _) (x.bind_pushes o.aslot.toNat)

/-! ## The shift (R351) -/

/-- The bytes of the row of the shadow plane that a shift writes. -/
def shiftedBytes (x : MatState) : List Byte :=
  (spmRead s.mem s.dev b.core (c.s (6 + o.ww.toNat)) (q.wLen x.wp)).take q.wb

theorem MatState.setShadow_shadow (x : MatState) (t : Tab PlaneRow) : (x.setShadow t).shadow = t := by
  unfold setShadow shadow
  split <;> simp_all

theorem MatState.setShadow_active (x : MatState) (t : Tab PlaneRow) : (x.setShadow t).active = x.active := by
  unfold setShadow active
  split <;> simp_all

theorem MatState.setShadow_active1 (x : MatState) (t : Tab PlaneRow) : (x.setShadow t).active1 = x.active1 := by
  unfold setShadow
  split <;> rfl

theorem MatState.setShadow_wp (x : MatState) (t : Tab PlaneRow) : (x.setShadow t).wp = x.wp := by
  unfold setShadow
  split <;> rfl

theorem planeRow_tset_same (t : Tab PlaneRow) (p : Nat) (r : PlaneRow) : planeRow (tset t p r) p = r := by
  rw [planeRow, tget_tset_same, Option.getD_some]

/-- A shift writes the shadow plane's row at the shift position and moves the position on. -/
theorem shiftPart_shift (x : MatState) (hw : o.wop = 1) :
    (shiftPart s b c o q x).active1 = x.active1 ∧ (shiftPart s b c o q x).wp = (x.wp + 1) % 128 ∧
      (shiftPart s b c o q x).active = x.active ∧
      (planeRow (shiftPart s b c o q x).shadow x.wp).bytes =
        (spmRead s.mem s.dev b.core (c.s (6 + o.ww.toNat)) (q.wLen x.wp)).take q.wb := by
  have h0 : o.wop ≠ 0 := by rw [hw]; decide
  have h2 : o.wop ≠ 2 := by rw [hw]; decide
  simp only [shiftPart, if_neg h0, if_neg h2]
  refine ⟨x.setShadow_active1 _, congrArg (fun p => (p + 1) % 128) (x.setShadow_wp _), x.setShadow_active _, ?_⟩
  exact congrArg PlaneRow.bytes ((congrArg (planeRow · x.wp) (x.setShadow_shadow _)).trans (planeRow_tset_same ..))

/-- A shift with a swap also makes the shadow plane active, with the shift position at 0. -/
theorem shiftPart_swap (x : MatState) (hw : o.wop = 2) :
    (shiftPart s b c o q x).active1 = !x.active1 ∧ (shiftPart s b c o q x).wp = 0 := by
  have h0 : o.wop ≠ 0 := by rw [hw]; decide
  simp only [shiftPart, if_neg h0, if_pos hw]
  exact ⟨congrArg not (x.setShadow_active1 _), trivial⟩

end

/-! ## The drain (R354) -/

theorem Dev.coreStore_stores_congr {d d' : Dev} {n : Nat} (hs : d'.stores = d.stores)
    (hp : (d'.core n).phase = (d.core n).phase) (pa : Nat) (bs : List Byte) :
    (d'.coreStore n pa bs).stores = (d.coreStore n pa bs).stores := by
  simp only [coreStore, store, hs, hp]

/-- A format register lies in the context of the core's task, or in that resident on its die. -/
theorem formatReg_congr {d d' : Dev} {n : Nat} (hp : d'.parts = d.parts) (hc : d'.ctxs = d.ctxs)
    (ht : (d'.core n).task = (d.core n).task) (hg : d'.genPart = d.genPart) (k : Nat) :
    formatReg d' n k = formatReg d n k := by
  have hctx : d'.ctx = d.ctx := funext fun x => by rw [Dev.ctx, Dev.ctx, hc]
  simp only [formatReg, Dev.ctxOfCore, Dev.residentOn, Dev.partOfDie, hctx, hp, ht, hg]

section
variable (b : Bundle) (c : Core) {o : MB} (q : MatCfg) (d : Dev)

/-- The units after a drain has been noted in its core's matrix engine. -/
def drainNoted (o : MB) : Dev :=
  d.updCore b.core fun x => { x with mat := { x.mat with
    unalloc := x.mat.unalloc || ((c.mat.slotOf o.ds.toNat).isNone && !(o.aop ≠ 0 && o.aslot = o.ds))
    drainUntil := max x.mat.drainUntil
      (if o.dop = 1 then b.cycle + 6 else b.cycle + 4 + (c.row.rowBytes + 255) / 256) } }

/-- A drain to a vector pair sends the row's entries. -/
theorem drainPart_vector (hd : o.dop = 1) : drainPart b c o q d = sendV (drainNoted b c d o) b c (32 + 2 * o.dv.toNat)
    (packGroup 32 (c.mat.rowEntries o.ds.toNat (c.drainRow o))) 6 := by
  rw [drainPart, if_neg (by rw [hd]; decide), if_pos hd]
  rfl

theorem drainNoted_keeps : ((drainNoted b c d o).core b.core).r = (d.core b.core).r ∧
    ((drainNoted b c d o).core b.core).pend = (d.core b.core).pend := by
  rw [drainNoted, Dev.core_updCore_same]
  exact ⟨rfl, rfl⟩

/-- The units after a drain through the row engine has engaged it. -/
def drainEngaged (o : MB) : Dev :=
  (drainNoted b c d o).updCore b.core fun x => { x with row := { x.row with
    busyUntil := max x.row.busyUntil
      (if o.dop = 1 then b.cycle + 6 else b.cycle + 4 + (c.row.rowBytes + 255) / 256)
    touched := ((c.row.drainTo (c.mat.drainCidx + c.drainRow o)).map fun a =>
      (spmOf b.core a, c.row.rowBytes)).toList } }

theorem drainEngaged_core : ((drainEngaged b c d o).core b.core).task = (d.core b.core).task ∧
    ((drainEngaged b c d o).core b.core).phase = (d.core b.core).phase := by
  rw [drainEngaged, Dev.core_updCore_same, drainNoted, Dev.core_updCore_same]
  exact ⟨rfl, rfl⟩

theorem drainEngaged_coreStore (pa : Nat) (bs : List Byte) :
    ((drainEngaged b c d o).coreStore b.core pa bs).stores = (d.coreStore b.core pa bs).stores :=
  Dev.coreStore_stores_congr (d := d) (d' := drainEngaged b c d o) rfl (drainEngaged_core b c d).2 ..

theorem drainEngaged_formatReg (k : Nat) : formatReg (drainEngaged b c d o) b.core k = formatReg d b.core k :=
  formatReg_congr (d := d) (d' := drainEngaged b c d o) rfl rfl (drainEngaged_core b c d).1 rfl _

/-- The bytes that a drain through the row engine stores: the row's entries converted, then zeros (R354). -/
def Core.drainBytes (c : Core) (o : MB) (q : MatCfg) (f : Fmt) : List Byte :=
  containerBytes f (((c.mat.rowEntries o.ds.toNat (c.drainRow o)).take q.n).map fun v =>
    f.encode { rm := c.mat.drainRm, sat := c.mat.drainSat, u := 0 } (entryValue c.mat.ak v)) c.row.rowBytes

theorem drainPart_row (hd : o.dop = 2) : drainPart b c o q d =
    match c.row.drainTo (c.mat.drainCidx + c.drainRow o),
      descFmt (formatReg (drainEngaged b c d o) b.core c.mat.drainFmt) with
    | some a, some f => spmWrite (drainEngaged b c d o) b.core a (c.drainBytes o q f)
    | _, _ => drainEngaged b c d o := by
  rw [drainPart, if_neg (by rw [hd]; decide), if_neg (by rw [hd]; decide)]
  rfl

theorem drainPart_discarded_stores (hd : o.dop = 2) (ht : c.row.drainTo (c.mat.drainCidx + c.drainRow o) = none) :
    (drainPart b c o q d).stores = d.stores := by
  rw [drainPart_row _ _ _ _ hd, ht]
  rfl

theorem drainPart_kept_stores (hd : o.dop = 2) {a : Word} {f : Fmt}
    (ht : c.row.drainTo (c.mat.drainCidx + c.drainRow o) = some a)
    (hf : descFmt (formatReg d b.core c.mat.drainFmt) = some f) :
    (drainPart b c o q d).stores = (d.coreStore b.core (spmOf b.core a) (c.drainBytes o q f)).stores := by
  have hkept : drainPart b c o q d = spmWrite (drainEngaged b c d o) b.core a (c.drainBytes o q f) := by
    rw [drainPart_row _ _ _ _ hd, ht, drainEngaged_formatReg, hf]
  rw [hkept, spmWrite_stores, drainEngaged_coreStore]

end

/-- Settles O30: a beat's waits and checks come in their order; its drain, its push and its shift then act in turn. -/
theorem beatsPushShiftAndDrain : Obligations.BeatsPushShiftAndDrain := by
  unfold Obligations.BeatsPushShiftAndDrain
  intro s b h o hi c n t beat rowA rowW rowD
  refine ⟨execBeat_idle hi, execBeat_awaitsPushes hi, execBeat_awaitsRowEngine hi, execBeat_unconfigured hi,
    fun q hacts hpushed hfree hq => ?_⟩
  intro checks fillA fillW busyA busyW
  have hfills : beatFills s b c o q = true ↔ fillA ∨ fillW := Core.any_beatReads _
  have hmeets : beatMeetsRow b c o q = true ↔ busyA ∨ busyW := Core.any_beatReads _
  have hnofill (hA : ¬fillA) (hW : ¬fillW) : beatFills s b c o q = false :=
    Bool.eq_false_iff.2 fun hf => (hfills.1 hf).elim hA hW
  have hnorow (hA : ¬busyA) (hW : ¬busyW) : beatMeetsRow b c o q = false :=
    Bool.eq_false_iff.2 fun hr => (hmeets.1 hr).elim hA hW
  refine ⟨fun hf => execBeat_awaitsFill hi hacts hpushed hfree hq (hfills.2 hf),
    fun hA hW hr => execBeat_awaitsRow hi hacts hpushed hfree hq (hnofill hA hW) (hmeets.2 hr),
    fun e hA hW hrA hrW => execBeat_faults hi hacts hpushed hfree hq (hnofill hA hW) (hnorow hrA hrW),
    fun hA hW hrA hrW hc =>
      ⟨execBeat_performs hi hacts hpushed hfree hq (hnofill hA hW) (hnorow hrA hrW) hc,
        pushPart_pushes s b c q, shiftPart_shift s b c q, shiftPart_swap s b c q,
        fun d hd => ⟨drainNoted b c d o, congrArg (Dev.core · n) (drainPart_vector b c q d hd), drainNoted_keeps b c d⟩,
        drainPart_discarded_stores b c q, fun d a fm hd ha hfm hparts hctxs htask hgen => ⟨toBytes_length .., ?_⟩⟩⟩
  exact drainPart_kept_stores b c q d hd ha
    ((congrArg descFmt (formatReg_congr hparts hctxs (htask n) hgen _)).trans hfm)

end Sys2Proof.Machine

/-!
SUPPORT. Rows moved between accumulator slots and the scratchpad (R358, R360): the order in which a move waits, faults
and acts, the bytes that ACMOV stores and the entries that ACLD writes. The obligation about them follows.
-/

namespace Sys2Proof.Machine

/-! ## The order of a move (R355, R360, R363) -/

/-- The units once a move is performed until a cycle. -/
def Dev.moving (d : Dev) (n cycle : Nat) : Dev :=
  d.updCore n fun x => { x with mat := { x.mat with busyUntil := cycle } }

section
variable (d : Dev) (n cycle : Nat)

theorem Dev.moving_stores : (d.moving n cycle).stores = d.stores := rfl

theorem Dev.moving_mat : ((d.moving n cycle).core n).mat = { (d.core n).mat with busyUntil := cycle } := by
  rw [moving, Dev.core_updCore_same]

theorem Dev.moving_busyUntil : ((d.moving n cycle).core n).mat.busyUntil = cycle := by rw [moving_mat]

theorem Dev.moving_unalloc : ((d.moving n cycle).core n).mat.unalloc = (d.core n).mat.unalloc := by rw [moving_mat]

theorem Dev.moving_names : ((d.moving n cycle).core n).mat.names = (d.core n).mat.names := by rw [moving_mat]

theorem Dev.moving_slotOf (a : Nat) : ((d.moving n cycle).core n).mat.slotOf a = (d.core n).mat.slotOf a := by
  rw [moving_mat]
  rfl

end

section
variable {s : State} {b : Bundle} {h : Hdr} {o : MV} {w : Word} {load : Bool}
  {f : State → Bundle → Core → MatCfg → Fmt → Dev} (hi : Issuing s b h)
include hi

theorem moveForm_awaitsPushes (hp : b.issuer.mat.waits o.acc.toNat none = true) :
    moveForm h o w load f s = .next (s.stallBundle b.base 10) :=
  syllable_stall hi (if_pos hp)

variable (hp : b.issuer.mat.waits o.acc.toNat none = false)
include hp

theorem moveForm_unconfigured (hq : s.dev.matCfg b.core b.issuer.mat = none) :
    moveForm h o w load f s = .next (s.faultBundle b.base (mkFault 0x73 w 0)) :=
  syllable_raise hi ((if_neg (Bool.eq_false_iff.1 hp)).trans (by rw [hq]))

variable {q : MatCfg} (hq : s.dev.matCfg b.core b.issuer.mat = some q)
include hq

theorem moveForm_unset (hf : descFmt (formatReg s.dev b.core o.fmt.toNat) = none) :
    moveForm h o w load f s = .next (s.faultBundle b.base (mkFault 0x50 w (toW o.fmt.toNat))) :=
  syllable_raise hi ((if_neg (Bool.eq_false_iff.1 hp)).trans (by rw [hq, hf]))

variable {fm : Fmt} (hf : descFmt (formatReg s.dev b.core o.fmt.toNat) = some fm)
include hf

theorem moveForm_awaitsRow (hr : b.issuer.rowBusyAt b.cycle (spmOf b.core (b.issuer.s o.a.toNat))
    ((o.cnt.toNat + 1) * moveSize q fm) = true) : moveForm h o w load f s = .next (s.stallBundle b.base 9) :=
  syllable_stall hi ((if_neg (Bool.eq_false_iff.1 hp)).trans (by rw [hq, hf]; exact if_pos hr))

/-- A move that passes its checks acts and keeps the engine busy for the cycles of R360. -/
theorem moveForm_performs (hr : b.issuer.rowBusyAt b.cycle (spmOf b.core (b.issuer.s o.a.toNat))
      ((o.cnt.toNat + 1) * moveSize q fm) = false)
    (hc : firstOf (moveChecks s.dev b.core b.issuer o w load q fm) = none) :
    moveForm h o w load f s = .next (s.after h ((f s b b.issuer q fm).moving b.core
      (b.cycle + (4 + ((o.cnt.toNat + 1) * moveSize q fm + 255) / 256)))) :=
  syllable_ok hi ((if_neg (Bool.eq_false_iff.1 hp)).trans (by
    rw [hq, hf]
    dsimp only
    rw [if_neg (Bool.eq_false_iff.1 hr), hc]
    rfl))

end

/-- A draw changes the generator of its core alone. -/
theorem drawIn_keeps (d : Dev) (n : Nat) (rm : BitVec 2) : (drawIn d n rm).1.stores = d.stores ∧
    ((drawIn d n rm).1.core n).mat = (d.core n).mat ∧ ((drawIn d n rm).1.core n).phase = (d.core n).phase := by
  unfold drawIn
  split
  · simp
  · exact ⟨rfl, rfl, rfl⟩

/-! ## ACMOV -/

/-- A list beside its places, cut to a length, as a list over the places. -/
theorem map_zip_range_take {α : Type} (g : Nat → Nat → α) (n : Nat) (l : List Nat) :
    (((List.range n).zip (l.take n)).map fun (j, v) => g j v) =
      (List.range (min n l.length)).map fun j => g j (nth l j 0) := by
  refine List.ext_getElem (by simp) fun j hj hj' => ?_
  have hlen : j < l.length := by simp at hj; omega
  simp [nth, hlen]

theorem MatState.rowEntries_length (t : MatState) (a r : Nat) : (t.rowEntries a r).length = 128 := by
  unfold rowEntries
  split <;> simp

/-- The bytes that an ACMOV stores: the converted entries of its rows (R360). -/
def Core.acmovBytes (c : Core) (o : MV) (q : MatCfg) (f : Fmt) (x : Word) : List Byte :=
  (List.range (o.cnt.toNat + 1)).flatMap fun r =>
    let es := (c.mat.rowEntries o.acc.toNat (o.row.toNat + r)).take q.n
    containerBytes f (((List.range q.n).zip es).map fun (j, v) =>
      f.encode (roundingOf o.rm o.sat x (128 * r + j)) (entryValue c.mat.ak v)) (moveSize q f)

/-- The units after an ACMOV. -/
def acmovEffect (o : MV) (s : State) (b : Bundle) (c : Core) (q : MatCfg) (f : Fmt) : Dev :=
  spmWrite ((drawIn s.dev b.core o.rm).1.updCore b.core fun y => { y with mat := { y.mat with
      unalloc := y.mat.unalloc || (c.mat.slotOf o.acc.toNat).isNone } })
    b.core (c.s o.a.toNat) (c.acmovBytes o q f (drawIn s.dev b.core o.rm).2)

theorem exec_acmov_moveForm (h : Hdr) (o : MV) (s : State) :
    exec (.acmov h o) s = moveForm h o (sylWord (.acmov h o)) false (acmovEffect o) s := by
  rw [exec_acmov]
  rfl

theorem Core.acmovBytes_eq (c : Core) (o : MV) (q : MatCfg) (f : Fmt) (x : Word) : c.acmovBytes o q f x =
    (List.range (o.cnt.toNat + 1)).flatMap fun r => containerBytes f ((List.range (min q.n 128)).map fun j =>
      f.encode (roundingOf o.rm o.sat x (128 * r + j))
        (entryValue c.mat.ak (nth (c.mat.rowEntries o.acc.toNat (o.row.toNat + r)) j 0))) (moveSize q f) := by
  refine congrArg (fun row => (List.range (o.cnt.toNat + 1)).flatMap row) (funext fun r => ?_)
  dsimp only
  rw [map_zip_range_take (fun j v => f.encode (roundingOf o.rm o.sat x (128 * r + j)) (entryValue c.mat.ak v)),
    MatState.rowEntries_length]

section
variable (o : MV) (s : State) (b : Bundle) (c : Core) (q : MatCfg) (f : Fmt)

theorem acmovEffect_stores : (acmovEffect o s b c q f).stores = (s.dev.coreStore b.core (spmOf b.core (c.s o.a.toNat))
    (c.acmovBytes o q f (drawIn s.dev b.core o.rm).2)).stores := by
  have ⟨hstores, _, hphase⟩ := drawIn_keeps s.dev b.core o.rm
  rw [acmovEffect, spmWrite_stores]
  refine Dev.coreStore_stores_congr ((Dev.updCore_stores ..).trans hstores) ?_ _ _
  rw [Dev.core_updCore_same]
  exact hphase

theorem acmovEffect_unalloc : ((acmovEffect o s b c q f).core b.core).mat.unalloc =
    ((s.dev.core b.core).mat.unalloc || (c.mat.slotOf o.acc.toNat).isNone) := by
  have ⟨_, hmat, _⟩ := drawIn_keeps s.dev b.core o.rm
  rw [acmovEffect, core_spmWrite, Dev.core_updCore_same, ← hmat]

end

/-! ## ACLD -/

/-- An entry set in a list of settings that agree on its place. -/
theorem tget_foldl_tset {α : Type} {l : List (Nat × α)} {k : Nat} {v : α} (hmem : (k, v) ∈ l)
    (huniq : ∀ w, (k, w) ∈ l → w = v) (t : Tab α) : tget (l.foldl (fun u (k, v) => tset u k v) t) k = some v := by
  induction l using List.reverseRecOn with
  | nil => cases hmem
  | append_singleton l x ih =>
    obtain ⟨j, w⟩ := x
    rw [List.foldl_concat]
    rcases eq_or_ne j k with rfl | hj
    · rw [tget_tset_same, huniq w (by simp)]
    · rw [tget_tset_other _ _ _ _ hj.symm]
      exact ih (by simpa [hj.symm] using hmem) fun w hw => huniq w (List.mem_append_left _ hw)

theorem MatState.names_bind (t : MatState) (a : Nat) :
    ∃ k, tget (t.bind a).names a = some k ∧ (tget t.names a).all (· = k) = true := by
  unfold MatState.bind
  split
  next k hk => exact ⟨k, hk, by simp [hk]⟩
  next hk => exact ⟨t.freeSlot, tget_tset_same .., by simp [hk]⟩

theorem MatState.names_updSlot (t : MatState) (a : Nat) (f : AccSlot → AccSlot) : (t.updSlot a f).names = t.names := by
  unfold updSlot
  split <;> rfl

theorem MatState.slotOf_updSlot (t : MatState) (a : Nat) (f : AccSlot → AccSlot) :
    (t.updSlot a f).slotOf a = (t.slotOf a).map f := by
  unfold updSlot slotOf
  split
  next k hk => simp [hk, tget_tset_same]
  next hk => simp [hk]

/-- The converted value that an ACLD gives entry j of its row r (R360). -/
def acldValue (s : State) (b : Bundle) (c : Core) (o : MV) (q : MatCfg) (f : Fmt) (r j : Nat) : BitVec 32 :=
  BitVec.ofNat 32 ((if c.mat.ak = 0 then fmtFp32 else fmtInt 32).encode
    (roundingOf o.rm o.sat (drawIn s.dev b.core o.rm).2 (128 * r + j))
    (f.decode (field (((spmRead s.mem s.dev b.core (c.s o.a.toNat) ((o.cnt.toNat + 1) * moveSize q f)).drop
      (r * moveSize q f)).take (moveSize q f)) f.c j)))

/-- The entries that an ACLD writes, by their places in the slot. -/
def acldWrites (s : State) (b : Bundle) (c : Core) (o : MV) (q : MatCfg) (f : Fmt) : List (Nat × BitVec 32) :=
  (List.range (o.cnt.toNat + 1)).flatMap fun r => (List.range q.n).map fun j =>
    (128 * (o.row.toNat + r) + j, acldValue s b c o q f r j)

/-- A slot with entries written, their errors and poison gone. -/
def AccSlot.written (t : AccSlot) (writes : List (Nat × BitVec 32)) : AccSlot :=
  { t with
    cells := writes.foldl (fun u (k, v) => tset u k v) t.cells
    poison := t.poison.filter fun k => !(writes.map (·.1)).contains k
    bad := t.bad.filter fun k => !(writes.map (·.1)).contains k }

/-- The units after an ACLD. -/
def acldEffect (o : MV) (s : State) (b : Bundle) (c : Core) (q : MatCfg) (f : Fmt) : Dev :=
  let d := (drawIn s.dev b.core o.rm).1
  d.setMat b.core (((d.core b.core).mat.bind o.acc.toNat).updSlot o.acc.toNat fun t =>
    t.written (acldWrites s b c o q f))

theorem exec_acld_moveForm (h : Hdr) (o : MV) (s : State) :
    exec (.acld h o) s = moveForm h o (sylWord (.acld h o)) true (acldEffect o) s := by
  rw [exec_acld]
  rfl

section
variable (o : MV) (s : State) (b : Bundle) (c : Core) (q : MatCfg) (f : Fmt)

theorem acldEffect_stores : (acldEffect o s b c q f).stores = s.dev.stores := (drawIn_keeps s.dev b.core o.rm).1

theorem acldEffect_mat : ((acldEffect o s b c q f).core b.core).mat =
    ((s.dev.core b.core).mat.bind o.acc.toNat).updSlot o.acc.toNat fun t => t.written (acldWrites s b c o q f) := by
  have ⟨_, hmat, _⟩ := drawIn_keeps s.dev b.core o.rm
  rw [acldEffect, Dev.setMat, Dev.core_updCore_same, hmat]

/-- Rows of at most 128 entries do not overlap in the slot. -/
theorem entry_written_acldWrites {r j : Nat} (hr : r < o.cnt.toNat + 1) (hj : j < q.n) (hq : q.n ≤ 128) (t : AccSlot) :
    (t.written (acldWrites s b c o q f)).entry (o.row.toNat + r) j = acldValue s b c o q f r j := by
  have hmem : (128 * (o.row.toNat + r) + j, acldValue s b c o q f r j) ∈ acldWrites s b c o q f :=
    List.mem_flatMap.2 ⟨r, List.mem_range.2 hr, List.mem_map.2 ⟨j, List.mem_range.2 hj, rfl⟩⟩
  have huniq (w : BitVec 32) (hw : (128 * (o.row.toNat + r) + j, w) ∈ acldWrites s b c o q f) :
      w = acldValue s b c o q f r j := by
    obtain ⟨r', -, hw⟩ := List.mem_flatMap.1 hw
    obtain ⟨j', hj', hw⟩ := List.mem_map.1 hw
    obtain ⟨hplace, rfl⟩ := Prod.mk.inj hw
    have hj'' := List.mem_range.1 hj'
    obtain ⟨rfl, rfl⟩ : r' = r ∧ j' = j := by omega
    rfl
  rw [AccSlot.entry, AccSlot.written, tgetD, tget_foldl_tset hmem huniq, Option.getD_some]

end

/-- Settles O32: the moves wait and fault in one order; ACMOV stores its bytes, and ACLD binds its name and writes its
entries. -/
theorem accumulatorMoves : Obligations.AccumulatorMoves := by
  unfold Obligations.AccumulatorMoves
  intro s b h o hi c n rows fm
  have hmov := exec_acmov_moveForm h o s
  have hld := exec_acld_moveForm h o s
  refine ⟨?pushes, fun hp => ⟨?faults, fun q f hq hf => ?moves⟩⟩
  case pushes =>
    simp only [List.forall_mem_cons, List.not_mem_nil, false_implies, implies_true, and_true, hmov, hld]
    exact ⟨moveForm_awaitsPushes hi, moveForm_awaitsPushes hi⟩
  case faults =>
    simp only [List.forall_mem_cons, List.not_mem_nil, false_implies, implies_true, and_true, hmov, hld]
    exact ⟨⟨moveForm_unconfigured hi hp, fun q => moveForm_unset hi hp⟩,
      moveForm_unconfigured hi hp, fun q => moveForm_unset hi hp⟩
  case moves =>
    intro rs busy x held
    have hbusy : b.cycle + (4 + (rows * rs + 255) / 256) = busy := (Nat.add_assoc ..).symm
    refine ⟨?_, fun hr hc => ⟨_, hmov.trans (moveForm_performs hi hp hq hf hr hc), ?_, ?_, ?_⟩,
      fun hr hc => ⟨_, hld.trans (moveForm_performs hi hp hq hf hr hc), ?_, ?_, ?_, ?_⟩⟩
    · simp only [List.forall_mem_cons, List.not_mem_nil, false_implies, implies_true, and_true, hmov, hld]
      exact ⟨moveForm_awaitsRow hi hp hq hf, moveForm_awaitsRow hi hp hq hf⟩
    · rw [Dev.moving_busyUntil]
      exact hbusy
    · rw [Dev.moving_unalloc, acmovEffect_unalloc]
    · rw [Dev.moving_stores, acmovEffect_stores, Core.acmovBytes_eq]
      rfl
    · rw [Dev.moving_busyUntil]
      exact hbusy
    · rw [Dev.moving_stores, acldEffect_stores]
    · rw [Dev.moving_names, acldEffect_mat, MatState.names_updSlot]
      exact MatState.names_bind ..
    · intro r j hrow hj hn
      obtain ⟨k, hk, -⟩ := MatState.names_bind (s.dev.core b.core).mat o.acc.toNat
      rw [Dev.moving_slotOf, acldEffect_mat, MatState.slotOf_updSlot, MatState.slotOf, hk, Option.map_some,
        Option.map_some, Option.map_some, entry_written_acldWrites o s b c q f hrow hj hn]
      rfl

end Sys2Proof.Machine

/-!
SUPPORT. The matrix engine's configuration, its names and slots, its weight planes and its waits (R346, R355-R361): what
each syllable leaves, and the slot that a name is bound to. The obligation about them follows.
-/

namespace Sys2Proof.Machine

/-! ## The slot of a newly bound name (R356) -/

/-- Where some slot is free, the lowest one is found: it is free, and no free slot lies below it. -/
theorem MatState.freeSlot_lowest (t : MatState) {k : Nat} (hk : k < 32) (hfree : ∀ y ∈ t.names, y.2 ≠ k) :
    t.freeSlot ≤ k ∧ ∀ y ∈ t.names, y.2 ≠ t.freeSlot := by
  have hpass : (t.names.all fun (_, x) => x ≠ k) = true := by simpa using fun a x hx => hfree (a, x) hx
  unfold freeSlot
  cases hfind : (List.range 32).find? fun k => t.names.all fun (_, x) => x ≠ k with
  | none => exact absurd hpass (List.find?_eq_none.1 hfind k (List.mem_range.2 hk))
  | some j =>
    obtain ⟨hj, -, hbelow⟩ := List.find?_range_eq_some.1 hfind
    refine ⟨Nat.le_of_not_lt fun hlt => ?_, fun y hy => by simpa using List.all_eq_true.1 hj y hy⟩
    exact absurd hpass (by simpa using hbelow k hlt)

theorem MatState.names_bind_unbound (t : MatState) {a : Nat} (ha : tget t.names a = none) :
    tget (t.bind a).names a = some t.freeSlot := by
  rw [bind, ha]
  exact tget_tset_same ..

section
variable {s : State} {b : Bundle} {h : Hdr} (hi : Issuing s b h)
include hi

/-! ## Configuration (R99, R346) -/

section
variable {o : MC}

theorem exec_mcfg_sets
    (hpair : pairReason (formatReg s.dev b.core o.wf.toNat) (formatReg s.dev b.core o.af.toNat) o.ak = 0) :
    exec (.mcfg h o) s = .next (s.after h (s.dev.setMat b.core { (s.dev.core b.core).mat with
      configured := true, nq := o.nq.toNat, wf := o.wf.toNat, af := o.af.toNat, ak := o.ak })) := by
  rw [exec_mcfg]
  exact syllable_ok hi (if_neg (not_not_intro hpair))

/-- FORMAT_PAIR names the kinds of both descriptors, the accumulation kind and the reason that R99 gives. -/
theorem exec_mcfg_faults {r : Nat} (hr : r ≠ 0)
    (hpair : pairReason (formatReg s.dev b.core o.wf.toNat) (formatReg s.dev b.core o.af.toNat) o.ak = r) :
    exec (.mcfg h o) s = .next (s.faultBundle b.base (mkFault 0x72 (sylWord (.mcfg h o))
      (toW (descKind (formatReg s.dev b.core o.wf.toNat) * 256 + descKind (formatReg s.dev b.core o.af.toNat) * 16 +
        o.ak.toNat * 4 + r)))) := by
  subst hpair
  rw [exec_mcfg]
  exact syllable_raise hi (if_pos hr)

end

/-! ## Releasing names (R355, R357) -/

theorem exec_acrel_waits {o : MA} (hp : b.issuer.mat.waits o.acc.toNat none = true) :
    exec (.acrel h o) s = .next (s.stallBundle b.base 10) := by
  rw [exec_acrel]
  exact syllable_stall hi (if_pos hp)

theorem exec_acrel_unbinds {o : MA} (hp : b.issuer.mat.waits o.acc.toNat none = false) :
    exec (.acrel h o) s =
      .next (s.after h (s.dev.setMat b.core ((s.dev.core b.core).mat.unbind o.acc.toNat))) := by
  rw [exec_acrel]
  exact syllable_ok hi (if_neg (Bool.eq_false_iff.1 hp))

theorem exec_acrela_waits (hp : b.issuer.mat.pushes ≠ []) :
    exec (.acrela h) s = .next (s.stallBundle b.base 10) := by
  rw [exec_acrela]
  exact syllable_stall hi (if_pos (by simpa using hp))

theorem exec_acrela_unbinds (hp : b.issuer.mat.pushes = []) :
    exec (.acrela h) s =
      .next (s.after h (s.dev.setMat b.core { (s.dev.core b.core).mat with names := [], slots := [] })) := by
  rw [exec_acrela]
  exact syllable_ok hi (if_neg (by simp [hp]))

end

/-! ## Drain groups (R359) -/

/-- Does the band that an ACGRP declares meet the band of another group of its name? -/
def MatState.meetsBand (t : MatState) (o : MG) : Bool :=
  (((t.slotOf o.acc.toNat).map (·.bands)).getD []).any fun (k, v) =>
    decide (k ≠ o.grp.toNat ∧ o.lo.toNat ≤ v.hi ∧ v.lo ≤ o.hi.toNat)

/-- The matrix engine once an ACGRP has bound its name and declared its group. -/
def MatState.declared (t : MatState) (o : MG) : MatState :=
  (t.bind o.acc.toNat).updSlot o.acc.toNat fun q =>
    { q with bands := tset q.bands o.grp.toNat { lo := o.lo.toNat, hi := o.hi.toNat } }

theorem execAcgrp_eq (h : Hdr) (o : MG) (s : State) : execAcgrp h o s = syllable h (fun s b c =>
    if c.mat.meetsBand o then
      .raise (mkFault 0x71 (sylWord (.acgrp h o)) (toW (o.acc.toNat * 65536 + o.lo.toNat * 256 + 2)))
    else .ok (s.dev.setMat b.core (c.mat.declared o))) s := by
  simp only [MatState.meetsBand, Bool.decide_and, ← Bool.and_assoc]
  rfl

section
variable {s : State} {b : Bundle} {h : Hdr} (hi : Issuing s b h)
include hi

theorem exec_acgrp_faults {o : MG} (hm : b.issuer.mat.meetsBand o = true) :
    exec (.acgrp h o) s = .next (s.faultBundle b.base
      (mkFault 0x71 (sylWord (.acgrp h o)) (toW (o.acc.toNat * 65536 + o.lo.toNat * 256 + 2)))) := by
  rw [exec_acgrp, execAcgrp_eq]
  exact syllable_raise hi (if_pos hm)

theorem exec_acgrp_declares {o : MG} (hm : b.issuer.mat.meetsBand o = false) :
    exec (.acgrp h o) s = .next (s.after h (s.dev.setMat b.core (b.issuer.mat.declared o))) := by
  rw [exec_acgrp, execAcgrp_eq]
  exact syllable_ok hi (if_neg (Bool.eq_false_iff.1 hm))

/-! ## Weight planes and waiting (R361) -/

theorem exec_wswap_swaps : exec (.wswap h) s = .next (s.after h (s.dev.setMat b.core
    { (s.dev.core b.core).mat with active1 := !(s.dev.core b.core).mat.active1, wp := 0 })) := by
  rw [exec_wswap]
  exact syllable_ok hi rfl

theorem exec_wclr_clears : exec (.wclr h) s = .next (s.after h (s.dev.setMat b.core
    { (s.dev.core b.core).mat.setShadow [] with wp := 0 })) := by
  rw [exec_wclr]
  exact syllable_ok hi rfl

theorem exec_mwait_waits (hp : b.issuer.mat.pushes ≠ [] ∨ b.cycle < b.issuer.mat.drainUntil) :
    exec (.mwait h) s = .next (s.stallBundle b.base 10) := by
  rw [exec_mwait]
  exact syllable_stall hi (if_pos (by simpa using hp))

theorem exec_mwait_passes (hp : b.issuer.mat.pushes = []) (hd : b.issuer.mat.drainUntil ≤ b.cycle) :
    exec (.mwait h) s = .next (s.after h s.dev) := by
  rw [exec_mwait]
  exact syllable_ok hi (if_neg (by simp [hp, hd]))

end

/-- A cleared shadow plane is the one of the two that is not active. -/
theorem MatState.setShadow_nil_wp (t : MatState) : { t.setShadow [] with wp := 0 } =
    if t.active1 = true then { t with plane0 := [], wp := 0 } else { t with plane1 := [], wp := 0 } := by
  unfold setShadow
  split <;> rfl

/-- Settles O29: each syllable by its wait or its check, and a new name's slot by the search for the lowest free one. -/
theorem matrixConfigurationAndNames : Obligations.MatrixConfigurationAndNames := by
  unfold Obligations.MatrixConfigurationAndNames
  intro s b h hi c n t put
  refine ⟨fun o => ⟨exec_mcfg_sets hi, fun hr => ⟨_, exec_mcfg_faults hi hr rfl⟩⟩, fun o => exec_acrel_unbinds hi,
    fun o => exec_acrel_waits hi, exec_acrela_waits hi, exec_acrela_unbinds hi,
    fun o => ⟨exec_acgrp_declares hi, exec_acgrp_faults hi⟩, exec_wswap_swaps hi, ?wclr, exec_mwait_passes hi,
    exec_mwait_waits hi, fun x a ha k hk hfree => ?lowest⟩
  case wclr =>
    rw [exec_wclr_clears hi, MatState.setShadow_nil_wp]
    rfl
  case lowest =>
    obtain ⟨hle, hunbound⟩ := x.freeSlot_lowest hk hfree
    exact ⟨_, hle, x.names_bind_unbound ha, hunbound⟩

end Sys2Proof.Machine

/-!
SUPPORT. Subscriptions and reductions of a home Graver (R379-R385): a descriptor without a reason, and what each form
answers by its reason and the table's free entry. The obligation about them follows.
-/

namespace Sys2Proof.Machine

/-! ## Descriptors without a reason (R389) -/

theorem badScope_eq_false {k : Nat} : badScope k = false ↔ k ≤ 4 := by simp [badScope]

theorem subReason_eq_none {d : Dev} {ctx : Nat} {x : Ctx} {w ring : List Word} {q : RingDesc}
    (h0 : wfld (nth w 0 0) 0 6 = 0) (h1 : wfld (nth w 1 0) 32 32 % 64 = 0) (hn : wfld (nth w 1 0) 0 32 ≠ 0)
    (ht : wfld (nth w 5 0) 32 32 ≠ 0) (ht' : wfld (nth w 5 0) 32 32 % 64 = 0) (h5 : wfld (nth w 5 0) 12 20 = 0)
    (h5' : wfld (nth w 5 0) 1 2 = 0) (hs : wfld (nth w 5 0) 8 3 ≤ 4) (hs' : wfld (nth w 5 0) 4 3 ≤ 4)
    (h6 : nth w 6 0 = 0) (h7 : nth w 7 0 = 0)
    (hm : (nth w 5 0).getLsbD 11 = true → wfld (nth w 4 0) 0 2 = 0) (hq : ringOf x ring = some q)
    (hsize : wfld (nth w 5 0) 32 32 ≤ q.size)
    (hids : ∀ id ∈ [nth w 3 0, q.cf, q.f, q.cd, q.dr], ∃ r, resolveCounter d ctx id = .ok r)
    (hva : engineVa (nth w 0 0) = true) : subReason d ctx x w ring = none := by
  simp only [subReason, hq]
  refine (if_neg ?fields).trans ((if_neg (Nat.not_lt.2 hsize)).trans ((if_neg ?counters).trans (if_neg ?address)))
  case fields =>
    simp only [h0, h1, hn, ht, ht', h5, h5', h6, h7, badScope_eq_false.2 hs, badScope_eq_false.2 hs', ne_eq,
      not_true_eq_false, decide_false, Bool.false_or, Bool.and_eq_true, decide_eq_true_eq, not_and, not_not]
    exact hm
  case counters =>
    refine Bool.eq_false_iff.1 (List.any_eq_false.2 fun id hid => ?_)
    obtain ⟨r, hr⟩ := hids id hid
    simp only [hr, Bool.false_eq_true, not_false_eq_true]
  case address => simp only [hva, Bool.not_true, Bool.false_eq_true, not_false_eq_true]

theorem redReason_eq_none {d : Dev} {ctx : Nat} {x : Ctx} {w : List Word}
    (h0 : wfld (nth w 0 0) 0 6 = 0) (h1 : wfld (nth w 1 0) 0 6 = 0) (h2 : wfld (nth w 2 0) 0 6 = 0)
    (hn : wfld (nth w 3 0) 32 32 ≠ 0) (h3 : wfld (nth w 3 0) 24 8 = 0) (h3' : wfld (nth w 3 0) 8 4 = 0)
    (h3'' : wfld (nth w 3 0) 0 3 = 0) (h5 : wfld (nth w 5 0) 11 53 = 0) (h5' : wfld (nth w 5 0) 0 3 = 0)
    (hs : wfld (nth w 5 0) 8 3 ≤ 4) (hs' : wfld (nth w 5 0) 4 3 ≤ 4) (h6 : nth w 6 0 = 0) (h7 : nth w 7 0 = 0)
    (hk : wfld (nth w 3 0) 6 2 ≠ 3) (hk' : wfld (nth w 3 0) 4 2 ≠ 3)
    (hf : reduceFmt (x.format (wfld (nth w 3 0) 12 4)) = true)
    (hid : ∃ r, resolveCounter d ctx (nth w 4 0) = .ok r) (hva : engineVa (nth w 0 0) = true)
    (hsrc : ∀ i, i ≤ wfld (nth w 3 0) 16 8 → engineVa (nth w 1 0 + toW i * nth w 2 0) = true) :
    redReason d ctx x w = none := by
  obtain ⟨r, hr⟩ := hid
  simp only [redReason, hr]
  refine (if_neg ?fields).trans ((if_neg ?ops).trans ((if_neg ?format).trans ((if_neg Bool.false_ne_true).trans
    (if_neg ?addresses))))
  case fields =>
    simp only [h0, h1, h2, hn, h3, h3', h3'', h5, h5', h6, h7, badScope_eq_false.2 hs, badScope_eq_false.2 hs', ne_eq,
      not_true_eq_false, decide_false, Bool.or_false, Bool.false_eq_true, not_false_eq_true]
  case ops => simp only [hk, hk', decide_false, Bool.or_false, Bool.false_eq_true, not_false_eq_true]
  case format => simp only [hf, Bool.not_true, Bool.false_eq_true, not_false_eq_true]
  case addresses =>
    simpa only [hva, Bool.not_true, Bool.false_or, List.any_map, List.any_eq_true, List.mem_range, Nat.lt_succ_iff,
      Function.comp_apply, Bool.not_eq_true', not_exists, not_and, Bool.not_eq_false] using hsrc

/-! ## What each form answers -/

/-- The entry that a descriptor in the scratchpad of a core fills. -/
def newEntry (ctx n : Nat) (red : Bool) (a : Word) (w ring : List Word) : SubEnt :=
  { ctx := ctx, cluster := clusterOf n, isRed := red, dva := a, words := w, ring := ring, next := 0, flight := []
    cancelled := false, susp := false, bad := false }

/-- The units with an entry of the home Graver of a core filled. -/
def fillEntry (d : Dev) (n e : Nat) (x : SubEnt) : Dev :=
  d.updDie (dieOf n) fun y => { y with subs := tset y.subs e x }

/-- What GSUB and GRED answer by their descriptor's reason and the entry that is free. -/
def entryAnswer (cause : BitVec 8) (a : Word) (fill : Nat → Dev) : Option Nat → Option Nat → Out
  | some r, _ => .raise (mkFault cause a (toW r))
  | none, some e => .ok (fill e)
  | none, none => .stall 11

section
variable {s : State} {b : Bundle} {h : Hdr} {o : YG} (hi : Issuing s b h) {x : Ctx}
  (hx : s.dev.ctx ((s.dev.ctxOfCore b.core).getD noContext) = some x)
  (hf : rangeFault s.dev b.core (b.issuer.s o.x.toNat) 64 64 .read = none)
  (hb : rangeBad s.dev b.core (b.issuer.s o.x.toNat) 64 = none)
include hi hx hf hb

theorem execGsub_readable {w ring : List Word} (hw : spmWords s.mem s.dev b.core (b.issuer.s o.x.toNat) = w)
    (hring : spmWords s.mem s.dev b.core (nth w 2 0) = ring)
    (hrf : rangeFault s.dev b.core (nth w 2 0) 64 64 .read = none)
    (hrb : rangeBad s.dev b.core (nth w 2 0) 64 = none) :
    execGsub h o s = s.concluded h b (b.ordered o.ord) (entryAnswer 0x80 (b.issuer.s o.x.toNat)
      (fun e => sendLate (fillEntry (s.dev.releaseFor b.core o.ord o.scp) b.core e
          (newEntry ((s.dev.ctxOfCore b.core).getD noContext) b.core false (b.issuer.s o.x.toNat) w ring)) b
        (.s (physSV b.issuer.lp o.y.toNat) (toW (dieOf b.core * 64 + e))) true 0)
      (subReason s.dev ((s.dev.ctxOfCore b.core).getD noContext) x w ring) (s.dev.die (dieOf b.core)).freeSub) := by
  rw [execGsub, ctlSyllable_concluded hi]
  simp only [hf, hb, hx, hw, hring, hrf, hrb, firstOf_none, firstOf_nil]
  cases subReason s.dev ((s.dev.ctxOfCore b.core).getD noContext) x w ring with
  | some r => rfl
  | none => cases (s.dev.die (dieOf b.core)).freeSub <;> rfl

theorem execGred_readable {w : List Word} (hw : spmWords s.mem s.dev b.core (b.issuer.s o.x.toNat) = w) :
    execGred h o s = s.concluded h b (b.ordered o.ord) (entryAnswer 0x82 (b.issuer.s o.x.toNat)
      (fun e => fillEntry (s.dev.releaseFor b.core o.ord o.scp) b.core e
          (newEntry ((s.dev.ctxOfCore b.core).getD noContext) b.core true (b.issuer.s o.x.toNat) w []))
      (redReason s.dev ((s.dev.ctxOfCore b.core).getD noContext) x w) (s.dev.die (dieOf b.core)).freeSub) := by
  rw [execGred, ctlSyllable_concluded hi]
  simp only [hf, hb, hx, hw, firstOf_none, firstOf_nil]
  cases redReason s.dev ((s.dev.ctxOfCore b.core).getD noContext) x w with
  | some r => rfl
  | none => cases (s.dev.die (dieOf b.core)).freeSub <;> rfl

end

section
variable {s : State} {b : Bundle} {h : Hdr} {o : YG} (hi : Issuing s b h)
include hi

/-- An identifier below 512 that names a subscription of the core's context with tiles left cancels it. -/
theorem execGunsub_cancels {e : SubEnt} (ha : (b.issuer.s o.x.toNat).toNat < 512)
    (he : tget ((s.dev.releaseFor b.core o.ord o.scp).die ((b.issuer.s o.x.toNat).toNat / 64)).subs
      ((b.issuer.s o.x.toNat).toNat % 64) = some e)
    (hr : e.isRed = false) (hc : e.ctx = (s.dev.ctxOfCore b.core).getD noContext) (ht : e.tilesDone = false) :
    execGunsub h o s = .next (s.afterWith h ((s.dev.releaseFor b.core o.ord o.scp).updDie
      ((b.issuer.s o.x.toNat).toNat / 64) fun y =>
        { y with subs := tset y.subs ((b.issuer.s o.x.toNat).toNat % 64) { e with cancelled := true } })
      (b.ordered o.ord)) := by
  rw [execGunsub]
  refine ctlSyllable_ok hi ((if_neg (Nat.not_le.2 ha)).trans ?_)
  simp only [he]
  exact if_neg (by simp [hr, hc, ht])

/-- Any other identifier leaves the table as it is. -/
theorem execGunsub_keeps (hk : 512 ≤ (b.issuer.s o.x.toNat).toNat ∨
    ∀ e, tget ((s.dev.releaseFor b.core o.ord o.scp).die ((b.issuer.s o.x.toNat).toNat / 64)).subs
      ((b.issuer.s o.x.toNat).toNat % 64) = some e →
        e.isRed = true ∨ e.ctx ≠ (s.dev.ctxOfCore b.core).getD noContext ∨ e.tilesDone = true) :
    execGunsub h o s = .next (s.afterWith h (s.dev.releaseFor b.core o.ord o.scp) (b.ordered o.ord)) := by
  rw [execGunsub]
  refine ctlSyllable_ok hi ?_
  dsimp only
  split
  · rfl
  · next ha =>
    split
    · rfl
    · next e he =>
      refine if_pos ?_
      simpa [or_assoc] using (hk.resolve_left ha) e he

end

theorem Dev.core_releaseFor (d : Dev) (n k : Nat) (ord : BitVec 2) (scp : BitVec 3) :
    (d.releaseFor n ord scp).core k = d.core k := by
  unfold Dev.releaseFor
  split
  · exact Dev.core_release ..
  · rfl

/-- GUNSUB completes whatever its identifier, and changes no register. -/
theorem execGunsub_completes {s : State} {b : Bundle} {h : Hdr} (hi : Issuing s b h) (o : YG) :
    ∃ t : Dev, execGunsub h o s = .next (s.afterWith h t (b.ordered o.ord)) ∧ ∀ k, (t.core k).r = (s.dev.core k).r := by
  by_cases hk : 512 ≤ (b.issuer.s o.x.toNat).toNat ∨
    ∀ e, tget ((s.dev.releaseFor b.core o.ord o.scp).die ((b.issuer.s o.x.toNat).toNat / 64)).subs
      ((b.issuer.s o.x.toNat).toNat % 64) = some e →
        e.isRed = true ∨ e.ctx ≠ (s.dev.ctxOfCore b.core).getD noContext ∨ e.tilesDone = true
  · exact ⟨_, execGunsub_keeps hi hk, fun k => by rw [Dev.core_releaseFor]⟩
  · simp only [not_or, not_forall, Nat.not_le, ne_eq, Bool.not_eq_true, not_not] at hk
    obtain ⟨ha, e, he, hr, hc, ht⟩ := hk
    exact ⟨_, execGunsub_cancels hi ha he hr hc ht, fun k => by rw [Dev.core_updDie, Dev.core_releaseFor]⟩

/-- Settles O36: past the reads of their descriptors GSUB and GRED answer by the reason and the free entry, GUNSUB by
the entry that its identifier names. -/
theorem subscriptionSyllables : Obligations.SubscriptionSyllables := by
  unfold Obligations.SubscriptionSyllables
  intro s b h o hi c n ctx a d bo w ring put fresh inRange readable w3 w5 tileB
  have gsub {x : Ctx} (hx : s.dev.ctx ctx = some x) (hr : readable a) (hr' : readable (nth w 2 0)) :=
    execGsub_readable (o := o) hi hx hr.1 hr.2 rfl rfl hr'.1 hr'.2
  have gred {x : Ctx} (hx : s.dev.ctx ctx = some x) (hr : readable a) :=
    execGred_readable (o := o) hi hx hr.1 hr.2 rfl
  refine ⟨fun x q e hx hr hr' he h0 h1 hn ht ht' h5 h5' hs hs' h6 h7 hm hq hsize hids hva => ?gsub,
    fun x e hx hr he h0 h1 h2 hn h3 h3' h3'' h5 h5' hs hs' h6 h7 hk hk' hfmt hid hva hsrc => ?gred,
    execGunsub_completes hi o, fun x hx hf hb => ⟨fun hrf hrb => ?gsubAnswers, ?gredAnswers⟩,
    fun e ha he hr hc ht => execGunsub_cancels hi ha he hr hc ht, fun hk => execGunsub_keeps hi ?keeps⟩
  case gsub =>
    rw [exec_gsub, gsub hx hr hr', subReason_eq_none h0 h1 hn ht ht' h5 h5' hs hs' h6 h7 hm hq hsize hids hva, he]
    rfl
  case gred =>
    rw [exec_gred, gred hx hr,
      redReason_eq_none h0 h1 h2 hn h3 h3' h3'' h5 h5' hs hs' h6 h7 hk hk' hfmt hid hva hsrc, he]
    rfl
  case gsubAnswers =>
    rw [exec_gsub, gsub hx ⟨hf, hb⟩ ⟨hrf, hrb⟩]
    refine ⟨fun r hr => ?_, fun e hr he => ?_, fun hr he => ?_⟩
    · rw [hr]; rfl
    · rw [hr, he]; rfl
    · rw [hr, he]; rfl
  case gredAnswers =>
    rw [exec_gred, gred hx ⟨hf, hb⟩]
    refine ⟨fun r hr => ?_, fun e hr he => ?_, fun hr he => ?_⟩
    · rw [hr]; rfl
    · rw [hr, he]; rfl
    · rw [hr, he]; rfl
  case keeps =>
    refine hk.imp id fun hk e he => ?_
    obtain hnone | ⟨e', he', hbad⟩ := hk
    · rw [hnone] at he
      cases he
    · cases he.symm.trans he'
      exact hbad

end Sys2Proof.Machine

/-!
SUPPORT. The syllables of the copy engines and holding buffers (R401-R404), each answer by what its checks come to. The
obligation about them follows.
-/

namespace Sys2Proof.Machine

theorem syllable_answered {s : State} {b : Bundle} {h : Hdr} {f : State → Bundle → Core → Out} {r : Out}
    (hi : Issuing s b h) (hf : f s b b.issuer = r) : syllable h f s = .next (s.answered h b b r) :=
  bundleSyllable_answered hi hf

section
variable {s : State} {b : Bundle} {h : Hdr} {o : YG} (hi : Issuing s b h)
include hi

/-! ## CPYQ (R401) -/

/-- The request that a CPYQ in issue sends to its engine. -/
def cpyqRequest (s : State) (b : Bundle) (o : YG) : CpyReq :=
  { ctx := (s.dev.ctxOfCore b.core).getD noContext, core := b.core, tag := (s.dev.core b.core).nextTag
    q := b.issuer.s o.x.toNat, words := wordsOf 8 (toBytes 64 (b.issuer.v o.z.toNat).toNat), idx := none
    susp := false }

/-- The units before the request is queued: released, with the result awaited under a new tag. -/
def cpyqAwaits (s : State) (b : Bundle) (o : YG) : Dev :=
  (sendLate (s.dev.releaseFor b.core o.ord o.scp) b (.s (physSV b.issuer.lp o.y.toNat) 0) false
    (s.dev.core b.core).nextTag).updCore b.core fun c => { c with nextTag := (s.dev.core b.core).nextTag + 1 }

theorem execCpyq_queues : execCpyq h o s = .next (s.afterWith h
    { cpyqAwaits s b o with
      cpyReqs := tset (cpyqAwaits s b o).cpyReqs (wfld (b.issuer.s o.x.toNat) 4 4)
        (tgetD (cpyqAwaits s b o).cpyReqs (wfld (b.issuer.s o.x.toNat) 4 4) [] ++ [cpyqRequest s b o]) }
    (b.ordered o.ord)) := by
  rw [execCpyq]
  exact ctlSyllable_ok hi rfl

end

theorem Dev.releaseFor_cpyReqs (d : Dev) (n : Nat) (ord : BitVec 2) (scp : BitVec 3) :
    (d.releaseFor n ord scp).cpyReqs = d.cpyReqs := by
  unfold Dev.releaseFor Dev.release
  repeat' split
  all_goals rfl

theorem cpyqAwaits_cpyReqs (s : State) (b : Bundle) (o : YG) : (cpyqAwaits s b o).cpyReqs = s.dev.cpyReqs :=
  Dev.releaseFor_cpyReqs ..

theorem cpyqAwaits_core (s : State) (b : Bundle) (o : YG) : (cpyqAwaits s b o).core b.core =
    { (sendLate (s.dev.releaseFor b.core o.ord o.scp) b (.s (physSV b.issuer.lp o.y.toNat) 0) false
        (s.dev.core b.core).nextTag).core b.core with nextTag := (s.dev.core b.core).nextTag + 1 } :=
  Dev.core_updCore_same ..

/-! ## CPYMC (R403) -/

/-- What a CPYMC whose checks have passed answers: it parks into a free slot for which none waits, else it waits. -/
def parkAnswer (s : State) (b : Bundle) (slot len : Nat) (t : HoldSlot) : Out :=
  let x := s.dev.cluster (clusterOf b.core)
  if (tget x.slots slot).isNone && (x.nextPark slot).isNone then
    .ok ((s.dev.updCluster (clusterOf b.core) fun x => { x with slots := tset x.slots slot t }).updCore b.core
      fun c => { c with busyUntil := b.cycle + holdCycles len })
  else .ok ((s.dev.updCluster (clusterOf b.core) fun x =>
    { x with parks := x.parks ++ [{ slot := slot, src := b.core, hold := t }] }).updCore b.core
      fun c => { c with waits := c.waits ++ [Wait.room slot] })

section
variable {s : State} {b : Bundle} {slot : Nat}

theorem parkAnswer_of_free (hslot : tget (s.dev.cluster (clusterOf b.core)).slots slot = none)
    (hnext : (s.dev.cluster (clusterOf b.core)).nextPark slot = none) (len : Nat) (t : HoldSlot) :
    parkAnswer s b slot len t = .ok ((s.dev.updCluster (clusterOf b.core) fun x =>
      { x with slots := tset x.slots slot t }).updCore b.core fun c =>
        { c with busyUntil := b.cycle + holdCycles len }) :=
  if_pos (by simp [hslot, hnext])

theorem parkAnswer_of_taken (hslot : tget (s.dev.cluster (clusterOf b.core)).slots slot ≠ none ∨
    (s.dev.cluster (clusterOf b.core)).nextPark slot ≠ none) (len : Nat) (t : HoldSlot) :
    parkAnswer s b slot len t = .ok ((s.dev.updCluster (clusterOf b.core) fun x =>
      { x with parks := x.parks ++ [{ slot := slot, src := b.core, hold := t }] }).updCore b.core fun c =>
        { c with waits := c.waits ++ [Wait.room slot] }) :=
  if_neg (by simpa [imp_iff_not_or] using hslot)

end

section
variable {s : State} {b : Bundle} {h : Hdr} {o : YG} (hi : Issuing s b h)
include hi

theorem execCpymc_of_isGeneral (hn : isGeneral b.core = true) :
    execCpymc h o s = .next (s.faultBundle b.base (holdingFault (sylWord (.cpymc h o)) 0 0 6)) := by
  rw [execCpymc]
  exact syllable_raise hi (if_pos hn)

section
variable (hn : isGeneral b.core = false) (hf : rangeFault s.dev b.core (b.issuer.s o.x.toNat) 64 64 .read = none)
  (hb : rangeBad s.dev b.core (b.issuer.s o.x.toNat) 64 = none)
  {w : List Word} (hw : spmWords s.mem s.dev b.core (b.issuer.s o.x.toNat) = w)
  (hsf : rangeFault s.dev b.core (nth w 1 0) (pktLen w) 64 .read = none)
  (hsb : pktLen w ≠ 0 → rangeBad s.dev b.core (nth w 1 0) (pktLen w) = none)
  (hid : ∀ k, k = 6 ∨ k = 7 →
    ∃ q, resolveCounter s.dev ((s.dev.ctxOfCore b.core).getD noContext) (nth w k 0) = .ok q)
  (hp : badPark w = false)
include hn hf hb hw hsf hsb hid hp

/-- A valid descriptor parks, once no W syllable is busy with its bytes (R319). -/
theorem execCpymc_valid : execCpymc h o s = .next (s.answered h b b
    (if b.issuer.rowBusyAt b.cycle (spmOf b.core (nth w 1 0)) (pktLen w) = true then .stall 9
     else parkAnswer s b (wfld (nth w 2 0) 0 4) (pktLen w) (parkSlot w ((s.dev.ctxOfCore b.core).getD noContext)
      (spmRead s.mem s.dev b.core (nth w 1 0) (pktLen w)) none))) := by
  have hsb' : (if pktLen w = 0 then none else rangeBad s.dev b.core (nth w 1 0) (pktLen w)) = none :=
    ite_eq_left_iff.2 hsb
  obtain ⟨q6, h6⟩ := hid 6 (.inl rfl)
  obtain ⟨q7, h7⟩ := hid 7 (.inr rfl)
  rw [execCpymc]
  refine syllable_answered hi ?_
  simp only [hn, hf, hb, hw, hsf, hsb', h6, h7, hp, firstOf_none, firstOf_nil, Bool.false_eq_true, if_false]
  rfl

end

end

/-! ## HBDRAIN (R404) -/

/-- Another core drains a slot still. -/
def drainedElsewhere (d : Dev) (n : Nat) (t : HoldSlot) : Prop :=
  ∃ k x, t.busy = some (k, x) ∧ k ≠ n ∧ d.drains k x = true

/-- The units with a slot's bytes stored by a core, and the core busy with them. -/
def drainedInto (s : State) (b : Bundle) (a : Word) (t : HoldSlot) : Dev :=
  (spmWrite s.dev b.core a t.bytes).updCore b.core fun x => { x with busyUntil := b.cycle + holdCycles t.bytes.length }

/-- What an HBDRAIN of a parked slot answers where no other core drains it: one drain less, or the slot's release. -/
def drainAnswer (s : State) (b : Bundle) (a : Word) (g slot : Nat) (t : HoldSlot) : Out :=
  if 1 < t.rem then
    .ok ((drainedInto s b a t).updCluster g fun x =>
      { x with slots := tset x.slots slot
                { t with rem := t.rem - 1, busy := some (b.core, b.cycle + holdCycles t.bytes.length) } })
  else
    .ok (engineAdd s.mem (((drainedInto s b a t).updCluster g fun x => { x with slots := tdel x.slots slot }).release
      (288 + g) t.rscp) (288 + g) t.ctx t.free 1 s.time)

section
variable {s : State} {b : Bundle} {h : Hdr} {o : YG} (hi : Issuing s b h)
include hi

section
variable {t : HoldSlot} (hn : isGeneral b.core = false) (hy : wfld (b.issuer.s o.y.toNat) 4 4 = 0)
  (hy' : wfld (b.issuer.s o.y.toNat) 10 54 = 0) {g : Nat} (hg : 4 * dieOf b.core + wfld (b.issuer.s o.y.toNat) 8 2 = g)
  (ht : tget (s.dev.cluster g).slots (wfld (b.issuer.s o.y.toNat) 0 4) = some t) (hp : t.parked = true)
  (hc : t.ctx = (s.dev.ctxOfCore b.core).getD noContext)
  (hf : rangeFault s.dev b.core (b.issuer.s o.x.toNat) t.bytes.length 64 .write = none)
include hn hy hy' hg ht hp hc hf

theorem execHbdrain_waits (hd : drainedElsewhere s.dev b.core t) :
    execHbdrain h o s = .next (s.stallBundle b.base 11) := by
  obtain ⟨k, x, hbusy, hk, hx⟩ := hd
  rw [execHbdrain]
  refine syllable_stall hi ?_
  simp [hn, hy, hy', hg, ht, hp, hc, hf, hbusy, hk, hx]

theorem execHbdrain_drains (hd : ¬drainedElsewhere s.dev b.core t) : execHbdrain h o s =
    .next (s.answered h b b (drainAnswer s b (b.issuer.s o.x.toNat) g (wfld (b.issuer.s o.y.toNat) 0 4) t)) := by
  have hfree : (match t.busy with | some (k, x) => k ≠ b.core && s.dev.drains k x | none => false) = false := by
    split
    · next k x hbusy => simpa using fun hk => Bool.eq_false_iff.2 fun hx => hd ⟨k, x, hbusy, hk, hx⟩
    · rfl
  rw [execHbdrain]
  have hparked : (!t.parked) = false := by rw [hp]; rfl
  refine syllable_answered hi ((if_neg (Bool.eq_false_iff.1 hn)).trans ?_)
  simp only [hg, ht, decide_eq_true hc, if_true, Option.map_some, Option.getD_some, hf, hy, hy', hparked, ne_eq,
    not_true_eq_false, decide_false, Bool.or_false, Bool.not_true, Bool.false_eq_true, if_false]
  exact if_neg (Bool.eq_false_iff.1 hfree)

end

end

/-- Settles O35: CPYQ queues its request; CPYMC and HBDRAIN past their checks answer by the state of their slot. -/
theorem copySyllables : Obligations.CopySyllables := by
  unfold Obligations.CopySyllables
  intro s b h o hi c n ctx a
  refine ⟨⟨_, execCpyq_queues hi, ?queued, ?tag, ?awaited⟩, execCpymc_of_isGeneral hi,
    fun hn hf hb hsf hsb hid hp => ?park, fun t hn hy hy' ht hp hc hf => ?drain⟩
  case queued =>
    simp only [cpyqAwaits_cpyReqs]
    rfl
  case tag => exact congrArg Core.nextTag (cpyqAwaits_core s b o)
  case awaited => exact (congrArg Core.pend (cpyqAwaits_core s b o) :)
  case park =>
    have hpark := execCpymc_valid (h := h) hi hn hf hb rfl hsf hsb hid hp
    refine ⟨fun hbusy => ?_, fun hbusy => ⟨fun hslot hnext => ?_, fun hslot => ?_⟩⟩
    · rw [exec_cpymc, hpark, if_pos hbusy]
      rfl
    · rw [exec_cpymc, hpark, if_neg (Bool.eq_false_iff.1 hbusy), parkAnswer_of_free hslot hnext]
      exact congrArg _ (State.afterWith_same hi.1 ..)
    · rw [exec_cpymc, hpark, if_neg (Bool.eq_false_iff.1 hbusy), parkAnswer_of_taken hslot]
      exact congrArg _ (State.afterWith_same hi.1 ..)
  case drain =>
    have hdrain := execHbdrain_drains (h := h) hi hn hy hy' rfl ht hp hc hf
    refine ⟨execHbdrain_waits hi hn hy hy' rfl ht hp hc hf, fun hd hrem => ?_, fun hd hrem => ?_⟩
    · rw [exec_hbdrain, hdrain hd, drainAnswer, if_pos hrem]
      exact congrArg _ (State.afterWith_same hi.1 ..)
    · rw [exec_hbdrain, hdrain hd, drainAnswer, if_neg (Nat.not_lt.2 hrem)]
      exact congrArg _ (State.afterWith_same hi.1 ..)

end Sys2Proof.Machine

/-!
SUPPORT. The entry of a collective (R474, R475, R479): one meaning for its three forms, by what its descriptor's checks
come to. The obligation about them follows.
-/

namespace Sys2Proof.Machine

/-- The three forms run one meaning, each with its number. -/
theorem exec_collectiveForm {h : Hdr} {o : YG} {i : Instr} {form : Nat}
    (hm : (i, form) ∈ [(Instr.colred h o, 0), (.colbc h o, 1), (.colag h o, 2)]) (s : State) :
    exec i s = enterCol h o form s := by
  simp only [List.mem_cons, Prod.mk.injEq, List.not_mem_nil, or_false] at hm
  obtain ⟨rfl, rfl⟩ | ⟨rfl, rfl⟩ | ⟨rfl, rfl⟩ := hm <;> rfl

section
variable {s : State} {b : Bundle} {h : Hdr} {o : YG} {form : Nat} (hi : Issuing s b h)
include hi

theorem enterCol_unreadable {e : Event} (hf : rangeFault s.dev b.core (b.issuer.s o.x.toNat) 64 64 .read = some e) :
    enterCol h o form s = .next (s.faultBundle b.base e) := by
  rw [enterCol]
  exact ctlSyllable_raise hi (by simp only [hf, firstOf_some])

section
variable (hf : rangeFault s.dev b.core (b.issuer.s o.x.toNat) 64 64 .read = none)
  (hb : rangeBad s.dev b.core (b.issuer.s o.x.toNat) 64 = none)
  {w : List Word} (hw : spmWords s.mem s.dev b.core (b.issuer.s o.x.toNat) = w)
include hf hb hw

theorem enterCol_badFields (hc : colBad s.dev ((s.dev.ctxOfCore b.core).getD noContext) form w = true) :
    enterCol h o form s = .next (s.faultBundle b.base (colMismatch (b.issuer.s o.x.toNat) w 1)) := by
  rw [enterCol]
  exact ctlSyllable_raise hi (by simp only [hf, hb, hw, hc, firstOf_none, firstOf_nil, if_true])

variable (hc : colBad s.dev ((s.dev.ctxOfCore b.core).getD noContext) form w = false)
include hc

theorem enterCol_noSuchRank (hr : colNrank w ≤ colRankNo w) :
    enterCol h o form s = .next (s.faultBundle b.base (colMismatch (b.issuer.s o.x.toNat) w 2)) := by
  rw [enterCol]
  refine ctlSyllable_raise hi ?_
  simp only [hf, hb, hw, hc, hr, firstOf_none, firstOf_nil, Bool.false_eq_true, if_false, if_true]

/-- A rank that the group gives to this package joins its collective where an entry is there or free. -/
theorem enterCol_joins {bs : List Byte} {q : CounterRef} {d : Dev} (hr : colRankNo w < colNrank w)
    (hread : ∀ f, readImage s b b.issuer true (nth w 2 0 + toW (2 * colRankNo w)) 2 f = f bs)
    (hpkg : ofBytes bs = Config.packageNumber)
    (hq : resolveCounter s.dev ((s.dev.ctxOfCore b.core).getD noContext) (nth w 4 0) = .ok q)
    (hjoin : joinCol (s.dev.releaseFor b.core o.ord o.scp) form
      (((s.dev.ctx ((s.dev.ctxOfCore b.core).getD noContext)).map (·.part)).getD 0) s.time
      { core := b.core, ctx := (s.dev.ctxOfCore b.core).getD noContext, dva := b.issuer.s o.x.toNat, words := w } =
        some d) :
    enterCol h o form s = .next (s.afterWith h d (b.ordered o.ord)) := by
  rw [enterCol]
  refine ctlSyllable_ok hi ?_
  simp only [hf, hb, hw, hc, firstOf_none, firstOf_nil, Bool.false_eq_true, if_false, if_neg (Nat.not_le.2 hr), hread,
    hpkg, ne_eq, not_true_eq_false, hq, hjoin]

end

end

/-- Settles O39: the three forms share one meaning, which answers by the checks of its descriptor in their order. -/
theorem collectiveSyllables : Obligations.CollectiveSyllables := by
  unfold Obligations.CollectiveSyllables
  intro s b h o hi c n ctx a w i form hm
  rw [exec_collectiveForm hm]
  exact ⟨fun e hf => enterCol_unreadable hi hf, fun hf hb => ⟨enterCol_badFields hi hf hb rfl,
    enterCol_noSuchRank hi hf hb rfl, fun bs q d hc => enterCol_joins hi hf hb rfl hc⟩⟩

end Sys2Proof.Machine

/-!
SUPPORT. The Firn's syllables (R436-R440), which share the checks of a descriptor, and CALVE in both forms (R470-R473).
The obligation about them follows.
-/

namespace Sys2Proof.Machine

theorem wordsOf_bytesOfWords_of_length {w : List Word} {k : Nat} (hk : w.length = k) :
    wordsOf k (bytesOfWords w) = w := hk ▸ wordsOf_bytesOfWords w

theorem ctlSyllable_answered {s : State} {b : Bundle} {h : Hdr} {f : State → Bundle → Core → Out} {g : Bundle → Bundle}
    {r : Out} (hi : Issuing s b h) (hf : f s b b.issuer = r) : ctlSyllable h f g s = .next (s.answered h b (g b) r) :=
  bundleSyllable_answered hi hf

/-! ## An operation for the home Firn (R436, R437, R439) -/

section
variable {s : State} {b : Bundle} {o : YG} {kind : Nat} {f : Dev → Nat → Dev}

/-- The operation that a syllable in issue sends to the home Firn. -/
def firnOperation (s : State) (b : Bundle) (o : YG) (w : List Word) (kind : Nat) : FirnOp :=
  { ctx := (s.dev.ctxOfCore b.core).getD noContext, core := b.core, kind := kind, dva := b.issuer.s o.x.toNat
    words := w, t0 := wfld (b.issuer.s o.z.toNat) 0 32, n := wfld (b.issuer.s o.z.toNat) 32 16
    b := wfld (b.issuer.s o.z.toNat) 48 10, tag := (s.dev.core b.core).nextTag, task := b.issuer.task.map (·.id)
    no := 0, susp := false }

/-- The units d with the operation sent and its tag used. -/
def firnSent (s : State) (b : Bundle) (o : YG) (w : List Word) (kind : Nat) (d : Dev) : Dev :=
  let d := d.updCore b.core fun x => { x with nextTag := (s.dev.core b.core).nextTag + 1 }
  d.sendFirn (d.rootDie ((s.dev.ctxOfCore b.core).getD noContext)) (firnOperation s b o w kind)

theorem firnForm_misaligned (ha : (b.issuer.s o.x.toNat).toNat % 64 ≠ 0) :
    firnForm o kind s b b.issuer f = .raise (mkFault 0x36 (b.issuer.s o.x.toNat) 0) := if_pos ha

section
variable (ha : (b.issuer.s o.x.toNat).toNat % 64 = 0) {w : List Word}
  (hread : ∀ f, readImage s b b.issuer true (b.issuer.s o.x.toNat) 64 f = f (bytesOfWords w)) (hw : w.length = 8)
include ha hread hw

theorem firnForm_refused {r : Nat} (hk : kvReason s.dev ((s.dev.ctxOfCore b.core).getD noContext) w
      (b.issuer.s o.z.toNat) (decide (2 ≤ kind)) = some r) :
    firnForm o kind s b b.issuer f = .raise (mkFault 0xB0 (b.issuer.s o.x.toNat) (toW r)) := by
  rw [firnForm]
  simp only [ha, hread, wordsOf_bytesOfWords_of_length hw, hk, ne_eq, not_true_eq_false, if_false]

theorem firnForm_sends (hk : kvReason s.dev ((s.dev.ctxOfCore b.core).getD noContext) w
      (b.issuer.s o.z.toNat) (decide (2 ≤ kind)) = none) :
    firnForm o kind s b b.issuer f =
      .ok (firnSent s b o w kind (f (s.dev.releaseFor b.core o.ord o.scp) (s.dev.core b.core).nextTag)) := by
  rw [firnForm]
  simp only [ha, hread, wordsOf_bytesOfWords_of_length hw, hk, ne_eq, not_true_eq_false, if_false]
  rfl

end

end

/-- A handle that a KVPROBE may take: unbound, and no result on its way to it (R440). -/
def Core.handleFree (c : Core) (k : Nat) : Prop :=
  c.h k = .unbound ∧ (c.pend.any fun e => match e.res with | .h j _ => j = k | _ => false) = false

section
variable {s : State} {b : Bundle} {h : Hdr} {o : YG} (hi : Issuing s b h)
include hi

theorem execKvprobe_taken (hh : ¬b.issuer.handleFree (o.imm.toNat % 64)) :
    execKvprobe h o s = .next (s.faultBundle b.base (handleFault 0 (o.imm.toNat % 64) 1)) := by
  rw [execKvprobe]
  refine syllable_raise hi (if_pos (Bool.or_eq_true_iff.2 ?_))
  by_cases hu : b.issuer.h (o.imm.toNat % 64) = .unbound
  · exact .inr (Bool.not_eq_false _ |>.mp fun hpend => hh ⟨hu, hpend⟩)
  · exact .inl (decide_eq_true hu)

/-- With a free handle KVPROBE is an operation for the home Firn like the others. -/
theorem execKvprobe_of_free (hh : b.issuer.handleFree (o.imm.toNat % 64)) : execKvprobe h o s =
    .next (s.answered h b b (firnForm o 1 s b b.issuer fun d tag =>
      sendLate (sendLate d b (.s (physSV b.issuer.lp o.y.toNat) 0) false tag) b (.h (o.imm.toNat % 64) .pending) false
        tag)) := by
  obtain ⟨hunbound, hpend⟩ := hh
  rw [execKvprobe]
  refine syllable_answered hi (if_neg (Bool.eq_false_iff.1 (Bool.or_eq_false_iff.2 ⟨?_, hpend⟩)))
  exact decide_eq_false (not_not_intro hunbound)

theorem execFilreq_issuing : execFilreq h o s = .next (s.answered h b b (firnForm o 0 s b b.issuer fun d tag =>
    sendLate d b (.s (physSV b.issuer.lp o.y.toNat) 0) false tag)) :=
  syllable_answered hi rfl

theorem execKvmarkValid_issuing : execKvmarkValid h o s =
    .next (s.answered h b (b.ordered o.ord) (firnForm o 2 s b b.issuer fun d _ => d)) := ctlSyllable_answered hi rfl

theorem execKvmarkExit_issuing : execKvmarkExit h o s =
    .next (s.answered h b (b.ordered o.ord) (firnForm o 3 s b b.issuer fun d _ => d)) := ctlSyllable_answered hi rfl

theorem execKvmarkClear_issuing : execKvmarkClear h o s =
    .next (s.answered h b (b.ordered o.ord) (firnForm o 4 s b b.issuer fun d _ => d)) := ctlSyllable_answered hi rfl

/-- Each KVMARK form is an operation of a kind from 2 up. -/
theorem exists_kvmark_kind {i : Instr} (hm : i ∈ [Instr.kvmarkValid h o, .kvmarkExit h o, .kvmarkClear h o]) :
    ∃ kind, 2 ≤ kind ∧
      exec i s = .next (s.answered h b (b.ordered o.ord) (firnForm o kind s b b.issuer fun d _ => d)) := by
  simp only [List.mem_cons, List.not_mem_nil, or_false] at hm
  obtain rfl | rfl | rfl := hm
  · exact ⟨2, by decide, execKvmarkValid_issuing hi⟩
  · exact ⟨3, by decide, execKvmarkExit_issuing hi⟩
  · exact ⟨4, by decide, execKvmarkClear_issuing hi⟩

/-! ## CALVE (R470, R472) -/

theorem execCalve_noSuchPackage (hx : (b.issuer.s o.x.toNat).getLsbD 63 = true ∧
      383 < wfld (b.issuer.s o.x.toNat) 54 9) : execCalve h o s = .next (s.faultBundle b.base
    (mkFault 0xC1 (b.issuer.s o.x.toNat) (toW (wfld (b.issuer.s o.x.toNat) 54 9 * 2 ^ 32 + 7)))) := by
  rw [execCalve]
  exact ctlSyllable_raise hi (if_pos (by simpa using hx))

section
variable (hx : ¬((b.issuer.s o.x.toNat).getLsbD 63 = true ∧ 383 < wfld (b.issuer.s o.x.toNat) 54 9))
include hx

theorem execCalve_noExit (hy : wfld (b.issuer.s o.y.toNat) 32 2 ≠ 2) :
    execCalve h o s = .next (s.afterWith h (s.dev.releaseFor b.core o.ord o.scp) (b.ordered o.ord)) := by
  rw [execCalve]
  exact ctlSyllable_ok hi ((if_neg (by simpa using hx)).trans (if_pos hy))

/-- A word that is an exit goes as a notice to the package of its target. -/
theorem execCalve_sends (hy : wfld (b.issuer.s o.y.toNat) 32 2 = 2) : execCalve h o s = .next (s.afterWith h
    ((s.dev.releaseFor b.core o.ord o.scp).send
      { src := b.core, ctx := ((s.dev.releaseFor b.core o.ord o.scp).ctxOfCore b.core).getD noContext
        pkg := if (b.issuer.s o.x.toNat).getLsbD 63 = true then wfld (b.issuer.s o.x.toNat) 54 9
               else Config.packageNumber
        kind := .notice, ident := b.issuer.s o.x.toNat, pa := (b.issuer.s o.y.toNat).toNat, data := []
        val := b.issuer.s o.z.toNat, tag := 0, phase := 0, start := s.time }) (b.ordered o.ord)) := by
  rw [execCalve]
  exact ctlSyllable_ok hi ((if_neg (by simpa using hx)).trans (if_neg (not_not_intro hy)))

end

end

/-! ## CALVE_ARM (R473) -/

/-- A target descriptor whose fields keep their limits (R470). -/
def targetGood (w : List Word) : Prop :=
  wfld (nth w 3 0) 22 42 = 0 ∧ wfld (nth w 3 0) 13 3 = 0 ∧ 1 ≤ wfld (nth w 3 0) 0 13 ∧
    wfld (nth w 3 0) 0 13 ≤ 4096 ∧ (nth w 0 0).toNat % 4 = 0 ∧ (nth w 1 0).toNat % 64 = 0

/-- The check of the fields fails exactly where they do not keep their limits. -/
theorem targetFields_bad {w : List Word} : (wfld (nth w 3 0) 22 42 ≠ 0 || wfld (nth w 3 0) 13 3 ≠ 0 ||
    wfld (nth w 3 0) 0 13 = 0 || 4096 < wfld (nth w 3 0) 0 13 || (nth w 0 0).toNat % 4 ≠ 0 ||
      (nth w 1 0).toNat % 64 ≠ 0) = true ↔ ¬targetGood w := by
  simp only [Bool.or_eq_true, decide_eq_true_eq, targetGood]
  omega

/-- The time that an arm gives its target: it never goes back. -/
def armTime (v : Calv) (i : Nat) (z : Word) : Word :=
  match tget v.targets i with
  | some (_, t) => if t.toNat < z.toNat then z else t
  | none => z

/-- A pending notice of the target armed, at its time or before. -/
def Notice.armed (q : Notice) (i : Nat) (t : Word) : Bool := q.target = i && decide (q.time.toNat ≤ t.toNat)

/-- The units that an arm leaves. -/
def armedUnits (s : State) (b : Bundle) (o : YG) (w : List Word) (v : Calv) : Dev :=
  let ctx := (s.dev.ctxOfCore b.core).getD noContext
  let tag := (s.dev.core b.core).nextTag
  let i := wfld (nth w 3 0) 16 6
  let t := armTime v i (b.issuer.s o.z.toNat)
  runArm s.mem ctx b.core tag w s.time (v.pending.filter fun q => q.armed i t && decide (q.time = t)) 0
    (((sendLate s.dev b (.s (physSV b.issuer.lp o.y.toNat) 0) false tag).updCore b.core fun y =>
      { y with nextTag := tag + 1 }).updCalv ctx fun v' => { v' with
        targets := tset v'.targets i (w, t)
        pending := v'.pending.filter fun q => !q.armed i t
        stale := sat16 v'.stale (v.pending.filter fun q => q.armed i t && decide (q.time ≠ t)).length })

section
variable {s : State} {b : Bundle} {h : Hdr} {o : YG} (hi : Issuing s b h)
include hi

theorem execCalveArm_misaligned (ha : (b.issuer.s o.x.toNat).toNat % 32 ≠ 0) :
    execCalveArm h o s = .next (s.faultBundle b.base (mkFault 0x36 (b.issuer.s o.x.toNat) 0)) := by
  rw [execCalveArm]
  exact syllable_raise hi (if_pos ha)

section
variable (ha : (b.issuer.s o.x.toNat).toNat % 32 = 0) {w : List Word}
  (hread : ∀ f, readImage s b b.issuer true (b.issuer.s o.x.toNat) 32 f = f (bytesOfWords w)) (hw : w.length = 4)
include ha hread hw

theorem execCalveArm_badTarget (hg : ¬targetGood w) : execCalveArm h o s = .next (s.faultBundle b.base
    (mkFault 0xC1 (b.issuer.s o.x.toNat) (targetFault (wfld (nth w 3 0) 16 6)).2)) := by
  rw [execCalveArm]
  refine syllable_raise hi ((if_neg (not_not_intro ha)).trans ?_)
  simp only [hread, wordsOf_bytesOfWords_of_length hw]
  exact if_pos (targetFields_bad.2 hg)

variable (hg : targetGood w)
include hg

theorem execCalveArm_counterRange {r : Nat}
    (hr : resolveCounter s.dev ((s.dev.ctxOfCore b.core).getD noContext) (nth w 2 0) = .error r) :
    execCalveArm h o s = .next (s.faultBundle b.base (mkFault 0x42 (nth w 2 0) (toW r))) := by
  rw [execCalveArm]
  refine syllable_raise hi ((if_neg (not_not_intro ha)).trans ?_)
  simp only [hread, wordsOf_bytesOfWords_of_length hw, hr]
  exact if_neg fun hbad => targetFields_bad.1 hbad hg

variable {x : Ctx} {q : CounterRef}
  (hq : resolveCounter s.dev ((s.dev.ctxOfCore b.core).getD noContext) (nth w 2 0) = .ok q)
  (hx : s.dev.ctx ((s.dev.ctxOfCore b.core).getD noContext) = some x)
include hq hx

theorem execCalveArm_waits (hv : x.calv.arm ≠ none ∨ x.calv.held ≠ []) :
    execCalveArm h o s = .next (s.stallBundle b.base 11) := by
  rw [execCalveArm]
  refine syllable_stall hi ((if_neg (not_not_intro ha)).trans ?_)
  simp only [hread, wordsOf_bytesOfWords_of_length hw, hq, hx]
  refine (if_neg fun hbad => targetFields_bad.1 hbad hg).trans (if_pos ?_)
  simpa [Option.isSome_iff_ne_none] using hv

theorem execCalveArm_installs (harm : x.calv.arm = none) (hheld : x.calv.held = []) :
    execCalveArm h o s = .next (s.after h (armedUnits s b o w x.calv)) := by
  rw [execCalveArm]
  refine syllable_ok hi ((if_neg (not_not_intro ha)).trans ?_)
  simp only [hread, wordsOf_bytesOfWords_of_length hw, hq, hx]
  refine (if_neg fun hbad => targetFields_bad.1 hbad hg).trans ((if_neg (by simp [harm, hheld])).trans ?_)
  rfl

end

end

/-- Settles O38: an operation for the home Firn is sent where its descriptor has no reason, CALVE sends the notice of an
exit, and CALVE_ARM installs a good target where no arm is under way. -/
theorem fillAndCalvingSyllables : Obligations.FillAndCalvingSyllables := by
  unfold Obligations.FillAndCalvingSyllables
  intro s b h o hi c n ctx a z tag d late free marks
  refine ⟨execKvprobe_taken hi, fun ha => ⟨fun i hm => ?misaligned, fun hh => ?probeMisaligned⟩,
    fun w ha hread hw => ?operations, ⟨execCalve_noSuchPackage hi, fun hx => ⟨execCalve_noExit hi hx,
      execCalve_sends hi hx⟩⟩, execCalveArm_misaligned hi, fun w ha hread hw => ?arm⟩
  case misaligned =>
    rw [List.mem_cons] at hm
    obtain rfl | hm := hm
    · rw [exec_filreq, execFilreq_issuing hi, firnForm_misaligned ha]
      rfl
    · obtain ⟨kind, -, he⟩ := exists_kvmark_kind hi hm
      rw [he, firnForm_misaligned ha]
      rfl
  case probeMisaligned =>
    rw [exec_kvprobe, execKvprobe_of_free hi hh, firnForm_misaligned ha]
    rfl
  case operations =>
    refine ⟨fun r hk => ⟨?_, fun hh => ?_⟩, fun r hk i hm => ?_, fun hk => ⟨?_, ?_⟩, fun hk => ⟨?_, ?_, ?_⟩⟩
    · rw [exec_filreq, execFilreq_issuing hi, firnForm_refused (kind := 0) ha hread hw hk]
      rfl
    · rw [exec_kvprobe, execKvprobe_of_free hi hh, firnForm_refused (kind := 1) ha hread hw hk]
      rfl
    · obtain ⟨kind, hkind, he⟩ := exists_kvmark_kind hi hm
      rw [he, firnForm_refused ha hread hw (by rw [decide_eq_true hkind]; exact hk)]
      rfl
    · rw [exec_filreq, execFilreq_issuing hi, firnForm_sends (kind := 0) ha hread hw hk]
      exact congrArg _ (State.afterWith_same hi.1 ..)
    · rintro _ rfl hh
      rw [exec_kvprobe, execKvprobe_of_free hi hh, firnForm_sends (kind := 1) ha hread hw hk]
      exact congrArg _ (State.afterWith_same hi.1 ..)
    · rw [exec_kvmarkValid, execKvmarkValid_issuing hi, firnForm_sends (kind := 2) ha hread hw hk]
      rfl
    · rw [exec_kvmarkExit, execKvmarkExit_issuing hi, firnForm_sends (kind := 3) ha hread hw hk]
      rfl
    · rw [exec_kvmarkClear, execKvmarkClear_issuing hi, firnForm_sends (kind := 4) ha hread hw hk]
      rfl
  case arm =>
    exact ⟨execCalveArm_badTarget hi ha hread hw, fun r hg => execCalveArm_counterRange hi ha hread hw hg,
      fun x q hg hq hx => ⟨execCalveArm_waits hi ha hread hw hg hq hx, execCalveArm_installs hi ha hread hw hg hq hx⟩⟩

end Sys2Proof.Machine

/-!
SUPPORT. The operations of privileged firmware (R509): each answers by its argument, the partition or context that it
names, and its reason. The obligation about them follows.
-/

namespace Sys2Proof.Machine

/-! ## Arguments (R509) -/

theorem partArg_eq_none {d : Dev} {v : Word} (h : tget d.parts v.toNat = none) : partArg d v = none := by
  rw [partArg, h]; rfl

theorem partArg_eq_some {d : Dev} {v : Word} {p : Part} (h : tget d.parts v.toNat = some p) :
    partArg d v = some (v.toNat, p) := by
  rw [partArg, h]; rfl

theorem ctxArg_eq_none {d : Dev} {v : Word} (h : d.ctx v.toNat = none) : ctxArg d v = none := by
  rw [ctxArg, h]; rfl

theorem ctxArg_eq_some {d : Dev} {v : Word} {x : Ctx} (h : d.ctx v.toNat = some x) :
    ctxArg d v = some (v.toNat, x) := by
  rw [ctxArg, h]; rfl

/-- A context is in use where a partition has it resident or a swap brings it, or a general core runs in it. -/
theorem Dev.inUse_iff {d : Dev} {k : Nat} : d.inUse k = true ↔
    (∃ p ∈ d.parts, p.2.resident = some k ∨ p.2.swap = some (2, k) ∨ p.2.swap = some (3, k)) ∨
      ∃ q ∈ d.genPart, q.2.2 = k := by
  simp only [Dev.inUse, Bool.or_eq_true, List.any_eq_true, decide_eq_true_eq, or_assoc]

/-- The page count of an inval is the rest of its immediate above bit 4. -/
theorem fld_imm_high (v : BitVec 20) : fld v.toNat 4 16 = v.toNat / 16 := by
  have := v.isLt
  unfold fld
  omega

section
variable {s : State} {b : Bundle} {h : Hdr} {o : ZG} (hi : Issuing s b h) (hn : isGeneral b.core = true)
  (hp : b.issuer.seq.priv = true)
include hi hn hp

/-! ## The wrapper -/

theorem firmware_ok {w : Word} {f : State → Bundle → Core → Out} {d : Dev} (hf : f s b b.issuer = .ok d) :
    firmware h w f s = .next (s.after h d) :=
  syllable_ok hi ((if_pos (by rw [hn, hp]; rfl)).trans hf)

theorem firmware_stall {w : Word} {f : State → Bundle → Core → Out} {r : Nat} (hf : f s b b.issuer = .stall r) :
    firmware h w f s = .next (s.stallBundle b.base r) :=
  syllable_stall hi ((if_pos (by rw [hn, hp]; rfl)).trans hf)

/-- An operation that answers v in sb and leaves the units d. -/
theorem firmware_tells {w : Word} {f : State → Bundle → Core → Out} {d : Dev} {v : Word}
    (hf : f s b b.issuer = opAnswer d b b.issuer o v) :
    firmware h w f s = .next (s.after h (sendLate d b (.s (physSV b.issuer.lp o.y.toNat) v) true 0)) :=
  firmware_ok hi hn hp hf

/-! ## PARTOP and SWAPOP -/

section
variable {w : List Word} (hw : w.length = 4)
  (hread : ∀ f, readImage s b b.issuer true (b.issuer.s o.z.toNat) 32 f = f (bytesOfWords w))
include hw hread

theorem execPartopForm_refused {r : Nat} (hr : formReason s.dev ((b.issuer.s o.x.toNat).setWidth 8) w = some r) :
    execPartopForm h o s = .next (s.after h (sendLate s.dev b
      (.s (physSV b.issuer.lp o.y.toNat) (toW (2 ^ 63 + r))) true 0)) := by
  rw [execPartopForm]
  refine firmware_tells hi hn hp ?_
  simp only [hread, wordsOf_bytesOfWords_of_length hw, hr]
  rfl

theorem execPartopForm_makes {k : Nat} (hr : formReason s.dev ((b.issuer.s o.x.toNat).setWidth 8) w = none)
    (hk : ((List.range 8).find? fun i => (tget s.dev.parts i).isNone) = some k) :
    execPartopForm h o s = .next (s.after h (sendLate (s.dev.setPart k
        (newPart ((b.issuer.s o.x.toNat).setWidth 8) (nth w 0 0).toNat (nth w 1 0).toNat (nth w 2 0).toNat
          ((nth w 3 0).setWidth 16))) b (.s (physSV b.issuer.lp o.y.toNat) (toW k)) true 0)) := by
  rw [execPartopForm]
  refine firmware_tells hi hn hp ?_
  simp only [hread, wordsOf_bytesOfWords_of_length hw, hr, hk, Option.getD_some]

end

/-- The operations on a partition refuse, with reason 1, one that is not there. -/
theorem exec_noPartition (hx : tget s.dev.parts (b.issuer.s o.x.toNat).toNat = none) {i : Instr}
    (hm : i ∈ [Instr.partopDissolve h o, .partopPreempt h o, .swapopSave h o, .swapopRestore h o, .swapopExch h o]) :
    exec i s = .next (s.after h (sendLate s.dev b
      (.s (physSV b.issuer.lp o.y.toNat) (toW (2 ^ 63 + 1))) true 0)) := by
  have harg := partArg_eq_none hx
  simp only [List.mem_cons, List.not_mem_nil, or_false] at hm
  obtain rfl | rfl | rfl | rfl | rfl := hm
  all_goals
    simp only [exec_partopDissolve, execPartopDissolve, exec_partopPreempt, execPartopPreempt, exec_swapopSave,
      execSwapopSave, exec_swapopRestore, execSwapopRestore, exec_swapopExch, execSwapopExch, swapForm]
    refine firmware_tells hi hn hp ?_
    simp only [harg]
    rfl

section
variable {p : Part} (hx : tget s.dev.parts (b.issuer.s o.x.toNat).toNat = some p)
include hx

theorem execPartopDissolve_removes
    (hc : s.dev.ctxs.any (fun (_, y) => y.part = (b.issuer.s o.x.toNat).toNat) = false) :
    execPartopDissolve h o s = .next (s.after h (sendLate
      { s.dev with parts := tdel s.dev.parts (b.issuer.s o.x.toNat).toNat } b
      (.s (physSV b.issuer.lp o.y.toNat) 0) true 0)) := by
  rw [execPartopDissolve]
  refine firmware_tells hi hn hp ?_
  simp only [partArg_eq_some hx]
  exact if_neg (Bool.eq_false_iff.1 hc)

theorem execPartopDissolve_occupied
    (hc : s.dev.ctxs.any (fun (_, y) => y.part = (b.issuer.s o.x.toNat).toNat) = true) :
    execPartopDissolve h o s = .next (s.after h (sendLate s.dev b
      (.s (physSV b.issuer.lp o.y.toNat) (toW (2 ^ 63 + 7))) true 0)) := by
  rw [execPartopDissolve]
  refine firmware_tells hi hn hp ?_
  simp only [partArg_eq_some hx]
  exact if_pos hc

theorem execPartopPreempt_asks : execPartopPreempt h o s = .next (s.after h (sendLate
    (s.dev.preemptPart (b.issuer.s o.x.toNat).toNat p) b (.s (physSV b.issuer.lp o.y.toNat) 0) true 0)) := by
  rw [execPartopPreempt]
  refine firmware_tells hi hn hp ?_
  simp only [partArg_eq_some hx]

omit hi hn hp hx in
theorem exec_swapForm {i : Instr} {code : Nat}
    (hm : (i, code) ∈ [(Instr.swapopSave h o, 1), (.swapopRestore h o, 2), (.swapopExch h o, 3)]) :
    ∃ v, exec i s = swapForm h v o code s := by
  simp only [List.mem_cons, Prod.mk.injEq, List.not_mem_nil, or_false] at hm
  obtain ⟨rfl, rfl⟩ | ⟨rfl, rfl⟩ | ⟨rfl, rfl⟩ := hm
  all_goals exact ⟨_, rfl⟩

theorem swapForm_refused {v : Word} {code r : Nat} (hr : swapReason s.dev p code (b.issuer.s o.z.toNat) = some r) :
    swapForm h v o code s = .next (s.after h (sendLate s.dev b
      (.s (physSV b.issuer.lp o.y.toNat) (toW (2 ^ 63 + r))) true 0)) := by
  rw [swapForm]
  refine firmware_tells hi hn hp ?_
  simp only [partArg_eq_some hx, hr]
  rfl

theorem swapForm_begins {v : Word} {code : Nat} (hr : swapReason s.dev p code (b.issuer.s o.z.toNat) = none) :
    swapForm h v o code s = .next (s.after h (((sendLate s.dev b (.s (physSV b.issuer.lp o.y.toNat) 0) false
        (s.dev.core b.core).nextTag).updCore b.core fun y =>
          { y with nextTag := (s.dev.core b.core).nextTag + 1 }).setPart (b.issuer.s o.x.toNat).toNat
        { p with swap := some (code, (b.issuer.s o.z.toNat).toNat), swapAt := p.swapFrom s.time
                 swapLeft := p.dieList, swapBy := (b.core, (s.dev.core b.core).nextTag) })) := by
  rw [swapForm]
  refine firmware_ok hi hn hp ?_
  simp only [partArg_eq_some hx, hr]

end

/-! ## CTXOP and the queue reset -/

/-- The operations on a context refuse, with reason 8, one that is not there. -/
theorem exec_noContext (hx : s.dev.ctx (b.issuer.s o.x.toNat).toNat = none) {i : Instr}
    (hm : i ∈ [Instr.partopQreset h o, .ctxopDestroy h o, .ctxopInval h o, .ctxopAttest h o]) :
    exec i s = .next (s.after h (sendLate s.dev b
      (.s (physSV b.issuer.lp o.y.toNat) (toW (2 ^ 63 + 8))) true 0)) := by
  have harg := ctxArg_eq_none hx
  simp only [List.mem_cons, List.not_mem_nil, or_false] at hm
  obtain rfl | rfl | rfl | rfl := hm
  all_goals
    simp only [exec_partopQreset, execPartopQreset, exec_ctxopDestroy, execCtxopDestroy, exec_ctxopInval,
      execCtxopInval, exec_ctxopAttest, execCtxopAttest]
    refine firmware_tells hi hn hp ?_
    simp only [harg]
    rfl

section
variable {k : Ctx} (hx : s.dev.ctx (b.issuer.s o.x.toNat).toNat = some k)
include hx

theorem execPartopQreset_resets : execPartopQreset h o s = .next (s.after h (sendLate
    (queueReset s.mem s.dev (b.issuer.s o.x.toNat).toNat s.time) b
    (.s (physSV b.issuer.lp o.y.toNat) 0) true 0)) := by
  rw [execPartopQreset]
  refine firmware_tells hi hn hp ?_
  simp only [ctxArg_eq_some hx]

theorem execCtxopDestroy_inUse (hu : s.dev.inUse (b.issuer.s o.x.toNat).toNat = true) :
    execCtxopDestroy h o s = .next (s.after h (sendLate s.dev b
      (.s (physSV b.issuer.lp o.y.toNat) (toW (2 ^ 63 + 7))) true 0)) := by
  rw [execCtxopDestroy]
  refine firmware_tells hi hn hp ?_
  simp only [ctxArg_eq_some hx]
  exact if_pos hu

theorem execCtxopDestroy_removes (hu : ¬s.dev.inUse (b.issuer.s o.x.toNat).toNat = true) :
    execCtxopDestroy h o s = .next (s.after h (sendLate
      ((s.dev.sealUnits s.mem k).eraseCtx (b.issuer.s o.x.toNat).toNat) b
      (.s (physSV b.issuer.lp o.y.toNat) 0) true 0)) := by
  rw [execCtxopDestroy]
  refine firmware_tells hi hn hp ?_
  simp only [ctxArg_eq_some hx]
  exact if_neg hu

theorem execCtxopInval_answers : execCtxopInval h o s =
    if s.dev.underOld (b.issuer.s o.x.toNat).toNat (b.issuer.s o.z.toNat).toNat (o.imm.toNat / 16) then
      .next (s.stallBundle b.base 11)
    else .next (s.after h (sendLate (s.dev.dropTranslations (b.issuer.s o.x.toNat).toNat
      (b.issuer.s o.z.toNat).toNat (o.imm.toNat / 16)) b (.s (physSV b.issuer.lp o.y.toNat) 0) true 0)) := by
  rw [← fld_imm_high, execCtxopInval]
  split
  · next hold =>
    refine firmware_stall hi hn hp ?_
    simp only [ctxArg_eq_some hx]
    exact if_pos hold
  · next hold =>
    refine firmware_tells hi hn hp ?_
    simp only [ctxArg_eq_some hx]
    exact if_neg hold

theorem execCtxopAttest_writes (hz : inMemory (b.issuer.s o.z.toNat).toNat 640 = true) :
    execCtxopAttest h o s = .next (s.after h (sendLate ((s.dev.writeAll systemUnit (b.issuer.s o.z.toNat).toNat
      (report (b.issuer.s o.x.toNat).toNat k (readBytes s.mem s.dev b.core (b.issuer.s o.z.toNat).toNat 32)
        s.dev.sys.feata0 s.free)).clearGranules (b.issuer.s o.z.toNat).toNat 640) b
      (.s (physSV b.issuer.lp o.y.toNat) 0) true 0)) := by
  rw [execCtxopAttest]
  refine firmware_tells hi hn hp ?_
  simp only [ctxArg_eq_some hx, hz]
  rfl

theorem execCtxopAttest_noMemory (hz : inMemory (b.issuer.s o.z.toNat).toNat 640 = false) :
    execCtxopAttest h o s = .next (s.after h (sendLate s.dev b
      (.s (physSV b.issuer.lp o.y.toNat) (toW (2 ^ 63 + 8))) true 0)) := by
  rw [execCtxopAttest]
  refine firmware_tells hi hn hp ?_
  simp only [ctxArg_eq_some hx, hz]
  rfl

end

section
variable {w : List Word} (hw : w.length = 32)
  (hread : ∀ f, readImage s b b.issuer true (b.issuer.s o.z.toNat) 256 f = f (bytesOfWords w))
  {k : Ctx} (hk : newCtx (b.issuer.s o.x.toNat).toNat s.free w = k)
include hw hread hk

theorem execCtxopCreate_refused {r : Nat}
    (hr : createReason s.mem s.dev (b.issuer.s o.x.toNat).toNat k = some r) :
    execCtxopCreate h o s = .next (s.after h (sendLate s.dev b
      (.s (physSV b.issuer.lp o.y.toNat) (toW (2 ^ 63 + r))) true 0)) := by
  rw [execCtxopCreate]
  refine firmware_tells hi hn hp ?_
  simp only [hread, wordsOf_bytesOfWords_of_length hw, hk, hr]
  rfl

variable {p : Part} {i : Nat} (hr : createReason s.mem s.dev (b.issuer.s o.x.toNat).toNat k = none)
  (hpart : tget s.dev.parts (b.issuer.s o.x.toNat).toNat = some p)
  (hfree : ((List.range 64).find? fun i => (s.dev.ctx i).isNone) = some i)
include hr hpart hfree

theorem execCtxopCreate_notResident (hres : p.resident ≠ none ∨ p.swap ≠ none) :
    execCtxopCreate h o s = .next (s.after h (sendLate (s.dev.setCtx i k) b
      (.s (physSV b.issuer.lp o.y.toNat) (toW i)) true 0)) := by
  have hcond : (p.resident.isNone && p.swap.isNone) = false := by
    simpa [imp_iff_not_or, Option.isSome_iff_ne_none] using hres
  rw [execCtxopCreate]
  refine firmware_tells hi hn hp ?_
  simp only [hread, wordsOf_bytesOfWords_of_length hw, hk, hr, hpart, hfree, hcond]
  rfl

theorem execCtxopCreate_resident (hres : p.resident = none) (hswap : p.swap = none) :
    execCtxopCreate h o s = .next (s.after h (sendLate (((s.dev.setCtx i k).setPart (b.issuer.s o.x.toNat).toNat
        { p with resident := some i, preempt := false }).freshCores p) b
      (.s (physSV b.issuer.lp o.y.toNat) (toW i)) true 0)) := by
  have hcond : (p.resident.isNone && p.swap.isNone) = true := by rw [hres, hswap]; rfl
  rw [execCtxopCreate]
  refine firmware_tells hi hn hp ?_
  simp only [hread, wordsOf_bytesOfWords_of_length hw, hk, hr, hpart, hfree, hcond]
  rfl

end

end

/-- Settles O43: on a privileged general core each operation answers by the partition or context it names and by its
reason. -/
theorem firmwareOperations : Obligations.FirmwareOperations := by
  unfold Obligations.FirmwareOperations
  intro s b h o hi c n x z tells refuses hn hp
  refine ⟨fun w hw hread => ⟨fun r => execPartopForm_refused hi hn hp hw hread,
      fun k => execPartopForm_makes hi hn hp hw hread⟩, fun hx i => exec_noPartition hi hn hp hx,
    fun p hx => ⟨execPartopDissolve_removes hi hn hp hx, execPartopDissolve_occupied hi hn hp hx,
      execPartopPreempt_asks hi hn hp hx, fun i code hm => ?swap⟩,
    fun hx i => exec_noContext hi hn hp hx, fun k hx => ⟨execPartopQreset_resets hi hn hp hx,
      ⟨fun hu => execCtxopDestroy_inUse hi hn hp hx (Dev.inUse_iff.2 hu),
        fun hu => execCtxopDestroy_removes hi hn hp hx (mt Dev.inUse_iff.1 hu)⟩,
      execCtxopInval_answers hi hn hp hx, execCtxopAttest_writes hi hn hp hx, execCtxopAttest_noMemory hi hn hp hx⟩,
    fun w hw hread => ⟨fun r => execCtxopCreate_refused hi hn hp hw hread rfl,
      fun p i hr hpart hres hfree => execCtxopCreate_notResident hi hn hp hw hread rfl hr hpart hfree hres,
      fun p i hr hpart hres hswap hfree => execCtxopCreate_resident hi hn hp hw hread rfl hr hpart hfree hres hswap⟩⟩
  case swap =>
    obtain ⟨v, hv⟩ := exec_swapForm (s := s) hm
    rw [hv]
    exact ⟨fun r => swapForm_refused hi hn hp hx, swapForm_begins hi hn hp hx⟩

end Sys2Proof.Machine

/-!
SUPPORT. Events of trace units, monitors, boot, the host and the package (R36, R485-R514): what one event comes to where
its condition holds. The obligation about them follows.
-/

namespace Sys2Proof.Machine

theorem exists_happening {s : State} (hl : s.Live) {f : State → Option Dev} {P : Dev → Prop}
    (h : ∃ d, f s = some d ∧ P d) : ∃ d, happening f s = .next (s.happened d) ∧ P d :=
  h.imp fun _ ⟨hd, hp⟩ => ⟨happening_some hl hd, hp⟩

/-! ## Operations that stop cores, and what leaves the partitions -/

theorem Dev.foldl_updCore_parts {α : Type} {f : α → Core → Core} {i : α → Nat} (l : List α) (d : Dev) :
    (l.foldl (fun d x => d.updCore (i x) (f x)) d).parts = d.parts :=
  List.foldlRecOn (motive := fun e : Dev => e.parts = d.parts) l _ rfl fun _ h _ _ => h

theorem Dev.foldl_parts {α : Type} {f : Dev → α → Dev} (hf : ∀ d x, (f d x).parts = d.parts) (l : List α) (d : Dev) :
    (l.foldl f d).parts = d.parts :=
  List.foldlRecOn (motive := fun e : Dev => e.parts = d.parts) l f rfl fun e h x _ => (hf e x).trans h

/-- Each core of a list that is stopped one after the other has stopped. -/
theorem Dev.run_foldl_stop {l : List Nat} {n : Nat} (hn : n ∈ l) (d : Dev) :
    ((l.foldl (fun d n => d.updCore n fun c => { c with run := .stopped }) d).core n).run = .stopped := by
  induction l using List.reverseRecOn with
  | nil => cases hn
  | append_singleton l a ih =>
    rw [List.foldl_append, List.foldl_cons, List.foldl_nil]
    by_cases ha : n = a
    · rw [ha, Dev.core_updCore_same]
    · rw [Dev.core_updCore_other _ _ _ _ ha]
      exact ih ((List.mem_append.1 hn).resolve_right (by simpa using ha))

/-! ## Trace units (R485, R486) -/

section
variable {s : State} (hl : s.Live) {u ctx : Nat} {ring : TraceRing}
  (hring : (s.dev.ctx ctx).bind (fun y => y.ring u) = some ring)
include hl hring

section
variable {i : Nat} {r : TraceRec} (hrep : (s.dev.unit u).reported s.mem s.dev u = none)
  (hnext : nextRecord s.mem s.dev u (s.dev.unit u).buf [] 0 = some i) (hr : (s.dev.unit u).buf[i]? = some r)
  (hctx : r.ctx = ctx) (hspace : ringSpace s.mem s.dev ctx ring = true)
include hrep hnext hr hctx hspace

omit hl hrep hnext hr hctx in
/-- A record that can be stored takes the ring's next place. -/
theorem writeRecord_of_store {words : List Word} {d : Dev} (hd : engineStore s.mem (s.dev.readCounter s.mem ctx ring.rd)
      (traceEngine u) ctx (ring.base + toW (64 * (ring.written % 2 ^ ring.log2))) (bytesOfWords words) none s.time =
        .ok d) :
    writeRecord s.mem s.dev u ctx words s.time = some (d.updCtx ctx fun y => { y with
      rings := tset y.rings u { ring with written := ring.written + 1, owed := ring.owed + 1,
                                          since := if ring.owed = 0 then s.time else ring.since } }) := by
  simp only [writeRecord, hring, hspace, hd]
  rfl

theorem execTraceRecordWrite_next (hlost : (s.dev.unit u).lost = 0) {d : Dev}
    (hd : writeRecord s.mem s.dev u ctx r.words s.time = some d) : execTraceRecordWrite u s =
      .next (s.happened (d.setUnit u { s.dev.unit u with buf := (s.dev.unit u).buf.eraseIdx i })) := by
  subst hctx
  rw [execTraceRecordWrite]
  refine happening_some hl ?_
  simp only [hrep, hnext, hr, hring, Option.isNone_some, Bool.false_eq_true, if_false, writeOwn, hlost, ne_eq,
    not_true_eq_false, hd, Option.map_some, id]

/-- After a drop a LOST record comes first, and the next record stays. -/
theorem execTraceRecordWrite_lost (hlost : (s.dev.unit u).lost ≠ 0) {d : Dev}
    (hd : writeRecord s.mem s.dev u ctx
      (unitRecord (s.dev.unit u).tseq ctx u 5 (toW (s.dev.unit u).lost) s.time) s.time = some d) :
    execTraceRecordWrite u s = .next (s.happened (d.setUnit u
      { s.dev.unit u with lost := 0, tseq := (s.dev.unit u).tseq + 1 })) := by
  subst hctx
  rw [execTraceRecordWrite]
  refine happening_some hl ?_
  simp only [hrep, hnext, hr, hring, Option.isNone_some, Bool.false_eq_true, if_false, writeOwn, hlost, ne_eq,
    not_false_eq_true, if_true, hd, Option.map_some]

end

theorem execTraceWiAdd_adds (ho : ring.owed ≠ 0) :
    execTraceWiAdd u ctx s = .next (s.happened (s.dev.addWritten s.mem u ctx s.time)) := by
  rw [execTraceWiAdd]
  refine happening_some hl ?_
  simp only [hring]
  exact if_neg ho

end

/-! ## Monitors (R490, R492, R498) -/

section
variable {s : State} (hl : s.Live) {n : Nat}
include hl

/-- A core without a bundle at hand is sampled at its due cycle. -/
theorem execSample_samples {due per : Nat} (hs : (s.dev.core n).sample = some (due, per))
    (hrun : (s.dev.core n).run ≠ .running) (hheld : ∀ e, (s.dev.core n).run ≠ .held e) :
    ∃ d, execSample n s = .next (s.happened d) ∧
      (d.core n).sample = some (max (s.dev.core n).ready due + per, per) := by
  rw [execSample]
  refine exists_happening hl ?_
  simp only [hs]
  exact ⟨_, if_neg Bool.false_ne_true, congrArg Core.sample (Dev.core_updCore_same ..)⟩

theorem execCounterRotate_rotates {ctx : Nat} {x : Ctx} {d : Dev} {first : Bool} (hx : s.dev.ctxAt n = some (ctx, x))
    (hpage : x.cpage ≠ 0)
    (hfirst : ((s.dev.core n).ev.sels.isEmpty && (s.dev.core n).ev.used.isEmpty) = first)
    (hdue : first = true ∨ (s.dev.core n).ev.since + 1000 * (s.dev.core n).ev.rot ≤ s.time)
    (hd : ((writeBack s.mem s.dev ctx x n ((s.dev.core n).ev.sels.map Prod.fst) s.time).bind fun d =>
      makeCurrent s.mem d ctx x n (if first then 0 else (s.dev.core n).ev.group + 1) s.time) = .ok d) :
    execCounterRotate n s = .next (s.happened d) := by
  have hwait : (decide (x.cpage = 0) || (!first &&
      decide (s.time < (s.dev.core n).ev.since + 1000 * (s.dev.core n).ev.rot))) = false := by
    simpa [hpage, imp_iff_not_or] using hdue
  rw [execCounterRotate]
  refine happening_some hl ?_
  simp only [hx, hfirst]
  refine (if_neg (Bool.eq_false_iff.1 hwait)).trans ?_
  simp only [bind, hd]

end

/-! ### A change that a core has applied is off its context's list (R498, R500) -/

/-- A context without a core on its list of changes still to apply. -/
def Ctx.cleared (x : Ctx) (n : Nat) (smp : Bool) : Ctx :=
  if smp then { x with smpTodo := tdel x.smpTodo n } else { x with watchTodo := tdel x.watchTodo n }

theorem Dev.ctxAt_clearTodo (d : Dev) (n k : Nat) (smp : Bool) :
    (d.clearTodo n smp).ctxAt k = (d.ctxAt k).map fun e => (e.1, e.2.cleared n smp) := by
  have hctx (c : Nat) : (d.clearTodo n smp).ctx c = (d.ctx c).map fun x => x.cleared n smp :=
    tget_map (α := Ctx) (β := Ctx) (f := fun e => (e.1, e.2.cleared n smp)) (fun _ => rfl) d.ctxs c
  have hof : (d.clearTodo n smp).ctxOfCore k = d.ctxOfCore k := rfl
  simp only [Dev.ctxAt, hof]
  cases d.ctxOfCore k with
  | none => rfl
  | some c =>
    simp only [Option.bind_some, hctx]
    cases d.ctx c <;> rfl

section
variable {s : State} (hl : s.Live)
include hl

theorem execSamplingChangeApplied_applies (n : Nat) : execSamplingChangeApplied n s =
    .next (s.happened ((s.dev.clearTodo n true).applySampling n (s.dev.core n).ready)) := by
  rw [execSamplingChangeApplied]
  exact happening_some hl rfl

theorem execWatchpointChangeApplied_applies {n ctx : Nat} {x : Ctx} (hx : s.dev.ctxAt n = some (ctx, x)) :
    execWatchpointChangeApplied n s =
      .next (s.happened ((s.dev.clearTodo n false).updCore n fun c => { c with watch := x.watch })) := by
  rw [execWatchpointChangeApplied]
  refine happening_some hl ?_
  simp only [Dev.ctxAt_clearTodo, hx, Option.map_some]
  rfl

end

/-! ## The end of a swap (R36) -/

theorem Dev.parts_applySampling (d : Dev) (n cycle : Nat) : (d.applySampling n cycle).parts = d.parts := by
  unfold Dev.applySampling
  split <;> rfl

theorem Dev.parts_restartFront (d : Dev) (g : Nat) : (restartFront d g).parts = d.parts := by
  unfold restartFront
  split
  · rfl
  · dsimp only
    split
    · exact Dev.foldl_updCore_parts ..
    · exact Dev.foldl_updCore_parts ..

/-- The record of a partition whose swap has completed (R36, R37). -/
def Part.swapped (p : Part) (code target : Nat) : Part :=
  { p with swap := none, swapLeft := [], preempt := code = 1, resident := if code = 1 then none else some target }

/-- After the last die nothing but the partition's own record changes of the partitions. -/
theorem endSwap_parts (d : Dev) (k : Nat) (p : Part) (code target time : Nat) :
    (endSwap d k p code target time).parts = (d.setPart k (p.swapped code target)).parts := by
  unfold endSwap
  dsimp only
  rw [Dev.answerS, Dev.updCore_parts]
  rw [Part.swapped]
  split
  · exact Dev.foldl_updCore_parts ..
  · rw [Dev.foldl_updCore_parts, Dev.foldl_parts fun _ _ => Dev.parts_applySampling .., Dev.foldl_updCore_parts,
      Dev.foldl_parts Dev.parts_restartFront, Dev.foldl_updCore_parts]

section
variable {s : State} (hl : s.Live) {die k code target : Nat} {p : Part} (hk : s.dev.partOfDie die = some k)
  (hp : tget s.dev.parts k = some p) (hswap : p.swap = some (code, target)) (hdie : die ∈ p.swapLeft)
include hl hk hp hswap hdie

/-- A die of a swap leaves the list of those still to go; with the last one the swap ends. -/
theorem execSwapComplete_completes : ∃ d, execSwapComplete die s = .next (s.happened d) ∧
    ∃ e, d = if (p.swapLeft.erase die).isEmpty then
        endSwap e k { p with swapLeft := p.swapLeft.erase die } code target s.time
      else e.setPart k { p with swapLeft := p.swapLeft.erase die } := by
  have hmem : (!p.swapLeft.contains die) = false := by simpa using hdie
  rw [execSwapComplete]
  refine exists_happening hl ?_
  simp only [hk, hp, hswap, hmem, Bool.false_eq_true, if_false]
  exact ⟨_, rfl, _, rfl⟩

/-- The partition's record after a die of its swap has completed. -/
theorem execSwapComplete_part : ∃ d p', execSwapComplete die s = .next (s.happened d) ∧ tget d.parts k = some p' ∧
    (p.swapLeft.erase die ≠ [] → p' = { p with swapLeft := p.swapLeft.erase die }) ∧
    (p.swapLeft.erase die = [] → p'.swap = none ∧ p'.resident = if code = 1 then none else some target) := by
  obtain ⟨d, hd, e, he⟩ := execSwapComplete_completes hl hk hp hswap hdie
  by_cases hlast : p.swapLeft.erase die = []
  · have hparts : tget d.parts k =
        some (({ p with swapLeft := p.swapLeft.erase die } : Part).swapped code target) := by
      rw [he, if_pos (by rw [hlast]; rfl), endSwap_parts]
      exact tget_tset_same ..
    exact ⟨d, _, hd, hparts, fun h => absurd hlast h, fun _ => ⟨rfl, rfl⟩⟩
  · have hparts : tget d.parts k = some { p with swapLeft := p.swapLeft.erase die } := by
      rw [he, if_neg (by simpa using hlast)]
      exact tget_tset_same ..
    exact ⟨d, _, hd, hparts, fun _ => rfl, fun h => absurd h hlast⟩

end

/-! ## Boot (R18, R506) -/

theorem Dev.run_stopBoot (d : Dev) {iod n : Nat} (hn : n ∈ coresOfIod iod) (state : BitVec 2) :
    ((d.stopBoot iod state).core n).run = .stopped := by
  unfold Dev.stopBoot
  generalize coresOfIod iod = l at hn ⊢
  exact Dev.run_foldl_stop hn d

@[simp] theorem Dev.core_systemReport (d : Dev) (src : Nat) (cause : BitVec 8) (info0 info1 : Word) (time n : Nat) :
    (d.systemReport src cause info0 info1 time).core n = d.core n := by
  unfold Dev.systemReport
  rw [Dev.core_toSystemPath, Dev.core_countRecord]

theorem Dev.boot_systemReport (d : Dev) (src : Nat) (cause : BitVec 8) (info0 info1 : Word) (time : Nat) :
    (d.systemReport src cause info0 info1 time).sys.boot = d.sys.boot := by
  unfold Dev.systemReport Dev.toSystemPath
  dsimp only
  split <;> rfl

section
variable {s : State} (hl : s.Live) {iod : Nat} (hdead : iod % 2 ∉ s.dev.sys.dead)
include hl hdead

theorem execBootRom_loads (hb : s.dev.sys.boot = 0) (image selfTest : Bool) : execBootRom iod image selfTest s =
    .next (s.happened { s.dev with sys := { s.dev.sys with boot := 1 } }) := by
  rw [execBootRom]
  refine happening_some hl ((if_neg ?_).trans (if_pos hb))
  simp [hb, hdead]

section
variable (h3 : s.dev.sys.boot ≠ 3) (h0 : s.dev.sys.boot ≠ 0)
include h3 h0

omit hl h0 in
/-- Neither a refused image nor the die's own self-test has stopped the boot. -/
theorem bootOpen : (decide (s.dev.sys.boot = 3) || s.dev.sys.dead.contains (iod % 2)) = false := by
  rw [decide_eq_false h3]
  simpa using hdead

theorem execBootRom_proceeds (hnone : s.dev.sys.dead = []) : execBootRom iod true true s =
    .next (s.happened { s.dev with sys := { s.dev.sys with boot := 2 } }) := by
  rw [execBootRom]
  refine happening_some hl ((if_neg (Bool.eq_false_iff.1 (bootOpen hdead h3))).trans ((if_neg h0).trans ?_))
  simp only [hnone]
  rfl

/-- A refused image stops the die. -/
theorem execBootRom_refused (selfTest : Bool) :
    execBootRom iod false selfTest s = .next (s.happened (s.dev.stopBoot iod 3)) := by
  rw [execBootRom]
  exact happening_some hl ((if_neg (Bool.eq_false_iff.1 (bootOpen hdead h3))).trans (if_neg h0))

/-- A failed self-test stops the die and is recorded. -/
theorem execBootRom_failsTest : execBootRom iod true false s =
    .next (s.happened ((s.dev.stopBoot iod 1).systemReport systemUnit 0xE0 (Config.freeWord (2 * s.free))
      (Config.freeWord (2 * s.free + 1)) s.time)) := by
  rw [execBootRom]
  exact happening_some hl ((if_neg (Bool.eq_false_iff.1 (bootOpen hdead h3))).trans (if_neg h0))

end

end

/-! ## The host and the features (R504, R505, R513) -/

section
variable {s : State} (hl : s.Live)
include hl

theorem execFeatureAccept_unlocked (hk : s.dev.sys.locked = false) (word : Bool) (bits : Word) :
    execFeatureAccept word bits s =
      .next (s.happened { s.dev with sys := s.dev.sys.accept word bits }) := by
  rw [execFeatureAccept]
  exact happening_some hl (if_neg (Bool.eq_false_iff.1 hk))

theorem execHostCounterAdd_adds {ctx : Nat} {x : Ctx} {id v : Word} {q : CounterRef} (hx : s.dev.ctx ctx = some x)
    (hb : s.dev.sys.boot ≠ 3) (hq : resolveCounter s.dev ctx id = .ok q) : execHostCounterAdd ctx id v s =
      .next (s.happened (engineAdd s.mem (s.dev.release 406 3) systemUnit ctx id v s.time)) := by
  rw [execHostCounterAdd]
  refine happening_some hl ?_
  simp only [hx, hb, if_false, hq]

section
variable {n : Nat} {csr : BitVec 16} (hn : n < 288) (ha : csrAssigned (isGeneral n) csr.toNat = true)
  (op : CsrOp) (v : Word)
include hn ha

theorem execRegisterWrite_accesses : execRegisterWrite n op csr v s =
    .next (s.happened (windowAccess s n op csr.toNat v).2) := by
  rw [execRegisterWrite]
  exact happening_some hl (if_neg (by simp [ha]; omega))

variable (hb : s.dev.sys.boot ≠ 3)
include hb

theorem execHostControlAccess_accesses (hw : s.dev.sys.cw = true) : execHostControlAccess n op csr v s =
    .next (s.happened { (windowAccess s n op csr.toNat v).2 with
      sys := { (windowAccess s n op csr.toNat v).2.sys with hostWord := (windowAccess s n op csr.toNat v).1 } }) := by
  rw [execHostControlAccess]
  refine happening_some hl ((if_neg (by simp [ha]; omega)).trans ((if_neg hb).trans ?_))
  simp only [hw]
  rfl

omit hl in
theorem execHostControlAccess_refused (hw : s.dev.sys.cw = false) : execHostControlAccess n op csr v s = .next s := by
  rw [execHostControlAccess]
  refine happening_none ((if_neg (by simp [ha]; omega)).trans ((if_neg hb).trans ?_))
  simp only [hw]
  rfl

end

/-! ## Gating, the thermal stop and the package reset (R510, R512) -/

theorem execIssueGating_closes {die : Nat} (hd : die < 8) (cause : GateCause) :
    ∃ d, execIssueGating die cause s = .next (s.happened d) ∧ (cause, s.time) ∈ (d.die die).gate := by
  rw [execIssueGating]
  refine exists_happening hl ⟨_, if_neg (Nat.not_le.2 hd), ?_⟩
  rw [Dev.die_updDie_same]
  exact List.mem_cons_self

theorem execGatingEnd_opens {die : Nat} (hd : die < 8)
    (hover : ∃ x ∈ (s.dev.die die).gate, x.2 + gateLeast x.1 ≤ s.time) :
    execGatingEnd die s = .next (s.happened (s.dev.updDie die fun y =>
      { y with gate := y.gate.filter fun x => decide (s.time < x.2 + gateLeast x.1) })) := by
  have hany : ((s.dev.die die).gate.any fun x => decide (x.2 + gateLeast x.1 ≤ s.time)) = true := by simpa using hover
  have hkeep : (fun x : GateCause × Nat => !decide (x.2 + gateLeast x.1 ≤ s.time)) =
      fun x => decide (s.time < x.2 + gateLeast x.1) := by
    funext x
    rw [← decide_not, decide_eq_decide, Nat.not_le]
  rw [execGatingEnd]
  refine happening_some hl ((if_neg ?_).trans ?_)
  · simp only [hany, Bool.not_true, Bool.or_false, decide_eq_true_eq]
    omega
  · simp only [hkeep]

theorem execThermalStop_stops (die : Nat) : ∃ d, execThermalStop die s = .next (s.happened d) ∧ d.sys.hot = true ∧
    ∀ n, n < 288 → (d.core n).run = .stopped := by
  rw [execThermalStop]
  refine exists_happening hl ⟨_, rfl, rfl, fun n hn => ?_⟩
  have hn' := List.mem_range.2 hn
  generalize List.range 288 = l at hn' ⊢
  exact Dev.run_foldl_stop hn' _

end

/-- No event happens while a thermal stop holds the package. -/
theorem happening_of_not_live {s : State} (hl : ¬s.Live) (f : State → Option Dev) : happening f s = .next s := by
  have hhot : s.dev.sys.hot = true := by simpa [State.Live] using hl
  rw [happening, if_pos hhot]

theorem execPackageReset_resets (s : State) : ∃ t, execPackageReset s = .next t ∧ t.mem = s.mem ∧
    t.dev = { Dev.reset with poison := s.dev.poison } ∧ t.bundle = none :=
  ⟨_, rfl, rfl, rfl, rfl⟩

/-- Settles O54: each event by its condition, and after a thermal stop none. -/
theorem traceAndSystemEvents : Obligations.TraceAndSystemEvents := by
  unfold Obligations.TraceAndSystemEvents
  refine ⟨fun s hl => ⟨?traceRecord, fun u ctx r => execTraceWiAdd_adds hl, fun n due per => execSample_samples hl,
    ?rotate, execSamplingChangeApplied_applies hl, fun n ctx x => execWatchpointChangeApplied_applies hl,
    fun die k p code target => execSwapComplete_part hl, ?load, ?boot,
    fun w bits hk => execFeatureAccept_unlocked hl hk w bits, fun ctx x id v q => execHostCounterAdd_adds hl, ?registers,
    fun die cause hd => execIssueGating_closes hl hd cause, fun die => execGatingEnd_opens hl,
    execThermalStop_stops hl⟩, fun s hl => happening_of_not_live hl, execPackageReset_resets⟩
  case traceRecord =>
    intro u i r ctx ring x hrep hnext hr hctx hring hspace stores written
    exact ⟨fun d hlost hd => execTraceRecordWrite_next hl hring hrep hnext hr hctx hspace hlost
        (writeRecord_of_store hring hspace hd),
      fun d hlost hd => execTraceRecordWrite_lost hl hring hrep hnext hr hctx hspace hlost
        (writeRecord_of_store hring hspace hd)⟩
  case rotate =>
    intro n ctx x d v first hx hpage hdue hd
    exact execCounterRotate_rotates hl hx hpage rfl hdue hd
  case load => exact fun iod i t hb hdead => execBootRom_loads hl hdead hb i t
  case boot =>
    refine fun iod h3 h0 hdead => ⟨execBootRom_proceeds hl hdead h3 h0, fun t => ⟨_, execBootRom_refused hl hdead h3 h0 t,
      rfl, fun n hn => Dev.run_stopBoot _ hn _⟩, _, execBootRom_failsTest hl hdead h3 h0, ?_, fun n hn => ?_⟩
    · rw [Dev.boot_systemReport]
      rfl
    · rw [Dev.core_systemReport]
      exact Dev.run_stopBoot _ hn _
  case registers =>
    exact fun n op csr v hn ha => ⟨execRegisterWrite_accesses hl hn ha op v,
      execHostControlAccess_accesses hl hn ha op v, execHostControlAccess_refused hn ha op v⟩

end Sys2Proof.Machine

/-!
SUPPORT. Events of copy engines and holding buffers (R395-R405): what one event comes to where its condition holds, and
what a counter's operation leaves of the copy queues.
-/

namespace Sys2Proof.Machine

/-! ## Counters leave the copy queues -/

section
variable (m : Memory) (d : Dev) (ctx : Nat)

@[simp] theorem Dev.release_cpyqs (a scope : Nat) : (d.release a scope).cpyqs = d.cpyqs := by
  unfold Dev.release
  split <;> rfl

@[simp] theorem Dev.engineReport_cpyqs (src : Nat) (cause : BitVec 8) (kind : EvKind) (baddr info0 info1 : Word)
    (time : Nat) : (d.engineReport src ctx cause kind baddr info0 info1 time).cpyqs = d.cpyqs := by
  unfold Dev.engineReport Dev.toRing
  split <;> rfl

@[simp] theorem counterSet_cpyqs (k i : Nat) (v : Word) : (counterSet d ctx k i v).cpyqs = d.cpyqs := by
  unfold counterSet
  dsimp only
  split <;> rfl

@[simp] theorem counterOp_cpyqs (k i : Nat) (op : CounterOp) : (counterOp m d ctx k i op).1.cpyqs = d.cpyqs := by
  cases op with
  | add v =>
    simp only [counterOp]
    split <;> exact counterSet_cpyqs ..
  | raise v => exact counterSet_cpyqs ..
  | read => exact counterSet_cpyqs ..

@[simp] theorem Dev.readCounter_cpyqs (id : Word) : (d.readCounter m ctx id).cpyqs = d.cpyqs := by
  unfold Dev.readCounter
  split
  · exact counterOp_cpyqs ..
  · rfl

@[simp] theorem engineAdd_cpyqs (src : Nat) (id v : Word) (time : Nat) :
    (engineAdd m d src ctx id v time).cpyqs = d.cpyqs := by
  unfold engineAdd
  split
  · rfl
  · dsimp only
    split
    · exact counterOp_cpyqs ..
    · exact (Dev.engineReport_cpyqs ..).trans (counterOp_cpyqs ..)
  · rfl

end

theorem Dev.cpyq_of_cpyqs {d d' : Dev} (h : d'.cpyqs = d.cpyqs) (q : Nat) : d'.cpyq q = d.cpyq q := by
  rw [Dev.cpyq, Dev.cpyq, h]

theorem inFlight_of_cpyqs {d d' : Dev} (h : d'.cpyqs = d.cpyqs) (e : Nat) : inFlight d' e = inFlight d e := by
  simp only [inFlight, Dev.cpyq_of_cpyqs h]

@[simp] theorem Dev.cpyq_setCpyq_same (d : Dev) (q : Nat) (x : CpyQ) : (d.setCpyq q x).cpyq q = x := by
  simp [Dev.cpyq, Dev.setCpyq, tget_tset_same]

theorem ringCounter_here {m : Memory} {d : Dev} {ctx k i : Nat} {id : Word}
    (h : resolveCounter d ctx id = .ok (.here k i)) : ringCounter m d ctx id = some (counterGet m d ctx k i) := by
  rw [ringCounter, h]

theorem localCounter_here {m : Memory} {d : Dev} {ctx k i : Nat} {id : Word}
    (h : resolveCounter d ctx id = .ok (.here k i)) :
    localCounter m d ctx id = some (counterGet m d ctx k i).toNat := by
  rw [localCounter, ringCounter_here h]
  rfl

/-! ## Opening and stopping a queue (R395, R409) -/

section
variable {s : State} (hl : s.Live) {q : Nat}
include hl

theorem execQueueOpen_opens {p : Part} {k i k' i' : Nat} (hq : q < 256) (hen : (s.dev.cpyq q).en = false)
    (hp : s.dev.partOfCtx (s.dev.cpyq q).ctx = some p) (he : p.engines.getLsbD (q / 16) = true)
    (hb : (s.dev.cpyq q).base.toNat % (64 * (s.dev.cpyq q).nslot) = 0)
    (hw : resolveCounter s.dev (s.dev.cpyq q).ctx (s.dev.cpyq q).wi = .ok (.here k i))
    (hr : resolveCounter s.dev (s.dev.cpyq q).ctx (s.dev.cpyq q).rd = .ok (.here k' i')) :
    execQueueOpen q s = .next (s.happened (s.dev.setCpyq q { s.dev.cpyq q with
      en := true, ridx := (counterGet s.mem s.dev (s.dev.cpyq q).ctx k' i').toNat, reread := false, susp := false
      known := 0 })) := by
  rw [execQueueOpen]
  refine happening_some hl ?_
  simp only [openQueue, hp, hw, hr, localCounter_here hr]
  exact if_neg (by simp [hen, hb, he, hq])

theorem execQueueStop_stops (hen : (s.dev.cpyq q).en = true) : execQueueStop q s =
    .next (s.happened (s.dev.setCpyq q { s.dev.cpyq q with en := false })) := by
  rw [execQueueStop]
  exact happening_some hl (if_pos hen)

end

/-! ## Taking a packet (R396) -/

/-- A packet just taken from a queue. -/
def takenPacket (x : CpyQ) (w : List Word) : Packet :=
  { idx := x.ridx, words := w, susp := false, moved := 0, ahead := [], got := [], parking := false, bad := false
    sent := false }

/-- The engine leaves a slot behind: its queue goes on to the next index, its packets stay. -/
theorem passSlot_cpyq (m : Memory) (d : Dev) (q time : Nat) :
    (passSlot m d q time).cpyq q = { d.cpyq q with ridx := (d.cpyq q).ridx + 1, reread := false } := by
  unfold passSlot
  dsimp only
  rw [Dev.cpyq_of_cpyqs ((engineAdd_cpyqs ..).trans (Dev.release_cpyqs ..)), Dev.cpyq_setCpyq_same]

section
variable {s : State} {q : Nat} {x : CpyQ} (hx : s.dev.cpyq q = x) {d : Dev} (hd : s.dev.readCounter s.mem x.ctx x.wi = d)
  (hready : d.queueReady s.mem q = true) (hfew : inFlight s.dev (q / 16) < 8) {w : List Word}
  (hw : engineWords s.mem d (copyEngine q) x.ctx (x.slotVa x.ridx) 8 = .ok w)
  (hlap : wfld (nth w 0 0) 48 16 = x.lap x.ridx) (hgood : pktReason d x.ctx w = none)
include hx hd hready hfew hw hlap hgood

theorem takePacket_takes : takePacket s.mem s.dev q s.time =
    some (passSlot s.mem (d.setCpyq q { x with packets := x.packets ++ [takenPacket x w] }) q s.time) := by
  have hfew' : inFlight d (q / 16) < 8 := by
    rw [← hd, inFlight_of_cpyqs (Dev.readCounter_cpyqs ..)]
    exact hfew
  simp only [takePacket, hx, hd, hw, hgood]
  rw [if_neg (by simpa [hready] using hfew'), if_neg (not_not_intro hlap)]
  rfl

theorem serveQueue_takes : ∃ d', serveQueue s.mem s.dev q s.time = some d' ∧ (d'.cpyq q).ridx = x.ridx + 1 ∧
    tget d'.cpyLast (q / 16) = some (q % 16) ∧ (d'.cpyq q).packets = x.packets ++ [takenPacket x w] := by
  rw [serveQueue, takePacket_takes hx hd hready hfew hw hlap hgood, Option.map_some]
  have hq := passSlot_cpyq s.mem (d.setCpyq q { x with packets := x.packets ++ [takenPacket x w] }) q s.time
  rw [Dev.cpyq_setCpyq_same] at hq
  exact ⟨_, rfl, congrArg CpyQ.ridx hq, tget_tset_same .., congrArg CpyQ.packets hq⟩

end

section
variable {s : State} (hl : s.Live) {q : Nat}
include hl

/-- Of the queue whose turn it is, and of one whose slot is read again, a packet is taken as the engine serves it. -/
theorem execCopyPacketTake_serves {P : Dev → Prop} (hn : s.dev.nextQueue s.mem (q / 16) = some q)
    (h : ∃ d, serveQueue s.mem s.dev q s.time = some d ∧ P d) :
    ∃ d, execCopyPacketTake q s = .next (s.happened d) ∧ P d := by
  rw [execCopyPacketTake]
  refine exists_happening hl ?_
  simp only [if_pos hn]
  exact h

theorem execStampReread_serves {P : Dev → Prop} (hr : (s.dev.cpyq q).reread = true)
    (h : ∃ d, serveQueue s.mem s.dev q s.time = some d ∧ P d) :
    ∃ d, execStampReread q s = .next (s.happened d) ∧ P d := by
  rw [execStampReread]
  refine exists_happening hl ?_
  simp only [if_pos hr]
  exact h

theorem execCopyPacketTake_asks {d : Dev} (hn : s.dev.nextQueue s.mem (q / 16) ≠ some q)
    (hd : askIndex s.dev q s.time = some d) : execCopyPacketTake q s = .next (s.happened d) := by
  rw [execCopyPacketTake]
  exact happening_some hl ((if_neg hn).trans hd)

end

/-! ## Completing a packet (R398-R400) -/

theorem Packet.waits_eq_false {p : Packet} {x : CpyQ} (hs : p.susp = false) (hp : p.parking = false)
    (hf : (nth p.words 0 0).getLsbD 19 = true → ∀ y ∈ x.packets, p.idx ≤ y.idx) : p.waits x = false := by
  rw [Packet.waits, hs, hp, Bool.false_or, Bool.false_or, Bool.and_eq_false_imp]
  simpa using hf

section
variable {s : State} {q : Nat} {p : Packet}
  (hp : (s.dev.cpyq q).packets.find? (fun x => decide (x.idx = p.idx)) = some p)
  (hw : p.waits (s.dev.cpyq q) = false)
  (hout : p.bad = true ∨ p.sent = true → ∀ y ∈ s.dev.remote, y.ofPacket q p.idx = false)
include hp hw hout

section
variable (hl : s.Live) (far : List (BitVec 8)) (r : Nat)
include hl

theorem execCopyPacketComplete_bad (hb : p.bad = true) : execCopyPacketComplete q p.idx far r s =
    .next (s.happened (endPacket s.mem s.dev q p 3 s.time)) := by
  have hany : (s.dev.remote.any fun y => y.ofPacket q p.idx) = false := by simpa using hout (.inl hb)
  rw [execCopyPacketComplete]
  refine happening_some hl ?_
  simp only [hp, hw, hb, hany]
  rfl

theorem execCopyPacketComplete_sent (hb : p.bad = false) (hs : p.sent = true) :
    execCopyPacketComplete q p.idx far r s = .next (s.happened (endPacket s.mem s.dev q p 1 s.time)) := by
  have hany : (s.dev.remote.any fun y => y.ofPacket q p.idx) = false := by simpa using hout (.inr hs)
  rw [execCopyPacketComplete]
  refine happening_some hl ?_
  simp only [hp, hw, hb, hs, hany]
  rfl

section
variable (hb : p.bad = false) (hs : p.sent = false)
include hb hs

omit hout in
theorem execCopyPacketComplete_moves (hreads : ∀ y ∈ s.dev.remote, y.reads q p.idx = false) :
    execCopyPacketComplete q p.idx far r s = .next (s.happened (movePacket s.mem s.dev q p s.time)) := by
  have hnone : (s.dev.remote.findIdx? fun y => y.reads q p.idx) = none := by simpa using hreads
  rw [execCopyPacketComplete]
  refine happening_some hl ?_
  simp only [hp, hw, hb, hs, hnone]
  rfl

omit hout in
theorem execCopyPacketComplete_answered {i : Nat} {y : RemoteOut} {d : Dev}
    (hi : (s.dev.remote.findIdx? fun y => y.reads q p.idx) = some i) (hy : s.dev.remote[i]? = some y)
    (hd : answerRead s.mem s.dev q p i y far r s.time = some d) :
    execCopyPacketComplete q p.idx far r s = .next (s.happened d) := by
  rw [execCopyPacketComplete]
  refine happening_some hl ?_
  simp only [hp, hw, hb, hs, hi, hy, Option.bind_some, hd]
  rfl

end

end

end

section
variable (m : Memory) (d : Dev) (q : Nat) (p : Packet) (time : Nat)

/-- A copy or a fill whose pieces have all landed ends. -/
theorem movePacket_of_copied {d' : Dev} {p' : Packet} {rest : List Byte}
    (hop : pktOp p.words = 0 ∨ pktOp p.words = 1)
    (hm : moveChunks m q time ((copyChunks p.words).drop p.moved) (d.updPacket q p.idx fun _ => p) p p.got =
      (d', p', rest, none)) (hout : ∀ y ∈ d'.remote, y.ofPacket q p.idx = false) :
    movePacket m d q p time = endPacket m d' q p 1 time := by
  have hpieces (e : Dev) : p.pieces m e q = .ok (copyChunks p.words) := by
    obtain hop | hop := hop <;> simp only [Packet.pieces, hop]
  have hpark : pktOp p.words ≠ 2 := by omega
  have htile : pktOp p.words ≠ 3 := by omega
  have hany : (d'.remote.any fun y => y.ofPacket q p.idx) = false := by simpa using hout
  simp only [movePacket, hpieces, if_neg hpark, decide_eq_false htile, Bool.false_and, Bool.false_eq_true, if_false, hm,
    hany]

theorem movePacket_of_park (hop : pktOp p.words = 2) :
    movePacket m d q p time = parkPacket m (d.updPacket q p.idx fun _ => p) q p
      (rowChunks (nth p.words 1 0) (nth p.words 1 0) (pktLen p.words)) time := by
  have hpieces (e : Dev) : p.pieces m e q =
      .ok (rowChunks (nth p.words 1 0) (nth p.words 1 0) (pktLen p.words)) := by simp only [Packet.pieces, hop]
  simp only [movePacket, hpieces, if_pos hop]

end

/-! ## The requests of CPYQ (R401) -/

section
variable {s : State} (hl : s.Live) {e : Nat} {r : CpyReq}
  (hr : (tgetD s.dev.cpyReqs e []).find? (fun x => !x.susp) = some r)
include hl hr

/-- A request that has its index only writes its slot. -/
theorem execCpyqEnqueue_writes {w : Nat} (hw : r.idx = some w) :
    execCpyqEnqueue e s = .next (s.happened (writeSlot s.mem s.dev e r w s.time)) := by
  rw [execCpyqEnqueue]
  refine happening_some hl ?_
  simp only [hr, hw]

theorem execCpyqEnqueue_refused (hw : r.idx = none)
    (hbad : (s.dev.cpyq (wfld r.q 0 8)).en = false ∨ wfld r.q 8 56 ≠ 0 ∨ (s.dev.cpyq (wfld r.q 0 8)).ctx ≠ r.ctx) :
    execCpyqEnqueue e s = .next (s.happened
      ((s.dev.packetBad (wfld r.q 0 8) r.ctx 0 0 5 s.time).answerReq e r (BitVec.allOnes 64))) := by
  rw [execCpyqEnqueue]
  refine happening_some hl ?_
  simp only [hr, hw]
  refine if_pos ?_
  simp only [Bool.or_eq_true, decide_eq_true_eq, Bool.not_eq_true']
  tauto

section
variable {x : CpyQ} (hx : s.dev.cpyq (wfld r.q 0 8) = x) (hw : r.idx = none) (hq : wfld r.q 8 56 = 0)
  (hen : x.en = true) (hctx : x.ctx = r.ctx) {k i k' i' : Nat}
  (hwi : resolveCounter s.dev x.ctx x.wi = .ok (.here k i)) (hrd : resolveCounter s.dev x.ctx x.rd = .ok (.here k' i'))
  (hroom : (counterGet s.mem s.dev x.ctx k i).toNat < (counterGet s.mem s.dev x.ctx k' i').toNat + x.nslot)
include hx hw hq hen hctx hwi hrd hroom

/-- An enqueue with room claims the index that WI holds. -/
theorem execCpyqEnqueue_claims {d : Dev}
    (hd : claimIndex s.mem s.dev e r (counterGet s.mem s.dev x.ctx k i).toNat s.time = some d) :
    execCpyqEnqueue e s = .next (s.happened d) := by
  have hopen : (decide (wfld r.q 8 56 ≠ 0) || !x.en || decide (x.ctx ≠ r.ctx)) = false := by
    rw [hen, decide_eq_false (not_not_intro hq), decide_eq_false (not_not_intro hctx)]
    rfl
  rw [execCpyqEnqueue]
  refine happening_some hl ?_
  simp only [hr, hw, hx]
  refine (if_neg (Bool.eq_false_iff.1 hopen)).trans ?_
  simp only [localCounter_here hwi, localCounter_here hrd, Option.orElse_some, if_pos hroom, hd]

end

end

section
variable {s : State} {e : Nat} {r : CpyReq} {x : CpyQ} (hx : s.dev.cpyq (wfld r.q 0 8) = x) {k i : Nat}
  (hwi : resolveCounter s.dev x.ctx x.wi = .ok (.here k i)) {wi : Word}
  (hkept : counterGet s.mem (s.dev.readCounter s.mem x.ctx x.rd) x.ctx k i = wi)
include hx hwi hkept

theorem claimIndex_of_lt (hlt : wi.toNat + 1 < 2 ^ 64) :
    claimIndex s.mem s.dev e r wi.toNat s.time = some (writeSlot s.mem
      (counterSet (s.dev.readCounter s.mem x.ctx x.rd) x.ctx k i (wi + 1)) e r wi.toNat s.time) := by
  have hop := counterOp_add_of_lt (m := s.mem) (d := s.dev.readCounter s.mem x.ctx x.rd) (ctx := x.ctx) (k := k) (i := i)
    (v := 1) (by rw [hkept]; exact hlt)
  rw [hkept] at hop
  simp only [claimIndex, hx, hwi, hop, if_true]

/-- A WI that is full stays as it is, which is recorded, and the enqueue goes on. -/
theorem claimIndex_of_full (hfull : wi.toNat + 1 = 2 ^ 64) :
    claimIndex s.mem s.dev e r wi.toNat s.time = some (writeSlot s.mem
      ((counterSet (s.dev.readCounter s.mem x.ctx x.rd) x.ctx k i wi).engineReport (320 + e) x.ctx 0x40 .fault 0 x.wi 1
        s.time) e r wi.toNat s.time) := by
  have hop := counterOp_add_of_le (m := s.mem) (d := s.dev.readCounter s.mem x.ctx x.rd) (ctx := x.ctx) (k := k) (i := i)
    (v := 1) (by rw [hkept]; exact hfull.ge)
  rw [hkept] at hop
  simp only [claimIndex, hx, hwi, hop, Bool.false_eq_true, if_false]

end

/-! ## Holding buffers (R402, R403, R405) -/

section
variable {s : State} (hl : s.Live) {g k : Nat}
include hl

theorem execParkClaim_claims {r : ParkReq} (hr : (s.dev.cluster g).nextPark k = some r)
    (hk : tget (s.dev.cluster g).slots k = none) :
    ∃ d, execParkClaim g k s = .next (s.happened d) ∧ tget (d.cluster g).slots k = some r.hold := by
  rw [execParkClaim]
  refine exists_happening hl ?_
  simp only [hr, hk]
  refine ⟨_, rfl, ?_⟩
  have hslot (c : Cluster) (hc : tget c.slots k = some r.hold) :
      tget ((s.dev.setCluster g c).cluster g).slots k = some r.hold := by rw [Dev.cluster_setCluster_same, hc]
  split
  · exact hslot _ (tget_tset_same ..)
  · exact hslot _ (tget_tset_same ..)

theorem execParkComplete_parks {t : HoldSlot} (ht : tget (s.dev.cluster g).slots k = some t) (hp : t.parked = false)
    (hn : t.packet = none) {d : Dev} (hd : (s.dev.updCluster g fun x =>
      { x with slots := tset x.slots k { t with parked := true } }) = d) :
    execParkComplete g k s = .next (s.happened (engineAdd s.mem
      (if t.rel = true then d.release (288 + g) t.rscp else d) (288 + g) t.ctx t.done 1 s.time)) := by
  subst hd
  rw [execParkComplete]
  refine happening_some hl ?_
  simp only [ht, hp, hn]
  rfl

end

end Sys2Proof.Machine

/-!
SUPPORT. Events of launch streams, spill rings and home Firns (R25, R26, R417, R437, R438), and the resumption of a
suspended command (R121). The obligation about the events of copy engines, tasks and fills follows.
-/

namespace Sys2Proof.Machine

/-! ## Launch streams and spill rings (R25, R26, R417) -/

section
variable {s : State} (hl : s.Live)
include hl

/-- The first ready group of a stream whose cores are idle is dispatched where its record can be read and staked. -/
theorem execLaunchDispatch_dispatches {ctx n g : Nat} {w t : List Word} {d : Dev}
    (hhead : streamHead s.mem s.dev ctx n = .ready g w) (hres : s.dev.residentOn (g / 4) = some ctx)
    (hfirst : firstReady s.mem s.dev ctx n g = true)
    (hcores : ∀ k, k < launchSize w → (s.dev.core (8 * g + k)).preempt = false ∧
      (s.dev.core (8 * g + k)).run = .idle ∧ (s.dev.core (8 * g + k)).csrq = [])
    (hd : (if (nth w 5 0).getLsbD 0 = true then s.dev.readCounter s.mem ctx (nth w 3 0) else s.dev) = d)
    (ht : engineWords s.mem d (taskEngine g) ctx (nth w 0 0) 8 = .ok t)
    (hroom : moraineRoom d (g / 4) ctx [groupDelta d ctx n w t] = true) :
    execLaunchDispatch ctx n s = .next (s.happened (dispatchGroup s.mem d ctx n g w t s.time)) := by
  have hfree : (((List.range (launchSize w)).map (8 * g + ·)).all fun k => !(s.dev.core k).preempt &&
      decide ((s.dev.core k).run ≠ .halted) && decide ((s.dev.core k).run ≠ .stopped)) = true := by
    simp only [List.all_map, List.all_eq_true, List.mem_range, Function.comp_apply]
    intro k hk
    obtain ⟨hp, hrun, -⟩ := hcores k hk
    rw [hp, hrun]
    rfl
  have hidle : (((List.range (launchSize w)).map (8 * g + ·)).all fun k => decide ((s.dev.core k).run = .idle) &&
      (s.dev.core k).csrq.isEmpty) = true := by
    simp only [List.all_map, List.all_eq_true, List.mem_range, Function.comp_apply]
    intro k hk
    obtain ⟨-, hrun, hq⟩ := hcores k hk
    rw [hrun, hq]
    rfl
  rw [execLaunchDispatch]
  refine happening_some hl ?_
  simp only [hhead, hres, hfirst, hfree, hidle, hd, ht, hroom, ne_eq, not_true_eq_false, decide_false, Bool.not_true,
    Bool.or_self, Bool.false_eq_true, if_false, if_true]

/-- The oldest spilled task comes back to its queue's tail. -/
theorem execSpillRefill_returns {g ctx : Nat} {bs : List Byte} {r : SpillRing} (hr : (s.dev.cluster g).ringOf ctx = r)
    (hres : s.dev.residentOn (g / 4) = some ctx) (hne : r.swr ≠ r.srd) (hstop : (s.dev.cluster g).spillStop = false)
    (hlen : (s.dev.cluster g).queue.length < 32) (howes : s.dev.owes (taskEngine g) (g / 4) ctx = false)
    (hbs : engineRead s.mem s.dev (taskEngine g) ctx (r.entryVa r.srd.toNat) 128 = .ok bs)
    (hlive : (nth (wordsOf 10 bs) 9 0).getLsbD 0 = false) :
    ∃ d, execSpillRefill g s = .next (s.happened d) ∧ (d.cluster g).queue = (s.dev.cluster g).queue ++
      [{ words := (wordsOf 10 bs).take 8, id := nth (wordsOf 10 bs) 8 0, ctx := ctx }] := by
  have hmay : (decide (r.swr = r.srd) || (s.dev.cluster g).spillStop || decide (32 ≤ (s.dev.cluster g).queue.length) ||
      s.dev.owes (taskEngine g) (g / 4) ctx) = false := by
    simp [hne, hstop, hlen, howes]
  have hqueue : ((s.dev.updRing g ctx SpillRing.refilled).cluster g).queue = (s.dev.cluster g).queue :=
    (congrArg Cluster.queue (Dev.cluster_updCluster_same s.dev g fun x =>
      { x with spill := tset x.spill ctx ((s.dev.cluster g).ringOf ctx).refilled }) :)
  rw [execSpillRefill]
  refine exists_happening hl ?_
  simp only [hres, hr, hmay, hbs, hlive, Bool.false_eq_true, if_false]
  refine ⟨_, rfl, ?_⟩
  rw [Dev.cluster_updCluster_same, hqueue]

end

/-! ## A home Firn's turn (R434, R437) -/

theorem findSome?_filter_of_find? {α β : Type} {p : α → Bool} {f : α → Option β} {a : α} {v : β} {l : List α}
    (ha : l.find? p = some a) (hv : f a = some v) : (l.filter p).findSome? f = some v := by
  obtain ⟨t, ht⟩ : ∃ t, l.filter p = a :: t := by
    rw [← List.head?_filter] at ha
    exact List.head?_eq_some_iff.1 ha
  rw [ht, List.findSome?_cons, hv]

theorem firnRetry_of_none_waiting {m : Memory} {d : Dev} {die : Nat} (h : (d.die die).firn.waiting = [])
    (free : Word) (time : Nat) : firnRetry m d die free time = none := by
  rw [firnRetry, h]
  rfl

section
variable {s : State} {die : Nat} {q : FirnOp}

theorem firnRetry_performs {gaps : List (Nat × Nat)}
    (hq : (s.dev.die die).firn.waiting.find? (fun x => !x.susp) = some q)
    (hgaps : kvGaps s.mem s.dev (firnEngine die) q.ctx q.words q.b q.tokens = .ok gaps)
    (hfits : (s.dev.die die).firn.fits q gaps = true) (free : Word) : firnRetry s.mem s.dev die free s.time =
      some (performProbe s.mem (s.dev.updFirn die fun y => y.dropOp q.no) die q gaps free s.time) := by
  simp only [firnRetry, hq, hgaps, hfits, if_true]

/-- The units with an operation that has left its Firn's list. -/
def firnWithout (s : State) (die : Nat) (q : FirnOp) : Dev := s.dev.updFirn die fun y => y.dropOp q.no

/-- The units with a probe set aside. -/
def firnAside (s : State) (die : Nat) (q : FirnOp) : Dev :=
  (firnWithout s die q).updFirn die fun y => { y with waiting := y.waiting ++ [q] }

theorem firnTurn_of_gaps {gaps : List (Nat × Nat)} (hk : q.kind < 2) (hw : (s.dev.die die).firn.waiting = [])
    (hgaps : kvGaps s.mem s.dev (firnEngine die) q.ctx q.words q.b q.tokens = .ok gaps) (free : Word) :
    firnTurn s.mem s.dev die free s.time q = some (if (s.dev.die die).firn.fits q gaps then
      performProbe s.mem (firnWithout s die q) die q gaps free s.time else firnAside s die q) := by
  simp only [firnTurn, if_pos hk, hw, hgaps]
  rfl

theorem firnTurn_behind (hk : q.kind < 2) (hw : (s.dev.die die).firn.waiting ≠ []) (free : Word) :
    firnTurn s.mem s.dev die free s.time q = some (firnAside s die q) := by
  have hw' : (!(s.dev.die die).firn.waiting.isEmpty) = true := by simpa using hw
  simp only [firnTurn, if_pos hk, hw', if_true]
  rfl

theorem firnTurn_of_mark {d : Dev} (hk : 2 ≤ q.kind) (hc : q.core ≠ calvingUnit)
    (hd : performMark s.mem s.dev die q s.time = .ok d) (free : Word) :
    firnTurn s.mem s.dev die free s.time q = some (d.updFirn die fun y => y.dropOp q.no) := by
  simp only [firnTurn, if_neg (Nat.not_lt.2 hk), hd, if_neg hc]

variable (hl : s.Live)
include hl

/-- Without a waiting probe that is retried, the Firn's oldest operation takes its turn. -/
theorem execFirnOperation_turn (hq : (s.dev.die die).firn.ops.find? (fun x => !x.susp) = some q) {d : Dev}
    (hretry : firnRetry s.mem s.dev die (Config.freeWord s.free) s.time = none)
    (hd : firnTurn s.mem s.dev die (Config.freeWord s.free) s.time q = some d) :
    execFirnOperation die s = .next (s.happened d) := by
  rw [execFirnOperation]
  refine happening_some hl ?_
  simp only [hretry]
  exact findSome?_filter_of_find? hq hd

/-- A waiting probe that is retried goes before the Firn's operations and fills. -/
theorem exec_retry {d : Dev} (hretry : firnRetry s.mem s.dev die (Config.freeWord s.free) s.time = some d) {i : Instr}
    (hm : i = Instr.probeRetry die ∨ i = .firnOperation die ∨ ∃ k, i = .fillEnd die k) :
    exec i s = .next (s.happened d) := by
  obtain rfl | rfl | ⟨k, rfl⟩ := hm
  · rw [exec_probeRetry, execProbeRetry]
    exact happening_some hl hretry
  · rw [exec_firnOperation, execFirnOperation]
    refine happening_some hl ?_
    simp only [hretry]
    rfl
  · rw [exec_fillEnd, execFillEnd]
    refine happening_some hl ?_
    simp only [hretry]
    rfl

/-! ## Fills (R438, R439) -/

section
variable {k : Nat} {e : FillEnt} (he : tget (s.dev.die die).firn.fills k = some e) (hc : e.cleared = false)
  (hs : e.susp = false) (hno : ∀ free, firnRetry s.mem s.dev die free s.time = none)
include he hc hs hno

theorem execFillEnd_begins (hb : e.begun = false) : execFillEnd die k s =
    .next (s.happened (beginFill s.mem s.dev die k (Config.freeWord s.free) s.time)) := by
  rw [execFillEnd]
  refine happening_some hl ?_
  simp only [hno, fillTurn, he, hc, hs, hb]
  rfl

/-- A REPEAT fill that has copied its rows ends as done. -/
theorem execFillEnd_ends {d : Dev} (hb : e.begun = true) (hr : kvRepeat e.words = true)
    (hd : copyFill s.mem s.dev die k e s.time = (d, none)) : execFillEnd die k s =
    .next (s.happened (d.endFill s.mem die k e (some (outcomeValue 1)) s.time)) := by
  rw [execFillEnd]
  refine happening_some hl ?_
  simp only [hno, fillTurn, he, hc, hs, hb, hr, hd]
  rfl

end

end

/-! ## A suspended command goes on (R121) -/

theorem execEngineCommandResume_spill {s : State} (hl : s.Live) {i g : Nat} (hi : s.dev.susp[i]? = some (Cmd.spill g)) :
    execEngineCommandResume i true s = .next (s.happened
      (({ s.dev with susp := s.dev.susp.eraseIdx i }).updCluster g fun x => { x with spillStop := false })) := by
  rw [execEngineCommandResume]
  refine happening_some hl ?_
  simp only [hi]

/-- Settles O52: each event by its condition, in the lemmas about it. -/
theorem copyTaskAndFillEvents : Obligations.CopyTaskAndFillEvents := by
  unfold Obligations.CopyTaskAndFillEvents
  intro s hl
  refine ⟨fun q p k i k' i' hq hen hp he hb hw hr => execQueueOpen_opens hl hq hen hp he hb hw hr,
    fun q => execQueueStop_stops hl, ?take, fun q d => execCopyPacketTake_asks hl, ?complete, ?enqueue,
    fun g k r => execParkClaim_claims hl, fun g k t ht hp hn => execParkComplete_parks hl ht hp hn rfl,
    fun ctx n g w t hhead hres hfirst hcores ht hroom =>
      execLaunchDispatch_dispatches hl hhead hres hfirst hcores rfl ht hroom,
    fun g ctx bs hres hne hstop hlen howes hbs hlive =>
      execSpillRefill_returns hl rfl hres hne hstop hlen howes hbs hlive,
    ?operation, fun die q gaps hq hgaps hfits => ⟨_, fun i => exec_retry hl (firnRetry_performs hq hgaps hfits _)⟩,
    fun die k e he hc hs hno => ⟨fun hb => ⟨_, execFillEnd_begins hl he hc hs hno hb⟩,
      fun d => execFillEnd_ends hl he hc hs hno⟩, fun i g => execEngineCommandResume_spill hl⟩
  case take =>
    intro q w x d hready hfew hw hlap hgood takes
    have hserve := serveQueue_takes (x := x) rfl rfl hready hfew hw hlap hgood
    exact ⟨fun hn => execCopyPacketTake_serves hl hn hserve, fun hr => execStampReread_serves hl hr hserve⟩
  case complete =>
    intro q p far r hp hs hpark hfence hout
    have hw := Packet.waits_eq_false hs hpark hfence
    exact ⟨execCopyPacketComplete_sent hp hw hout hl far r, execCopyPacketComplete_bad hp hw hout hl far r,
      fun hb hs hreads => ⟨execCopyPacketComplete_moves hp hw hl far r hb hs hreads,
        fun d p' rest hop hm hland => movePacket_of_copied s.mem s.dev q p s.time hop hm hland,
        movePacket_of_park s.mem s.dev q p s.time⟩,
      fun i y d hb hs hi hy hd => execCopyPacketComplete_answered hp hw hl far r hb hs hi hy hd⟩
  case enqueue =>
    intro e r hr q x
    refine ⟨fun w => execCpyqEnqueue_writes hl hr, execCpyqEnqueue_refused hl hr,
      fun k i k' i' hidx hq hen hctx hwi hrd => ?_⟩
    intro wi d hroom hkept
    have hclaims {d : Dev} := execCpyqEnqueue_claims hl hr rfl hidx hq hen hctx hwi hrd hroom (d := d)
    exact ⟨fun hlt => hclaims (claimIndex_of_lt rfl hwi hkept hlt),
      fun hfull => hclaims (claimIndex_of_full rfl hwi hkept hfull)⟩
  case operation =>
    intro die q y hq rest noRetry
    refine ⟨fun gaps hk hw hgaps => ?_, fun hk hw hno => ?_, fun d hk hc hno hd => ?_⟩
    · have hturn := firnTurn_of_gaps hk hw hgaps (Config.freeWord s.free)
      have hrun := execFirnOperation_turn hl hq (firnRetry_of_none_waiting hw _ _) hturn
      exact ⟨fun hf => ⟨_, hrun.trans (by rw [if_pos hf]; rfl)⟩,
        fun hf => hrun.trans (by rw [if_neg (Bool.eq_false_iff.1 hf)]; rfl)⟩
    · exact execFirnOperation_turn hl hq (hno _) (firnTurn_behind hk hw _)
    · exact execFirnOperation_turn hl hq (hno _) (firnTurn_of_mark hk hc hd _)

end Sys2Proof.Machine

/-!
SUPPORT. Events of ports, remote requests, the calving unit and collectives (R462-R477): what one event comes to where
its condition holds.
-/

namespace Sys2Proof.Machine

/-! ## A request of another package (R466) -/

/-- Only a counter read and a notice can wait where they are served. -/
theorem serveRemote_answers {m : Memory} {d : Dev} {src spkg sctx : Nat} {kind : RemoteKind} {pa len : Nat}
    {put : Nat → Dev → Dev} {ident val row : Word} {words : Nat → Word} {time : Nat} (hread : kind ≠ .counterRead)
    (hnotice : kind ≠ .notice) :
    ∃ e k v, serveRemote m d src spkg sctx kind pa len put ident val row words time = .answer e k v := by
  unfold serveRemote
  dsimp only
  split
  · exact ⟨_, _, _, rfl⟩
  · cases kind with
    | load =>
      dsimp only
      split
      · exact ⟨_, _, _, rfl⟩
      · split <;> exact ⟨_, _, _, rfl⟩
    | store =>
      dsimp only
      split <;> exact ⟨_, _, _, rfl⟩
    | counterAdd =>
      dsimp only
      split <;> exact ⟨_, _, _, rfl⟩
    | counterMax =>
      dsimp only
      split <;> exact ⟨_, _, _, rfl⟩
    | counterRead => exact absurd rfl hread
    | notice => exact absurd rfl hnotice

section
variable {s : State} (hl : s.Live)
include hl

theorem execRemoteRequest_serves {r : RemoteReq} (hacc : s.dev.accepted 2 = true)
    (hfirst : prioritised r.kind = true → ∀ x ∈ s.dev.fab.refused, x.spkg ≠ r.spkg) (hread : r.kind ≠ .counterRead)
    (hnotice : r.kind ≠ .notice) : ∃ d k v, serveRemote s.mem s.dev fabricPort r.spkg r.sctx r.kind r.pa r.len
      (fun ctx d => (d.writeBytes fabricPort ctx r.pa (toBytes r.len r.val.toNat) s.time).showAll
        fun e => e.owner == fabricPort && e.ended) r.ident r.val r.rowWord
      (fun i => Config.freeWord (4 * s.free + i)) s.time = .answer d k v ∧
    execRemoteRequest r s = .next (s.happened { d with fab := { d.fab with refused := d.fab.refused.erase r } }) := by
  obtain ⟨d, k, v, hserve⟩ := serveRemote_answers (m := s.mem) (d := s.dev) (src := fabricPort) (spkg := r.spkg)
    (sctx := r.sctx) (pa := r.pa) (len := r.len)
    (put := fun ctx d => (d.writeBytes fabricPort ctx r.pa (toBytes r.len r.val.toNat) s.time).showAll
      fun e => e.owner == fabricPort && e.ended) (ident := r.ident) (val := r.val) (row := r.rowWord)
    (words := fun i => Config.freeWord (4 * s.free + i)) (time := s.time) hread hnotice
  have hnone (hp : prioritised r.kind = true) : (s.dev.fab.refused.find? fun x => x.spkg = r.spkg) = none := by
    simpa using hfirst hp
  have htaken : (!s.dev.accepted 2 || prioritised r.kind && (s.dev.fab.refused.find? fun x => x.spkg = r.spkg).isSome &&
      decide ((s.dev.fab.refused.find? fun x => x.spkg = r.spkg) ≠ some r)) = false := by
    cases hp : prioritised r.kind with
    | false => simp [hacc]
    | true => simp [hacc, hnone hp]
  refine ⟨d, k, v, hserve, ?_⟩
  rw [execRemoteRequest]
  refine happening_some hl ?_
  simp only [htaken, hserve]
  rfl

/-! ## A request of this package: its answer and its timeout (R464, R467) -/

section
variable {i : Nat} {q : RemoteOut} (hq : s.dev.remote[i]? = some q) (r : Nat) (v : BitVec 64)
include hq

theorem execRemoteTimeout_overdue (hlate : q.overdue s.dev s.time = true) : execRemoteTimeout i s = .next (s.happened
    (answerTo { s.dev with remote := s.dev.remote.eraseIdx i } q 0x80 0 (Config.freeWord (4 * s.free)) s.time)) := by
  rw [execRemoteTimeout]
  refine happening_some hl ?_
  simp only [hq, hlate]
  rfl

omit hl in
/-- No answer comes after the time of a request. -/
theorem execRemoteAnswer_overdue (hlate : q.overdue s.dev s.time = true) : execRemoteAnswer i r v s = .next s := by
  have hclosed : q.closed s.dev i s.time = true := by
    rw [RemoteOut.closed, hlate, Bool.or_true, Bool.true_or, Bool.true_or]
  rw [execRemoteAnswer]
  refine happening_none ?_
  simp only [hq, hclosed]
  rfl

variable (hopen : q.closed s.dev i s.time = false)
include hopen

theorem execRemoteAnswer_enters {e : Dev} (hpkg : q.pkg ≠ Config.packageNumber) (hport : q.port = none)
    (he : s.dev.enterPort i q = some e) : execRemoteAnswer i r v s = .next (s.happened e) := by
  rw [execRemoteAnswer]
  refine happening_some hl ?_
  simp only [hq, hopen, if_neg hpkg, hport, he]
  rfl

theorem execRemoteAnswer_answers (hpkg : q.pkg ≠ Config.packageNumber) (hport : q.port ≠ none) (hload : q.kind ≠ .load)
    (hstore : q.kind ≠ .store) : execRemoteAnswer i r v s = .next (s.happened (answerTo
      { s.dev with remote := s.dev.remote.eraseIdx i } q r v (Config.freeWord (4 * s.free)) s.time)) := by
  have hentered : q.port.isNone = false := by
    cases hp : q.port with
    | none => exact absurd hp hport
    | some p => rfl
  rw [execRemoteAnswer]
  refine happening_some hl ?_
  simp only [hq, hopen, if_neg hpkg, hentered, decide_eq_false hload, Bool.false_and, Bool.false_eq_true, if_false]
  rfl

theorem execRemoteAnswer_bulk {e : Dev} (hpkg : q.pkg ≠ Config.packageNumber) (hport : q.port ≠ none)
    (hkind : q.kind = .store ∨ (q.kind = .load ∧ q.src < 320))
    (he : ({ s.dev with remote := s.dev.remote.eraseIdx i } : Dev).admitBulk q.ctx q.pkg q.data.length = some e) :
    execRemoteAnswer i r v s = .next (s.happened (answerTo e q r v (Config.freeWord (4 * s.free)) s.time)) := by
  have hentered : q.port.isNone = false := by
    cases hp : q.port with
    | none => exact absurd hp hport
    | some p => rfl
  have hown : (decide (q.kind = .load) && decide (320 ≤ q.src)) = false := by
    obtain h | ⟨-, h⟩ := hkind
    · simp [h]
    · simp [h]
  rw [execRemoteAnswer]
  refine happening_some hl ?_
  simp only [hq, hopen, if_neg hpkg, hentered, hown, he, Bool.false_eq_true, if_false]
  obtain h | ⟨h, -⟩ := hkind
  · simp only [h, Option.map_some]
    rfl
  · simp only [h, Option.map_some]
    rfl

/-- A request to the package itself is served here (R464). -/
theorem execRemoteAnswer_own {d : Dev} {k : Nat} {x : Word} (hpkg : q.pkg = Config.packageNumber)
    (hserve : serveOwn s.mem { s.dev with remote := s.dev.remote.eraseIdx i } q
      (fun i => Config.freeWord (4 * s.free + i)) s.time = .answer d k x) :
    execRemoteAnswer i r v s = .next (s.happened (answerTo
      (if q.kind = .load ∧ 320 ≤ q.src ∧ k = 0 then d.copyGot s.mem q else d) q k x (Config.freeWord (4 * s.free))
        s.time)) := by
  rw [execRemoteAnswer]
  refine happening_some hl ?_
  simp only [hq, hopen, if_pos hpkg, hserve, Bool.false_eq_true, if_false, Bool.and_eq_true, decide_eq_true_eq, and_assoc]
  rfl

end

end

/-- A request other than a notice is open to its answer once nothing holds it. -/
theorem RemoteOut.closed_eq_false {q : RemoteOut} {d : Dev} {i time : Nat} (hkind : q.kind ≠ .notice)
    (hlost : q.lost = false) (hlate : q.overdue d time = false) (hfree : behindLane d.remote i q = false) :
    q.closed d i time = false := by
  rw [RemoteOut.closed, hlost, hlate, hfree, decide_eq_false hkind]
  rfl

/-! ## A notice of the package's own (R470, R471) -/

section
variable {m : Memory} {d : Dev} {ctx : Nat} {n : Notice} {words : Nat → Word} {time : Nat} {x : Ctx}
  (hx : d.ctx ctx = some x)
include hx

/-- Behind a notice that is not finished, or with an arm under way, a notice waits. -/
theorem arriveNotice_holds {e : Dev} {n' : Notice} (hbusy : x.calv.held ≠ [] ∨ x.calv.arm ≠ none)
    (hroom : noticeRoom m d ctx n words time = some (e, n')) : arriveNotice m d ctx n words time =
      some (e.updCalv ctx fun v => { v with held := v.held ++ [n'] }) := by
  have hbusy' : (!x.calv.held.isEmpty || x.calv.arm.isSome) = true := by
    simpa [Option.isSome_iff_ne_none] using hbusy
  simp only [arriveNotice, hx, hbusy', hroom]
  rfl

variable (hheld : x.calv.held = []) (harm : x.calv.arm = none)
include hheld harm

theorem arriveNotice_defers {e : Dev} {n' : Notice} (hdefer : x.calv.defers n = true)
    (hroom : noticeRoom m d ctx n words time = some (e, n')) :
    arriveNotice m d ctx n words time = some (handleNotice m e ctx n' time) := by
  simp only [arriveNotice, hx, hheld, harm, hdefer, hroom]
  rfl

/-- A notice of an installed target whose time has come is applied at once. -/
theorem arriveNotice_applies {w : List Word} {cur : Word} {e : Dev} {b : Bool}
    (htarget : tget x.calv.targets n.target = some (w, cur)) (htime : n.time.toNat ≤ cur.toNat)
    (happly : applyNotice m d ctx w cur n time = .done e b) : arriveNotice m d ctx n words time = some e := by
  have hdefer : x.calv.defers n = false := by
    simp only [Calv.defers, htarget, decide_eq_false (Nat.not_lt.2 htime)]
  have hhandle : handleNotice m d ctx n time = e := by
    simp only [handleNotice, hx, hdefer, htarget, Option.getD_some, happly]
    rfl
  simp only [arriveNotice, hx, hheld, harm, hdefer, hhandle]
  rfl

end

/-- The first notice sent within the package arrives as the calving unit takes it. -/
theorem execCalvingNotice_arrives {s : State} (hl : s.Live) {n : Notice} {i : Nat} {q : RemoteOut} {d : Dev}
    (hi : (s.dev.remote.findIdx fun q => decide (q.kind = .notice) && !q.ident.getLsbD 63) = i)
    (hq : s.dev.remote[i]? = some q) (hfree : behindLane s.dev.remote i q = false)
    (hn : noticeOf q.ident (toW q.pa) q.val = n)
    (harrive : arriveNotice s.mem { s.dev with remote := s.dev.remote.eraseIdx i } q.ctx n
      (fun i => Config.freeWord (4 * s.free + i)) s.time = some d) :
    execCalvingNotice q.ctx n.target n.row n.token n.cw n.time s = .next (s.happened d) := by
  have hits : noticeOf q.ident (toW q.pa) q.val =
      { target := n.target, row := n.row, token := n.token, cw := n.cw, time := n.time, spilled := false } := by
    subst hn
    rfl
  subst hi
  rw [execCalvingNotice]
  refine happening_some hl ?_
  simp only [hq, ← hits, hfree, ne_eq, not_true_eq_false, decide_false, Bool.or_self, Bool.false_eq_true, if_false]
  exact hn ▸ harrive

/-! ## Links (R22, R465, R468) -/

section
variable (d : Dev) (src : Nat) (cause : BitVec 8) (info0 info1 : Word) (time : Nat)

@[simp] theorem Dev.engineReport_fab (ctx : Nat) (kind : EvKind) (baddr : Word) :
    (d.engineReport src ctx cause kind baddr info0 info1 time).fab = d.fab := by
  unfold Dev.engineReport Dev.toRing
  split <;> rfl

@[simp] theorem Dev.engineReport_remote (ctx : Nat) (kind : EvKind) (baddr : Word) :
    (d.engineReport src ctx cause kind baddr info0 info1 time).remote = d.remote := by
  unfold Dev.engineReport Dev.toRing
  split <;> rfl

@[simp] theorem Dev.systemReport_fab : (d.systemReport src cause info0 info1 time).fab = d.fab := by
  unfold Dev.systemReport Dev.toSystemPath
  dsimp only
  split <;> rfl

@[simp] theorem Dev.systemReport_remote : (d.systemReport src cause info0 info1 time).remote = d.remote := by
  unfold Dev.systemReport Dev.toSystemPath
  dsimp only
  split <;> rfl

variable (kind : EvKind) (baddr : Word) (ctxs : List Nat)

@[simp] theorem Dev.foldl_engineReport_fab :
    (ctxs.foldl (fun d ctx => d.engineReport src ctx cause kind baddr info0 info1 time) d).fab = d.fab :=
  List.foldlRecOn (motive := fun e : Dev => e.fab = d.fab) ctxs _ rfl fun _ h _ _ => (Dev.engineReport_fab ..).trans h

@[simp] theorem Dev.foldl_engineReport_remote :
    (ctxs.foldl (fun d ctx => d.engineReport src ctx cause kind baddr info0 info1 time) d).remote = d.remote :=
  List.foldlRecOn (motive := fun e : Dev => e.remote = d.remote) ctxs _ rfl fun _ h _ _ =>
    (Dev.engineReport_remote ..).trans h

end

section
variable {s : State} (hl : s.Live) {p : Nat} (hp : p < 18)
include hl hp

/-- A link that fails takes with it the requests on their way by it and the collectives with traffic on it. -/
theorem execLinkDown_breaks {lanes : BitVec 4} (hlanes : lanes ≠ 0) : ∃ d, execLinkDown p lanes s =
    .next (s.happened d) ∧ (∃ x, tget d.fab.ports p = some x ∧ x.up = false) ∧
      (∀ q ∈ d.remote, q.port = some p → q.acked = false → q.lost = true) ∧
      ∀ i y, (i, y) ∈ s.dev.fab.cols → y.uses s.mem s.dev p = true → (i, { y with lost := true }) ∈ d.fab.cols := by
  have hgoes : ¬(decide (18 ≤ p) || decide (lanes = 0)) = true := by
    simpa using ⟨hp, hlanes⟩
  rw [execLinkDown]
  refine exists_happening hl ?_
  refine ⟨_, if_neg hgoes, ?_⟩
  simp only [Dev.foldl_engineReport_fab, Dev.foldl_engineReport_remote, Dev.systemReport_fab, Dev.systemReport_remote]
  refine ⟨⟨_, tget_tset_same .., rfl⟩, fun q hq hport hacked => ?_, fun i y hy huses => ?_⟩
  · obtain ⟨q', -, rfl⟩ := List.mem_map.1 hq
    split at hport
    · next h => rw [if_pos h]
    · next h =>
      rw [if_neg h] at hacked ⊢
      simpa [hport, hacked] using h
  · exact List.mem_map.2 ⟨(i, y), hy, by simp [huses]⟩

theorem execLinkReturn_raises : execLinkReturn p s =
    .next (s.happened (s.dev.updPort p fun x => { x with up := true, lanef := 0 })) := by
  rw [execLinkReturn]
  exact happening_some hl (if_neg (Nat.not_le.2 hp))

theorem execPtpEventMessage_stamps (b : Bool) : execPtpEventMessage p b s = .next (s.happened
    (s.dev.updPort p fun x => { x with stamps := x.stamps ++ [(b, s.time)] })) := by
  rw [execPtpEventMessage]
  exact happening_some hl (if_neg (Nat.not_le.2 hp))

theorem execBulkShareWindow_restarts (hdue : (tgetD s.dev.fab.ports p Port.reset).since + 1000 ≤ s.time) :
    execBulkShareWindow p s = .next (s.happened (s.dev.updPort p fun x => { x with since := s.time, window := [] })) := by
  rw [execBulkShareWindow]
  exact happening_some hl (if_neg (by simpa using ⟨hp, hdue⟩))

end

/-! ## Collectives (R475-R477) -/

section
variable {s : State} (hl : s.Live) {i : Nat} {x : Col} (hx : tget s.dev.fab.cols i = some x)
include hx

theorem execCollectiveAssemble_overdue (hlate : x.overdue s.dev s.time = true) (others : List RankDesc) :
    execCollectiveAssemble i others s = .next s := by
  rw [execCollectiveAssemble]
  refine happening_none ?_
  simp only [hx]
  exact if_pos (by simp [hlate])

include hl

theorem execCollectiveTimeout_overdue (hlate : x.overdue s.dev s.time = true) : execCollectiveTimeout i s =
    .next (s.happened (s.dev.setCol i { x with bad := some (0xC2, 2) })) := by
  rw [execCollectiveTimeout]
  refine happening_some hl ?_
  simp only [hx, hlate]
  rfl

section
variable {others : List RankDesc} {gs : List (List (BitVec 16))} (hsusp : x.susp = false) (hlost : x.lost = false)
  (hgathered : x.gathered = none) (hbad : x.bad = none) (hlate : x.overdue s.dev s.time = false) {y : Col}
  (hy : { x with others := some (x.others.getD others) } = y)
  (hall : colNrank ((x.ranks.head?.map (·.words)).getD []) ≤ x.ranks.length + (x.others.getD others).length)
  (hgs : (x.ranks.mapM fun r => r.readGroup s.mem (s.dev.setCol i y)) = .ok gs)
include hsusp hlost hgathered hbad hlate hy hall hgs

/-- Ranks whose descriptors do not agree end their collective. -/
theorem execCollectiveAssemble_refuses {r : Nat} (hr : colReason gs y (x.others.getD others) = some r) :
    execCollectiveAssemble i others s =
      .next (s.happened ((s.dev.setCol i y).setCol i { y with bad := some (0xC3, r) })) := by
  subst hy
  rw [execCollectiveAssemble]
  refine happening_some hl ?_
  simp only [hx]
  refine (if_neg ?_).trans ?_
  · simp [hsusp, hlost, hgathered, hbad, hlate, hall]
  · simp only [hgs, hr]

/-- Once all its data has moved, the result of a collective is formed. -/
theorem execCollectiveAssemble_gathers {d : Dev} {moved : Tab Nat} {bs : List Byte}
    (hr : colReason gs y (x.others.getD others) = none)
    (hreach : ∀ q ∈ x.others.getD others, s.dev.reaches (nth (gs.headD []) q.rank 0).toNat = true)
    (hmove : moveCol (s.dev.setCol i y) ((x.ranks.head?.map (·.ctx)).getD 0)
      (y.flits s.mem (s.dev.setCol i y) (gs.headD []) (x.others.getD others))
      (((x.others.getD others).map fun q => (nth (gs.headD []) q.rank 0).toNat).dedup) x.moved = (d, moved, true))
    (hbs : colResult s.mem d { y with moved := moved } (x.others.getD others) = .ok bs) :
    execCollectiveAssemble i others s =
      .next (s.happened (d.setCol i { y with moved := moved, gathered := some bs })) := by
  have hreaches : (((x.others.getD others).map fun q => (nth (gs.headD []) q.rank 0).toNat).dedup.all
      s.dev.reaches) = true := by
    simpa [List.all_eq_true] using hreach
  subst hy
  rw [execCollectiveAssemble]
  refine happening_some hl ?_
  simp only [hx]
  refine (if_neg ?_).trans ?_
  · simp [hsusp, hlost, hgathered, hbad, hlate, hall]
  · simp only [hgs, hr, hreaches, hmove, hbs]
    rfl

end

section
variable {r : ColRank} {t : List ColRank} (hranks : x.ranks = r :: t)
include hranks

theorem execCollectiveComplete_faulted {c : BitVec 8} {k : Nat} (hbad : x.bad = some (c, k)) :
    execCollectiveComplete i s = .next (s.happened ((s.dev.colRecord r c k s.time).rankDone s.mem i x r 3 s.time)) := by
  rw [execCollectiveComplete]
  refine happening_some hl ?_
  simp only [hx, hranks, hbad]

theorem execCollectiveComplete_lands {bs : List Byte} {d : Dev} (hbad : x.bad = none) (hgathered : x.gathered = some bs)
    (hsusp : x.susp = false)
    (hd : engineStore s.mem s.dev fabricPort r.ctx (nth r.words 1 0) (rankBytes s.mem s.dev x r bs) none s.time = .ok d) :
    execCollectiveComplete i s = .next (s.happened (d.rankDone s.mem i x r 1 s.time)) := by
  rw [execCollectiveComplete]
  refine happening_some hl ?_
  simp only [hx, hranks, hbad, hgathered, hsusp, hd]
  rfl

end

end

end Sys2Proof.Machine

/-!
SUPPORT. Events of the generation sequencer (R443-R456): what one event comes to where its condition holds, and what
leaves a context's sequencer. The obligation about the fabric and the sequencer follows.
-/

namespace Sys2Proof.Machine

/-! ## What leaves a context's sequencer -/

/-- The sequencer's registers of a context. -/
def Dev.genOf (d : Dev) (ctx : Nat) : Option Gen := (d.ctx ctx).map (·.gen)

theorem Dev.genOf_of_ctxs {d d' : Dev} (h : d'.ctxs = d.ctxs) (ctx : Nat) : d'.genOf ctx = d.genOf ctx := by
  rw [Dev.genOf, Dev.genOf, Dev.ctx, Dev.ctx, h]

theorem Dev.genOf_some {d : Dev} {ctx : Nat} {x : Ctx} (h : d.ctx ctx = some x) : d.genOf ctx = some x.gen := by
  rw [Dev.genOf, h]
  rfl

/-- A record of a context that changes nothing of its sequencer. -/
theorem Dev.genOf_setCtx {d : Dev} {k : Nat} {c x : Ctx} (hc : d.ctx k = some c) (hx : x.gen = c.gen) (ctx : Nat) :
    (d.setCtx k x).genOf ctx = d.genOf ctx := by
  by_cases h : ctx = k
  · subst h
    rw [Dev.genOf_some (Dev.ctx_setCtx_same ..), Dev.genOf_some hc, hx]
  · exact congrArg (Option.map _) (tget_tset_other _ _ _ _ h)

theorem Dev.genOf_updGen_same (d : Dev) (ctx : Nat) (f : Gen → Gen) :
    (d.updGen ctx f).genOf ctx = (d.genOf ctx).map f := by
  unfold Dev.updGen Dev.updCtx
  split
  · next c hc => rw [Dev.genOf_some (Dev.ctx_setCtx_same ..), Dev.genOf_some hc, Option.map_some]
  · next hc => rw [Dev.genOf, hc, Option.map_none, Option.map_none]

theorem Dev.genOf_engineReport (d : Dev) (src k : Nat) (cause : BitVec 8) (kind : EvKind) (baddr info0 info1 : Word)
    (time ctx : Nat) : (d.engineReport src k cause kind baddr info0 info1 time).genOf ctx = d.genOf ctx := by
  unfold Dev.engineReport Dev.toRing
  split
  · rfl
  · next c hc => exact Dev.genOf_setCtx (d := d.countRecord src) (x := { c with frCount := c.frCount + 1 }) hc rfl ctx

theorem genOf_engineAdd (m : Memory) (d : Dev) (src k : Nat) (id v : Word) (time ctx : Nat) :
    (engineAdd m d src k id v time).genOf ctx = d.genOf ctx := by
  unfold engineAdd
  split
  · rfl
  · dsimp only
    split
    · exact Dev.genOf_of_ctxs (counterOp_ctxs ..) ctx
    · exact (Dev.genOf_engineReport ..).trans (Dev.genOf_of_ctxs (counterOp_ctxs ..) ctx)
  · rfl

/-! ### An engine's store leaves the contexts -/

section
variable (d : Dev) (src ctx pa time : Nat)

@[simp] theorem Dev.clearGranules_ctxs (n : Nat) : (d.clearGranules pa n).ctxs = d.ctxs := by
  unfold Dev.clearGranules
  split
  · split <;> rfl
  · rfl

theorem Dev.unitWrite_ctxs {w : Dev → Dev} (hw : ∀ e, (w e).ctxs = e.ctxs) (bs : List Byte) :
    (d.unitWrite ctx pa bs time w).ctxs = d.ctxs := by
  unfold Dev.unitWrite
  split
  · split
    · exact hw _
    · rfl
  · exact hw d

@[simp] theorem Dev.writeBytes_ctxs (bs : List Byte) : (d.writeBytes src ctx pa bs time).ctxs = d.ctxs :=
  List.foldlRecOn (motive := fun e : Dev => e.ctxs = d.ctxs) _ _ rfl fun _ h x _ =>
    (Dev.clearGranules_ctxs ..).trans ((Dev.unitWrite_ctxs (w := fun d => d.engineWrite src x.1 _) _ _ _ _
      (fun _ => rfl) _).trans h)

@[simp] theorem Dev.taggedWrite_ctxs (tag : Nat) (bs : List Byte) :
    (d.taggedWrite src ctx tag pa bs time).ctxs = d.ctxs := by
  refine List.foldlRecOn (motive := fun e : Dev => e.ctxs = d.ctxs) _ _ rfl fun e h x _ => ?_
  dsimp only
  split
  · exact h
  · exact (Dev.writeBytes_ctxs ..).trans h

@[simp] theorem Dev.enterTlb_ctxs (k : Nat) (e : TlbEnt) : (d.enterTlb k e).ctxs = d.ctxs := by
  unfold Dev.enterTlb
  dsimp only
  split <;> rfl

@[simp] theorem Dev.useTlb_ctxs (m : Memory) (bad : Nat → Bool) (cl : Option Nat) (va : Word) :
    (d.useTlb m bad ctx cl va).ctxs = d.ctxs := by
  unfold Dev.useTlb
  split
  · split
    · rfl
    · dsimp only
      split
      · rfl
      · split
        · exact Dev.enterTlb_ctxs ..
        · split
          · exact Dev.enterTlb_ctxs ..
          · rfl
  · rfl

end

theorem engineStore_ctxs {m : Memory} {d d' : Dev} {src ctx : Nat} {va : Word} {bs : List Byte} {tag : Option Nat}
    {time : Nat} (h : engineStore m d src ctx va bs tag time = .ok d') : d'.ctxs = d.ctxs := by
  unfold engineStore at h
  split at h
  · cases h
  · cases h
    refine Eq.trans ?_ (Dev.useTlb_ctxs d ctx m (walkBad d) (cacheOf src) va)
    refine List.foldlRecOn (motive := fun e : Dev => e.ctxs = _) _ _ rfl fun e he x _ => ?_
    cases tag with
    | some t => exact (Dev.taggedWrite_ctxs ..).trans he
    | none => exact (Dev.writeBytes_ctxs ..).trans he

theorem map_eq_ok_exists {ε α β : Type} {f : α → β} {r : Except ε α} {y : β} (h : r.map f = .ok y) :
    ∃ x, r = .ok x ∧ f x = y := by
  cases r with
  | error e => exact nomatch h
  | ok x => exact ⟨x, rfl, Except.ok.inj h⟩

theorem writeSlotTable_ctxs {m : Memory} {d d' : Dev} {src ctx slot time : Nat} {g : Gen} {gen : BitVec 16} {live : Bool}
    (h : writeSlotTable m d src ctx g slot gen live time = .ok d') : d'.ctxs = d.ctxs := by
  unfold writeSlotTable at h
  split at h
  · cases h
  · dsimp only at h
    split at h
    · cases h
    · next e htag =>
      obtain ⟨e', hlive, rfl⟩ := map_eq_ok_exists h
      rw [Dev.release_ctxs, engineStore_ctxs hlive, engineStore_ctxs htag]

/-! ## Runs and iterations (R443-R449) -/

section
variable {s : State} (hl : s.Live) {p ctx : Nat} {x : Ctx} (hserved : s.dev.served p = some (ctx, x))
include hl hserved

theorem execGenStart_starts (hrun : x.gen.run = false) :
    execGenStart p s = .next (s.happened (startGen s.mem s.dev p s.time)) := by
  rw [execGenStart]
  refine happening_some hl ?_
  simp only [hserved, hrun]
  rfl

theorem execGenStopRequest_stops (hrun : x.gen.run = true) (hhalting : x.gen.halting = false) :
    execGenStopRequest p s = .next (s.happened (stopGen s.dev p)) := by
  rw [execGenStopRequest]
  refine happening_some hl ?_
  simp only [hserved, hrun, hhalting]
  rfl

theorem execGenHalt_halts (hrun : x.gen.run = true) (hhalting : x.gen.halting = true) (hleft : x.gen.left = 0)
    (howes : s.dev.genOwes p ctx = false) : execGenHalt p s = .next (s.happened
      ((s.dev.genDeltas p ctx [{ stage := x.gen.hstage, time := x.gen.timeOf x.gen.k, n := -1 }] s.time).updGen ctx
        fun y => { y with run := false, halting := false, busy := false
                          k := if y.busy = true then (y.k + 1) % 2 ^ 48 else y.k })) := by
  rw [execGenHalt]
  refine happening_some hl ?_
  simp only [hserved]
  exact if_neg (by simp [hrun, hhalting, hleft, howes])

section
variable (hrun : x.gen.run = true) (hstop : x.gen.stop = false) (hbusy : x.gen.busy = false)
  (hhalting : x.gen.halting = false) (hsusp : Cmd.gen ctx 0 ∉ s.dev.susp) (howes : s.dev.genOwes p ctx = false)
include hrun hstop hbusy hhalting hsusp howes

/-- The sequencer asks for the frontier that its next iteration waits for. -/
theorem execGenIterationBegin_asks {d : Dev} (hdue : beginDue s.mem s.dev ctx x.gen = false)
    (hask : askFrontier s.mem s.dev p ctx x.gen x.gen.beginAt s.time = some d) :
    execGenIterationBegin p s = .next (s.happened d) := by
  rw [execGenIterationBegin]
  refine happening_some hl ?_
  simp only [hserved, hdue, hask]
  exact if_neg (by simp [hrun, hstop, hbusy, hhalting, hsusp, howes])

variable (hdue : beginDue s.mem s.dev ctx x.gen = true) {d : Dev}
  (hd : (if x.gen.k < x.gen.ahead + 1 then s.dev else s.dev.readFrontier s.mem ctx x.gen) = d) {b : Nat}
include hdue hd

/-- An iteration begins with the bucket selected. -/
theorem execGenIterationBegin_begins {nl : Nat} {list : Word}
    (hpick : pickBucket s.mem d (genEngine p) ctx x.gen 64 0 = .bucket b nl list) :
    execGenIterationBegin p s = .next (s.happened (d.updGen ctx fun y =>
      { y with bkt := b, list := list, left := nl, listed := 0, busy := true,
               drafted := if 0 < y.drafts then y.k + 1 else y.drafted })) := by
  rw [execGenIterationBegin]
  refine happening_some hl ?_
  simp only [hserved, hdue, hd, hpick]
  exact if_neg (by simp [hrun, hstop, hbusy, hhalting, hsusp, howes])

/-- A bad bucket stops the sequencer. -/
theorem execGenIterationBegin_stops (hpick : pickBucket s.mem d (genEngine p) ctx x.gen 64 0 = .bad b) :
    execGenIterationBegin p s =
      .next (s.happened (d.genStops p ctx x.gen (x.gen.btab + toW (16 * b)) b 1 s.time)) := by
  rw [execGenIterationBegin]
  refine happening_some hl ?_
  simp only [hserved, hdue, hd, hpick]
  exact if_neg (by simp [hrun, hstop, hbusy, hhalting, hsusp, howes])

end

/-- The next descriptor of the list goes to a slot of stream 15. -/
theorem execGenAppend_appends {bs : List Byte} {d : Dev} (hrun : x.gen.run = true) (hstop : x.gen.stop = false)
    (hleft : x.gen.left ≠ 0) (hsusp : Cmd.gen ctx 1 ∉ s.dev.susp) (howes : s.dev.genOwes p ctx = false)
    (hfirst : (x.stream 15).appends = []) (hroom : (x.stream 15).granted 0 = true)
    (hbs : engineRead s.mem s.dev (genEngine p) ctx (x.gen.list + toW (64 * x.gen.listed)) 64 = .ok bs)
    (hd : engineStore s.mem s.dev (genEngine p) ctx ((x.stream 15).slotVa (x.stream 15).widx.toNat) bs none s.time =
      .ok d) :
    execGenAppend p s = .next (s.happened (((d.release (genEngine p) 3).updStream ctx 15 fun q =>
      { q with widx := q.widx + 1 }).updGen ctx fun y =>
        { y with listed := y.listed + 1, left := y.left - 1,
                 offs := tset y.offs (x.stream 15).widx.toNat (y.timeOf y.k) })) := by
  rw [execGenAppend]
  refine happening_some hl ?_
  simp only [hserved, hbs, hd]
  exact if_neg (by simp [hrun, hstop, hleft, hsusp, howes, hfirst, hroom])

theorem execGenHoldAdvance_advances (hrun : x.gen.run = true) (hbusy : x.gen.busy = true) (hleft : x.gen.left = 0)
    (howes : s.dev.genOwes p ctx = false)
    (hpassed : (x.gen.offs.all fun q => passed (x.stream 15).ridx q.1) = true) :
    execGenHoldAdvance p s = .next (s.happened ((s.dev.genDeltas p ctx
      [{ stage := x.gen.hstage, time := x.gen.timeOf (x.gen.k + 1), n := 1 },
        { stage := x.gen.hstage, time := x.gen.timeOf x.gen.k, n := -1 }] s.time).updGen ctx fun y =>
          { y with k := (y.k + 1) % 2 ^ 48, busy := false, offs := [] })) := by
  rw [execGenHoldAdvance]
  refine happening_some hl ?_
  simp only [hserved]
  exact if_neg (by rw [hrun, hbusy, hleft, howes, hpassed]; decide)

theorem execGenResume_resumes (hstop : x.gen.stop = true) :
    execGenResume p s = .next (s.happened (resumeGen s.dev ctx)) := by
  rw [execGenResume]
  refine happening_some hl ?_
  simp only [hserved, hstop]
  rfl

/-! ## Pools (R455, R456) -/

theorem execGenSpec0Clear_clears (hspec : x.gen.spec0 = true) (hneed : x.gen.need = 0) :
    execGenSpec0Clear p s = .next (s.happened (clearSpec0 s.dev ctx)) := by
  rw [execGenSpec0Clear]
  refine happening_some hl ?_
  simp only [hserved, hspec, hneed]
  rfl

theorem execGenReclaim_asks (v : BitVec 32) : execGenReclaim p v s = .next (s.happened (setNeed s.dev ctx v s.free)) := by
  rw [execGenReclaim]
  refine happening_some hl ?_
  simp only [hserved]

end

theorem Gen.atTake_srd (g : Gen) (count : Nat) : (g.atTake count).srd = g.srd := by
  unfold Gen.atTake
  split
  · dsimp only
    split <;> rfl
  · rfl

theorem Dev.ctx_of_served {d : Dev} {p ctx : Nat} {x : Ctx} (h : d.served p = some (ctx, x)) : d.ctx ctx = some x := by
  obtain ⟨c, -, hc⟩ := Option.bind_eq_some_iff.1 h
  obtain ⟨y, hy, hxy⟩ := Option.map_eq_some_iff.1 hc
  cases hxy
  exact hy

/-- Taking a good entry of the speculative pool moves its read index and lowers what is needed. -/
theorem takeEntry_spec {m : Memory} {d : Dev} {p ctx : Nat} {x : Ctx} {g : Gen} {w : List Word} {time : Nat}
    (hx : d.ctx ctx = some x) (hw : engineWords m d (genEngine p) ctx (g.poolAt true) 1 = .ok w)
    (hpage : poolPageOk m d x (nth w 0 0) true = true) : ∃ y, (takeEntry m d p ctx x g true time).ctx ctx = some y ∧
      y.gen.srd = x.gen.srd + 1 ∧ y.gen.need = if g.need = 0 then 0 else g.need - 1 := by
  have hgen : (takeEntry m d p ctx x g true time).genOf ctx = some { x.gen with
      need := if g.need = 0 then 0 else g.need - 1, spec0 := g.spec0, needWas := none, srd := x.gen.srd + 1 } := by
    simp only [takeEntry, hw, hpage]
    refine (genOf_engineAdd ..).trans ((Dev.genOf_of_ctxs (Dev.release_ctxs ..) ctx).trans ?_)
    rw [Dev.poolNext, Dev.genOf_updGen_same, Dev.genOf_updGen_same, Dev.genOf_some hx]
    rfl
  obtain ⟨y, hy, hyg⟩ := Option.map_eq_some_iff.1 hgen
  exact ⟨y, hy, by rw [hyg], by rw [hyg]⟩

/-- An entry of the speculative pool is taken once no draft is under way. -/
theorem execGenPoolTake_takes {s : State} (hl : s.Live) {p ctx : Nat} {x : Ctx} (hserved : s.dev.served p = some (ctx, x))
    {g : Gen} (hg : x.gen.atTake s.free = g) {w : List Word} (hspec : g.spec0 = true)
    (hsusp : Cmd.gen ctx 2 ∉ s.dev.susp) (hpool : wfld g.spool 0 5 ≠ 0) (hsome : g.swr ≠ g.srd) (hdrafted : g.drafted = 0)
    (hw : engineWords s.mem s.dev (genEngine p) ctx (g.poolAt true) 1 = .ok w)
    (hpage : poolPageOk s.mem s.dev x (nth w 0 0) true = true) : ∃ d y, execGenPoolTake p s = .next (s.happened d) ∧
      d.ctx ctx = some y ∧ y.gen.srd = g.srd + 1 ∧ y.gen.need = if g.need = 0 then 0 else g.need - 1 := by
  have hhave : g.haveSpec = true := by simp [Gen.haveSpec, hpool, hsome]
  have htakes : g.takesSpec = true := by rw [Gen.takesSpec, hspec, hhave]; rfl
  have hcom : g.takesCom = false := by simp [Gen.takesCom, hhave]
  have hdrafts : g.draftsDone s.mem s.dev ctx = true := by simp [Gen.draftsDone, hdrafted]
  have hnot : s.dev.susp.contains (Cmd.gen ctx 2) = false := by simpa using hsusp
  have hsrd : x.gen.srd = g.srd := by rw [← hg, Gen.atTake_srd]
  obtain ⟨y, hy, hysrd, hyneed⟩ := takeEntry_spec (time := s.time) (Dev.ctx_of_served hserved) hw hpage
  refine ⟨_, y, ?_, hy, hsrd ▸ hysrd, hyneed⟩
  rw [execGenPoolTake]
  refine happening_some hl ?_
  simp only [hserved, hg, hnot, hcom, htakes, hdrafts, hdrafted]
  rfl

/-! ## Slot operations (R382, R383, R453) -/

theorem execGenerationUpdate_takes {s : State} (hl : s.Live) {st ctx : Nat} {x : Ctx} {q : SlotOp}
    (hx : s.dev.ctx ctx = some x) (hop : x.gen.slotOp = some q) (htodo : st ∈ q.todo) :
    execGenerationUpdate st ctx q.slot s = .next (s.happened ((s.dev.setGrav st { s.dev.grav st with
      gens := tset (s.dev.grav st).gens (65536 * ctx + q.slot) q.gen }).updGen ctx fun g =>
        { g with slotOp := some { q with todo := q.todo.erase st } })) := by
  rw [execGenerationUpdate]
  refine happening_some hl ?_
  simp only [hx, hop]
  exact if_neg (by simp [htodo])

/-- A slot operation that every Graver has taken is performed and answered. -/
theorem finishSlotOp_ends {m : Memory} {d d' : Dev} {p ctx time : Nat} {x : Ctx} {q : SlotOp}
    (hserved : d.served p = some (ctx, x)) (hop : x.gen.slotOp = some q) (htodo : q.todo = [])
    (hsusp : Cmd.gen ctx 3 ∉ d.susp)
    (hwrite : writeSlotTable m d (genEngine p) ctx x.gen q.slot q.gen (!q.retire) time = .ok d') :
    finishSlotOp m d p q.slot q.retire time = some (endSlotOp m (d'.updGen ctx fun g =>
      { g with slot := q.slot, slotGen := q.gen, slotLive := !q.retire }) p ctx q time) := by
  simp only [finishSlotOp, hserved, hop, hwrite]
  exact if_neg (by simp [htodo, hsusp])

theorem exec_finishSlotOp {s : State} (hl : s.Live) {p slot : Nat} {retire : Bool} {d : Dev}
    (h : finishSlotOp s.mem s.dev p slot retire s.time = some d) :
    exec (if retire = true then .genSlotRetire p slot else .genSlotAllocate p slot) s = .next (s.happened d) := by
  cases retire with
  | true =>
    refine (exec_genSlotRetire p slot s).trans ?_
    rw [execGenSlotRetire]
    exact happening_some hl h
  | false =>
    refine (exec_genSlotAllocate p slot s).trans ?_
    rw [execGenSlotAllocate]
    exact happening_some hl h

theorem serveSlots_of_none {m : Memory} {p ctx time n : Nat} {d : Dev}
    (h : ∀ g, d.genOf ctx = some g → g.slotReqs = []) : serveSlots m p ctx time n d = d := by
  cases n with
  | zero => rfl
  | succ n =>
    unfold serveSlots
    split
    · rfl
    · next x hx =>
      have hline : x.gen.slotLine d = [] := by
        rw [Gen.slotLine, h _ (Dev.genOf_some hx)]
        rfl
      rw [hline]

/-- With no further write in the line, the end of a slot operation lands its result alone. -/
theorem endSlotOp_alone {m : Memory} {d : Dev} {p ctx time : Nat} {q : SlotOp}
    (h : ∀ g, d.genOf ctx = some g → g.slotReqs = []) : endSlotOp m d p ctx q time =
      (d.updGen ctx fun g => { g with slotOp := none }).updCore q.core fun c =>
        { c with pend := c.pend.map fun (e : Pend) =>
          (if e.tag = q.tag && q.tag ≠ 0 then { e with ready := true } else e) } := by
  refine serveSlots_of_none fun g hg => ?_
  have hafter : ((d.updGen ctx fun g => { g with slotOp := none }).genOf ctx) = some g := hg
  rw [Dev.genOf_updGen_same] at hafter
  obtain ⟨before, hbefore, rfl⟩ := Option.map_eq_some_iff.1 hafter
  exact h before hbefore

theorem endSlotOp_told {m : Memory} {d d' : Dev} {p ctx time : Nat} {x : Ctx} {q : SlotOp} {f : Gen → Gen}
    (hserved : d.served p = some (ctx, x)) (hctxs : d'.ctxs = d.ctxs) (hf : ∀ g, (f g).slotReqs = g.slotReqs)
    (hnone : x.gen.slotReqs = []) : endSlotOp m (d'.updGen ctx f) p ctx q time =
      ((d'.updGen ctx f).updGen ctx fun g => { g with slotOp := none }).updCore q.core fun c =>
        { c with pend := c.pend.map fun (e : Pend) =>
          (if e.tag = q.tag && q.tag ≠ 0 then { e with ready := true } else e) } := by
  refine endSlotOp_alone fun g hg => ?_
  rw [Dev.genOf_updGen_same, Dev.genOf_of_ctxs hctxs, Dev.genOf_some (Dev.ctx_of_served hserved), Option.map_some] at hg
  cases hg
  rw [hf, hnone]

/-! ## The obligation -/

/-- Settles O53: each event's own lemma gives what it comes to; the reports of a failing link and the adds and stores of
the sequencer's engine leave the ports, the requests and the sequencer's registers. -/
theorem fabricAndSequencerEvents : Obligations.FabricAndSequencerEvents := by
  unfold Obligations.FabricAndSequencerEvents
  intro s hl
  refine ⟨fun r => execRemoteRequest_serves hl, fun i q r v hq hkind => ?request,
    fun i q r v d k x hq hkind hpkg hlost hlate hfree => ?own, fun ctx tgt row tok cw t i q x hi hq hfree => ?notice,
    fun p lanes hp => ⟨fun hlanes => ?down, execLinkReturn_raises hl hp, execPtpEventMessage_stamps hl hp,
      execBulkShareWindow_restarts hl hp⟩,
    fun i x hx => ⟨fun hlate => ⟨execCollectiveTimeout_overdue hl hx hlate, execCollectiveAssemble_overdue hx hlate⟩,
      fun others gs hsusp hlost hgathered hbad hlate => ?assemble⟩,
    fun i x r t c k hx hranks hbad => execCollectiveComplete_faulted hl hx hranks hbad,
    fun i x r t bs d hx hranks hbad hgathered hsusp => execCollectiveComplete_lands hl hx hranks hbad hgathered hsusp,
    fun p ctx x hserved => ?sequencer,
    fun st ctx slot x q hx hop hslot htodo => ?update, fun p ctx x q d hserved hop htodo hsusp hwrite => ?finish⟩
  case request =>
    intro d free
    refine ⟨fun hpkg hlost hlate hfree => ?_, fun hlate => ⟨fun _ => execRemoteAnswer_overdue hq r v hlate,
      execRemoteTimeout_overdue hl hq hlate⟩⟩
    have hopen := RemoteOut.closed_eq_false hkind hlost hlate hfree
    exact ⟨fun hport e => execRemoteAnswer_enters hl hq r v hopen hpkg hport,
      fun hport => execRemoteAnswer_answers hl hq r v hopen hpkg hport,
      fun hport hkinds e => execRemoteAnswer_bulk hl hq r v hopen hpkg hport hkinds⟩
  case own =>
    exact execRemoteAnswer_own hl hq r v (RemoteOut.closed_eq_false hkind hlost hlate hfree) hpkg
  case notice =>
    intro n e words hctx hn hx
    subst hctx
    have hxe : e.ctx q.ctx = some x := hx
    have harrives {d : Dev} (h : arriveNotice s.mem e q.ctx n words s.time = some d) :
        exec (.calvingNotice q.ctx tgt row tok cw t) s = .next (s.happened d) :=
      (exec_calvingNotice ..).trans (execCalvingNotice_arrives hl hi hq hfree hn h)
    exact ⟨fun d n' hbusy hroom => harrives (arriveNotice_holds hxe hbusy hroom),
      fun d n' hheld harm hdefer hroom => harrives (arriveNotice_defers hxe hheld harm hdefer hroom),
      fun w cur d b hheld harm htarget htime happly =>
        harrives (arriveNotice_applies (n := n) hxe hheld harm htarget htime happly)⟩
  case down =>
    obtain ⟨d, hd, ⟨x, hx, hup⟩, hlost, hcols⟩ := execLinkDown_breaks hl hp hlanes
    exact ⟨d, x, hd, hx, hup, hlost, hcols⟩
  case assemble =>
    intro o y d hall hgs
    exact ⟨fun r => execCollectiveAssemble_refuses hl hx hsusp hlost hgathered hbad hlate rfl hall hgs,
      fun d' moved hr hreach hmove bs => execCollectiveAssemble_gathers hl hx hsusp hlost hgathered hbad hlate rfl hall
        hgs hr hreach hmove⟩
  case sequencer =>
    refine ⟨execGenStart_starts hl hserved, execGenStopRequest_stops hl hserved, execGenHalt_halts hl hserved,
      fun b nl list hrun hstop hbusy hhalting hsusp howes hdue => ?_,
      fun d hrun hstop hbusy hhalting hsusp howes =>
        execGenIterationBegin_asks hl hserved hrun hstop hbusy hhalting hsusp howes,
      fun bs d => execGenAppend_appends hl hserved,
      execGenHoldAdvance_advances hl hserved, execGenResume_resumes hl hserved, execGenSpec0Clear_clears hl hserved,
      execGenReclaim_asks hl hserved, fun w => execGenPoolTake_takes hl hserved rfl⟩
    exact ⟨execGenIterationBegin_begins hl hserved hrun hstop hbusy hhalting hsusp howes hdue rfl,
      execGenIterationBegin_stops hl hserved hrun hstop hbusy hhalting hsusp howes hdue rfl⟩
  case update =>
    subst hslot
    exact execGenerationUpdate_takes hl hx hop htodo
  case finish =>
    intro told
    exact ⟨exec_finishSlotOp hl (finishSlotOp_ends hserved hop htodo hsusp hwrite),
      endSlotOp_told hserved (writeSlotTable_ctxs hwrite) fun _ => rfl⟩

end Sys2Proof.Machine
